-- ==== Sys2Proof/Word.lean ====
section
/-! DEFINITION. The word types of the TRC-7160 and the plain shape of its sparse stores. -/

namespace Sys2Proof

/-- One byte (R4). -/
abbrev Byte := BitVec 8
/-- A u16. -/
abbrev Half := BitVec 16
/-- A register word: registers are 32 bits wide (R499). -/
abbrev Word := BitVec 32
/-- A u64, and a DSN-64 general register (R238). -/
abbrev DWord := BitVec 64

/-- Sparse data by key: entries of strictly rising keys, none equal to what an unlisted key reads as. -/
abbrev SMap (α : Type) := List (Nat × α)

end Sys2Proof
end

