-- ==== Sys2Proof/Syntax.lean ====
section
/-! DEFINITION. The commands of the TRC-7160: one constructor of `Instr` for each row of the table of operations and events,
with the operands the row's rule names. What the outside world supplies (a packet, a controller's answer, an encoder's free
choice) stands in the operands. -/

namespace Sys2Proof

/-- A DSN core: a Tabor logical core (R10, R238) or Bellhouse (R271). -/
inductive Core where
  | tabor (k : Fin 4)
  | bellhouse
deriving DecidableEq, Repr

/-- Who issues an access (R376, R382): a core, a Kalsal port for a remote request (R446), a DMA channel's chain with its
owner number (R364), or another data-plane unit by its Flume link and owner number (R21). -/
inductive Initiator where
  | core (k : Fin 4)
  | bellhouse
  | kalsal (port : Fin 4)
  | dma (owner : Fin 64)
  | unit (link : Fin 64) (owner : Fin 64)
deriving DecidableEq, Repr

/-- The owners that the unit on Flume link `l` acts for (R21, R376): sensor, magazine and Ethernet ports, proxy front end and encoder cores,
decoder cores, the event controller none; of the TE clusters, cluster 15 also for the spare lent to cluster 16 (R234). -/
def linkOwners (l : Nat) : List Nat :=
  if 30 ≤ l ∧ l ≤ 46 then (if l = 45 then [30, 31] else [l - 15])
  else match l with
    | 7 => [14]
    | 8 => [8]
    | 9 => [9]
    | 10 => [10]
    | 11 => [11]
    | 12 => [5]
    | 13 => [6]
    | 14 => [7]
    | 15 => [12]
    | 16 => [13]
    | _ => []

/-- Format A (R244). -/
structure FmtA where
  rd : Fin 32
  ra : Fin 32
  rb : Fin 32
  fw : Bool
  rsv : BitVec 4
deriving DecidableEq, Repr

/-- Format I (R244). -/
structure FmtI where
  rd : Fin 32
  ra : Fin 32
  imm : Half
deriving DecidableEq, Repr

/-- Format U (R244). -/
structure FmtU where
  rd : Fin 32
  q : Fin 4
  imm : Half
  rsv : BitVec 3
deriving DecidableEq, Repr

/-- Format M (R244). -/
structure FmtM where
  rt : Fin 32
  ra : Fin 32
  off : Half
deriving DecidableEq, Repr

/-- Format B (R244). -/
structure FmtB where
  cond : Fin 16
  off : BitVec 22
deriving DecidableEq, Repr

/-- Format J (R244). -/
structure FmtJ where
  rd : Fin 32
  off : BitVec 21
deriving DecidableEq, Repr

/-- Format X (R244), with op fixed by the constructor. -/
structure FmtX where
  rd : Fin 32
  ra : Fin 32
  rb : Fin 32
  sub : Byte
deriving DecidableEq, Repr

/-- The fixed part of a command entry (R275) as taken from ring `ring`. -/
structure CmdHead where
  ring : Fin 4
  opcode : Byte
  reservedZero : Bool
  tag : Half
deriving DecidableEq, Repr

/-- What Identify (CNS 0x00) answers about a namespace (R485). -/
structure NsInfo where
  active : Bool
  lbaBytes : Nat
  hasMeta : Bool
  protect : Bool
  sizeLbas : Nat
deriving DecidableEq, Repr

/-- The outside answers an ARM meets: the two namespaces, the FSP entry sequence and the TE PLL relock (R287). -/
structure ArmEnv where
  ns0 : NsInfo
  ns1 : NsInfo
  entryPasses : Bool
  tePllLocks : Bool
deriving DecidableEq, Repr

/-- A Tuirad code word: 128 data bits and 16 check bits (R301, R302). -/
structure CodeWord where
  data : BitVec 128
  chk : Half
deriving DecidableEq, Repr

/-- A sensor packet as it arrives on a link: START fields and the code words that follow (R465, R467). -/
structure SnsPacket where
  link : Fin 4
  startLink : Byte
  n : Half
  words : List CodeWord
deriving DecidableEq, Repr

/-- One ALLOC request: the initiator, the owner it asks for, its Flume class 0-3 and the size field written (R346, R349, R354). -/
structure AllocReq where
  ini : Initiator
  owner : Fin 64
  cls : Fin 4
  size : Word
deriving DecidableEq, Repr

/-- A Kalsal wire flit: the 32 header bytes and the code words in use (R438). -/
structure Flit where
  hdr : List Byte
  words : List CodeWord
deriving DecidableEq, Repr

/-- What CONFIG reports of the far end (R435). -/
structure KslConfig where
  adapter : Bool
  deviceId : Half
  port : Fin 4
  delayPs : Nat
deriving DecidableEq, Repr

/-- One prediction mode of the block mode map (R79). -/
inductive BlockMode where
  | intraW | intraN | intraGrad | intraAvg | inter | view | skip | raw
deriving DecidableEq, Repr

/-- An encoder's choice for one block (R128): mode, reference and one vector for each exposure, and T for each plane. -/
structure BlockChoice where
  mode : BlockMode
  refIdx : Fin 4
  mv : List (Int × Int)
  t : List Bool
deriving DecidableEq, Repr

/-- A fault met by a tile engine (R231). -/
inductive EngineFault where
  | uncorrRam | uncorrRom | seq | reserved | stack | region | safeGap | tileMemory | register
deriving DecidableEq, Repr

/-- What the units of a tile engine hold besides the tile memory (R211): 16 lanes of 32 vector registers by 16 × register + lane, lane masks, scalar
registers, the reference window store, the contexts and the run index of the entropy unit, the tile header register and the parcel check registers. -/
structure Datapath where
  vector : SMap Word
  mask : SMap Half
  scalar : SMap Word
  window : SMap Byte
  contexts : SMap (Word × Half)
  ri : Byte
  header : List Byte
  checks : List Word
deriving DecidableEq, Repr

/-- What the spec leaves to an engine's units as it issues one microword (R218, whose operation values are no programming interface): the condition
that it selects, the lanes of VMASK 9-15, the vector and scalar results, the addresses of a gather, the loop counters and the dispatch register after a
scalar operation, and what the other units hold after theirs. -/
structure MicroStep where
  cond : Bool
  lanes : Half
  vector : List Word
  scalar : Word
  gather : List Nat
  loops : List Nat
  dispatch : BitVec 4
  units : Datapath
deriving DecidableEq, Repr

/-- What goes wrong in an engine (R231): bits in error in a half of the microword that it fetches next, or in the tile memory word at an engine address
that it reads; a parity error of a register; or the microwords that it issues lead to a microcode fault. -/
inductive EngineUpset where
  | fetch (upper : Bool) (bits : BitVec 144)
  | tile (addr : BitVec 18) (bits : BitVec 144)
  | parity
  | issue (steps : List MicroStep)
deriving DecidableEq, Repr

/-- Motion of a prediction unit (R169): a merge candidate, or a predictor with a vector difference in quarter samples. -/
inductive Motion where
  | merge (index : Fin 5)
  | amvp (second : Bool) (dx dy : Int)
deriving DecidableEq, Repr

/-- Partitions of an inter coding unit (R169). -/
inductive PartMode where
  | whole | across | down
deriving DecidableEq, Repr

/-- A transform tree (R169): the levels of a transform unit's blocks in raster order, none for a block whose coded block flag is 0. -/
inductive TransformTree where
  | leaf (luma cb cr : List Int)
  | split (a b c d : TransformTree)
deriving DecidableEq, Repr

/-- A coding unit (R169). Intra modes are those of the one luma block or of its four NxN blocks. -/
inductive CodingUnit where
  | skip (merge : Fin 5)
  | inter (part : PartMode) (motion : List Motion) (qp : Int) (residual : TransformTree)
  | intra (nxn : Bool) (luma : List (Fin 35)) (chroma : Fin 5) (qp : Int) (residual : TransformTree)
deriving DecidableEq, Repr

/-- A coding quadtree (R169); a quadrant may lie outside the picture. -/
inductive CodingTree where
  | outside
  | unit (u : CodingUnit)
  | split (a b c d : CodingTree)
deriving DecidableEq, Repr

/-- Sample adaptive offset of a CTU (R169): merged, or offsets of its own (none: not applied). -/
inductive SaoMode where
  | left | up
  | own (luma cb cr : List Int)
deriving DecidableEq, Repr

/-- One CTU as the encoder codes it: its syntax, the bits that CABAC makes of it, and the bits of its minimal form (R173). -/
structure CtuCode where
  sao : SaoMode
  tree : CodingTree
  bits : List Bool
  least : List Bool
deriving DecidableEq, Repr

/-- What H.265 leaves to the encoder in the parameter sets and SEI messages of an access unit, where the spec names no value. -/
structure PictureChoice where
  /-- log2_max_pic_order_cnt_lsb_minus4, modulo 13 -/
  pocLsb : Nat
  /-- max_transform_hierarchy_depth of inter and intra units, and diff_cu_qp_delta_depth -/
  depthInter : Nat
  depthIntra : Nat
  qpDepth : Nat
  strongIntra : Bool
  /-- init_qp of the PPS -/
  initQp : Int
  /-- bits less 1 of the AU removal delay, the output delay, the DU removal delay increment and the DU output delay -/
  auBits : Nat
  outBits : Nat
  duBits : Nat
  duOutBits : Nat
  /-- buffering period: concatenation_flag and the delta of removal delays, the initial delay of a later period, the offset and the alternatives -/
  concatenation : Bool
  delayDelta : Nat
  laterDelay : Nat
  offset : Nat
  altDelay : Nat
  altOffset : Nat
  /-- picture timing: output delay, and in sub-ticks -/
  outDelay : Nat
  duOutDelay : Nat
deriving DecidableEq, Repr

/-- What H.265 leaves to the encoder in a slice: SAO, merge candidates, QP. -/
structure SliceChoice where
  saoLuma : Bool
  saoChroma : Bool
  mergeFewer : Nat
  qp : Int
deriving DecidableEq, Repr

/-- A level source's line as sampled (R397, R399): its level, and how many samples in a row have shown it. -/
structure LineChange where
  line : Bool
  samples : Nat
deriving DecidableEq, Repr

/-- What a Flume request moves (R377, R378): the bytes asked for, and of a write the code words that carry them. -/
structure FlumeData where
  len : Nat
  words : List CodeWord
deriving DecidableEq, Repr

/-- An RTP packet (R180, R181, R202): the header fields that vary, and the payload in the format of RFC 7798. -/
structure RtpPacket where
  ssrc : Word
  pt : Nat
  seq : Half
  timestamp : Word
  marker : Bool
  payload : List Byte
deriving DecidableEq, Repr

/-- A received Ethernet frame, parsed as far as R489 asks. -/
structure EthFrame where
  fcsOk : Bool
  pause : Bool
  toMac : Bool
  toIp : Bool
  fragment : Bool
  ipSumOk : Bool
  udpSumOk : Bool
  udpPort : Option Nat
  etherPtp : Bool
  ptpDomain : Nat
  rtcp : Option (Fin 4)
  rtp : Option RtpPacket
deriving DecidableEq, Repr

/-- What the decoder finds in the slices and parameter sets of an H.265 access unit (R203, R205). -/
structure AccessUnit where
  /-- general_profile_idc, and whether the constraint flags are those of Main 4:2:2 10 -/
  profileIdc : Nat
  main422 : Bool
  levelIdc : Nat
  width : Nat
  height : Nat
  rate : Nat
  /-- slices decoded without error -/
  slicesOk : Nat
  /-- CTU size in luma samples, and the CTUs of slice segments that are missing or break the syntax, in raster order (R205) -/
  ctu : Nat
  lost : List Nat
  /-- it predicts from a concealed area, directly or through other pictures (R205) -/
  usesConcealed : Bool
deriving DecidableEq, Repr

/-- A PTP message that the device takes (R491). -/
structure PtpMsg where
  version : Nat
  domain : Nat
  clockId : DWord
  seqId : Half
  stamp : Int
  twoStep : Bool
  utcOffset : Half
  best : Bool
  interval : Nat
deriving DecidableEq, Repr

/-- The outcome of training for one channel at a commit (R331, R333, R340). -/
structure ChanTrain where
  pass : Bool
  readTaps : Byte
  writeTaps : Byte
deriving DecidableEq, Repr

/-- A byte-enabled beat on a Flume link (R317): address, code words and the enabled bytes. -/
structure Beat where
  addr : BitVec 48
  cls : Fin 4
  words : List CodeWord
  enables : BitVec 64
deriving DecidableEq, Repr

/-- The commands: one constructor per row of the table, in the table's order. -/
inductive Instr where
  -- host commands and rings (R273-R300)
  | loadProgram (h : CmdHead) (source : DWord) (length : Word)
  | armCommand (h : CmdHead) (env : ArmEnv)
  | roll (h : CmdHead)
  | cut (h : CmdHead)
  | close (h : CmdHead)
  | abort (h : CmdHead)
  | queryTakeState (h : CmdHead)
  | querySlot (h : CmdHead) (slot : Byte)
  | queryLedger (h : CmdHead) (selector field ledger : Byte)
  | play (h : CmdHead) (address : DWord)
  | stopPlay (h : CmdHead) (session : Byte)
  | enumerate (h : CmdHead) (base epoch : Half)
  | setTag (h : CmdHead) (source : DWord) (offset length : Half)
  | maintPatchLoad (h : CmdHead) (address : DWord) (length : Word)
  | maintApprove (h : CmdHead) (number : Word)
  | maintReject (h : CmdHead) (number : Word)
  | maintSpareStatus (h : CmdHead) (op : Byte)
  | commandTailWrite (ini : Initiator) (ring : Fin 4) (value : Word)
  | ringEnable (ini : Initiator) (ring : Fin 4) (value : Word)
  | ringDisable (ini : Initiator) (ring : Fin 4)
  | heartbeat (ini : Initiator) (k : Fin 4) (value : Word)
  | heartbeatLoss
  | setupTimeout
  -- Densiten integer operations (R245, R246)
  | add (c : Core) (f : FmtA)
  | sub (c : Core) (f : FmtA)
  | and (c : Core) (f : FmtA)
  | or (c : Core) (f : FmtA)
  | xor (c : Core) (f : FmtA)
  | andn (c : Core) (f : FmtA)
  | sll (c : Core) (f : FmtA)
  | srl (c : Core) (f : FmtA)
  | sra (c : Core) (f : FmtA)
  | ror (c : Core) (f : FmtA)
  | min (c : Core) (f : FmtA)
  | max (c : Core) (f : FmtA)
  | minu (c : Core) (f : FmtA)
  | maxu (c : Core) (f : FmtA)
  | slt (c : Core) (f : FmtA)
  | sltu (c : Core) (f : FmtA)
  | addsat (c : Core) (f : FmtA)
  | subsat (c : Core) (f : FmtA)
  | clz (c : Core) (f : FmtA)
  | popc (c : Core) (f : FmtA)
  | cmp (c : Core) (f : FmtA)
  | mul (c : Core) (f : FmtA)
  | mulh (c : Core) (f : FmtA)
  | mulhu (c : Core) (f : FmtA)
  | divs (c : Core) (f : FmtA)
  | divu (c : Core) (f : FmtA)
  | rems (c : Core) (f : FmtA)
  | remu (c : Core) (f : FmtA)
  | fxmul (c : Core) (f : FmtA) (func : Fin 32)
  | addi (c : Core) (f : FmtI)
  | andi (c : Core) (f : FmtI)
  | ori (c : Core) (f : FmtI)
  | xori (c : Core) (f : FmtI)
  | shi (c : Core) (f : FmtI)
  | cmpi (c : Core) (f : FmtI)
  | callr (c : Core) (f : FmtI)
  | liz (c : Core) (f : FmtU)
  | lii (c : Core) (f : FmtU)
  | lin (c : Core) (f : FmtU)
  -- loads, stores and branches (R248-R251)
  | ldb (c : Core) (f : FmtM)
  | ldbs (c : Core) (f : FmtM)
  | ldh (c : Core) (f : FmtM)
  | ldhs (c : Core) (f : FmtM)
  | ldw (c : Core) (f : FmtM)
  | ldws (c : Core) (f : FmtM)
  | ldd (c : Core) (f : FmtM)
  | stb (c : Core) (f : FmtM)
  | sth (c : Core) (f : FmtM)
  | stw (c : Core) (f : FmtM)
  | std (c : Core) (f : FmtM)
  | bcc (c : Core) (f : FmtB)
  | calli (c : Core) (f : FmtJ)
  -- system operations (R252-R256)
  | fence (c : Core) (f : FmtX)
  | ifence (c : Core) (f : FmtX)
  | cacheWriteBack (c : Core) (f : FmtX)
  | cacheInvalidate (c : Core) (f : FmtX)
  | cacheWriteBackInvalidate (c : Core) (f : FmtX)
  | cacheInstructionInvalidate (c : Core) (f : FmtX)
  | mfsr (c : Core) (f : FmtX)
  | mtsr (c : Core) (f : FmtX)
  | rfx (c : Core) (f : FmtX)
  -- take control, events and locked counters (R257-R265)
  | strec (c : Core) (f : FmtX)
  | commit (c : Core) (f : FmtX)
  | arm (c : Core) (f : FmtX) (env : ArmEnv)
  | mark (c : Core) (f : FmtX)
  | markQuery (c : Core) (f : FmtX)
  | ledg (c : Core) (f : FmtX)
  | ledgSnapshot (c : Core) (f : FmtX)
  | waite (c : Core) (f : FmtX)
  | waiteTimeout (c : Core)
  | dbell (c : Core) (f : FmtX)
  | evdone (c : Core) (f : FmtX)
  | lcadd (c : Core) (f : FmtX)
  | lcswp (c : Core) (f : FmtX)
  | lccas (c : Core) (f : FmtX)
  -- register interface (R494-R514)
  | registerWrite (ini : Initiator) (addr : BitVec 48) (value : Word)
  | readClear (ini : Initiator) (addr : BitVec 48)
  | pairLoRead (ini : Initiator) (addr : BitVec 48)
  | pairHiWrite (ini : Initiator) (addr : BitVec 48) (value : Word)
  | keyGate (ini : Initiator) (value : Word)
  | keyLock (ini : Initiator) (value : Word)
  | topDebugWrite (ini : Initiator) (value : Word)
  | debugHalt (ini : Initiator) (value : Word)
  | debugRelease (ini : Initiator) (value : Word)
  | topTagGo (ini : Initiator) (value : Word)
  | topTagDone (ini : Initiator) (value : Word)
  | nvsWrite (handle : Word) (offset length : Nat) (badReadBack : List Nat)
  -- event controller (R395-R408)
  | evcClaim (ini : Initiator) (t : Fin 16)
  | evcDone (ini : Initiator) (t : Fin 16) (value : Word)
  | evcSrcCfgWrite (ini : Initiator) (n : Fin 1024) (value : Word)
  | evcDisable (ini : Initiator) (value : Word)
  | levelLineChange (n : Fin 1024) (change : LineChange)
  | kalsalClaim (t : Fin 4)
  -- check units (R314-R318)
  | ckuStart (ini : Initiator) (k : Fin 16)
  | ckuSeed (ini : Initiator) (k : Fin 16) (value : Word)
  | ckuFeed (ini : Initiator) (k : Fin 16) (bytes : List Byte)
  | ckuSnoopReq (ini : Initiator) (k : Fin 16) (value : Word)
  | ckuSnoopBeat (k : Fin 16) (link : Fin 64) (dir : Bool) (beat : Beat)
  -- Cistern (R344-R354)
  | alloc (reqs : List AllocReq)
  | free (ini : Initiator) (owner : Fin 64) (handle : Word)
  | give (ini : Initiator) (owner : Fin 64) (handle : Word) (target : Fin 64)
  -- DMA (R360-R374)
  | dmaChainStart (c : Fin 64)
  | dmaDescriptorFetch (c : Fin 64)
  | dmaBurst
  | dmaResponse (c : Fin 64) (index : Nat) (error : Bool)
  | dmaTimeout (c : Fin 64) (index : Nat)
  -- Flume (R376-R383)
  | flumeRequest (ini : Initiator) (cls : Fin 4) (addr : BitVec 48) (write : Bool) (data : FlumeData)
  -- memory controller (R319-R340)
  | dramRequest (ini : Initiator) (cls : Fin 4) (addr : BitVec 48) (write : Bool) (enables : BitVec 64) (bytes : List Byte)
      (hint : Option Bool)
  | dramCommand (ch : Fin 32)
  | agePromotion (ch : Fin 32) (index : Nat)
  | refreshOwed (ch : Fin 32) (bank : Fin 16)
  | forcedRefresh (ch : Fin 32) (bank : Fin 16)
  | mr4Read (ch : Fin 32) (rate : BitVec 5)
  | wckOscillatorRead (ch : Fin 32)
  | zqLatch (ch : Fin 32)
  | pageIdleClose (ch : Fin 32) (bank : Fin 16)
  | trainingCommit (half : Bool) (results : List ChanTrain)
  | fspChange (fsp : Fin 3)
  | scrubStep
  -- sensor port (R463-R478)
  | pictureStart (p : SnsPacket)
  | line (p : SnsPacket)
  | pictureEnd (p : SnsPacket)
  | picTimeout
  | bankRetire (u : Fin 14)
  | sensorDownWait (k : Fin 4)
  | sensorEqualizeDone (k : Fin 4) (worstEye : Byte) (worstLane : Fin 52)
  | sensorAlignDone (k : Fin 4) (skew : BitVec 9)
  | sensorTrainTimeout (k : Fin 4)
  | sensorLinkLoss (k : Fin 4)
  -- ledger, log and magazine (R144-R159, R480-R487)
  | openPicture
  | dispatchBand
  | chargeBand (m : Fin 2)
  | closePicture
  | spillDrain (m : Fin 2)
  | writeSubmit (m : Fin 2)
  | flush (m : Fin 2)
  | datasetManagement (m : Fin 2)
  | nvmeCompletion (m : Fin 2) (cid : Nat) (status : Half) (data : List Byte)
  | nvmeTimeout (m : Fin 2) (cid : Nat)
  | magPresenceLost (m : Fin 2)
  | magPresenceStable (m : Fin 2)
  | magPowerGood (m : Fin 2)
  | magPowerTimeout (m : Fin 2)
  | magOvercurrent (m : Fin 2)
  | magPerstRelease (m : Fin 2)
  | magLinkUp (m : Fin 2) (speed : Fin 8) (width : Fin 9) (nvmSet : Bool) (mpsMin mqes : Nat)
  | magLinkTimeout (m : Fin 2)
  | magLinkLost (m : Fin 2)
  | magEject (m : Fin 2)
  | magShutdownTimeout (m : Fin 2)
  -- tile engines (R209-R237) and reference slots (R100-R117)
  | tileDispatch
  | safePointRequest (e : Fin 272) (steps : List MicroStep)
  | statisticsSnapshot (cluster : Fin 17)
  | tileCommit (e : Fin 272) (choice : List BlockChoice) (preferRaw : Bool)
  | teFault (e : Fin 272) (u : EngineUpset)
  | patchLoadCommit (e : Fin 272)
  | spareSwapIn (e : Fin 272)
  | controlStoreScrub (cluster : Fin 17) (halves : Nat)
  | referenceSlotMove (slot : Fin 16) (dest : BitVec 48)
  | slotRelease
  | shortEviction
  | viewSlotExpiry (slot : Fin 16)
  -- proxy and decode sessions (R161-R208)
  | proxyRow (m : Fin 4) (picture : PictureChoice) (slice : SliceChoice) (tail : List Bool) (ctus : List CtuCode)
  | rtcpSenderReport (m : Fin 4)
  | playbackTileDecode (e : Fin 272)
  | pictureOutput (sess : Fin 9)
  | playProgress (sess : Fin 9)
  | accessUnitDecode (sess : Fin 9) (au : AccessUnit)
  | jitterExpiry (sess : Fin 9)
  -- network and PTP (R488-R491)
  | ethFrameReceive (port : Fin 2) (frame : EthFrame)
  | ethLinkChange (port : Fin 2) (up : Bool)
  | ptpSync (m : PtpMsg)
  | ptpFollowUp (m : PtpMsg)
  | ptpDelayResp (m : PtpMsg)
  | ptpAnnounce (m : PtpMsg)
  | ptpDelayReq
  | announceReceiptTimeout
  -- Sluice (R386-R393)
  | sluicePick (port : Fin 6)
  | tokenAccrual
  -- Kalsal Link (R433-R458)
  | kslFlitReceive (port : Fin 4) (flit : Flit)
  | kslFlitTransmit (port : Fin 4)
  | nakRepeat (port : Fin 4)
  | kslTrainingStep (port : Fin 4) (worstEye : Byte) (worstLane : Fin 9) (cfg : KslConfig)
  | kslTrainingTimeout (port : Fin 4) (laneFailed : Bool)
  | kslTrainingRetry (port : Fin 4)
  | kslLinkLoss (port : Fin 4)
  | memRd (port : Fin 4)
  | memWr (port : Fin 4)
  | msg (port : Fin 4)
  | evt (port : Fin 4)
  | refTile (port : Fin 4)
  | kslResponse (port : Fin 4)
  | remoteRequestTimeout (tag : Half)
  | sync (port : Fin 4)
  | delayReq (port : Fin 4)
  | delayResp (port : Fin 4)
  | timeSyncSend (port : Fin 4)
  | assign (port : Fin 4)
  | report (port : Fin 4)
  | refuse (port : Fin 4)
  | enumerateTimeout
  -- Headgate (R409-R432)
  | slotBoundary
  | pllLocked (p : Fin 9)
  | pllLockTimeout (p : Fin 9)
  | pllRestart (p : Fin 9)
  | functionReady (f : Fin 40)
  | domainRequestWrite (ini : Initiator) (addr : BitVec 48) (value : Word)
  | inrushWrite (ini : Initiator) (didt : Bool) (value : Word)
  | coreRunWrite (ini : Initiator) (value : Word)
  | sleepStandby (ini : Initiator)
  | sleepOffWake (ini : Initiator)
  | wake
  | dramPwrOk
  | watchdogKick (ini : Initiator) (value : Word)
  | watchdogExpiry
  | powerOnReset (ch32 : Bool) (den : Fin 4)
  | deviceReset (ch32 : Bool) (den : Fin 4)
  | softReset (ini : Initiator) (ch32 : Bool) (den : Fin 4)
  | referenceLost
  -- thermal, supply and spares (R515-R539)
  | thermalTrip
  | thermalLimit (asserted : Bool)
  | avsCommand (setPoint : Nat) (acks : List Bool)
  | taborSwapIn
  | sensorLaneRetire
  | kslLaneRemap
  | sramRepair
  | postPackageRepair (copyOk : Bool)
  -- test access port (R545)
  | tapReset
  | extest
  | samplePreload
  | idcode
  | clamp
  | highz
  | bypass
  | referenceReturn
  | powerNotGood (m : Fin 2)
  | controllerReady (m : Fin 2)
  | controllerReadyTimeout (m : Fin 2)
  | shutdownComplete (m : Fin 2)
  | inboundRequest (m : Fin 2) (addr : BitVec 48) (write : Bool)
  | sensorPacketDiscarded (p : SnsPacket)
  | agingMonitor (k : Fin 22) (degradation : Half)
  | maintenanceRoutineStart (e : Fin 272)
  | tapClock (tms tdi : Bool) (pins : List Bool)
deriving DecidableEq, Repr

end Sys2Proof
end

