-- ==== Sys2Proof/Decode.lean ====
section
/-! DEFINITION. The 32-bit words of DSN instructions, decoded (R243-R246); the table of commands gives no row a bit pattern, so no word spells
a command by it. -/

namespace Sys2Proof

/-- The command that a word spells by the table's bits: none, as no row has bits (log entry 33). -/
def decodeTableWord (_nbits _w : Nat) : Option Instr := none

/-! ### DSN words (R243, R244) -/

/-- Bits [lo + 4 : lo] as a register number. -/
def regField (w : BitVec 32) (lo : Nat) : Fin 32 := ⟨(w.extractLsb' lo 5).toNat, (w.extractLsb' lo 5).isLt⟩

def fieldsA (w : BitVec 32) : FmtA :=
  { rd := regField w 21, ra := regField w 16, rb := regField w 11, fw := w.getLsbD 10, rsv := w.extractLsb' 6 4 }
def fieldsI (w : BitVec 32) : FmtI := { rd := regField w 21, ra := regField w 16, imm := w.extractLsb' 0 16 }
def fieldsU (w : BitVec 32) : FmtU :=
  { rd := regField w 21, q := ⟨(w.extractLsb' 19 2).toNat, (w.extractLsb' 19 2).isLt⟩, imm := w.extractLsb' 3 16, rsv := w.extractLsb' 0 3 }
def fieldsM (w : BitVec 32) : FmtM := { rt := regField w 21, ra := regField w 16, off := w.extractLsb' 0 16 }
def fieldsB (w : BitVec 32) : FmtB := { cond := ⟨(w.extractLsb' 22 4).toNat, (w.extractLsb' 22 4).isLt⟩, off := w.extractLsb' 0 22 }
def fieldsJ (w : BitVec 32) : FmtJ := { rd := regField w 21, off := w.extractLsb' 0 21 }
def fieldsX (w : BitVec 32) : FmtX := { rd := regField w 21, ra := regField w 16, rb := regField w 11, sub := w.extractLsb' 0 8 }

/-- OPA (R245). -/
def decodeOpa (c : Core) (f : FmtA) (func : Nat) : Option Instr :=
  match func with
  | 0 => some (.add c f)
  | 1 => some (.sub c f)
  | 2 => some (.and c f)
  | 3 => some (.or c f)
  | 4 => some (.xor c f)
  | 5 => some (.andn c f)
  | 6 => some (.sll c f)
  | 7 => some (.srl c f)
  | 8 => some (.sra c f)
  | 9 => some (.ror c f)
  | 10 => some (.min c f)
  | 11 => some (.max c f)
  | 12 => some (.minu c f)
  | 13 => some (.maxu c f)
  | 14 => some (.slt c f)
  | 15 => some (.sltu c f)
  | 16 => some (.addsat c f)
  | 17 => some (.subsat c f)
  | 18 => some (.clz c f)
  | 19 => some (.popc c f)
  | 20 => some (.cmp c f)
  | _ => none

/-- OPM (R246). -/
def decodeOpm (c : Core) (f : FmtA) (func : Nat) : Option Instr :=
  match func with
  | 0 => some (.mul c f)
  | 1 => some (.mulh c f)
  | 2 => some (.mulhu c f)
  | 3 => some (.divs c f)
  | 4 => some (.divu c f)
  | 5 => some (.rems c f)
  | 6 => some (.remu c f)
  | _ => if h : func - 32 < 32 ∧ 32 ≤ func then some (.fxmul c f ⟨func - 32, h.1⟩) else none

/-- SYS (R252). -/
def decodeSys (c : Core) (f : FmtX) (op : Nat) : Option Instr :=
  match op, f.sub.toNat with
  | 0, 0 => some (.fence c f)
  | 0, 1 => some (.ifence c f)
  | 1, 0 => some (.cacheWriteBack c f)
  | 1, 1 => some (.cacheInvalidate c f)
  | 1, 2 => some (.cacheWriteBackInvalidate c f)
  | 1, 3 => some (.cacheInstructionInvalidate c f)
  | 2, _ => some (.mfsr c f)
  | 3, _ => some (.mtsr c f)
  | 4, _ => some (.rfx c f)
  | _, _ => none

/-- TAKE (R257): sub[7] of MARK queries, sub[4] of LEDG takes a snapshot. What ARM finds around it comes with it. -/
def decodeTake (c : Core) (f : FmtX) (env : ArmEnv) (op : Nat) : Option Instr :=
  match op with
  | 0 => some (.strec c f)
  | 1 => some (.commit c f)
  | 2 => some (.arm c f env)
  | 3 => some (if f.sub.getLsbD 7 then .markQuery c f else .mark c f)
  | 4 => some (if f.sub.getLsbD 4 then .ledgSnapshot c f else .ledg c f)
  | _ => none

/-- EVT and LOCK (R262, R264). -/
def decodeEvt (c : Core) (f : FmtX) (op : Nat) : Option Instr :=
  match op with
  | 0 => some (.waite c f)
  | 1 => some (.dbell c f)
  | 2 => some (.evdone c f)
  | _ => none
def decodeLock (c : Core) (f : FmtX) (op : Nat) : Option Instr :=
  match op with
  | 0 => some (.lcadd c f)
  | 1 => some (.lcswp c f)
  | 2 => some (.lccas c f)
  | _ => none

/-- The instruction that a word spells on core `c`; none for a major opcode, a function or a sub-operation that is not listed (R243). Reserved fields
are kept: the instruction raises ILLEGAL where they are not 0. -/
def decodeDsn (c : Core) (env : ArmEnv) (w : BitVec 32) : Option Instr :=
  let x := fieldsX w
  let op := (w.extractLsb' 8 3).toNat
  match (w.extractLsb' 26 6).toNat with
  | 0x00 => decodeOpa c (fieldsA w) (w.extractLsb' 0 6).toNat
  | 0x01 => decodeOpm c (fieldsA w) (w.extractLsb' 0 6).toNat
  | 0x4 => some (.addi c (fieldsI w))
  | 0x5 => some (.andi c (fieldsI w))
  | 0x6 => some (.ori c (fieldsI w))
  | 0x7 => some (.xori c (fieldsI w))
  | 0x8 => some (.shi c (fieldsI w))
  | 0x9 => some (.cmpi c (fieldsI w))
  | 0xa => some (.callr c (fieldsI w))
  | 0xc => some (.liz c (fieldsU w))
  | 0xd => some (.lii c (fieldsU w))
  | 0xe => some (.lin c (fieldsU w))
  | 0x10 => some (.ldb c (fieldsM w))
  | 0x11 => some (.ldbs c (fieldsM w))
  | 0x12 => some (.ldh c (fieldsM w))
  | 0x13 => some (.ldhs c (fieldsM w))
  | 0x14 => some (.ldw c (fieldsM w))
  | 0x15 => some (.ldws c (fieldsM w))
  | 0x16 => some (.ldd c (fieldsM w))
  | 0x18 => some (.stb c (fieldsM w))
  | 0x19 => some (.sth c (fieldsM w))
  | 0x1a => some (.stw c (fieldsM w))
  | 0x1b => some (.std c (fieldsM w))
  | 0x20 => some (.bcc c (fieldsB w))
  | 0x21 => some (.calli c (fieldsJ w))
  | 0x30 => decodeSys c x op
  | 0x31 => decodeTake c x env op
  | 0x32 => decodeEvt c x op
  | 0x33 => decodeLock c x op
  | _ => none

end Sys2Proof
end

