-- ==== Sys2Proof/Machine/Map.lean ====
section
/-! DEFINITION. Reading and writing sparse stores in their canonical form: keys strictly rising, no entry equal to what an
unlisted key reads as; and small list and number helpers of plain structural recursion. -/

namespace Sys2Proof.Machine

variable {α : Type}

/-- The value at key `k`; an unlisted key reads `d k`. -/
def mapGet (d : Nat → α) : SMap α → Nat → α
  | [], k => d k
  | (a, v) :: m, k => if a = k then v else mapGet d m k

/-- Store `v` at key `k`, keeping the canonical form: the unlisted value removes the entry. -/
def mapSet [DecidableEq α] (d : Nat → α) : SMap α → Nat → α → SMap α
  | [], k, v => if v = d k then [] else [(k, v)]
  | (a, w) :: m, k, v =>
    if k < a then (if v = d k then (a, w) :: m else (k, v) :: (a, w) :: m)
    else if k = a then (if v = d k then m else (k, v) :: m)
    else (a, w) :: mapSet d m k v

/-- The canonical form. -/
abbrev mapWf (d : Nat → α) (m : SMap α) : Prop :=
  m.Pairwise (fun p q => p.1 < q.1) ∧ ∀ p ∈ m, p.2 ≠ d p.1

/-- Apply `f` at key `k`. -/
def mapUpd [DecidableEq α] (d : Nat → α) (m : SMap α) (k : Nat) (f : α → α) : SMap α := mapSet d m k (f (mapGet d m k))

/-- Drop every entry whose key fails `p` (it reads as unlisted again). -/
def mapKeep (p : Nat → Bool) (m : SMap α) : SMap α := m.filter (fun e => p e.1)

/-- `List.range` as a structural recursion from `a`: a, a+1, …, a+n-1. -/
def upFrom (a : Nat) : Nat → List Nat
  | 0 => []
  | n + 1 => a :: upFrom (a + 1) n

/-- Element `i` of a list, `d` past its end. -/
def nth (d : α) : List α → Nat → α
  | [], _ => d
  | x :: _, 0 => x
  | _ :: xs, i + 1 => nth d xs i

/-- Replace element `i` of a list by `f` of it. -/
def modNth (f : α → α) : List α → Nat → List α
  | [], _ => []
  | x :: xs, 0 => f x :: xs
  | x :: xs, i + 1 => x :: modNth f xs i

/-- Without element `i`. -/
def dropNth : List α → Nat → List α
  | [], _ => []
  | _ :: xs, 0 => xs
  | x :: xs, i + 1 => x :: dropNth xs i

/-- Little-endian bytes of a number, `n` of them (R4). -/
def leBytes : Nat → Nat → List Byte
  | 0, _ => []
  | n + 1, v => BitVec.ofNat 8 v :: leBytes n (v / 256)

/-- The number of a little-endian byte list (R4). -/
def leNat : List Byte → Nat
  | [] => 0
  | b :: bs => b.toNat + 256 * leNat bs

/-- Little-endian number of `n` bytes at `off` of a byte list; bytes past its end are 0. -/
def leAt (b : List Byte) (off n : Nat) : Nat := leNat ((b.drop off).take n)

/-- Bit `i` of a number. -/
def natBit (v i : Nat) : Bool := v / 2 ^ i % 2 = 1

/-- The number of bits set among the lowest `n`. -/
def popNat : Nat → Nat → Nat
  | 0, _ => 0
  | n + 1, v => v % 2 + popNat n (v / 2)

/-- The sum of a list. -/
def sumNat : List Nat → Nat
  | [] => 0
  | x :: xs => x + sumNat xs

/-- Ceiling of a quotient. -/
def ceilDiv (a b : Nat) : Nat := (a + b - 1) / b

/-- Ceiling of the binary logarithm of `n`, for `n` up to 2^64. -/
def ceilLog2 (n : Nat) : Nat := ((upFrom 0 65).find? (fun k => n ≤ 2 ^ k)).getD 65

/-- Ring increment of a field of `bits` bits. -/
def wrapInc (bits v : Nat) : Nat := (v + 1) % 2 ^ bits

end Sys2Proof.Machine
end

