-- ==== Sys2Proof/Config.lean ====
section
/-! DEFINITION. What an implementation fixes and the free values: constants without a body, of which nothing can be proved.
Each has a row in notes/assumptions. -/

namespace Sys2Proof.Config

/-- What a 32-bit count holds after counting `n` past its top: the spec states no value (log entry 3). -/
opaque counterPast : Word → Nat → Word
/-- Which held data-cache line makes room for a new one: the spec gives no replacement rule (R253, log entry 4). -/
opaque cacheVictim : Nat → Nat
/-- The servo's next frequency adjustment in units of 2^-31 (R490 gives no gains, log entry 5). -/
opaque servo : Nat → Int → Int
/-- Silicon revision: MAJOR in [15:8], MINOR in [7:0] (R510, R514, log entry 6). -/
opaque siliconRev : Half
/-- Grade: true for TRC-7160-X (R510, log entry 6). -/
opaque gradeX : Bool
/-- The 128-bit factory identity (R510, log entry 6). -/
opaque factoryId : BitVec 128
/-- ROM revision of cluster `n` (R235, log entry 6). -/
opaque romRev : Nat → Half
/-- ROM of cluster `n` (R216): 128-bit half `i`, two to a microword, low half first. -/
opaque romHalf : Nat → Nat → BitVec 128
/-- Entry addresses of the routines (R222): 0 capture tile, 1 decode, then patch load, swap-in, scrub and slot move. -/
opaque routineEntry : Nat → Half
/-- Free SRAM repair entries as shipped (R528, log entry 6). -/
opaque sramRepairEntries : BitVec 12
/-- Free NVS spare lines, highest wear and its line, as the remap table and line metadata give them (R525, log entry 6). -/
opaque nvsSpareFree : BitVec 13
opaque nvsWearMax : Word
opaque nvsWearMaxLine : BitVec 15
/-- Wear counters of the visible lines, and of the spare that stands behind a count of free spares, as the line metadata give them
(R523, R525, log entry 6). -/
opaque nvsWear : Nat → Nat
opaque nvsSpareWear : Nat → Nat
/-- Bytes of Bellhouse's boot ROM, the lowest 32 KiB of its local memory (R430, log entry 6). -/
opaque bootRom : Nat → Byte
/-- A byte of DRAM whose contents loss number `n` took, and the syndrome of its code words, until it is written again (R336, log entry 108). -/
opaque lostByte : Nat → Nat → Byte
opaque lostSyn : Nat → Nat → Half
/-- Which of the eight edge routers link `l` enters, by its residue mod 8 (R377 gives no assignment, log entry 88). -/
opaque edgeOf : Nat → Nat
/-- What an unstated result of the spec is, by a tag for the place and the operands (log entry 7). -/
opaque unstated : Nat → Nat → Nat

end Sys2Proof.Config
end

