-- ==== Sys2Proof/Machine/State.lean ====
section
/-! DEFINITION. The state of the TRC-7160 as plain data, the reasons a step can stop, and the state after power-on reset.
Every field names the rule that gives it. CSR registers whose value is nothing but the register (event bits, counters,
software fields, last-value records) live in `regs`; state with its own life has a field and its register view is computed. -/

namespace Sys2Proof.Machine

/-- A loss of DRAM contents: all of it (R338), or what self-refresh of one half of the channels does not keep, under the mapping in effect (R335, R336). -/
structure DramLoss where
  whole : Bool
  half : Nat
  keepSeg : Nat
  grainLog2 : Nat
  nCh : Nat
  chanBytes : Nat
deriving DecidableEq, Repr

/-- A word-protected store (R301): bytes by address, and by code word (address div 16) the syndrome its check bits give. -/
structure Store where
  /-- data bytes; an unlisted byte reads 0 (R411; for DRAM log entry 1) -/
  bytes : List Host.Cell
  /-- stored check bits of code word i are chk(data) xor this; unlisted is 0, no error (R302, R303) -/
  syn : SMap Half
  /-- losses of its contents, the latest first (R336) -/
  loss : List DramLoss := []
deriving DecidableEq, Repr

/-- A line of a Tabor data cache (R253): its 64 bytes and the check bits of its four code words (R301), by offset in the line. -/
structure CacheLine where
  line : Nat
  mem : Store
  dirty : Bool
deriving DecidableEq, Repr

/-- What a core is doing (R241, R263, R269, R429); stalled: its access waits until it can be accepted (R31, R501). -/
inductive CoreRun where
  | inReset
  | running
  | halted
  | waiting (rd : Fin 32) (timed : Bool)
  | stalled
deriving DecidableEq, Repr

/-- A Tabor logical core (R238-R241). -/
structure TaborCore where
  /-- d0-d31 (R238) -/
  d : Vector DWord 32
  /-- FL (R239) -/
  fl : DWord
  /-- program counter (R238) -/
  pc : DWord
  /-- STATUS: P, XL, PP (R240) -/
  status : DWord
  /-- XPC (R240) -/
  xpc : DWord
  /-- XCAUSE (R240) -/
  xcause : DWord
  /-- XADDR (R240) -/
  xaddr : DWord
  /-- XVEC (R240) -/
  xvec : DWord
  /-- Tabor cycles counted at the last core reset: CYCLE counts from it (R240) -/
  cycleBase : Nat
  /-- reset, running, halted, waiting in WAITE or stalled on an access (R263, R269, R429, R501) -/
  run : CoreRun
  /-- the ledger latch, LEDG fields 0-4 (R261) -/
  latch : Vector DWord 5
  /-- 64 KiB data cache over control SRAM, Cistern SRAM and DRAM, latest first (R253) -/
  dcache : List CacheLine
deriving DecidableEq, Repr

/-- Bellhouse's DSN-32 core (R271, R272). -/
structure BellhouseCore where
  d : Vector Word 32
  fl : Word
  pc : Word
  status : Word
  xpc : Word
  xcause : Word
  xaddr : Word
  xvec : Word
  /-- AWIN, system register 0x09 (R272) -/
  awin : Word
  run : CoreRun
  /-- 128 KiB local memory (R272) -/
  mem : Store
deriving DecidableEq, Repr

/-- Counts of the clocks and the time base (R27, R144, R240, R490). -/
structure Clocks where
  /-- fabric cycles since device reset: now_cyc (R144) -/
  fab : Nat
  /-- fifths of a Tabor cycle pending, and Tabor cycles (R240) -/
  tabPhase : Nat
  tab : Nat
  /-- fractions of a TE cycle pending (R211) -/
  tePhase : Nat
  /-- fractions of an always-on cycle pending, and always-on cycles since device reset: AONTIME (R240) -/
  aonPhase : Nat
  aon : Nat
  /-- the time base in ns and its 32-bit fraction (R490) -/
  ns : DWord
  frac : Word
  /-- frequency adjustment in units of 2^-31 (R490) -/
  freq : Int
  /-- always-on cycles since the last watchdog kick (R431) -/
  wdog : Nat
  /-- fabric cycles since any core's last heartbeat (R15) -/
  hb : Nat
deriving DecidableEq, Repr

/-- Take states (R280). -/
inductive TakeState where
  | idle | loaded | armed | rolling | cutting | closed | faulted
deriving DecidableEq, Repr

/-- A command whose FINAL completion is still owed (R279): its ring, the ring's generation, tag and opcode. -/
structure PendingCmd where
  ring : Fin 4
  gen : Nat
  tag : Half
  opcode : Byte
deriving DecidableEq, Repr

/-- A completion waiting for room in its full ring (R39, R276). -/
structure Completion where
  ring : Fin 4
  gen : Nat
  tag : Half
  opcode : Byte
  status : Byte
  state : Byte
  final : Bool
  value : DWord
deriving DecidableEq, Repr

/-- A setup record image in a bank, with the coefficient and LUT images of a PXY record (R288, R298). -/
structure SetupRecord where
  bytes : List Byte
  coef : List Byte
  lut : List Byte
  /-- syndromes of its code words in the bank that are not 0 (R301) -/
  syn : SMap Half := []
deriving DecidableEq, Repr

/-- The banks of one unit (R17, R290-R292). -/
structure Bank where
  /-- shadow bank -/
  shadow : Option SetupRecord
  /-- the shadow bank is marked ready (R291) -/
  ready : Bool
  /-- active bank -/
  active : Option SetupRecord
  /-- retiring bank (R292) -/
  retiring : Option SetupRecord
deriving DecidableEq, Repr

/-- A reference entry of a picture (R71). -/
structure RefEntry where
  kind : Byte
  slot : Byte
  device : Half
  picture : Word
deriving DecidableEq, Repr

/-- A coded tile of a picture (R74, R138). -/
structure TileUnit where
  tile : Nat
  bytes : List Byte
  mode : Nat
  flags : Half
deriving DecidableEq, Repr

/-- A band granted or charged (R144). -/
structure Grant where
  picture : Nat
  band : Nat
  amount : Nat
  floor : Bool
deriving DecidableEq, Repr

/-- A picture between its opening and its close (R102, R107, R144). -/
structure Picture where
  number : Nat
  ring : Nat
  ptp : DWord
  info : List Byte
  refs : List RefEntry
  /-- current slot (R105) -/
  slot : Option (Fin 16)
  /-- the sensor has ended the picture whole (R472) -/
  ended : Bool
  /-- dropped with a reason (R85) -/
  dropped : Option Nat
  /-- opened in the ledger (R144) -/
  opened : Bool
  /-- next band for dispatch (R144) -/
  nextBand : Nat
  floorBands : List Nat
  /-- tiles dispatched or waiting, not yet committed -/
  tilesOut : List Nat
  units : List TileUnit
  /-- bands charged -/
  charged : List Nat
  /-- log address of the record (R52) -/
  recordAddr : Nat
  spilled : Bool
  /-- units whose retiring set governs it: its boundary came before their takeover (R292) -/
  old : BitVec 14
  /-- closed in the ledger: its closing charge is still to come (R144) -/
  closing : Bool
  /-- bands counted in MAG_BAND_OVERRUN (R227, R232) -/
  overrun : List Nat
deriving DecidableEq, Repr

/-- The take (R280-R287). -/
structure Take where
  /-- TAB_TAKE_STATE STATE (R274) -/
  st : TakeState
  /-- TAB_TAKE_STATE CAUSE (R282) -/
  cause : Byte
  /-- TAB_TAKE_PIC (R274) -/
  takePic : Word
  /-- the LOAD_PROGRAM in setup (R284) -/
  setup : Option PendingCmd
  /-- cores of the loaded program (R283) -/
  cores : BitVec 4
  /-- the CUT whose FINAL completion is owed (R281) -/
  cutCmd : Option PendingCmd
  /-- cause to enter FAULTED with when the picture in progress is complete (R15, R282) -/
  faultPending : Option Byte
  /-- a LOG_FULL end is under way (R55) -/
  logFull : Bool
  /-- device ID in effect at ARM (R308) -/
  deviceId : Half
  /-- number of the next picture (R63) -/
  nextPic : Nat
  /-- PTP time of ROLL acceptance (R65) -/
  startPtp : DWord
  /-- last picture recorded (R279) -/
  lastRecorded : Option Nat
  /-- pictures in progress, oldest first -/
  pics : List Picture
  /-- ptp_time of the own picture most recently started (R114) -/
  lastPtp : DWord
  /-- picture number boundary: the take has seen its first parcel after ROLL (R280) -/
  began : Bool
deriving DecidableEq, Repr

/-- State of an event source (R397). -/
inductive SourceState where
  | idle | pending | active | repend
deriving DecidableEq, Repr

/-- An event record (R405). -/
structure EventRecord where
  source : Nat
  cause : Byte
  status : Byte
  tile : Half
  picture : Word
  info : Word
deriving DecidableEq, Repr

/-- One event source (R397, R408). -/
structure Source where
  target : Fin 16
  filter : Byte
  en : Bool
  pol : Bool
  st : SourceState
  /-- RAW: filtered line or raise seen (R408) -/
  raw : Bool
  /-- claims of the target that passed it over (R401) -/
  passed : Nat
  /-- order in which it became PENDING (R401) -/
  since : Nat
  /-- latest event record (R396) -/
  record : Option EventRecord
deriving DecidableEq, Repr

/-- A queued feed of a check unit (R316). -/
inductive FeedItem where
  | bytes (b : List Byte)
  | start
  | seed (v : Word)
deriving DecidableEq, Repr

/-- A check unit (R314-R317). -/
structure Cku where
  pfx : Word
  pic : Word
  crc : Word
  count : Word
  queue : List FeedItem
  sel : Word
  req : Bool
  act : Bool
  base : DWord
  limit : DWord
  owner : Fin 64
deriving DecidableEq, Repr

/-- An ALLOCATED buffer (R344). -/
structure Buffer where
  holder : Fin 64
  charge : Fin 64
deriving DecidableEq, Repr

/-- An owner page of the software aperture (R354). -/
structure OwnerPage where
  giveTo : Fin 64
  result : Word
  status : Byte
  cause : Nat
  bp : Bool
deriving DecidableEq, Repr

/-- The Cistern (R341-R358). -/
structure Cistern where
  /-- ALLOCATED buffers by handle (R342, R344); unlisted is FREE -/
  bufs : SMap (Option Buffer)
  pages : SMap OwnerPage
  /-- rotation pointer of each pool (R349) -/
  rot : Vector (Fin 64) 6
  /-- EXT_BASE and EXT_COUNT last in effect (R355, R357) -/
  extBase : Vector Nat 6
  extCount : Vector Nat 6
deriving DecidableEq, Repr

/-- A DMA descriptor (R362). -/
structure DmaDesc where
  ctrl : Word
  count : Nat
  src : Nat
  dst : Nat
  next : Nat
  crcPrefix : DWord
  crcAddr : Nat
  hopLimit : Nat
  actOwner : Nat
  prio : Nat
  tag : Word
  rsvZero : Bool
deriving DecidableEq, Repr

/-- An outstanding request of a chain (R370). -/
structure DmaRequest where
  /-- its number within the channel, by which its answer or its time limit names it -/
  id : Nat
  addr : Nat
  bytes : Nat
  write : Bool
  last : Bool
  /-- the target refused it: its answer is a Flume error response (R371) -/
  refused : Bool
  /-- its burst (R365) -/
  burst : Nat
deriving DecidableEq, Repr

/-- A running chain (R361-R372). -/
structure DmaChain where
  handle : Word
  giver : Fin 64
  owner : Fin 64
  descAddr : Nat
  desc : Option DmaDesc
  hops : Nat
  hopLimit : Nat
  actOwner : Fin 64
  crcEn : Bool
  crcAddr : Nat
  crc : Word
  fed : Nat
  poison : Bool
  /-- a poisoned word was read, fed or not (R368) -/
  readBad : Bool := false
  /-- bytes of the descriptor moved, and confirmed written (R372) -/
  moved : Nat
  confirmed : Nat
  total : Nat
  reqs : List DmaRequest
  ending : Option Nat
  /-- grants that passed the channel over while ready (R366) -/
  passed : Nat
deriving DecidableEq, Repr

/-- A DMA channel (R360, R375). -/
structure DmaChannel where
  /-- start queue: handle, giver, target owner (R361) -/
  queue : List (Word × Fin 64 × Fin 64)
  chain : Option DmaChain
  lastEnd : Nat
  lastStatus : Byte
  bytes : DWord
  lastTag : Word
  /-- number of the next request -/
  nextReq : Nat
deriving DecidableEq, Repr

/-- A request in a channel queue (R324-R326); `id` numbers one that came over Flume and is to be answered there (R377). -/
structure DramReq where
  id : Option Nat
  ini : Initiator
  cls : Fin 4
  addr : Nat
  write : Bool
  enables : BitVec 64
  bytes : List Byte
  /-- words of a write, 0-3 of the line, that came poisoned (R304) -/
  bad : List Nat
  close : Bool
  promoted : Bool
deriving DecidableEq, Repr

/-- A DRAM channel (R324-R340). -/
structure DramChan where
  queue : List DramReq
  /-- open row of each bank -/
  rows : Vector (Option Nat) 16
  /-- refreshes owed by each bank, and the order of the last refresh (R329) -/
  owed : Vector Nat 16
  refreshed : Vector Nat 16
  mr4 : BitVec 5
  up : Bool
  selfRefresh : Bool
  pprAvail : Half
  margin : Half
  /-- last data read out, by line address, for the requester -/
  lastRead : List Byte
deriving DecidableEq, Repr

/-- An entry or switch sequence that every channel runs (R331, R333). -/
structure Training where
  /-- the boot steps for an FSP without trained values; else the switch sequence -/
  entry : Bool
  fsp : Fin 3
deriving DecidableEq, Repr

/-- The memory controller (R319-R338). -/
structure MemCtl where
  chans : Vector DramChan 32
  fsp : Fin 3
  /-- TRAINED (R339, retained) -/
  trained : BitVec 3
  training : Option Training
  /-- FSP request that waits (R332) -/
  fspPend : Option (Fin 3)
  grainLog2 : Nat
  scrubPtr : Nat
  refreshClock : Nat
  readyA : Bool
  readyB : Bool
  /-- halves that have run their boot sequence since device reset (R331) -/
  bootedA : Bool
  bootedB : Bool
  /-- halves whose boot sequence failed: never READY until reset (R333) -/
  failedA : Bool
  failedB : Bool
  /-- words whose scrub is suspended until the first full pass after wake (R336) -/
  scrubQuiet : Bool
deriving DecidableEq, Repr

/-- A beat of a request or response in Flume (R377, R380): its request's number, who issued it, the links it comes from and goes to, its
class, the address, the bytes that are read (`len`) or that it carries, the 16-byte words of them that are poisoned (R304), and for a
response whether it is an error. -/
structure FlumeBeat where
  id : Nat
  /-- the first beat of its request -/
  first : Bool
  ini : Initiator
  src : Fin 64
  dst : Fin 64
  cls : Fin 4
  addr : Nat
  len : Nat
  write : Bool
  bytes : List Byte
  bad : List Nat
  err : Bool
  /-- fabric cycle in which the interface took it (R31) -/
  born : Nat
  /-- where it is: 0 ingress edge router, 1 crossbar, 2 egress edge router (R377), 3 on the link to its target; and when it came there -/
  stage : Fin 4
  came : Nat
  /-- fabric cycle from which it can be chosen or accepted there (R384) -/
  ready : Nat
deriving DecidableEq, Repr

/-- An output of an arbitration point (R383): consecutive class A cycles while another class waits, the class whose turn it is and the
beats left of that turn. -/
structure FlumeOut where
  aRun : Nat
  turn : Fin 4
  left : Nat
deriving DecidableEq, Repr

/-- The request network or the response network (R377): beats that wait at the interfaces in order of issue, beats in the network in order of
arrival, and the outputs, keyed by 128 * stage + output. -/
structure FlumeNet where
  wait : List FlumeBeat
  beats : List FlumeBeat
  outs : SMap FlumeOut
deriving DecidableEq, Repr

/-- Flume (R376-R385). -/
structure Flume where
  req : FlumeNet
  rsp : FlumeNet
  nextId : Nat
  /-- last response that came back to each link: the request's number, error, bytes -/
  answers : SMap (Nat × Bool × List Byte)
  /-- longest class A acceptance times measured: of all, and by link (R385) -/
  aMax : Nat
  aMaxLink : SMap Nat
  /-- fabric cycle of the last read of the counts that clear on read, by CSR offset (R385, log entry 7) -/
  readAt : SMap Nat
deriving DecidableEq, Repr

/-- An access or hand-over that was issued and waits to be accepted (R29, R31, R314, R324, R361, R501): who waits, the functions it needs
READY, the class A acceptance point it needs a credit for (R382), and the command that runs when the wait is over. -/
structure Held where
  ini : Initiator
  needs : List Nat
  point : Option Nat
  cmd : Instr
deriving DecidableEq, Repr

/-- Sensor link states (R466). -/
inductive SnsLinkState where
  | down | equalize | align | up
deriving DecidableEq, Repr

structure SnsLink where
  st : SnsLinkState
  first : Nat
  lanes : Nat
  worstEye : Byte
  worstLane : Nat
  skew : BitVec 9
deriving DecidableEq, Repr

/-- A picture at the sensor port (R470-R473). -/
structure SnsPicture where
  number : Word
  recorded : Bool
  countPic : Half
  /-- ring slot; none when discarded (R470) -/
  slot : Option Nat
  info : List Byte
  ends : List (Fin 4)
  /-- accepted parcels q (R474) -/
  parcels : List Nat
  ptp : Option DWord
deriving DecidableEq, Repr

/-- The sensor port (R463-R475). -/
structure Sensor where
  links : Vector SnsLink 4
  pic : Option SnsPicture
  prevCount : Option Half
  /-- next slot in ring order (R470); which slots are in use is computed (R475) -/
  nextSlot : Nat
  /-- parcels accepted since ARM and pictures delivered since ARM (R163) -/
  delivered : Nat
deriving DecidableEq, Repr

/-- Derived ledger sizes (R142). -/
structure LedgerSizes where
  f : List Nat
  g : List Nat
  h : Nat
  z : Nat
  fMax : Nat
  pMax : Nat
  dFull : Nat
  dAdm : Nat
  tNs : Nat
  rDecl : Nat
  cap : Nat
  pendMax : Nat
  spillBase : Nat
  spillLen : Nat
deriving DecidableEq, Repr

/-- A unit of the take log: a band, a header area or a record (R54, R154). -/
structure LogUnit where
  addr : Nat
  bytes : List Byte
  picture : Option Nat
  header : Bool
  trailer : Bool
  flushAfter : Bool
  /-- spilled and given to the ports of a mirror, which still hold it (R157) -/
  given : Bool
  /-- what magazine 1 of a mirror stores where it differs: its own TAKE_HEADER (R64) -/
  other : Option (List Byte)
  /-- 16-byte words that are uncorrectable or poisoned where the unit lies in the Cistern (R304) -/
  bad : List Nat := []
deriving DecidableEq, Repr

/-- A ledger (R144, R154). -/
structure Ledger where
  fill : Nat
  pend : Nat
  res : Nat
  tLast : Nat
  sizes : Option LedgerSizes
  grants : List Grant
  above : Bool
  /-- attempts of the present opening that had to wait (R151) -/
  waited : Bool
  spill : List LogUnit
  /-- syndrome of the ledger's code word (R301) -/
  syn : Half := 0
deriving DecidableEq, Repr

/-- An INDEX entry (R84). -/
structure IndexEntry where
  picture : Nat
  dropped : Bool
  addr : Nat
  ptp : DWord
deriving DecidableEq, Repr

/-- A run of dropped pictures (R85). -/
structure DropRun where
  first : Nat
  count : Nat
  reason : Nat
  ptp : DWord
deriving DecidableEq, Repr

/-- The take log of one magazine (R51-R87). -/
structure TakeLog where
  isOpen : Bool
  addr : Nat
  seq : Nat
  entries : List IndexEntry
  prevIndex : Option Nat
  run : Option DropRun
  recorded : Nat
  dropped : Nat
  last : Option Nat
  tilesFloor : Nat
  tilesRaw : Nat
  tilesMissing : Nat
  tilesMismatch : Nat
  /-- units gathered for the port, in write order -/
  units : List LogUnit
  trailerDone : Bool
deriving DecidableEq, Repr

/-- Magazine port states (R480). -/
inductive MagState where
  | absent | powering | training | init | ready | failed | fault
deriving DecidableEq, Repr

/-- Why an NVMe command was issued (R483). -/
inductive NvmePurpose where
  | identify | setQueues | setCache | createQueues | deleteQueues
  /-- a part of a unit, and whether it is the unit's last -/
  | write (u : LogUnit) (lastPart : Bool)
  | flushCmd
  /-- the LBA ranges it deallocates -/
  | dsm (ranges : List (Nat × Nat))
  /-- session 0 asks for its namespace (R189) -/
  | playNs
  /-- session 0 reads `len` bytes from this log address -/
  | read (addr len : Nat)
deriving DecidableEq, Repr

/-- An NVMe command submitted and not completed (R486, R487). -/
structure NvmeCmd where
  cid : Nat
  /-- the first identifier of a command that has been resubmitted: its place in the order of submission -/
  order : Nat
  queue : Nat
  opcode : Byte
  nsid : Word
  slba : Nat
  nlb : Nat
  bytes : Nat
  tries : Nat
  purpose : NvmePurpose
deriving DecidableEq, Repr

/-- Steps of the eject sequence (R481). -/
inductive EjectStep where
  | none | deleting | shutdown | done
deriving DecidableEq, Repr

/-- A magazine port (R479-R487). -/
structure MagPort where
  st : MagState
  present : Bool
  gate : Bool
  /-- MAG_PERST_N level -/
  perstN : Bool
  refclk : Bool
  speed : Nat
  width : Nat
  /-- step of controller initialisation (R482) -/
  initStep : Nat
  mqes : Nat
  mdts : Nat
  vwc : Bool
  ioq : Nat
  qdepth : Nat
  eject : EjectStep
  cmds : List NvmeCmd
  nextCid : Nat
  nextQueue : Nat
  /-- extents still to deallocate (R484) -/
  dsmTodo : List (Nat × Nat)
  /-- Flushes due, each after every Write of a lower command number (R483) -/
  flushDue : List Nat
  /-- fabric cycle since which a Write waits for a submission entry (R486) -/
  waitSince : Option Nat
deriving DecidableEq, Repr

/-- Marks of a slot (R104). -/
inductive Mark where
  | unused | short | long | viewIn | pendingIn | held
deriving DecidableEq, Repr

/-- A reference slot (R104, R112, R547). -/
structure Slot where
  mark : Mark
  current : Bool
  prevTake : Bool
  base : Option Nat
  size : Nat
  device : Half
  picture : Word
  source : Option (Fin 4)
  ptp : DWord
  accepted : List Nat
  /-- REF_TILE packets still to be sent of the current picture (R106) -/
  sends : Nat
  /-- compared against by session 0 (R193) -/
  playing : Bool
  /-- progress pointer and destination of a slot move (R230) -/
  move : Option (Nat × Nat)
  /-- Kalsal port that received the peer picture (R113) -/
  port : Fin 4
  /-- every tile of the own picture is final (R106) -/
  final : Bool
  /-- syndrome of the descriptor's code word (R301) -/
  syn : Half := 0
deriving DecidableEq, Repr

/-- A patch image to be loaded (R223): the MAINT command that asks for it, none for the load at boot (R526). -/
structure PatchReq where
  cmd : Option PendingCmd
  image : List Byte
  bad : Bool
deriving DecidableEq, Repr

/-- A maintenance request (R230). -/
inductive MaintKind where
  | patchLoad (r : PatchReq) | swapIn (engine : Nat) | scrub | slotMove (slot : Fin 16)
deriving DecidableEq, Repr

structure MaintReq where
  kind : MaintKind
  abandoned : Nat
  guarded : Bool
deriving DecidableEq, Repr

/-- What an engine runs (R222). -/
inductive EngineRun where
  | idle
  | capture (picture tile : Nat)
  | decode (tile : Nat)
  | maint (r : MaintReq)
deriving DecidableEq, Repr

/-- A sequencer (R211, R219, R225): where its routine entered, the next microword, the call stack with its top first, the loop counters, the dispatch
register, and the microwords issued since the last safe point. -/
structure Sequencer where
  entry : Half
  uaddr : Half
  stack : List Half
  loops : Vector Nat 4
  dispatch : BitVec 4
  gap : Nat
deriving DecidableEq, Repr

def Sequencer.atReset : Sequencer := { entry := 0, uaddr := 0, stack := [], loops := Vector.replicate 4 0, dispatch := 0, gap := 0 }

def Datapath.atReset : Datapath :=
  { vector := [], mask := [], scalar := [], window := [], contexts := [], ri := 0, header := List.replicate 32 0, checks := List.replicate 128 0 }

/-- A tile engine (R209-R237). -/
structure Engine where
  logical : Option Nat
  retired : Bool
  /-- out of service and why (R231, R516) -/
  out : Option EngineFault
  run : EngineRun
  /-- latched requests (R226) -/
  fault : Option EngineFault
  stop : Bool
  preempt : Option (Nat × Nat)
  snapshot : Bool
  halt : Bool
  halted : Bool
  /-- sequencer and units (R211); tile memory by engine address: SRC, UNIT and REC (R212) -/
  seq : Sequencer
  units : Datapath
  tm : Store
  /-- TE cycles in routines since the last snapshot (R226) -/
  busy : Nat
  /-- e of the tile in hand (R147), its floor decision (R152), and which entries of its list are available (R115, R116) -/
  e : Nat
  floorTile : Bool
  viewOk : List Bool
deriving DecidableEq, Repr

/-- A TE cluster (R209, R216, R221, R235). -/
structure Cluster where
  page : Bool
  out : Option EngineFault
  spareUsed : Bool
  lent : Bool
  active : Half
  retired : Half
  /-- patch RAM, 32 bytes a microword by control store address, and under the ROM addresses the bits in error (R216, R217) -/
  store : Store
  /-- match registers that a patch load writes before its commit (R224) -/
  shadow : Vector Word 64
  image0 : Half
  image1 : Half
  /-- next half that the control store scrub reads (R230) -/
  scrubPtr : Nat
  /-- the cluster has been READY since device reset (R526) -/
  booted : Bool
deriving DecidableEq, Repr

/-- A sensor picture that a stream codes (R163): its ring slot (none when it has no lines) and the slot's address, its ptp_time (R181),
whether the sensor port has declared its end (R177), the units whose takeover its boundary came before (R292), and
in which fabric cycle each of its lines was complete (R183) and its end was declared. -/
structure StreamPic where
  slot : Option Nat
  base : Nat
  ptp : DWord
  ended : Bool
  old : BitVec 14
  times : SMap Nat
  endAt : Nat
deriving DecidableEq, Repr

/-- A proxy stream (R163-R182). -/
structure Stream where
  /-- pictures to code, oldest first -/
  pics : List StreamPic
  /-- the stream is coding (R185) -/
  run : Bool
  /-- its set and the CODE record, as they govern the access unit being coded (R178) -/
  set : Option SetupRecord
  code : List Byte
  /-- proxy pictures since the buffering period, next row (R172) -/
  k : Nat
  row : Nat
  /-- pictures since the last IDR picture; none before the first; the picture being coded is IDR (R168) -/
  sinceIdr : Option Nat
  idr : Bool
  /-- the encoder's choices for its parameter sets (R170) -/
  choice : Option PictureChoice
  /-- INIT_DELAY of the first access unit of the buffering period (R161, R172) -/
  delay0 : Nat
  /-- access units since the last buffering period: AuCpbRemovalDelay -/
  removal : Nat
  /-- a change of what the parameter sets carry is to restart it (R178) -/
  restart : Bool
  /-- the end of sequence NAL unit has gone out with the access unit it ends -/
  eos : Bool
  /-- bits of every earlier unit since the buffering period: s_before (R172) -/
  sent : Nat
  /-- bits arrived at the last removal, in the exact fraction of R172 -/
  arrived : Nat
  /-- budget that the last unit left (R185) -/
  left : Nat
  /-- packets and payload octets sent, for the sender reports (R182) -/
  pkts : Word
  octets : Word
  /-- next RTP sequence number (R181), and the timestamp of the last access unit -/
  seq : Half
  lastTs : Word
  /-- the end of bitstream NAL unit is still to come (R178) -/
  eob : Bool
  /-- it is enabled anew once its last access unit is complete: SEQ_START, and the pictures that it codes then (R178) -/
  again : Option Half
  later : List StreamPic
  /-- the coding trees of the last row (R169, R173) -/
  coded : List CodingTree
  /-- encoder input of the last row: Y, Cb and Cr rows (R164-R167) -/
  input : List (List Half)
deriving DecidableEq, Repr

/-- A PLAY parameter block as accepted (R187, R299). -/
structure PlayParams where
  kind : Nat
  outCount : Nat
  tileStatus : Bool
  mag : Fin 2
  reverse : Bool
  follow : Bool
  core : Fin 2
  netPort : Fin 2
  cmpSlot : Option (Fin 16)
  areaPics : Nat
  pt : Nat
  preroll : Nat
  outCtrl : Nat
  outBuf : Nat
  reportBase : Nat
  logLba : Nat
  areaBase : Nat
  outStride : Nat
  reportCount : Nat
  first : Nat
  last : Nat
  rateNum : Nat
  rateDen : Nat
  ssrc : Word
  jitter : Nat
  maxW : Nat
  maxH : Nat
  maxRate : Nat
  udpPort : Nat
  areaLen : Nat
  nsid : Word
  lbaBytes : Nat
deriving DecidableEq, Repr

/-- A decoded picture: in the playback area (R191), last decoded (R198) or last output (R195). Its geometry stands as a CODE record
image. -/
structure AreaPicture where
  device : Half
  picture : Nat
  code : List Byte
  /-- samples of each tile, in the order of R212 -/
  tiles : SMap (List Half)
  unsound : List Nat
deriving DecidableEq, Repr

/-- What the TAKE_HEADER told a session (R65, R189). -/
structure PlayTake where
  device : Half
  tag : Word
  /-- geometry, coding mode and exposure_ratio in the layout of a CODE record (R294) -/
  code : List Byte
  /-- single, mirror or stripe (R65) -/
  arrangement : Nat
  /-- extents: start LBA and 4 KiB units -/
  extents : List (Nat × Nat)
deriving DecidableEq, Repr

/-- What the walk of the log has found (R87): a recorded picture with the keys of its references, or one that a DROP_NOTE lists. -/
structure TocEntry where
  number : Nat
  addr : Nat
  len : Nat
  intra : Bool
  dropped : Bool
  refs : List (Half × Nat)
deriving DecidableEq, Repr

/-- The picture that session 0 decodes (R196-R200). -/
structure PlayPicture where
  number : Nat
  addr : Nat
  record : List Byte
  /-- log address ranges whose Read failed (R196) -/
  failed : List (Nat × Nat)
  tiles : SMap (List Half)
  status : SMap Half
  unsound : List Nat
  /-- bit k: ref[k] unresolved (R197, R201) -/
  unresolved : BitVec 4
deriving DecidableEq, Repr

/-- What session 0 does next (R189-R195). -/
inductive PlayPhase where
  | off | identify | header | walk | await | fetch | decode | output
deriving DecidableEq, Repr

/-- A decoded H.265 picture that waits for output (R205, R206). -/
structure ReturnPicture where
  timestamp : Word
  ptp : DWord
  concealed : Bool
  degraded : Bool
  width : Nat
  height : Nat
  format : Nat
  /-- CTU size and the CTUs concealed (R205) -/
  ctu : Nat
  lost : List Nat
deriving DecidableEq, Repr

/-- An access unit as received (R202): RTP timestamp, receive time of its first packet, and its packets by sequence number. -/
structure RxUnit where
  timestamp : Word
  ptp : DWord
  packets : List (Half × List Byte)
  marker : Bool
  /-- a gap in the sequence numbers before or within it -/
  gap : Bool
  /-- decoding starts anew with it, earlier units having been discarded (R203) -/
  fresh : Bool
deriving DecidableEq, Repr

/-- The picture that a kind 1 session output last (R205). -/
structure ReturnImage where
  width : Nat
  height : Nat
  format : Nat
  bytes : List Byte
deriving DecidableEq, Repr

/-- A decode session (R186-R207). -/
structure Session where
  cmd : Option PendingCmd
  params : Option PlayParams
  stopping : Bool
  phase : PlayPhase
  take : Option PlayTake
  /-- log address of the walk, sequence of the last valid record, what was found, and the end of the log (R87) -/
  walk : Nat
  lastSeq : Nat
  toc : List TocEntry
  walkDone : Bool
  /-- log bytes that were on the magazine when the walk asked last; the walk has come to their end (R192) -/
  front : Nat
  waiting : Bool
  /-- the pictures before FIRST have been considered (R190) -/
  primed : Bool
  /-- log ranges still to be read, those being read, and the bytes read: address, bytes, good -/
  want : List (Nat × Nat)
  asked : List (Nat × Nat)
  got : List (Nat × List Byte × Bool)
  /-- picture number to output next, and the numbers to decode for it (R190) -/
  next : Nat
  todo : List Nat
  pic : Option PlayPicture
  area : List AreaPicture
  lastDecoded : Option AreaPicture
  shown : Option AreaPicture
  /-- pictures output, in all and since the last progress completion -/
  produced : Nat
  recent : Nat
  /-- fabric cycle of the last output (R195) -/
  outAt : Nat
  /-- kind 1: access units passed on and waiting, and those being received, in the order of their packets (R202) -/
  queue : List RxUnit
  opens : List RxUnit
  /-- the sequence number and timestamp that the units passed on end with -/
  passedSeq : Option Half
  passedTs : Option Word
  /-- units are discarded as they arrive until an IRAP picture (R203) -/
  discarding : Bool
  untilIrap : Bool
  /-- RASL pictures of the IRAP that started decoding (R203) -/
  skipRasl : Bool
  /-- an area is concealed since the last IRAP picture (R205) -/
  concealed : Bool
  ready : List ReturnPicture
  lastImage : Option ReturnImage
deriving DecidableEq, Repr

/-- A Kalsal packet (R444): header fields and payload. -/
structure Packet where
  type : Nat
  rsp : Bool
  bcast : Bool
  host : Bool
  dst : Half
  src : Half
  hops : Nat
  status : Byte
  tag : Half
  fields : List Byte
  payload : List Byte
  /-- the 16-byte words of the payload that are poisoned (R304) -/
  bad : List Nat
deriving DecidableEq, Repr

/-- What a packet in Sluice is (R386). -/
inductive SluKind where
  | ptp | time | rtp | rtcp | refTile | msg | enumeration
deriving DecidableEq, Repr

/-- A packet in Sluice (R386, R387): its kind, its length, for a Kalsal port the packet itself, the RTP fields of R181 or of a sender
report with its NTP timestamp (R182), the Ethernet frame that a stream sends without its check sequence (R181, R182), and since when the lines have waited that it is the first to carry (R183). -/
structure SluPacket where
  kind : SluKind
  bytes : Nat
  pkt : Option Packet
  rtp : Option RtpPacket
  ntp : DWord
  frame : List Byte
  since : Option Nat
deriving DecidableEq, Repr

/-- A Sluice flow (R388-R393). -/
structure Flow where
  queue : List SluPacket
  tokens : Nat
  deficit : Nat
  port : Nat
  service : Nat
  moving : Option (Nat × Nat × Nat)
deriving DecidableEq, Repr

/-- A service of a port (R388, R390). -/
structure Service where
  tokens : Nat
  deficit : Nat
  ptr : Nat
deriving DecidableEq, Repr

/-- Sluice (R386-R393). -/
structure Sluice where
  flows : SMap Flow
  services : SMap Service
  ptr0 : Vector Nat 6
  sptr : Vector Nat 6
deriving DecidableEq, Repr

/-- Kalsal training states (R435, R462). -/
inductive KslState where
  | down | detect | equalize | align | config | active
deriving DecidableEq, Repr

/-- A flit to be sent (R438, R442, R443): its VC, the port its packet arrived on (4 local), the port whose receive buffer still holds
it, its code words in use, and the target and source of the EVT it carries (R396). -/
structure TxFlit where
  vc : Nat
  origin : Nat
  held : Option (Fin 4)
  sop : Bool
  eop : Bool
  words : List CodeWord
  event : Option (Fin 16 × Nat)
deriving DecidableEq, Repr

/-- Where the packet that is arriving on a VC goes (R452): to this device, on by a port, or nowhere. -/
inductive RxRoute where
  | here | onward (k : Fin 4) | nowhere
deriving DecidableEq, Repr

/-- A Kalsal port (R433-R449). -/
structure KslPort where
  st : KslState
  retraining : Bool
  peerAdapter : Bool
  peerId : Half
  peerPort : Fin 4
  /-- lane map in use, and as rewritten for the next full training (R433) -/
  laneMap : BitVec 9
  nextMap : BitVec 9
  worstEye : Byte
  worstLane : Fin 9
  /-- transmitter: next sequence number, replay buffer, replay pointer, flits sent since the last marker (R434, R439, R440) -/
  txSeq : Half
  replay : List (Half × TxFlit)
  resend : Option Half
  sinceMarker : Nat
  /-- receiver: next expected, its faulty copies, a NAK due, a NAK sent and the flit awaited, RETRAIN_REQ due (R440, R441) -/
  rxSeq : Half
  faulty : Nat
  nak : Bool
  awaited : Bool
  retrainReq : Bool
  /-- the packet arriving on each VC and its words so far -/
  partials : SMap (Option (RxRoute × List CodeWord))
  /-- credits: flits freed for the peer, freed by the peer, sent, per VC (R438, R442) -/
  freed : Vector Nat 4
  peerFreed : Vector Nat 4
  sent : Vector Nat 4
  /-- flits to send; per VC the origin whose packet is being sent and the origin whose turn is next; turn of B and C (R443) -/
  txq : List TxFlit
  txCur : Vector (Option Nat) 4
  txTurn : Vector Nat 4
  rr : Nat
  /-- packets arrived for this device with the time of arrival (R446-R450) -/
  rxq : List (Packet × DWord)
  /-- the last 320 bytes put on the wire (R434, R438) -/
  wire : List Byte
  /-- bytes that each lane has sent scrambled since the end of training (R434) -/
  scrambled : Nat := 0
  /-- TIME: sequence number sent, t1, t2, t3 (R450) -/
  timeSeq : Half
  t1 : DWord
  t2 : DWord
  t3 : DWord
deriving DecidableEq, Repr

/-- An enumeration at this device (R454-R456): the parent port (none at the root), its ID, the next free ID, the port that it waits
for, and the first non-OK status. -/
structure Enumeration where
  parent : Option (Fin 4)
  base : Nat
  next : Nat
  epoch : Half
  waiting : Option (Fin 4)
  status : Nat
deriving DecidableEq, Repr

/-- Kalsal state outside the ports (R447-R457). -/
structure Kalsal where
  ports : Vector KslPort 4
  epoch : Half
  msgProd : Nat
  /-- tags of the outstanding requests (R448, R457), and EVT packets that wait for acceptance with their target and source -/
  out : List Half
  wait : List (Packet × Fin 16 × Nat)
  enumr : Option Enumeration
  /-- the ENUMERATE whose FINAL completion is owed (R456) -/
  enumCmd : Option PendingCmd
  nextTag : Half
deriving DecidableEq, Repr

/-- PTP and time source (R490, R491). -/
structure Ptp where
  t1 : Int
  t2 : Int
  t3 : Int
  syncSeq : Half
  haveSync : Bool
  /-- a two-step Sync waits for its Follow_Up -/
  awaitFollow : Bool
  /-- sequence number of the last Delay_Req, and whether it has left with t3 and waits for its answer -/
  reqSeq : Half
  reqOut : Bool
  /-- clockIdentity of the selected master, 0 for none -/
  master : DWord
  good : Nat
  offset : Word
  utc : Half
  locked : Bool
  interval : Nat
  servoCount : Nat
  linkUp : Vector Bool 2
deriving DecidableEq, Repr

/-- Power domain states (R411). -/
inductive DomState where
  | off | waking | on | sleeping
deriving DecidableEq, Repr

/-- A power domain (R409-R424). -/
structure Domain where
  st : DomState
  /-- slots eligible to switch off (R423) -/
  eligible : Nat
  /-- slots OFF (R422) -/
  offFor : Nat
  /-- its ramp is complete (R422) -/
  rampDone : Bool
  /-- its clock runs (R422) -/
  clock : Bool
deriving DecidableEq, Repr

/-- A PLL (R415). -/
inductive PllState where
  | off | starting | locked | failed
deriving DecidableEq, Repr

/-- Headgate (R409-R432). -/
structure Headgate where
  doms : Vector Domain 29
  plls : Vector PllState 9
  /-- READY bits by function number (R428) -/
  ready : BitVec 40
  /-- HDG_STAT MODE (R425): 0 running, 1 STANDBY, 2 OFF_WAKE -/
  mode : Nat
  /-- the first clock stop of the sleep has been admitted (R426) -/
  sleepBegun : Bool
  refLost : Bool
  /-- charge ramped at the previous boundary: its end is a fall at the next (R419) -/
  lastRamp : Nat
  teEcon : Bool
  /-- DRAM_PWR_EN and DRAM_PWR_OK, 2 ms wait under way (R427) -/
  pwrEn : Bool
  pwrOk : Bool
  offWakeBoot : Bool
  /-- straps DRAM_CH32 and DRAM_DEN (R319) -/
  ch32 : Bool
  den : Fin 4
  /-- MGMT has been READY since reset (R510) -/
  idValid : Bool
  bhFast : Bool
deriving DecidableEq, Repr

/-- Proposal states (R518). -/
inductive PropState where
  | empty | proposed | approved | rejected | done | failed
deriving DecidableEq, Repr

structure Proposal where
  number : Word
  st : PropState
  kind : Nat
  reason : Byte
  target : Word
  info : Word
deriving DecidableEq, Repr

/-- Spares and proposals (R515-R529). -/
structure Ras where
  props : Vector Proposal 16
  next : Word
  /-- proposals waiting inside Bellhouse (R518) -/
  waiting : List Proposal
  /-- resources rejected until reset: kind and target (R518) -/
  rejected : List (Nat × Word)
  sramFree : BitVec 12
  tabSpareUsed : Bool
  lanesRetired : Nat
  kslSpareUsed : BitVec 4
  /-- kind 1 proposals deferred by R522 -/
  deferred : List Proposal
  nvsFree : Nat
  /-- NVS wear counters and remapped lines (R523) -/
  wear : SMap Nat
  wearMax : Word
  wearMaxLine : Nat
  nvsBusy : Bool
  /-- the monitor's own counts of corrected words by site in hour `hour` (R517) -/
  hourCorr : Vector Nat 10
  hour : Nat
  /-- DRAM words found corrected in this scrub pass: channel and channel physical word (R515) -/
  dramCorr : List (Nat × Nat)
  /-- sensor lanes that failed, with the always-on cycle (R515) -/
  laneFails : List (Nat × Nat)
  /-- words of on-chip SRAMs found corrected: site, word and always-on cycle (R515) -/
  sramCorr : List (Nat × Nat × Nat) := []
deriving DecidableEq, Repr

/-- TAP controller states (R545, IEEE 1149.1). -/
inductive TapState where
  | testLogicReset | runTestIdle
  | selectDr | captureDr | shiftDr | exit1Dr | pauseDr | exit2Dr | updateDr
  | selectIr | captureIr | shiftIr | exit1Ir | pauseIr | exit2Ir | updateIr
deriving DecidableEq, Repr

/-- TAP instructions (R545). -/
inductive TapInstr where
  | extest | samplePreload | idcode | clamp | highz | bypass
deriving DecidableEq, Repr

structure Tap where
  st : TapState
  /-- the current instruction -/
  instr : TapInstr
  /-- shift register of the instruction path -/
  ir : BitVec 6
  /-- shift register of the data path, the bit next to TDO first -/
  dr : List Bool
  /-- update latches of the boundary-scan cells, from TDI to TDO (R545) -/
  bsr : List Bool
  tdo : Option Bool
deriving DecidableEq, Repr

/-- Supply and thermal balls (R532, R539). -/
structure Supply where
  /-- VDD_CORE set point in mV acknowledged last (R532) -/
  vcore : Nat
  thermTripN : Bool
  /-- the fabric cycle of the last AVSBus command (R532) -/
  avsAt : Option Nat := none
deriving DecidableEq, Repr

/-- The machine. -/
structure State where
  /-- commands waiting, first in first out -/
  pending : List Instr
  /-- counter of free values drawn (the model's own) -/
  freeCount : Nat
  clk : Clocks
  /-- stored CSR registers by CSR offset; an unlisted one reads its reset value (R498) -/
  regs : SMap Word
  /-- high halves latched by a _LO read, keyed by 2^22 * link + offset (R500) -/
  latches : SMap Word
  /-- low halves held by a _LO write, keyed likewise (R500) -/
  holds : SMap Word
  /-- open key gates, by Flume link (R504) -/
  gates : BitVec 64
  cores : Vector TaborCore 4
  /-- physical core of each logical core (R515) -/
  coreMap : Vector (Fin 5) 4
  bh : BellhouseCore
  dram : Store
  cisSram : Store
  ctlSram : Store
  nvs : Store
  take : Take
  banks : Vector Bank 14
  /-- ring generation, completion PHASE (R273, R276) -/
  ringGen : Vector Nat 4
  ringPhase : Vector Bool 4
  /-- rings of visible commands, in the order of the TAIL writes (R277) -/
  visible : List (Fin 4)
  /-- completions waiting for ring room: logical core 0 stalls (R39) -/
  stalled : List Completion
  srcs : SMap Source
  /-- order stamp of the last source that became PENDING -/
  evcStamp : Nat
  cku : Vector Cku 16
  cis : Cistern
  dma : Vector DmaChannel 64
  dmaPtr : Nat
  flume : Flume
  /-- accesses and hand-overs that wait to be accepted, in order of issue -/
  onHold : List Held
  mc : MemCtl
  sns : Sensor
  ledgers : Vector Ledger 2
  logs : Vector TakeLog 2
  mags : Vector MagPort 2
  slots : Vector Slot 16
  /-- abandoned peer pictures of this take: source and picture number (R113) -/
  lateViews : List (Fin 4 × Word)
  /-- peer pictures of this take accepted whole (R113) -/
  wholeViews : List (Fin 4 × Word)
  engines : SMap Engine
  clusters : Vector Cluster 17
  /-- ready capture tiles (picture, tile), in dispatch order (R233) -/
  tileQueue : List (Nat × Nat)
  lastEngine : Nat
  maintQueue : List MaintReq
  streams : Vector Stream 4
  sessions : Vector Session 9
  slu : Sluice
  ksl : Kalsal
  ptp : Ptp
  hdg : Headgate
  ras : Ras
  tap : Tap
  supply : Supply
  /-- SET_TAG in progress: command, SEQ (R512) -/
  tagCmd : Option (PendingCmd × Byte)
deriving DecidableEq, Repr

/-- Why the machine stops with a fault: no command of this block does (the type is kept for the interface). -/
inductive Fault where
  /-- raised by nothing: every command of the table has an effect or leaves the state as it is (safe) -/
  | none
deriving DecidableEq, Repr

/-- Why a command has no meaning. -/
inductive Refusal where
  /-- raised by exec's arm of a command not modelled yet (safe) -/
  | notModelled (mnemonic : String)
deriving DecidableEq, Repr

/-! ## The state after power-on reset (R430) -/

/-- An empty protected store. -/
def Store.empty : Store := { bytes := [], syn := [] }

/-- A Tabor core in reset (R240, R241): STATUS 0x1, PC and XVEC 0x0200_0000_0000. -/
def TaborCore.inReset : TaborCore :=
  { d := Vector.replicate 32 0, fl := 0, pc := 0x020000000000, status := 1, xpc := 0, xcause := 0, xaddr := 0,
    xvec := 0x020000000000, cycleBase := 0, run := .inReset, latch := Vector.replicate 5 0, dcache := [] }

/-- Bellhouse after reset (R271, R430): running from local address 0, STATUS P and PP 1. The spec gives no reset value for its
d0-d31, XVEC and FL of its own: R241's zeros, XVEC 0 (log entry 2). -/
def BellhouseCore.atReset : BellhouseCore :=
  { d := Vector.replicate 32 0, fl := 0, pc := 0, status := 5, xpc := 0, xcause := 0, xaddr := 0, xvec := 0, awin := 0,
    run := .running, mem := Store.empty }

def Take.atReset : Take :=
  { st := .idle, cause := 0, takePic := 0, setup := none, cores := 0, cutCmd := none, faultPending := none, logFull := false,
    deviceId := 0, nextPic := 0, startPtp := 0, lastRecorded := none, pics := [], lastPtp := 0, began := false }

def Bank.empty : Bank := { shadow := none, ready := false, active := none, retiring := none }

def Cku.atReset : Cku :=
  { pfx := 0, pic := 0, crc := 0xFFFFFFFF, count := 0, queue := [], sel := 0, req := false, act := false, base := 0, limit := 0,
    owner := 0 }

def Cistern.atReset : Cistern :=
  { bufs := [], pages := [], rot := Vector.replicate 6 0, extBase := Vector.replicate 6 0, extCount := Vector.replicate 6 0 }

def DmaChannel.atReset : DmaChannel := { queue := [], chain := none, lastEnd := 0, lastStatus := 0, bytes := 0, lastTag := 0, nextReq := 0 }

def DramChan.atReset : DramChan :=
  { queue := [], rows := Vector.replicate 16 none, owed := Vector.replicate 16 0, refreshed := Vector.replicate 16 0, mr4 := 0,
    up := false, selfRefresh := false, pprAvail := 0xFFFF, margin := 0, lastRead := [] }

def MemCtl.atReset : MemCtl :=
  { chans := Vector.replicate 32 DramChan.atReset, fsp := 0, trained := 0, training := none, fspPend := none, grainLog2 := 12,
    scrubPtr := 0, refreshClock := 0, readyA := false, readyB := false, bootedA := false, bootedB := false, failedA := false,
    failedB := false, scrubQuiet := false }

def FlumeNet.empty : FlumeNet := { wait := [], beats := [], outs := [] }

def Flume.atReset : Flume :=
  { req := FlumeNet.empty, rsp := FlumeNet.empty, nextId := 0, answers := [], aMax := 0, aMaxLink := [], readAt := [] }

def SnsLink.atReset : SnsLink := { st := .down, first := 0, lanes := 0, worstEye := 0, worstLane := 0, skew := 0 }

def Sensor.atReset : Sensor :=
  { links := Vector.replicate 4 SnsLink.atReset, pic := none, prevCount := none, nextSlot := 0, delivered := 0 }

def Ledger.atReset : Ledger :=
  { fill := 0, pend := 0, res := 0, tLast := 0, sizes := none, grants := [], above := false, waited := false, spill := [] }

def TakeLog.atReset : TakeLog :=
  { isOpen := false, addr := 0, seq := 0, entries := [], prevIndex := none, run := none, recorded := 0, dropped := 0, last := none,
    tilesFloor := 0, tilesRaw := 0, tilesMissing := 0, tilesMismatch := 0, units := [], trailerDone := false }

def MagPort.atReset : MagPort :=
  { st := .absent, present := false, gate := false, perstN := false, refclk := false, speed := 0, width := 0, initStep := 0,
    mqes := 0, mdts := 0, vwc := false, ioq := 0, qdepth := 0, eject := .none, cmds := [], nextCid := 0, nextQueue := 0,
    dsmTodo := [], flushDue := [], waitSince := none }

def Slot.unused : Slot :=
  { mark := .unused, current := false, prevTake := false, base := none, size := 0, device := 0, picture := 0, source := none,
    ptp := 0, accepted := [], sends := 0, playing := false, move := none, port := 0, final := false }

/-- Cluster at reset (R209, R235): position 15 spare in clusters 0-15, all active in cluster 16. -/
def Cluster.atReset (active : Half) : Cluster :=
  { page := false, out := none, spareUsed := false, lent := false, active := active, retired := 0, store := Store.empty, shadow := Vector.replicate 64 0,
    image0 := 0, image1 := 0, scrubPtr := 0, booted := false }

def Stream.atReset : Stream :=
  { pics := [], run := false, set := none, code := [], k := 0, row := 0, sinceIdr := none, idr := false, choice := none, delay0 := 0,
    removal := 0, restart := false, eos := false, sent := 0, arrived := 0, left := 0, pkts := 0, octets := 0, seq := 0, lastTs := 0, eob := false,
    again := none, later := [], coded := [], input := [] }

def Session.atReset : Session :=
  { cmd := none, params := none, stopping := false, phase := .off, take := none, walk := 0, lastSeq := 0, toc := [], walkDone := false, front := 0, waiting := false, primed := false,
    want := [], asked := [], got := [], next := 0, todo := [], pic := none, area := [], lastDecoded := none, shown := none,
    produced := 0, recent := 0, outAt := 0, queue := [], opens := [], passedSeq := none, passedTs := none, discarding := false,
    untilIrap := true, skipRasl := false, concealed := false, ready := [], lastImage := none }

def Sluice.atReset : Sluice :=
  { flows := [], services := [], ptr0 := Vector.replicate 6 0, sptr := Vector.replicate 6 0 }

/-- A Kalsal port at reset (R433, R462): DOWN, lanes 0-7. -/
def KslPort.atReset : KslPort :=
  { st := .down, retraining := false, peerAdapter := false, peerId := 0, peerPort := 0, laneMap := 0x0FF, nextMap := 0x0FF,
    worstEye := 0, worstLane := 0, txSeq := 0, replay := [], resend := none, sinceMarker := 0, rxSeq := 0, faulty := 0, nak := false,
    awaited := false, retrainReq := false, partials := [], freed := Vector.replicate 4 0, peerFreed := Vector.replicate 4 0,
    sent := Vector.replicate 4 0, txq := [], txCur := Vector.replicate 4 none, txTurn := Vector.replicate 4 0, rr := 0, rxq := [],
    wire := [], timeSeq := 0, t1 := 0, t2 := 0, t3 := 0 }

def Kalsal.atReset : Kalsal :=
  { ports := Vector.replicate 4 KslPort.atReset, epoch := 0, msgProd := 0, out := [], wait := [], enumr := none, enumCmd := none,
    nextTag := 0 }

def Ptp.atReset : Ptp :=
  { t1 := 0, t2 := 0, t3 := 0, syncSeq := 0, haveSync := false, awaitFollow := false, reqSeq := 0, reqOut := false,
    master := 0, good := 0, offset := 0, utc := 0, locked := false,
    interval := 0, servoCount := 0, linkUp := Vector.replicate 2 false }

def Domain.off : Domain := { st := .off, eligible := 0, offFor := 0, rampDone := false, clock := false }

/-- Headgate at reset (R409, R430, R432): domain 0 ON and AON READY, every other domain OFF. -/
def Headgate.atReset (ch32 : Bool) (den : Fin 4) : Headgate :=
  { doms := (Vector.replicate 29 Domain.off).set 0 { Domain.off with st := .on, clock := true }, plls := Vector.replicate 9 .off,
    ready := 1, mode := 0, sleepBegun := false, refLost := false, lastRamp := 0, teEcon := false, pwrEn := true,
    pwrOk := true, offWakeBoot := false, ch32 := ch32, den := den, idValid := false, bhFast := false }

def Proposal.empty : Proposal := { number := 0, st := .empty, kind := 0, reason := 0, target := 0, info := 0 }

/-- RAS at reset (R519, R525, R528): what the parts as shipped hold is Config's (log entry 6). -/
def Ras.atReset : Ras :=
  { props := Vector.replicate 16 Proposal.empty, next := 1, waiting := [], rejected := [], sramFree := Config.sramRepairEntries,
    tabSpareUsed := false, lanesRetired := 0, kslSpareUsed := 0, deferred := [], nvsFree := Config.nvsSpareFree.toNat, wear := [],
    wearMax := Config.nvsWearMax, wearMaxLine := Config.nvsWearMaxLine.toNat, nvsBusy := false,
    hourCorr := Vector.replicate 10 0, hour := 0, dramCorr := [], laneFails := [] }

/-- Cells of the boundary-scan register (R543-R545): 17 control balls that are inputs, 10 that are outputs or bidirectional with three
cells each, and three cells of each CA, CS and DRAM_RESET_N ball. -/
def scanCells : Nat := 17 + 3 * 10 + 3 * (32 * 7 + 32 + 4)

/-- Test-Logic-Reset with IDCODE selected (R545); no other register of the port has a reset value (log entry 2). -/
def Tap.atReset : Tap :=
  { st := .testLogicReset, instr := .idcode, ir := 1, dr := List.replicate 32 false, bsr := List.replicate scanCells false, tdo := none }

def Clocks.atReset : Clocks :=
  { fab := 0, tabPhase := 0, tab := 0, tePhase := 0, aonPhase := 0, aon := 0, ns := 0, frac := 0, freq := 0, wdog := 0, hb := 0 }

/-- The machine after power-on reset (R430), with straps DRAM_CH32 and DRAM_DEN sampled as given (R319). -/
def State.afterPowerOn (ch32 : Bool) (den : Fin 4) : State :=
  { pending := [], freeCount := 0, clk := Clocks.atReset, regs := [], latches := [], holds := [], gates := 0,
    cores := Vector.replicate 4 TaborCore.inReset, coreMap := ⟨#[0, 1, 2, 3], rfl⟩, bh := BellhouseCore.atReset,
    dram := Store.empty, cisSram := Store.empty, ctlSram := Store.empty, nvs := Store.empty, take := Take.atReset,
    banks := Vector.replicate 14 Bank.empty, ringGen := Vector.replicate 4 0, ringPhase := Vector.replicate 4 true, visible := [],
    stalled := [], srcs := [], evcStamp := 0, cku := Vector.replicate 16 Cku.atReset, cis := Cistern.atReset,
    dma := Vector.replicate 64 DmaChannel.atReset, dmaPtr := 0, flume := Flume.atReset, onHold := [], mc := MemCtl.atReset, sns := Sensor.atReset,
    ledgers := Vector.replicate 2 Ledger.atReset, logs := Vector.replicate 2 TakeLog.atReset,
    mags := Vector.replicate 2 MagPort.atReset, slots := Vector.replicate 16 Slot.unused, lateViews := [], wholeViews := [], engines := [],
    clusters := (Vector.replicate 17 (Cluster.atReset 0x7FFF)).set 16 (Cluster.atReset 0xFFFF), tileQueue := [], lastEngine := 255,
    maintQueue := [], streams := Vector.replicate 4 Stream.atReset, sessions := Vector.replicate 9 Session.atReset,
    slu := Sluice.atReset, ksl := Kalsal.atReset, ptp := Ptp.atReset, hdg := Headgate.atReset ch32 den, ras := Ras.atReset,
    tap := Tap.atReset, supply := { vcore := 720, thermTripN := true }, tagCmd := none }

/-- The machine right after reset. The straps and the VDD_CORE set point are no spec value: straps 0 and 0, the nominal
720 mV of R530 (log entry 2). -/
def State.reset : State := State.afterPowerOn false 0

end Sys2Proof.Machine
end

