-- ==== Sys2Proof/Machine/Registers.lean ====
section
/-! DEFINITION. The CSR registers (R498, R499): for every register of the spec's register tables its place in its block, its
access codes (R5) and its reset value, and the named offsets of the registers that the meanings read and write. Fields that are
computed from State (RegLive) have no stored part and reset 0 here. -/

namespace Sys2Proof.Machine

/-- A register, or `count` registers `stride` apart, by offset in its block: the fields of each access code as masks, the
KEY_LOCK bit of its RW-L fields, its reset value and whether it is the _LO (1) or _HI (2) half of a pair (R500). -/
structure RegRow where
  off : Nat
  count : Nat
  stride : Nat
  rw : Word
  w1c : Word
  rc : Word
  rwl : Word
  rwk : Word
  lock : Nat
  reset : Word
  pair : Nat
deriving DecidableEq, Repr

def rowRO (off count stride : Nat) : RegRow := ⟨off, count, stride, 0, 0, 0, 0, 0, 0, 0, 0⟩
def rowRC (off count stride : Nat) : RegRow := { rowRO off count stride with rc := 0xFFFFFFFF }
def rowW1C (off count stride : Nat) (m : Word) : RegRow := { rowRO off count stride with w1c := m }
def rowRW (off count stride : Nat) (m : Word) : RegRow := { rowRO off count stride with rw := m }
def rowLk (off count stride : Nat) (m : Word) (lock : Nat) : RegRow := { rowRO off count stride with rwl := m, lock := lock }
def rowKey (off count stride : Nat) (m : Word) : RegRow := { rowRO off count stride with rwk := m }
/-- the same row with a reset value -/
def RegRow.at0 (r : RegRow) (v : Word) : RegRow := { r with reset := v }
/-- the same row as a _LO half -/
def RegRow.lo (r : RegRow) : RegRow := { r with pair := 1 }
/-- the same row as a _HI half -/
def RegRow.hi (r : RegRow) : RegRow := { r with pair := 2 }

/-- The TOP block (R514). -/
def rowsTop : List RegRow := [
  rowRO 0 1 4,  -- TOP_SILICON_REV
  rowRO 4 1 4,  -- TOP_GRADE
  rowRO 8 1 4,  -- TOP_ID_STAT
  rowRO 0x10 4 4,  -- TOP_FACTORY_ID_i
  rowKey 0x20 1 4 1,  -- TOP_DEBUG
  rowRW 0x24 1 4 0x1FF,  -- TOP_DBG_CTRL
  rowW1C 0x28 1 4 4,  -- TOP_DBG_STAT
  (rowRW 0x40 1 4 0xFFFFFFFF).at0 0xFFFFFFFF,  -- TOP_TAG_HANDLE
  rowRW 0x44 1 4 0x1FFF0FFF,  -- TOP_TAG_RANGE
  rowKey 0x48 1 4 0xFF,  -- TOP_TAG_GO
  rowRO 0x4C 1 4,  -- TOP_TAG_STAT
  rowRW 0x50 1 4 0xFFFF]  -- TOP_TAG_DONE

/-- The KEY block (R509, R513). -/
def rowsKey : List RegRow := [
  (rowLk 0x40 1 4 3 0).at0 3,  -- KEY_MPM_CTRL
  (rowLk 0x100 16 0x20 0xFFFFF000 0).lo,  -- KEY_MPM_BASE_e_LO
  (rowLk 0x104 16 0x20 0xFFFF 0).hi,  -- KEY_MPM_BASE_e_HI
  ((rowLk 0x108 16 0x20 0xFFFFF000 0).at0 0xFFF).lo,  -- KEY_MPM_LIMIT_e_LO
  (rowLk 0x10C 16 0x20 0xFFFF 0).hi,  -- KEY_MPM_LIMIT_e_HI
  rowLk 0x110 16 0x20 0x1F 0,  -- KEY_MPM_PERM_e
  rowRO 0 1 4,  -- KEY_GATE
  rowW1C 4 1 4 0x3E,  -- KEY_STAT
  rowKey 8 1 4 0x3F,  -- KEY_LOCK
  rowRC 0xC 1 4,  -- KEY_BAD_COUNT
  rowRC 0x10 1 4,  -- KEY_LOCK_REJ_COUNT
  (rowRO 0x14 1 4).lo,  -- KEY_LOCK_REJ_ADDR_LO
  (rowRO 0x18 1 4).hi,  -- KEY_LOCK_REJ_ADDR_HI
  rowRC 0x1C 1 4,  -- KEY_MPM_DENY_COUNT
  (rowRO 0x20 1 4).lo,  -- KEY_MPM_DENY_ADDR_LO
  (rowRO 0x24 1 4).hi,  -- KEY_MPM_DENY_ADDR_HI
  rowRO 0x28 1 4]  -- KEY_MPM_DENY_INFO

/-- The HDG block (R432). -/
def rowsHdg : List RegRow := [
  rowW1C 0 1 4 0x17,  -- HDG_STAT
  (rowW1C 4 1 4 0xF).at0 1,  -- HDG_RST_CAUSE
  rowRO 8 1 4,  -- HDG_DOM_STATE_0
  rowRO 0xC 1 4,  -- HDG_DOM_STATE_1
  rowRO 0x10 1 4,  -- HDG_READY_0
  rowRO 0x14 1 4,  -- HDG_READY_1
  rowRO 0x18 1 4,  -- HDG_REQ_ALL
  rowRW 0x20 4 4 0x1FFFFFFE,  -- HDG_REQ_CORE_k
  rowRW 0x30 1 4 0x1FFFFFFE,  -- HDG_REQ_BH
  (rowLk 0x40 1 4 0xFFFF 3).at0 0x578,  -- HDG_INRUSH_Q
  (rowLk 0x44 1 4 0xFFFF 3).at0 0xFA0,  -- HDG_INRUSH_DIDT
  (rowRW 0x48 1 4 0xFF).at0 8,  -- HDG_HOLDOFF
  rowRW 0x4C 1 4 0xFFFFFFFE,  -- HDG_WAKE_EN
  rowRO 0x50 1 4,  -- HDG_SLEEP
  rowRW 0x54 1 4 0xF,  -- HDG_CORE_RUN
  rowKey 0x58 1 4 1,  -- HDG_RESET
  (rowLk 0x5C 1 4 0xFFFFFFFF 3).at0 0x1F4000,  -- HDG_WDOG_PERIOD
  rowRO 0x60 1 4,  -- HDG_WDOG_KICK
  rowLk 0x64 1 4 0x1FF 4,  -- HDG_CLK_CFG
  rowRC 0x68 1 4,  -- HDG_WAKES
  rowRC 0x6C 1 4,  -- HDG_STAGGER
  rowRC 0x70 1 4]  -- HDG_SLEEP_ABANDON

/-- The EVC block (R407, R408). -/
def rowsEvc : List RegRow := [
  rowRW 0 1 4 1,  -- EVC_CTRL
  rowW1C 4 1 4 7,  -- EVC_STAT
  (rowRW 8 1 4 0xFFFFFFFF).lo,  -- EVC_REC_BASE_LO
  (rowRW 0xC 1 4 0xFFFFFFFF).hi,  -- EVC_REC_BASE_HI
  rowRO 0x10 1 4,  -- EVC_REC_PROD
  rowRW 0x14 1 4 0xFF,  -- EVC_REC_CONS
  rowRC 0x18 1 4,  -- EVC_REC_LOST
  rowRC 0x1C 1 4,  -- EVC_COALESCED
  rowRO 0x100 10 8,  -- EVC_CLAIM_t
  rowRO 0x104 10 8,  -- EVC_DONE_t
  rowRW 0x180 4 4 0xFFFF,  -- EVC_KDEST_t
  rowRW 0x1000 1024 4 0x3FFF]  -- EVC_SRC_CFG_n

/-- The CKU block (R318). -/
def rowsCku : List RegRow := [
  rowW1C 0 16 4 0x7C]  -- CKU_STAT_k

/-- The CIS block (R359). -/
def rowsCis : List RegRow := [
  rowW1C 0 1 4 0xF,  -- CIS_STAT
  rowRO 4 1 4,  -- CIS_REJ_HANDLE
  rowRO 8 1 4,  -- CIS_REJ_INFO
  rowRC 0xC 1 4,  -- CIS_REJ_COUNT
  rowRC 0x10 1 4,  -- CIS_CLOSE_FREED
  rowRO 0x100 6 0x20,  -- CIS_POOL_STAT_p
  rowRO 0x104 6 0x20,  -- CIS_POOL_FREE_p
  rowRO 0x108 6 0x20,  -- CIS_POOL_SHARED_p
  rowRO 0x10C 6 0x20,  -- CIS_POOL_N_p
  rowRC 0x110 6 0x20,  -- CIS_POOL_ALLOCS_p
  rowRC 0x114 6 0x20,  -- CIS_POOL_EMPTY_p
  rowRC 0x118 6 0x20,  -- CIS_POOL_CONTEND_p
  rowRO 0x11C 6 0x20]  -- CIS_POOL_ROT_p

/-- The DMA block (R375). -/
def rowsDma : List RegRow := [
  rowW1C 0 1 4 7,  -- DMA_STAT
  rowRO 4 1 4,  -- DMA_INFLIGHT
  rowRO 0x100 64 0x20,  -- DMA_CH_STAT
  rowRC 0x104 64 0x20,  -- DMA_CH_CHAINS
  rowRC 0x108 64 0x20,  -- DMA_CH_ERRORS
  rowRC 0x10C 64 0x20,  -- DMA_CH_LATE
  rowRC 0x110 64 0x20,  -- DMA_CH_REFUSED
  (rowRO 0x114 64 0x20).lo,  -- DMA_CH_BYTES_LO
  (rowRO 0x118 64 0x20).hi,  -- DMA_CH_BYTES_HI
  rowRO 0x11C 64 0x20]  -- DMA_CH_LAST_TAG

/-- The FLM block (R385). -/
def rowsFlm : List RegRow := [
  rowW1C 0 1 4 3,  -- FLM_STAT
  rowRO 4 1 4,  -- FLM_A_MAX
  rowRC 0x100 64 0x10,  -- FLM_LINK_REQ_k
  rowRO 0x104 64 0x10,  -- FLM_LINK_A_MAX_k
  rowRC 0x108 64 0x10,  -- FLM_LINK_CREDIT_WAIT_k
  rowRC 0x10C 64 0x10]  -- FLM_LINK_ERR_k

/-- The SLU block (R394). -/
def rowsSlu : List RegRow := [
  rowW1C 0 1 4 3,  -- SLU_STAT
  rowRC 0x100 6 0x10,  -- SLU_PORT_PKTS_k
  rowRC 0x104 6 0x10,  -- SLU_PORT_IDLE_k
  rowRO 0x200 64 0x10,  -- SLU_FLOW_STAT_f
  rowRC 0x204 64 0x10,  -- SLU_FLOW_PKTS_f
  rowRC 0x208 64 0x10,  -- SLU_FLOW_DROPS_f
  rowRO 0x20C 64 0x10]  -- SLU_FLOW_TOKENS_f

/-- The MC block (R339, R340). -/
def rowsMc : List RegRow := [
  rowRO 0 1 4,  -- MC_CFG
  rowW1C 4 1 4 0x3F0,  -- MC_STAT
  (rowRO 8 1 4).lo,  -- MC_WINDOW_LO
  (rowRO 0xC 1 4).hi,  -- MC_WINDOW_HI
  rowRC 0x10 1 4,  -- MC_AGE_PROMO
  rowRC 0x14 1 4,  -- MC_FSP_DEFERS
  (rowRO 0x18 1 4).lo,  -- MC_SCRUB_PTR_LO
  (rowRO 0x1C 1 4).hi,  -- MC_SCRUB_PTR_HI
  (rowRO 0x40 8 8).lo,  -- MC_SEG_START_k_LO
  (rowRO 0x44 8 8).hi,  -- MC_SEG_START_k_HI
  rowRO 0x100 32 0x20,  -- MC_CH_STAT
  rowRC 0x104 32 0x20,  -- MC_CH_CORR
  rowRC 0x108 32 0x20,  -- MC_CH_UNCORR
  rowRC 0x10C 32 0x20,  -- MC_CH_REF_FORCED
  (rowRO 0x110 32 0x20).lo,  -- MC_CH_LAST_UNCORR_LO
  (rowRO 0x114 32 0x20).hi,  -- MC_CH_LAST_UNCORR_HI
  rowRO 0x118 32 0x20]  -- MC_CH_MARGIN

/-- The SNS block (R478). -/
def rowsSns : List RegRow := [
  rowW1C 0 1 4 0xFF,  -- SNS_STAT
  rowRC 4 1 4,  -- SNS_PICS
  rowRC 8 1 4,  -- SNS_PIC_INCOMPLETE
  rowRC 0xC 1 4,  -- SNS_PIC_DISCARDED
  rowRC 0x10 1 4,  -- SNS_PKT_CRC
  rowRC 0x14 1 4,  -- SNS_WORD_CORR
  rowRC 0x18 1 4,  -- SNS_WORD_UNCORR
  rowRO 0x1C 1 4,  -- SNS_LAST_LOST
  (rowRO 0x20 1 4).lo,  -- SNS_RETIRED_LO
  (rowRO 0x24 1 4).hi,  -- SNS_RETIRED_HI
  rowW1C 0x100 4 0x20 0xC,  -- SNS_LINK_STAT_k
  rowRC 0x104 4 0x20,  -- SNS_LINK_PKTS_k
  rowRO 0x108 4 0x20,  -- SNS_LINK_MARGIN_k
  rowRO 0x10C 4 0x20]  -- SNS_LINK_SKEW_k

/-- The MAG block (R160, R493). -/
def rowsMag : List RegRow := [
  (rowRO 0x800 2 0x80).lo,  -- MAG_LDG_FILL_LO
  (rowRO 0x804 2 0x80).hi,  -- MAG_LDG_FILL_HI
  (rowRO 0x808 2 0x80).lo,  -- MAG_LDG_PEND_LO
  (rowRO 0x80C 2 0x80).hi,  -- MAG_LDG_PEND_HI
  (rowRO 0x810 2 0x80).lo,  -- MAG_LDG_RES_LO
  (rowRO 0x814 2 0x80).hi,  -- MAG_LDG_RES_HI
  (rowRO 0x818 2 0x80).lo,  -- MAG_LDG_CAP_LO
  (rowRO 0x81C 2 0x80).hi,  -- MAG_LDG_CAP_HI
  (rowRO 0x820 2 0x80).lo,  -- MAG_SPILL_USED_LO
  (rowRO 0x824 2 0x80).hi,  -- MAG_SPILL_USED_HI
  rowW1C 0x828 2 0x80 0x1F,  -- MAG_LDG_STAT
  rowRC 0x82C 2 0x80,  -- MAG_LDG_FLOOR_BANDS
  rowRC 0x830 2 0x80,  -- MAG_LDG_DROPPED
  rowRC 0x834 2 0x80,  -- MAG_LDG_SPILLED
  rowRC 0x838 2 0x80,  -- MAG_LDG_OPEN_WAITS
  rowW1C 0x100 2 0x80 0x3F000,  -- MAG_PORT_STAT
  rowRO 0x104 2 0x80,  -- MAG_PORT_QUEUES
  (rowRO 0x108 2 0x80).lo,  -- MAG_PEND_LO
  (rowRO 0x10C 2 0x80).hi,  -- MAG_PEND_HI
  rowRC 0x110 2 0x80,  -- MAG_QWAIT
  rowRC 0x114 2 0x80,  -- MAG_BAND_OVERRUN
  rowRC 0x118 2 0x80,  -- MAG_WRITES
  rowRC 0x11C 2 0x80,  -- MAG_READS
  rowRC 0x120 2 0x80,  -- MAG_TIMEOUTS
  rowRC 0x124 2 0x80,  -- MAG_ERRORS
  rowRO 0x128 2 0x80,  -- MAG_LAST_STATUS
  rowRC 0x12C 2 0x80]  -- MAG_INSERTIONS

/-- The NET block (R494). -/
def rowsNet : List RegRow := [
  (rowRO 0 1 4).lo,  -- NET_TIME_LO
  (rowRO 4 1 4).hi,  -- NET_TIME_HI
  rowW1C 8 1 4 0x18,  -- NET_TIME_STAT
  rowRO 0xC 1 4,  -- NET_PTP_OFFSET
  rowRO 0x10 1 4,  -- NET_UTC_OFFSET
  (rowRO 0x18 1 4).lo,  -- NET_PTP_MASTER_LO
  (rowRO 0x1C 1 4).hi,  -- NET_PTP_MASTER_HI
  rowW1C 0x100 2 0x40 6,  -- NET_PORT_STAT
  rowRC 0x104 2 0x40,  -- NET_TX_FRAMES
  rowRC 0x108 2 0x40,  -- NET_TX_DOWN_DROPS
  rowRC 0x10C 2 0x40,  -- NET_RX_FRAMES
  rowRC 0x110 2 0x40,  -- NET_RX_DISCARDS
  rowRC 0x114 2 0x40,  -- NET_FCS_ERR
  rowRC 0x118 2 0x40,  -- NET_FEC_CORR
  rowRC 0x11C 2 0x40]  -- NET_PAUSE_RX

/-- The KSL block (R461, R462). -/
def rowsKsl : List RegRow := [
  rowLk 0 1 4 0xFFFF 5,  -- KSL_DEV_ID
  rowRO 4 1 4,  -- KSL_ENUM
  rowW1C 8 1 4 0x1F,  -- KSL_STAT
  rowRO 0xC 1 4,  -- KSL_MSG_PROD
  rowRW 0x10 1 4 0x3F,  -- KSL_MSG_CONS
  rowRC 0x14 1 4,  -- KSL_ROUTE_DROPS
  rowRC 0x18 1 4,  -- KSL_RMT_TIMEOUTS
  rowRC 0x1C 1 4,  -- KSL_MSG_LOST
  rowW1C 0x100 4 0x40 0x1E0,  -- KSL_PORT_STAT
  rowRO 0x104 4 0x40,  -- KSL_PORT_LANES
  rowRO 0x108 4 0x40,  -- KSL_PORT_PEER
  rowLk 0x10C 4 0x40 0xFFFFFFFF 5,  -- KSL_RT_RANGE
  (rowLk 0x110 4 0x40 3 5).at0 3,  -- KSL_RT_DIR
  rowRC 0x114 4 0x40,  -- KSL_RETRIES
  rowRC 0x118 4 0x40,  -- KSL_RETRAINS
  rowRC 0x11C 4 0x40,  -- KSL_POISON
  rowRC 0x120 4 0x40,  -- KSL_DISCARDS
  rowRO 0x124 4 0x40,  -- KSL_PORT_MARGIN
  rowRC 0x128 4 0x40,  -- KSL_REFT_DISCARDS
  rowRO 0x12C 4 0x40,  -- KSL_REFT_CAUSE
  rowRC 0x130 4 0x40]  -- KSL_REFT_LATE

/-- The PXY block (R185, R208). -/
def rowsPxy : List RegRow := [
  rowW1C 0x400 4 0x40 0xE,  -- PXY_STR_STAT
  rowRC 0x404 4 0x40,  -- PXY_STR_PICS
  rowRC 0x408 4 0x40,  -- PXY_STR_MIN_CTUS
  rowRC 0x40C 4 0x40,  -- PXY_STR_FILLER_BYTES
  rowRC 0x410 4 0x40,  -- PXY_STR_PKTS
  rowRC 0x414 4 0x40,  -- PXY_STR_RTCP_IN
  (rowRO 0x418 4 0x40).at0 0xFFFFFFFF,  -- PXY_STR_CPB_LOW
  rowRO 0x41C 4 0x40,  -- PXY_STR_LAT_MAX
  rowW1C 0x800 9 0x40 0x1E,  -- PXY_PLAY_STAT
  rowRC 0x804 9 0x40,  -- PXY_PLAY_PICS
  rowRC 0x808 9 0x40,  -- PXY_PLAY_VERIFIED
  rowRC 0x80C 9 0x40,  -- PXY_PLAY_CONCEALED
  rowRC 0x810 9 0x40,  -- PXY_PLAY_DISCARDS
  rowRC 0x814 9 0x40,  -- PXY_PLAY_REJECTS
  rowRO 0x818 9 0x40,  -- PXY_PLAY_RATE
  rowRO 0x81C 9 0x40,  -- PXY_PLAY_LAST
  rowRC 0x820 9 0x40]  -- PXY_PLAY_PREEMPTS

/-- The NVS block (R525). -/
def rowsNvs : List RegRow := [
  rowW1C 0 1 4 6,  -- NVS_STAT
  rowRO 4 1 4,  -- NVS_SPARE_FREE
  rowRC 8 1 4,  -- NVS_LINE_WRITES
  rowRC 0xC 1 4,  -- NVS_REMAPS
  rowRO 0x10 1 4,  -- NVS_WEAR_MAX
  rowRO 0x14 1 4]  -- NVS_WEAR_MAX_LINE

/-- The TEC block (R235, R236, R237). -/
def rowsTec : List RegRow := [
  rowW1C 0 1 4 0xF,  -- TEC_STAT
  rowRO 4 1 4,  -- TEC_SPARE
  rowRO 8 1 4,  -- TEC_ACTIVE
  rowRO 0xC 1 4,  -- TEC_RETIRED
  rowRC 0x10 1 4,  -- TEC_CS_CORR
  rowRC 0x14 1 4,  -- TEC_CS_UNCORR
  rowRC 0x18 1 4,  -- TEC_TM_CORR
  rowRC 0x1C 1 4,  -- TEC_TM_UNCORR
  rowRO 0x20 1 4,  -- TEC_PATCH_ID
  rowRC 0x24 1 4,  -- TEC_MAINT_ABANDON
  rowRO 0x100 64 4,  -- TEC_MATCH_k
  rowRO 0x200 16 4,  -- TE_STAT_k
  rowRC 0x240 16 4,  -- TE_TILES_k
  rowRO 0x280 16 4,  -- TE_SNAP_BUSY_k
  rowRO 0x2C0 16 4]  -- TE_SNAP_WAIT_k

/-- The TAB block (R274). -/
def rowsTab : List RegRow := [
  rowRO 0 1 4,  -- TAB_TAKE_STATE
  rowRO 4 1 4,  -- TAB_TAKE_PIC
  rowRO 0x10 4 4,  -- TAB_HB_k
  (rowRW 0x100 4 0x40 0xFFFFFFFF).lo,  -- TAB_CMD_BASE_LO
  (rowRW 0x104 4 0x40 0xFFFFFFFF).hi,  -- TAB_CMD_BASE_HI
  rowRW 0x108 4 0x40 0xF,  -- TAB_CMD_SIZE
  rowRW 0x10C 4 0x40 0xFFF,  -- TAB_CMD_TAIL
  rowRO 0x110 4 0x40,  -- TAB_CMD_HEAD
  (rowRW 0x114 4 0x40 0xFFFFFFFF).lo,  -- TAB_CPL_BASE_LO
  (rowRW 0x118 4 0x40 0xFFFFFFFF).hi,  -- TAB_CPL_BASE_HI
  rowRO 0x11C 4 0x40,  -- TAB_CPL_TAIL
  rowRW 0x120 4 0x40 0xFFF,  -- TAB_CPL_HEAD
  rowRC 0x124 4 0x40,  -- TAB_RING_STATE_CNT
  rowRC 0x128 4 0x40]  -- TAB_RING_BADARG_CNT

/-- The RAS block (R305, R528, R529). -/
def rowsRas : List RegRow := [
  rowRC 0x100 10 8,  -- RAS_WC_CORR_s
  rowRC 0x104 10 8,  -- RAS_WC_UNCORR_s
  rowW1C 0 1 4 7,  -- RAS_STAT
  rowRW 4 1 4 0xFE,  -- RAS_POLICY
  (rowRO 8 1 4).lo,  -- RAS_SPARE_LO
  (rowRO 0xC 1 4).hi,  -- RAS_SPARE_HI
  rowRO 0x10 1 4,  -- RAS_PROP_NEXT
  rowRO 0x200 22 4,  -- RAS_AGE_k
  rowRO 0x400 16 0x10,  -- RAS_PROP_NUM_j
  rowRO 0x404 16 0x10,  -- RAS_PROP_STAT_j
  rowRO 0x408 16 0x10,  -- RAS_PROP_TARGET_j
  rowRO 0x40C 16 0x10]  -- RAS_PROP_INFO_j

/-- The rows of the block at CSR offset `off` (R498); a reserved offset has none. -/
def blockRows (off : Nat) : List RegRow :=
  match off / 0x10000 with
  | 0 => rowsTop
  | 1 => rowsKey
  | 2 => rowsHdg
  | 3 => rowsEvc
  | 4 => rowsCku
  | 5 => rowsCis
  | 6 => rowsDma
  | 7 => rowsFlm
  | 8 => rowsSlu
  | 9 => rowsMc
  | 0xA => rowsSns
  | 0xB => rowsMag
  | 0xC => rowsNet
  | 0xD => rowsKsl
  | 0xE => rowsPxy
  | 0xF => rowsNvs
  | 0x30 => rowsTab
  | 0x31 => rowsRas
  | b => if 0x10 ≤ b ∧ b ≤ 0x20 then rowsTec else []

/-- The register at CSR offset `off`, or none for a reserved location. -/
def regRowAt (off : Nat) : Option RegRow :=
  let o := off % 0x10000
  (blockRows off).find? (fun r => r.off ≤ o && (o - r.off) % r.stride == 0 && (o - r.off) / r.stride < r.count)

/-- The reset value of the stored part of the register at `off`. -/
def regReset (off : Nat) : Word := ((regRowAt off).map (·.reset)).getD 0

/-! Named CSR offsets. -/

def rTopSiliconRev : Nat := 0
def rTopGrade : Nat := 4
def rTopIdStat : Nat := 8
def rTopFactoryId (k : Nat) : Nat := 0x10 + 4 * k
def rTopDebug : Nat := 0x20
def rTopDbgCtrl : Nat := 0x24
def rTopDbgStat : Nat := 0x28
def rTopTagHandle : Nat := 0x40
def rTopTagRange : Nat := 0x44
def rTopTagGo : Nat := 0x48
def rTopTagStat : Nat := 0x4C
def rTopTagDone : Nat := 0x50
def rKeyMpmCtrl : Nat := 0x10040
def rKeyMpmBase (k : Nat) : Nat := 0x10100 + 0x20 * k
def rKeyMpmLimit (k : Nat) : Nat := 0x10108 + 0x20 * k
def rKeyMpmPerm (k : Nat) : Nat := 0x10110 + 0x20 * k
def rKeyGate : Nat := 0x10000
def rKeyStat : Nat := 0x10004
def rKeyLock : Nat := 0x10008
def rKeyBadCount : Nat := 0x1000C
def rKeyLockRejCount : Nat := 0x10010
def rKeyLockRejAddr : Nat := 0x10014
def rKeyMpmDenyCount : Nat := 0x1001C
def rKeyMpmDenyAddr : Nat := 0x10020
def rKeyMpmDenyInfo : Nat := 0x10028
def rHdgStat : Nat := 0x20000
def rHdgRstCause : Nat := 0x20004
def rHdgDomState0 : Nat := 0x20008
def rHdgDomState1 : Nat := 0x2000C
def rHdgReady0 : Nat := 0x20010
def rHdgReady1 : Nat := 0x20014
def rHdgReqAll : Nat := 0x20018
def rHdgReqCore (k : Nat) : Nat := 0x20020 + 4 * k
def rHdgReqBh : Nat := 0x20030
def rHdgInrushQ : Nat := 0x20040
def rHdgInrushDidt : Nat := 0x20044
def rHdgHoldoff : Nat := 0x20048
def rHdgWakeEn : Nat := 0x2004C
def rHdgSleep : Nat := 0x20050
def rHdgCoreRun : Nat := 0x20054
def rHdgReset : Nat := 0x20058
def rHdgWdogPeriod : Nat := 0x2005C
def rHdgWdogKick : Nat := 0x20060
def rHdgClkCfg : Nat := 0x20064
def rHdgWakes : Nat := 0x20068
def rHdgStagger : Nat := 0x2006C
def rHdgSleepAbandon : Nat := 0x20070
def rEvcCtrl : Nat := 0x30000
def rEvcStat : Nat := 0x30004
def rEvcRecBase : Nat := 0x30008
def rEvcRecProd : Nat := 0x30010
def rEvcRecCons : Nat := 0x30014
def rEvcRecLost : Nat := 0x30018
def rEvcCoalesced : Nat := 0x3001C
def rEvcClaim (k : Nat) : Nat := 0x30100 + 8 * k
def rEvcDone (k : Nat) : Nat := 0x30104 + 8 * k
def rEvcKdest (k : Nat) : Nat := 0x30180 + 4 * k
def rEvcSrcCfg (k : Nat) : Nat := 0x31000 + 4 * k
def rCkuStat (k : Nat) : Nat := 0x40000 + 4 * k
def rCisStat : Nat := 0x50000
def rCisRejHandle : Nat := 0x50004
def rCisRejInfo : Nat := 0x50008
def rCisRejCount : Nat := 0x5000C
def rCisCloseFreed : Nat := 0x50010
def rCisPoolStat (k : Nat) : Nat := 0x50100 + 0x20 * k
def rCisPoolFree (k : Nat) : Nat := 0x50104 + 0x20 * k
def rCisPoolShared (k : Nat) : Nat := 0x50108 + 0x20 * k
def rCisPoolN (k : Nat) : Nat := 0x5010C + 0x20 * k
def rCisPoolAllocs (k : Nat) : Nat := 0x50110 + 0x20 * k
def rCisPoolEmpty (k : Nat) : Nat := 0x50114 + 0x20 * k
def rCisPoolContend (k : Nat) : Nat := 0x50118 + 0x20 * k
def rCisPoolRot (k : Nat) : Nat := 0x5011C + 0x20 * k
def rDmaStat : Nat := 0x60000
def rDmaInflight : Nat := 0x60004
def rDmaChStat (k : Nat) : Nat := 0x60100 + 0x20 * k
def rDmaChChains (k : Nat) : Nat := 0x60104 + 0x20 * k
def rDmaChErrors (k : Nat) : Nat := 0x60108 + 0x20 * k
def rDmaChLate (k : Nat) : Nat := 0x6010C + 0x20 * k
def rDmaChRefused (k : Nat) : Nat := 0x60110 + 0x20 * k
def rDmaChBytes (k : Nat) : Nat := 0x60114 + 0x20 * k
def rDmaChLastTag (k : Nat) : Nat := 0x6011C + 0x20 * k
def rFlmStat : Nat := 0x70000
def rFlmAMax : Nat := 0x70004
def rFlmLinkReq (k : Nat) : Nat := 0x70100 + 0x10 * k
def rFlmLinkAMax (k : Nat) : Nat := 0x70104 + 0x10 * k
def rFlmLinkCreditWait (k : Nat) : Nat := 0x70108 + 0x10 * k
def rFlmLinkErr (k : Nat) : Nat := 0x7010C + 0x10 * k
def rSluStat : Nat := 0x80000
def rSluPortPkts (k : Nat) : Nat := 0x80100 + 0x10 * k
def rSluPortIdle (k : Nat) : Nat := 0x80104 + 0x10 * k
def rSluFlowStat (k : Nat) : Nat := 0x80200 + 0x10 * k
def rSluFlowPkts (k : Nat) : Nat := 0x80204 + 0x10 * k
def rSluFlowDrops (k : Nat) : Nat := 0x80208 + 0x10 * k
def rSluFlowTokens (k : Nat) : Nat := 0x8020C + 0x10 * k
def rMcCfg : Nat := 0x90000
def rMcStat : Nat := 0x90004
def rMcWindow : Nat := 0x90008
def rMcAgePromo : Nat := 0x90010
def rMcFspDefers : Nat := 0x90014
def rMcScrubPtr : Nat := 0x90018
def rMcSegStart (k : Nat) : Nat := 0x90040 + 8 * k
def rMcChStat (k : Nat) : Nat := 0x90100 + 0x20 * k
def rMcChCorr (k : Nat) : Nat := 0x90104 + 0x20 * k
def rMcChUncorr (k : Nat) : Nat := 0x90108 + 0x20 * k
def rMcChRefForced (k : Nat) : Nat := 0x9010C + 0x20 * k
def rMcChLastUncorr (k : Nat) : Nat := 0x90110 + 0x20 * k
def rMcChMargin (k : Nat) : Nat := 0x90118 + 0x20 * k
def rSnsStat : Nat := 0xA0000
def rSnsPics : Nat := 0xA0004
def rSnsPicIncomplete : Nat := 0xA0008
def rSnsPicDiscarded : Nat := 0xA000C
def rSnsPktCrc : Nat := 0xA0010
def rSnsWordCorr : Nat := 0xA0014
def rSnsWordUncorr : Nat := 0xA0018
def rSnsLastLost : Nat := 0xA001C
def rSnsRetired : Nat := 0xA0020
def rSnsLinkStat (k : Nat) : Nat := 0xA0100 + 0x20 * k
def rSnsLinkPkts (k : Nat) : Nat := 0xA0104 + 0x20 * k
def rSnsLinkMargin (k : Nat) : Nat := 0xA0108 + 0x20 * k
def rSnsLinkSkew (k : Nat) : Nat := 0xA010C + 0x20 * k
def rMagLdgFill (k : Nat) : Nat := 0xB0800 + 0x80 * k
def rMagLdgPend (k : Nat) : Nat := 0xB0808 + 0x80 * k
def rMagLdgRes (k : Nat) : Nat := 0xB0810 + 0x80 * k
def rMagLdgCap (k : Nat) : Nat := 0xB0818 + 0x80 * k
def rMagSpillUsed (k : Nat) : Nat := 0xB0820 + 0x80 * k
def rMagLdgStat (k : Nat) : Nat := 0xB0828 + 0x80 * k
def rMagLdgFloorBands (k : Nat) : Nat := 0xB082C + 0x80 * k
def rMagLdgDropped (k : Nat) : Nat := 0xB0830 + 0x80 * k
def rMagLdgSpilled (k : Nat) : Nat := 0xB0834 + 0x80 * k
def rMagLdgOpenWaits (k : Nat) : Nat := 0xB0838 + 0x80 * k
def rMagPortStat (k : Nat) : Nat := 0xB0100 + 0x80 * k
def rMagPortQueues (k : Nat) : Nat := 0xB0104 + 0x80 * k
def rMagPend (k : Nat) : Nat := 0xB0108 + 0x80 * k
def rMagQwait (k : Nat) : Nat := 0xB0110 + 0x80 * k
def rMagBandOverrun (k : Nat) : Nat := 0xB0114 + 0x80 * k
def rMagWrites (k : Nat) : Nat := 0xB0118 + 0x80 * k
def rMagReads (k : Nat) : Nat := 0xB011C + 0x80 * k
def rMagTimeouts (k : Nat) : Nat := 0xB0120 + 0x80 * k
def rMagErrors (k : Nat) : Nat := 0xB0124 + 0x80 * k
def rMagLastStatus (k : Nat) : Nat := 0xB0128 + 0x80 * k
def rMagInsertions (k : Nat) : Nat := 0xB012C + 0x80 * k
def rNetTime : Nat := 0xC0000
def rNetTimeStat : Nat := 0xC0008
def rNetPtpOffset : Nat := 0xC000C
def rNetUtcOffset : Nat := 0xC0010
def rNetPtpMaster : Nat := 0xC0018
def rNetPortStat (k : Nat) : Nat := 0xC0100 + 0x40 * k
def rNetTxFrames (k : Nat) : Nat := 0xC0104 + 0x40 * k
def rNetTxDownDrops (k : Nat) : Nat := 0xC0108 + 0x40 * k
def rNetRxFrames (k : Nat) : Nat := 0xC010C + 0x40 * k
def rNetRxDiscards (k : Nat) : Nat := 0xC0110 + 0x40 * k
def rNetFcsErr (k : Nat) : Nat := 0xC0114 + 0x40 * k
def rNetFecCorr (k : Nat) : Nat := 0xC0118 + 0x40 * k
def rNetPauseRx (k : Nat) : Nat := 0xC011C + 0x40 * k
def rKslDevId : Nat := 0xD0000
def rKslEnum : Nat := 0xD0004
def rKslStat : Nat := 0xD0008
def rKslMsgProd : Nat := 0xD000C
def rKslMsgCons : Nat := 0xD0010
def rKslRouteDrops : Nat := 0xD0014
def rKslRmtTimeouts : Nat := 0xD0018
def rKslMsgLost : Nat := 0xD001C
def rKslPortStat (k : Nat) : Nat := 0xD0100 + 0x40 * k
def rKslPortLanes (k : Nat) : Nat := 0xD0104 + 0x40 * k
def rKslPortPeer (k : Nat) : Nat := 0xD0108 + 0x40 * k
def rKslRtRange (k : Nat) : Nat := 0xD010C + 0x40 * k
def rKslRtDir (k : Nat) : Nat := 0xD0110 + 0x40 * k
def rKslRetries (k : Nat) : Nat := 0xD0114 + 0x40 * k
def rKslRetrains (k : Nat) : Nat := 0xD0118 + 0x40 * k
def rKslPoison (k : Nat) : Nat := 0xD011C + 0x40 * k
def rKslDiscards (k : Nat) : Nat := 0xD0120 + 0x40 * k
def rKslPortMargin (k : Nat) : Nat := 0xD0124 + 0x40 * k
def rKslReftDiscards (k : Nat) : Nat := 0xD0128 + 0x40 * k
def rKslReftCause (k : Nat) : Nat := 0xD012C + 0x40 * k
def rKslReftLate (k : Nat) : Nat := 0xD0130 + 0x40 * k
def rPxyStrStat (k : Nat) : Nat := 0xE0400 + 0x40 * k
def rPxyStrPics (k : Nat) : Nat := 0xE0404 + 0x40 * k
def rPxyStrMinCtus (k : Nat) : Nat := 0xE0408 + 0x40 * k
def rPxyStrFillerBytes (k : Nat) : Nat := 0xE040C + 0x40 * k
def rPxyStrPkts (k : Nat) : Nat := 0xE0410 + 0x40 * k
def rPxyStrRtcpIn (k : Nat) : Nat := 0xE0414 + 0x40 * k
def rPxyStrCpbLow (k : Nat) : Nat := 0xE0418 + 0x40 * k
def rPxyStrLatMax (k : Nat) : Nat := 0xE041C + 0x40 * k
def rPxyPlayStat (k : Nat) : Nat := 0xE0800 + 0x40 * k
def rPxyPlayPics (k : Nat) : Nat := 0xE0804 + 0x40 * k
def rPxyPlayVerified (k : Nat) : Nat := 0xE0808 + 0x40 * k
def rPxyPlayConcealed (k : Nat) : Nat := 0xE080C + 0x40 * k
def rPxyPlayDiscards (k : Nat) : Nat := 0xE0810 + 0x40 * k
def rPxyPlayRejects (k : Nat) : Nat := 0xE0814 + 0x40 * k
def rPxyPlayRate (k : Nat) : Nat := 0xE0818 + 0x40 * k
def rPxyPlayLast (k : Nat) : Nat := 0xE081C + 0x40 * k
def rPxyPlayPreempts (k : Nat) : Nat := 0xE0820 + 0x40 * k
def rNvsStat : Nat := 0xF0000
def rNvsSpareFree : Nat := 0xF0004
def rNvsLineWrites : Nat := 0xF0008
def rNvsRemaps : Nat := 0xF000C
def rNvsWearMax : Nat := 0xF0010
def rNvsWearMaxLine : Nat := 0xF0014
def rTecStat (n : Nat) : Nat := 0x100000 + 0x10000 * n + 0
def rTecSpare (n : Nat) : Nat := 0x100000 + 0x10000 * n + 4
def rTecActive (n : Nat) : Nat := 0x100000 + 0x10000 * n + 8
def rTecRetired (n : Nat) : Nat := 0x100000 + 0x10000 * n + 0xC
def rTecCsCorr (n : Nat) : Nat := 0x100000 + 0x10000 * n + 0x10
def rTecCsUncorr (n : Nat) : Nat := 0x100000 + 0x10000 * n + 0x14
def rTecTmCorr (n : Nat) : Nat := 0x100000 + 0x10000 * n + 0x18
def rTecTmUncorr (n : Nat) : Nat := 0x100000 + 0x10000 * n + 0x1C
def rTecPatchId (n : Nat) : Nat := 0x100000 + 0x10000 * n + 0x20
def rTecMaintAbandon (n : Nat) : Nat := 0x100000 + 0x10000 * n + 0x24
def rTecMatch (n k : Nat) : Nat := 0x100000 + 0x10000 * n + 0x100 + 4 * k
def rTeStat (n k : Nat) : Nat := 0x100000 + 0x10000 * n + 0x200 + 4 * k
def rTeTiles (n k : Nat) : Nat := 0x100000 + 0x10000 * n + 0x240 + 4 * k
def rTeSnapBusy (n k : Nat) : Nat := 0x100000 + 0x10000 * n + 0x280 + 4 * k
def rTeSnapWait (n k : Nat) : Nat := 0x100000 + 0x10000 * n + 0x2C0 + 4 * k
def rTabTakeState : Nat := 0x300000
def rTabTakePic : Nat := 0x300004
def rTabHb (k : Nat) : Nat := 0x300010 + 4 * k
def rTabCmdBase (k : Nat) : Nat := 0x300100 + 0x40 * k
def rTabCmdSize (k : Nat) : Nat := 0x300108 + 0x40 * k
def rTabCmdTail (k : Nat) : Nat := 0x30010C + 0x40 * k
def rTabCmdHead (k : Nat) : Nat := 0x300110 + 0x40 * k
def rTabCplBase (k : Nat) : Nat := 0x300114 + 0x40 * k
def rTabCplTail (k : Nat) : Nat := 0x30011C + 0x40 * k
def rTabCplHead (k : Nat) : Nat := 0x300120 + 0x40 * k
def rTabRingStateCnt (k : Nat) : Nat := 0x300124 + 0x40 * k
def rTabRingBadargCnt (k : Nat) : Nat := 0x300128 + 0x40 * k
def rRasWcCorr (k : Nat) : Nat := 0x310100 + 8 * k
def rRasWcUncorr (k : Nat) : Nat := 0x310104 + 8 * k
def rRasStat : Nat := 0x310000
def rRasPolicy : Nat := 0x310004
def rRasSpare : Nat := 0x310008
def rRasPropNext : Nat := 0x310010
def rRasAge (k : Nat) : Nat := 0x310200 + 4 * k
def rRasPropNum (k : Nat) : Nat := 0x310400 + 0x10 * k
def rRasPropStat (k : Nat) : Nat := 0x310404 + 0x10 * k
def rRasPropTarget (k : Nat) : Nat := 0x310408 + 0x10 * k
def rRasPropInfo (k : Nat) : Nat := 0x31040C + 0x10 * k

end Sys2Proof.Machine
end

