-- ==== Sys2Proof/Machine/Ops.lean ====
section
/-! DEFINITION. The shared operations: registers, owners and links, setup banks, events, the Tuirad word code, the protected
stores and the device address map. -/

namespace Sys2Proof.Machine

variable {α : Type} {n : Nat}

/-! ### Vectors -/

def vget (v : Vector α n) (i : Fin n) : α := v.get i
def vset (v : Vector α n) (i : Fin n) (x : α) : Vector α n := v.set i.1 x i.2
def vmod (v : Vector α n) (i : Fin n) (f : α → α) : Vector α n := vset v i (f (vget v i))
/-- Element `i`, or `d` out of range. -/
def vgetN (d : α) (v : Vector α n) (i : Nat) : α := if h : i < n then vget v ⟨i, h⟩ else d
/-- Replace element `i`; nothing out of range. -/
def vsetN (v : Vector α n) (i : Nat) (x : α) : Vector α n := if h : i < n then vset v ⟨i, h⟩ x else v
def vmodN (v : Vector α n) (i : Nat) (f : α → α) : Vector α n := if h : i < n then vmod v ⟨i, h⟩ f else v

/-- A number as a Fin, reduced. -/
def fin (n : Nat) [NeZero n] (i : Nat) : Fin n := Fin.ofNat n i

/-! ### Registers (R5, R499) -/

/-- The stored part of the register at CSR offset `off`. -/
def State.reg (s : State) (off : Nat) : Word := mapGet regReset s.regs off

/-- Replace the stored part of a register. -/
def State.setReg (s : State) (off : Nat) (w : Word) : State := { s with regs := mapSet regReset s.regs off w }

/-- Hardware sets bits of a register: a W1C event bit. -/
def State.orReg (s : State) (off : Nat) (m : Word) : State := s.setReg off (s.reg off ||| m)

/-- Clear bits of a register. -/
def State.clrReg (s : State) (off : Nat) (m : Word) : State := s.setReg off (s.reg off &&& ~~~m)

/-- Hardware counts `k` in a 32-bit count; past its top the value is free (log entry 3). -/
def State.bump (s : State) (off : Nat) (k : Nat) : State :=
  let v := (s.reg off).toNat + k
  s.setReg off (if v < 2 ^ 32 then BitVec.ofNat 32 v else Config.counterPast (s.reg off) k)

/-- The 64-bit value of a stored pair whose _LO is at `off`. -/
def State.reg64 (s : State) (off : Nat) : DWord := (s.reg (off + 4)) ++ (s.reg off)

/-- Store a 64-bit value in a pair (R500). -/
def State.setReg64 (s : State) (off : Nat) (v : DWord) : State :=
  (s.setReg off (v.extractLsb' 0 32)).setReg (off + 4) (v.extractLsb' 32 32)

/-- KEY_LOCK bit `b` is set (R506). -/
def State.locked (s : State) (b : Nat) : Bool := (s.reg rKeyLock).getLsbD b

/-! ### Links and owners (R376, R21, R345) -/

/-- The physical Tabor core that carries logical core `k` (R515). -/
def State.phys (s : State) (k : Fin 4) : Fin 5 := vget s.coreMap k

/-- The Flume link of an initiator (R376). -/
def State.link (s : State) : Initiator → Fin 64
  | .core k => fin 64 (s.phys k).1
  | .bellhouse => 5
  | .kalsal p => fin 64 (8 + p.1)
  | .dma _ => 7
  | .unit l _ => l

/-- The bytes of the active record of unit `u` (R17, R289); an empty bank has none. -/
def State.active (s : State) (u : Nat) : List Byte :=
  match (vgetN Bank.empty s.banks u).active with
  | some r => r.bytes
  | none => []

/-- A record is in effect for unit `u`. -/
def State.hasActive (s : State) (u : Nat) : Bool := (vgetN Bank.empty s.banks u).active.isSome

def unitSns : Nat := 0
def unitCode : Nat := 1
def unitLog : Nat := 2
def unitLedger : Nat := 3
def unitRef : Nat := 4
def unitPxy (m : Nat) : Nat := 5 + m
def unitNet : Nat := 9
def unitKsl : Nat := 10
def unitSlu : Nat := 11
def unitCis : Nat := 12
def unitMc : Nat := 13

/-- Field of `n` bytes at `off` of the active record of unit `u`, little endian (R4). -/
def State.cfg (s : State) (u off n : Nat) : Nat := leAt (s.active u) off n

/-- OWNER_MAP entry of owner `o` (R345, R355); before any CIS takeover every entry is unassigned (R357). -/
def State.ownerMap (s : State) (o : Nat) : Nat := if 32 ≤ o ∧ o < 64 then s.cfg 12 (16 + (o - 32)) 1 else 0

/-- Initiator `i` acts for owner `o` (R21, R345). -/
def State.actsFor (s : State) (i : Initiator) (o : Nat) : Bool :=
  match i with
  | .core k => o = 1 + k.1 || (32 ≤ o && s.ownerMap o = k.1 && k.1 ≠ 0)
  | .bellhouse => o = 0
  | .kalsal p => o = 8 + p.1
  | .dma w => o = w.1
  | .unit l w => o = w.1 && (linkOwners l.1).contains o

/-- The owner number that an initiator's requests carry when it names none (R21). -/
def ownOwner : Initiator → Fin 64
  | .core k => fin 64 (1 + k.1)
  | .bellhouse => 0
  | .kalsal p => fin 64 (8 + p.1)
  | .dma o => o
  | .unit _ o => o

/-- The READY bit of function `f`, numbered as in `ready` (R428). -/
def State.fnReady (s : State) (f : Nat) : Bool := s.hdg.ready.getLsbD f

/-! ### Event sources (R397-R408) -/

/-- A source as reset leaves it (R408). -/
def srcReset (_ : Nat) : Source :=
  { target := 5, filter := 0, en := false, pol := false, st := .idle, raw := false, passed := 0, since := 0, record := none }

def State.src (s : State) (k : Nat) : Source := mapGet srcReset s.srcs k
def State.setSrc (s : State) (k : Nat) (x : Source) : State := { s with srcs := mapSet srcReset s.srcs k x }

/-- Level sources: the pins 1-4 and the thermal limit 12 (R406). -/
def isLevel (k : Nat) : Bool := (1 ≤ k && k ≤ 4) || k == 12

/-- The target's domain comes to the source's own claimant: targets 0-9 are delivered, 10-15 never (R395). -/
def State.evcDisabled (s : State) : Bool := (s.reg rEvcCtrl).getLsbD 0

/-- PENDING sources of target `t` in increasing number. -/
def State.pendingOf (s : State) (t : Fin 16) : List (Nat × Source) :=
  s.srcs.filter (fun p => p.2.st = .pending && p.2.target = t)

/-- Which source a claim of target `t` selects (R401), 0 for none: one passed over 256 times and pending longest, else the lowest. The claim
logic selects none before EVC is READY (R19, R23). -/
def State.claimable (s : State) (t : Fin 16) : Nat :=
  if s.evcDisabled || !s.fnReady 9 then 0
  else
    let ps := s.pendingOf t
    let old := (ps.filter (fun p => 256 ≤ p.2.passed)).foldl
      (fun b p => match b with
        | none => some p
        | some q => if p.2.since < q.2.since then some p else some q) none
    match old with
    | some p => p.1
    | none => (ps.head?.map (·.1)).getD 0

/-- The claim of a selected source: it becomes ACTIVE, RAW of an edge source clears, the others of the target are passed over. -/
def State.claimSource (s : State) (t : Fin 16) (k : Nat) : State :=
  let x := s.src k
  let s := s.setSrc k { x with st := .active, raw := x.raw && isLevel k, passed := 0 }
  (s.pendingOf t).foldl (fun s p => s.setSrc p.1 { p.2 with passed := p.2.passed + 1 }) s

/-- A source becomes PENDING (R397). -/
def State.toPending (s : State) (k : Nat) : State :=
  { s with evcStamp := s.evcStamp + 1 }.setSrc k { s.src k with st := .pending, since := s.evcStamp + 1, passed := 0 }

/-! ### The word code (R302-R304) -/

def codeA (g : Nat) : Nat := if g = 7 then 2 else 1
def codeB (g : Nat) : Nat := if g = 7 then 4 else g + 2

/-- Column of data bit `j` (R302). -/
def codeCol (j : Nat) : Half :=
  let g := j / 16
  let t := j % 16
  BitVec.twoPow 16 t ||| BitVec.twoPow 16 ((t + codeA g) % 16) ||| BitVec.twoPow 16 ((t + codeB g) % 16)

/-- Check bits of 128 data bits (R302). -/
def codeChk (data : BitVec 128) : Half :=
  (upFrom 0 128).foldl (fun c j => if data.getLsbD j then c ^^^ codeCol j else c) 0

/-- What a reader makes of a syndrome (R303). -/
inductive Verdict where
  | clean | checkBit | dataBit (j : Nat) | poisoned | uncorr
deriving DecidableEq, Repr

/-- R303. -/
def verdict (syn : Half) : Verdict :=
  if syn = 0 then .clean
  else if syn = 0xFFFF then .poisoned
  else if popNat 16 syn.toNat = 1 then .checkBit
  else match (upFrom 0 128).find? (fun j => codeCol j = syn) with
    | some j => .dataBit j
    | none => .uncorr

/-- The word's data cannot be trusted: uncorrectable or poisoned. -/
def Verdict.bad : Verdict → Bool
  | .poisoned => true
  | .uncorr => true
  | _ => false

/-- The word was found wrong in one bit and corrected. -/
def Verdict.corrected : Verdict → Bool
  | .checkBit => true
  | .dataBit _ => true
  | _ => false

/-- A code word as it arrives (R303): its data corrected where it can be, and the verdict. -/
def readCode (w : CodeWord) : BitVec 128 × Verdict :=
  match verdict (codeChk w.data ^^^ w.chk) with
  | .dataBit j => (w.data ^^^ BitVec.twoPow 128 j, .dataBit j)
  | v => (w.data, v)

/-- The 16 bytes of 128 data bits (R4). -/
def wordBytes (d : BitVec 128) : List Byte := leBytes 16 d.toNat

/-- A code word with good check bits, of 16 bytes. -/
def goodWord (b : List Byte) : CodeWord :=
  let d := BitVec.ofNat 128 (leNat (b.take 16))
  { data := d, chk := codeChk d }

/-! ### Protected stores (R301, R546) -/

/-- Channel and channel physical byte of DRAM address `a` for grain 2^g and n channels (R323). -/
def dramChan (g n a : Nat) : Nat := a / 2 ^ g % n
def dramPhys (g n a : Nat) : Nat :=
  let o := a / 2 ^ g / n * 2 ^ g + a % 2 ^ g
  o / 512 * 576 + o % 512

/-- Self-refresh keeps a byte exactly when its whole 576 B group lies in kept segments (R335). -/
def DramLoss.keeps (l : DramLoss) (a : Nat) : Bool :=
  let grp := dramPhys l.grainLog2 l.nCh a / 576
  let seg := l.chanBytes / 8
  natBit l.keepSeg (576 * grp / seg) && natBit l.keepSeg ((576 * grp + 575) / seg)

/-- The loss takes the byte at `a`. -/
def DramLoss.takes (l : DramLoss) (a : Nat) : Bool := l.whole || (decide (dramChan l.grainLog2 l.nCh a / 16 = l.half) && !l.keeps a)

/-- The number of the latest loss that took the byte at `a`. -/
def lossAt : List DramLoss → Nat → Option Nat
  | [], _ => none
  | l :: r, a => if l.takes a then some r.length else lossAt r a

/-- What unlisted byte `a` and the syndrome of unlisted code word `i` are: 0 and no error, free values once a loss has taken them (R336). -/
def byteReset (l : List DramLoss) (a : Nat) : Byte :=
  match lossAt l a with
  | none => 0
  | some n => Config.lostByte n a
def synReset (l : List DramLoss) (i : Nat) : Half :=
  match lossAt l (16 * i) with
  | none => 0
  | some n => Config.lostSyn n i

/-- The stored byte at `a`. -/
def Store.byte (m : Store) (a : Nat) : Byte := mapGet (byteReset m.loss) m.bytes a
/-- The syndrome of code word `i`. -/
def Store.syndrome (m : Store) (i : Nat) : Half := mapGet (synReset m.loss) m.syn i
/-- Both maps are in canonical form. -/
abbrev Store.wf (m : Store) : Prop := mapWf (byteReset m.loss) m.bytes ∧ mapWf (synReset m.loss) m.syn

/-- The byte a reader sees at `a`: its word corrected under R303. -/
def Store.readByte (m : Store) (a : Nat) : Byte :=
  match verdict (m.syndrome (a / 16)) with
  | .dataBit j => if j / 8 = a % 16 then m.byte a ^^^ BitVec.twoPow 8 (j % 8) else m.byte a
  | _ => m.byte a

/-- `k` bytes as a reader sees them. -/
def Store.read (m : Store) (a k : Nat) : List Byte := (upFrom a k).map m.readByte

/-- The code words that `k` bytes at `a` touch. -/
def wordsOf (a k : Nat) : List Nat := if k = 0 then [] else upFrom (a / 16) ((a + k - 1) / 16 + 1 - a / 16)

/-- The verdicts of the words that `k` bytes at `a` touch. -/
def Store.verdicts (m : Store) (a k : Nat) : List Verdict := (wordsOf a k).map (fun i => verdict (m.syndrome i))

/-- Store raw bytes from `a` up, checks left alone. -/
def Store.put (m : Store) (a : Nat) : List Byte → Store
  | [] => m
  | b :: bs => { m with bytes := mapSet (byteReset m.loss) m.bytes a b }.put (a + 1) bs

def Store.setSyn (m : Store) (i : Nat) (v : Half) : Store := { m with syn := mapSet (synReset m.loss) m.syn i v }

/-- A write takes code word `i` before its bytes change: a word written whole gets good check bits; a partial write corrects
the rest of the word first, and leaves it poisoned when it cannot (R546). -/
def Store.rewrite (m : Store) (a k i : Nat) : Store :=
  if a ≤ 16 * i ∧ 16 * i + 16 ≤ a + k then m.setSyn i 0
  else match verdict (m.syndrome i) with
    | .clean => m
    | .checkBit => m.setSyn i 0
    | .dataBit j => (m.put (16 * i + j / 8) [m.readByte (16 * i + j / 8)]).setSyn i 0
    | .poisoned => m
    | .uncorr => m.setSyn i 0xFFFF

/-- Write bytes at `a` (R546). -/
def Store.write (m : Store) (a : Nat) (b : List Byte) : Store :=
  ((wordsOf a b.length).foldl (fun m i => m.rewrite a b.length i) m).put a b

/-- Mark the word at byte address `a` poisoned (R304). -/
def Store.poison (m : Store) (a : Nat) : Store := m.setSyn (a / 16) 0xFFFF

/-- Bits of code word `i` change: 128 data bits, then 16 check bits (R301). -/
def Store.upset (m : Store) (i : Nat) (bits : BitVec 144) : Store :=
  let d := bits.extractLsb' 0 128
  let flip := (upFrom 0 16).map (fun k => m.byte (16 * i + k) ^^^ d.extractLsb' (8 * k) 8)
  (m.put (16 * i) flip).setSyn i (m.syndrome i ^^^ codeChk d ^^^ bits.extractLsb' 128 16)

/-- A scrub of code word `i`: written back corrected where it can be (R230, R303). -/
def Store.scrub (m : Store) (i : Nat) : Store := if (verdict (m.syndrome i)).corrected then (m.put (16 * i) (m.read (16 * i) 16)).setSyn i 0 else m

/-- The sites of R305. -/
def siteCtl : Nat := 0
def siteTabor : Nat := 1
def siteBh : Nat := 2
def siteCis : Nat := 3
def siteDram : Nat := 4
def siteFlume : Nat := 5
def siteKalsal : Nat := 6
def siteTile : Nat := 7
def siteStore : Nat := 8
def siteNvs : Nat := 9

/-- Count corrected and uncorrectable words at a site (R305); a poisoned word is not counted again. -/
def State.countSite (s : State) (site : Nat) (vs : List Verdict) : State :=
  let c := (vs.filter (·.corrected)).length
  let u := (vs.filter (· = .uncorr)).length
  let s := if c = 0 then s else s.bump (rRasWcCorr site) c
  if u = 0 then s else s.bump (rRasWcUncorr site) u

/-! ### The device address map (R496, R322, R341-R343, R315, R354) -/

/-- Installed channels (R319). -/
def State.nCh (s : State) : Nat := if s.hdg.ch32 then 32 else 16
/-- Channel `c` is installed (R319). -/
def State.chanThere (s : State) (c : Nat) : Bool := c < s.nCh
/-- Capacity of a channel (R319). -/
def State.chanBytes (s : State) : Nat := 2 ^ (29 + s.hdg.den.1)
/-- Usable data of a channel, by R322's table of the capacities. -/
def State.chanUse (s : State) : Nat := nth 0 [477167616, 954400768, 1908867072, 3817734144] s.hdg.den.1
/-- The usable window (R322). -/
def State.window (s : State) : Nat := s.nCh * s.chanUse

/-- Buffer sizes, SRAM buffers and SRAM offsets of the pools (R341). -/
def poolSize (p : Nat) : Nat := 256 * 4 ^ p
def poolSram (p : Nat) : Nat := nth 0 [8192, 4096, 2048, 512, 192, 56] p
def poolOff (p : Nat) : Nat := nth 0 [0, 0x200000, 0x600000, 0xE00000, 0x1600000, 0x2200000] p

def cisBase : Nat := 0x010000000000
def ctlBase : Nat := 0x020000000000
def nvsBase : Nat := 0x030000000000
def csrBase : Nat := 0x0F0000000000

/-- Where a device address leads. -/
inductive Region where
  | dram (a : Nat)
  | cis (off : Nat)
  | cku (k : Fin 16) (off : Nat)
  | page (o : Fin 64) (off : Nat)
  | ctl (off : Nat)
  | nvs (off : Nat)
  | csr (off : Nat)
  | nowhere
deriving DecidableEq, Repr

/-- R496, R497. -/
def State.region (s : State) (a : Nat) : Region :=
  if a < s.window then .dram a
  else if cisBase ≤ a ∧ a < cisBase + 0x3000000 then .cis (a - cisBase)
  else if 0x010040000000 ≤ a ∧ a < 0x010040010000 then .cku (fin 16 ((a - 0x010040000000) / 0x1000)) (a % 0x1000)
  else if 0x010040080000 ≤ a ∧ a < 0x010040084000 then .page (fin 64 ((a - 0x010040080000) / 0x100)) (a % 0x100)
  else if ctlBase ≤ a ∧ a < ctlBase + 0x400000 then .ctl (a - ctlBase)
  else if nvsBase ≤ a ∧ a < nvsBase + 0x200000 then .nvs (a - nvsBase)
  else if csrBase ≤ a ∧ a < csrBase + 0x400000 then .csr (a - csrBase)
  else .nowhere

/-- EXT_COUNT and EXT_BASE of pool `p` in the configuration in effect (R355, R357). -/
def State.extCount (s : State) (p : Nat) : Nat := s.cfg 12 (48 + 24 * p + 8) 4
def State.extBase (s : State) (p : Nat) : Nat := s.cfg 12 (48 + 24 * p) 8
/-- N[p] (R341). -/
def State.poolN (s : State) (p : Nat) : Nat := poolSram p + s.extCount p

def handleOf (p i : Nat) : Word := BitVec.ofNat 32 (p * 2 ^ 29 + i)
def bufKey (p i : Nat) : Nat := p * 2 ^ 29 + i
def noBuf (_ : Nat) : Option Buffer := none

/-- The ALLOCATED buffer of a handle, or none when FREE (R344). -/
def State.buf (s : State) (h : Nat) : Option Buffer := mapGet noBuf s.cis.bufs h
def State.setBuf (s : State) (h : Nat) (b : Option Buffer) : State :=
  { s with cis := { s.cis with bufs := mapSet noBuf s.cis.bufs h b } }

/-- First byte of buffer `i` of pool `p` (R343); an extension buffer of an earlier configuration keeps its place (R357). -/
def State.bufAddr (s : State) (p i : Nat) : Nat :=
  if i < poolSram p then cisBase + poolOff p + i * poolSize p
  else (vgetN 0 s.cis.extBase p) + (i - poolSram p) * poolSize p

/-- The buffer whose bytes hold offset `off` of the Cistern SRAM. -/
def sramBuf (off : Nat) : Nat :=
  let p := ((upFrom 0 6).filter (fun p => poolOff p ≤ off)).length - 1
  bufKey p ((off - poolOff p) / poolSize p)

/-- The extension buffer whose bytes hold DRAM address `a`, if any. -/
def State.extBuf (s : State) (a : Nat) : Option Nat :=
  ((upFrom 0 6).find? (fun p => vgetN 0 s.cis.extBase p ≤ a ∧
      a < vgetN 0 s.cis.extBase p + vgetN 0 s.cis.extCount p * poolSize p)).map
    (fun p => bufKey p (poolSram p + (a - vgetN 0 s.cis.extBase p) / poolSize p))

/-- R352: the initiator may touch the buffer. -/
def State.mayTouch (s : State) (i : Initiator) (h : Nat) : Bool :=
  match s.buf h with
  | some b => s.actsFor i b.holder.1
  | none => false

/-- The holder check for a region (R352): true where no buffer is concerned. -/
def State.touchOk (s : State) (i : Initiator) : Region → Bool
  | .cis off => s.mayTouch i (sramBuf off)
  | .dram a => match s.extBuf a with
    | some h => s.mayTouch i h
    | none => true
  | _ => true

/-- Channel of a DRAM address (R323). -/
def State.chanOf (s : State) (a : Nat) : Nat := dramChan s.mc.grainLog2 s.nCh a
/-- Channel physical byte address of a DRAM address (R323). -/
def State.physOf (s : State) (a : Nat) : Nat :=
  dramPhys s.mc.grainLog2 s.nCh a
def bankOfPhys (phy : Nat) : Nat := phy / 2048 % 16
def rowOfPhys (phy : Nat) : Nat := phy / 32768

end Sys2Proof.Machine
end

