-- ==== Sys2Proof/Machine/Operands.lean ====
section
/-! DEFINITION. The operands of DSN instructions: registers, FL, PC and system registers of a Tabor logical core (64 bits, R238-R241)
and of Bellhouse (32 bits, R271), and the operand forms of the formats (R244). Bellhouse's values are held zero-extended. -/

namespace Sys2Proof.Machine

/-- `v` lies in `lo` to `hi`. -/
def between (lo v hi : Nat) : Bool := decide (lo ≤ v) && decide (v ≤ hi)

/-- Width of a core's registers. -/
def coreWidth : Core → Nat
  | .tabor _ => 64
  | .bellhouse => 32

def State.modCore (s : State) (k : Fin 4) (f : TaborCore → TaborCore) : State := { s with cores := vmod s.cores k f }
def State.modBh (s : State) (f : BellhouseCore → BellhouseCore) : State := { s with bh := f s.bh }

/-- Register d[r]. -/
def State.getD (s : State) (c : Core) (r : Fin 32) : DWord :=
  match c with
  | .tabor k => vget (vget s.cores k).d r
  | .bellhouse => (vget s.bh.d r).setWidth 64

/-- Write d[r]; on Bellhouse the low 32 bits. -/
def State.setD (s : State) (c : Core) (r : Fin 32) (v : DWord) : State :=
  match c with
  | .tabor k => s.modCore k (fun x => { x with d := vset x.d r v })
  | .bellhouse => s.modBh (fun x => { x with d := vset x.d r (v.setWidth 32) })

def State.getFl (s : State) (c : Core) : DWord :=
  match c with
  | .tabor k => (vget s.cores k).fl
  | .bellhouse => s.bh.fl.setWidth 64

def State.setFl (s : State) (c : Core) (v : DWord) : State :=
  match c with
  | .tabor k => s.modCore k (fun x => { x with fl := v })
  | .bellhouse => s.modBh (fun x => { x with fl := v.setWidth 32 })

def State.getPc (s : State) (c : Core) : DWord :=
  match c with
  | .tabor k => (vget s.cores k).pc
  | .bellhouse => s.bh.pc.setWidth 64

def State.setPc (s : State) (c : Core) (v : DWord) : State :=
  match c with
  | .tabor k => s.modCore k (fun x => { x with pc := v })
  | .bellhouse => s.modBh (fun x => { x with pc := v.setWidth 32 })

def State.getStatus (s : State) (c : Core) : DWord :=
  match c with
  | .tabor k => (vget s.cores k).status
  | .bellhouse => s.bh.status.setWidth 64

def State.setStatus (s : State) (c : Core) (v : DWord) : State :=
  match c with
  | .tabor k => s.modCore k (fun x => { x with status := v })
  | .bellhouse => s.modBh (fun x => { x with status := v.setWidth 32 })

def State.getXpc (s : State) (c : Core) : DWord :=
  match c with
  | .tabor k => (vget s.cores k).xpc
  | .bellhouse => s.bh.xpc.setWidth 64

def State.setXpc (s : State) (c : Core) (v : DWord) : State :=
  match c with
  | .tabor k => s.modCore k (fun x => { x with xpc := v })
  | .bellhouse => s.modBh (fun x => { x with xpc := v.setWidth 32 })

def State.getXcause (s : State) (c : Core) : DWord :=
  match c with
  | .tabor k => (vget s.cores k).xcause
  | .bellhouse => s.bh.xcause.setWidth 64

def State.getXaddr (s : State) (c : Core) : DWord :=
  match c with
  | .tabor k => (vget s.cores k).xaddr
  | .bellhouse => s.bh.xaddr.setWidth 64

/-- XCAUSE and XADDR, which only an exception writes (R240). -/
def State.setCause (s : State) (c : Core) (code : Nat) (addr : DWord) : State :=
  match c with
  | .tabor k => s.modCore k (fun x => { x with xcause := BitVec.ofNat 64 code, xaddr := addr })
  | .bellhouse => s.modBh (fun x => { x with xcause := BitVec.ofNat 32 code, xaddr := addr.setWidth 32 })

def State.getXvec (s : State) (c : Core) : DWord :=
  match c with
  | .tabor k => (vget s.cores k).xvec
  | .bellhouse => s.bh.xvec.setWidth 64

def State.setXvec (s : State) (c : Core) (v : DWord) : State :=
  match c with
  | .tabor k => s.modCore k (fun x => { x with xvec := v })
  | .bellhouse => s.modBh (fun x => { x with xvec := v.setWidth 32 })

def State.coreRun (s : State) (c : Core) : CoreRun :=
  match c with
  | .tabor k => (vget s.cores k).run
  | .bellhouse => s.bh.run

def State.setRun (s : State) (c : Core) (r : CoreRun) : State :=
  match c with
  | .tabor k => s.modCore k (fun x => { x with run := r })
  | .bellhouse => s.modBh (fun x => { x with run := r })

/-- The core runs at P1 (R266); Bellhouse always does (R271). -/
def State.atP1 (s : State) (c : Core) : Bool := (s.getStatus c).getLsbD 0

/-! ### Control SRAM lines in the data caches (R253) -/

/-- A control SRAM line that a cache holds dirty is written to the SRAM, poisoned words as they are; the caches keep control SRAM coherent without
software action (R253, log entry 89). -/
def CacheLine.toCtl (l : CacheLine) (m : Store) : Store :=
  let o := 64 * l.line - ctlBase
  ((upFrom 0 4).filter (fun i => (verdict (l.mem.syndrome i)).bad)).foldl (fun m i => m.poison (o + 16 * i)) (m.write o (l.mem.read 0 64))

/-- The line lies in control SRAM and within `n` bytes at device address `a`. -/
def CacheLine.ctlWithin (l : CacheLine) (a n : Nat) : Bool :=
  decide (ctlBase ≤ 64 * l.line) && decide (64 * l.line < ctlBase + 0x400000) && decide (64 * l.line < a + n) && decide (a < 64 * l.line + 64)

/-- The control SRAM lines of `n` bytes at `a` that cores hold dirty are written back; `drop` says whether the caches also lose them. -/
def State.ctlSync (s : State) (a n : Nat) (drop : Bool) : State :=
  let lines := s.cores.toList.flatMap (fun x => x.dcache.filter (fun l => l.ctlWithin a n))
  if lines = [] then s
  else
    let s := { s with ctlSram := (lines.filter (·.dirty)).foldl (fun m l => l.toCtl m) s.ctlSram }
    let keep : CacheLine → CacheLine := fun l => if l.ctlWithin a n then { l with dirty := false } else l
    (upFrom 0 4).foldl (fun s k => s.modCore (fin 4 k) (fun x =>
      { x with dcache := if drop then x.dcache.filter (fun l => !l.ctlWithin a n) else x.dcache.map keep })) s

/-- PC to the next instruction. -/
def State.nextPc (s : State) (c : Core) : State := s.setPc c (s.getPc c + 4)

/-- The initiator that a core is. -/
def coreIni : Core → Initiator
  | .tabor k => .core k
  | .bellhouse => .bellhouse

/-- The event controller target of a core (R395). -/
def coreTarget : Core → Fin 16
  | .tabor k => fin 16 k.1
  | .bellhouse => 5

/-- The sign-extended immediate of a format I word. -/
def immS (f : FmtI) : DWord := f.imm.signExtend 64
/-- The zero-extended immediate of a format I word. -/
def immZ (f : FmtI) : DWord := f.imm.setWidth 64
/-- imm << 16 × q of a format U word. -/
def immU (f : FmtU) : DWord := (f.imm.setWidth 64) <<< (16 * f.q.1)
/-- Bits [16q + 15:16q] set. -/
def holeU (f : FmtU) : DWord := (0xFFFF : DWord) <<< (16 * f.q.1)
/-- Address ra + off of a format M word (R244); Bellhouse adds in 32 bits. -/
def State.addrM (s : State) (c : Core) (f : FmtM) : DWord :=
  let a := s.getD c f.ra + f.off.signExtend 64
  match c with
  | .tabor _ => a
  | .bellhouse => (a.setWidth 32).setWidth 64
/-- Branch target PC + 4 × off (R244). -/
def State.branchTo {w : Nat} (s : State) (c : Core) (off : BitVec w) : DWord := s.getPc c + 4 * off.signExtend 64

/-- Reserved bits of a format A word are 0 (R243). -/
def fmtAPlain (f : FmtA) : Bool := f.rsv = 0
/-- Reserved bits of a format U word are 0, and the quarter exists on the core (R243, R271). -/
def fmtUPlain (c : Core) (f : FmtU) : Bool :=
  f.rsv = 0 && (match c with
    | .tabor _ => true
    | .bellhouse => decide (f.q.1 < 2))

/-- A Tabor core. -/
def isTabor : Core → Bool
  | .tabor _ => true
  | .bellhouse => false

end Sys2Proof.Machine
end

