-- ==== Sys2Proof/Machine/Flags.lean ====
section
/-! DEFINITION. Results and flags of the DSN operations (R239, R245, R246), for any register width, and the conditions of
branches (R251). -/

namespace Sys2Proof.Machine

/-- Flags Z, S, C, O (R239). -/
structure Flags where
  z : Bool
  s : Bool
  c : Bool
  o : Bool
deriving DecidableEq, Repr

/-- A flag as its bit of FL. -/
def flagBit (b : Bool) (i : Nat) : DWord := if b then BitVec.twoPow 64 i else 0

/-- FL with Z, S, C and O replaced. -/
def putFlags (fl : DWord) (f : Flags) : DWord :=
  (fl &&& ~~~(0xF : DWord)) ||| flagBit f.z 0 ||| flagBit f.s 1 ||| flagBit f.c 2 ||| flagBit f.o 3

/-- FL with ST replaced (R239). -/
def putSt (fl : DWord) (st : Byte) : DWord := (fl &&& ~~~(0xFF00 : DWord)) ||| ((st.setWidth 64) <<< 8)

def flZ (fl : DWord) : Bool := fl.getLsbD 0
def flS (fl : DWord) : Bool := fl.getLsbD 1
def flC (fl : DWord) : Bool := fl.getLsbD 2
def flO (fl : DWord) : Bool := fl.getLsbD 3
def flSt (fl : DWord) : Byte := fl.extractLsb' 8 8

/-- The bits of FL that exist; the rest read 0 and ignore writes (R239). -/
def flMask : DWord := 0xFF0F

/-- The operations of OPA and OPM (R245, R246). -/
inductive AluOp where
  | add | sub | and | or | xor | andn | sll | srl | sra | ror | min | max | minu | maxu | slt | sltu | addsat | subsat | clz | popc
  | mul | mulh | mulhu | divs | divu | rems | remu | fxmul (k : Nat)
deriving DecidableEq, Repr

variable {w : Nat}

/-- An integer saturated to `w` signed bits. -/
def satInt (w : Nat) (v : Int) : Int := if v < -(2 ^ (w - 1)) then -(2 ^ (w - 1)) else if 2 ^ (w - 1) - 1 < v then 2 ^ (w - 1) - 1 else v

/-- Leading zero bits. -/
def clzNat (w : Nat) (v : Nat) : Nat := w - ((upFrom 0 w).filter (fun i => decide (2 ^ i ≤ v))).length

/-- Whether a sum or difference leaves the signed range. -/
def outOfRange (w : Nat) (v : Int) : Bool := satInt w v ≠ v

/-- A boolean as a register value. -/
def boolVal (w : Nat) (b : Bool) : BitVec w := if b then 1 else 0

/-- Result, C and O of an operation (R245, R246); shift amounts are taken modulo the width. -/
def alu (op : AluOp) (a b : BitVec w) : BitVec w × Bool × Bool :=
  let n := b.toNat % w
  match op with
  | .add => (a + b, decide (2 ^ w ≤ a.toNat + b.toNat), outOfRange w (a.toInt + b.toInt))
  | .sub => (a - b, decide (a.toNat < b.toNat), outOfRange w (a.toInt - b.toInt))
  | .and => (a &&& b, false, false)
  | .or => (a ||| b, false, false)
  | .xor => (a ^^^ b, false, false)
  | .andn => (a &&& ~~~b, false, false)
  | .sll => (a <<< n, n ≠ 0 && a.getLsbD (w - n), false)
  | .srl => (a >>> n, n ≠ 0 && a.getLsbD (n - 1), false)
  | .sra => (a.sshiftRight n, n ≠ 0 && a.getLsbD (n - 1), false)
  | .ror => (a.rotateRight n, false, false)
  | .min => (if a.toInt ≤ b.toInt then a else b, false, false)
  | .max => (if a.toInt ≤ b.toInt then b else a, false, false)
  | .minu => (if a.toNat ≤ b.toNat then a else b, false, false)
  | .maxu => (if a.toNat ≤ b.toNat then b else a, false, false)
  | .slt => (boolVal w (decide (a.toInt < b.toInt)), false, false)
  | .sltu => (boolVal w (decide (a.toNat < b.toNat)), false, false)
  | .addsat => (BitVec.ofInt w (satInt w (a.toInt + b.toInt)), false, outOfRange w (a.toInt + b.toInt))
  | .subsat => (BitVec.ofInt w (satInt w (a.toInt - b.toInt)), false, outOfRange w (a.toInt - b.toInt))
  | .clz => (BitVec.ofNat w (clzNat w a.toNat), false, false)
  | .popc => (BitVec.ofNat w (popNat w a.toNat), false, false)
  | .mul => (a * b, false, outOfRange w (a.toInt * b.toInt))
  | .mulh => (BitVec.ofInt w (a.toInt * b.toInt / 2 ^ w), false, false)
  | .mulhu => (BitVec.ofNat w (a.toNat * b.toNat / 2 ^ w), false, false)
  | .divs => if b = 0 then (0, false, true) else (BitVec.ofInt w (a.toInt.tdiv b.toInt), false, outOfRange w (a.toInt.tdiv b.toInt))
  | .divu => if b = 0 then (0, false, true) else (BitVec.ofNat w (a.toNat / b.toNat), false, false)
  | .rems => if b = 0 then (a, false, true) else (BitVec.ofInt w (a.toInt.tmod b.toInt), false, outOfRange w (a.toInt.tdiv b.toInt))
  | .remu => if b = 0 then (a, false, true) else (BitVec.ofNat w (a.toNat % b.toNat), false, false)
  | .fxmul k =>
    let p := (a.toInt * b.toInt + 2 ^ (k - 1)) / 2 ^ k
    (BitVec.ofInt w (satInt w p), false, outOfRange w p)

/-- The flags of an operation: Z and S follow the result (R245). -/
def aluFlags (op : AluOp) (a b : BitVec w) : Flags :=
  let r := alu op a b
  { z := r.1 = 0, s := r.1.msb, c := r.2.1, o := r.2.2 }

/-- Result and flags of an operation on a core: 64-bit on Tabor, 32-bit on Bellhouse (R271). -/
def coreAlu (c : Core) (op : AluOp) (a b : DWord) : DWord × Flags :=
  match c with
  | .tabor _ => ((alu op a b).1, aluFlags op a b)
  | .bellhouse =>
    let x := a.setWidth 32
    let y := b.setWidth 32
    ((alu op x y).1.setWidth 64, aluFlags op x y)

/-- R251. -/
def condHolds (fl : DWord) (cond : Fin 16) : Bool :=
  match cond.1 with
  | 0 => true
  | 1 => flZ fl
  | 2 => !flZ fl
  | 3 => flS fl != flO fl
  | 4 => flS fl == flO fl
  | 5 => flZ fl || flS fl != flO fl
  | 6 => !flZ fl && flS fl == flO fl
  | 7 => flC fl
  | 8 => !flC fl
  | 9 => flC fl || flZ fl
  | 10 => !flC fl && !flZ fl
  | 11 => flS fl
  | 12 => !flS fl
  | 13 => flO fl
  | 14 => !flO fl
  | _ => flSt fl = 0

end Sys2Proof.Machine
end

