-- ==== Sys2Proof/Machine/Events.lean ====
section
/-! DEFINITION. Raising, delivering and completing events (R396-R405): the operations every unit shares. -/

namespace Sys2Proof.Machine

/-- The core's WAITE ends (R263): rd, ST, and the next instruction. -/
def State.endWait (s : State) (c : Core) (rd : Fin 32) (src : Nat) (st : Byte) : State :=
  (((s.setD c rd (BitVec.ofNat 64 src)).setFl c (putSt ((s.setD c rd (BitVec.ofNat 64 src)).getFl c) st)).setRun c .running).nextPc c

/-- A core that waits in WAITE claims as soon as a source of its target is claimable (R263). -/
def State.deliverTo (s : State) (c : Core) : State :=
  match s.coreRun c with
  | .waiting rd _ =>
    let k := s.claimable (coreTarget c)
    if k = 0 then s else (s.claimSource (coreTarget c) k).endWait c rd k 0
  | _ => s

/-- The cores that can wait in WAITE. -/
def allCores : List Core := [.tabor 0, .tabor 1, .tabor 2, .tabor 3, .bellhouse]

/-- Every waiting core with a claimable source claims. -/
def State.deliver (s : State) : State := allCores.foldl (fun s c => s.deliverTo c) s

/-- The 16 bytes of an event record (R405). -/
def EventRecord.image (r : EventRecord) : List Byte :=
  leBytes 2 r.source ++ [r.cause, r.status] ++ leBytes 2 r.tile.toNat ++ [0, 0] ++ leBytes 4 r.picture.toNat ++ leBytes 4 r.info.toNat

/-- The record ring lies wholly within control SRAM (R405). -/
def State.recRing (s : State) : Option Nat :=
  let b := (s.reg64 rEvcRecBase).toNat
  if ctlBase ≤ b ∧ b + 4096 ≤ ctlBase + 0x400000 then some (b - ctlBase) else none

/-- Write an event record to the record ring, or lose it (R405). -/
def State.putRecord (s : State) (r : EventRecord) : State :=
  let prod := (s.reg rEvcRecProd).toNat % 256
  let cons := (s.reg rEvcRecCons).toNat % 256
  match s.recRing with
  | some b =>
    if (prod + 1) % 256 = cons then (s.orReg rEvcStat 2).bump rEvcRecLost 1
    else
      let s := s.ctlSync (ctlBase + b + 16 * prod) 16 true
      { s with ctlSram := s.ctlSram.write (b + 16 * prod) r.image }.setReg rEvcRecProd (BitVec.ofNat 32 ((prod + 1) % 256))
  | none => (s.orReg rEvcStat 2).bump rEvcRecLost 1

/-- The state change of an edge raise (R397): nothing while EN = 0 but RAW. -/
def State.edgeRaise (s : State) (k : Nat) : State :=
  let x := s.src k
  let s := s.setSrc k { x with raw := true }
  if !x.en then s
  else match x.st with
    | .idle => s.toPending k
    | .pending => s.bump rEvcCoalesced 1
    | .active => s.setSrc k { x with raw := true, st := .repend }
    | .repend => s.bump rEvcCoalesced 1

/-- A unit raises source `k`, with an event record where it has one (R397, R405). -/
def State.raiseWith (s : State) (k : Nat) (r : Option EventRecord) : State :=
  if k = 0 ∨ 1024 ≤ k ∨ isLevel k then s
  else
    let en := (s.src k).en
    let s := match r with
      | some r => if en then (s.setSrc k { s.src k with record := some r }).putRecord r else s
      | none => s
    (s.edgeRaise k).deliver

/-- A raise without a record. -/
def State.raise (s : State) (k : Nat) : State := s.raiseWith k none

/-- A raise with a record. -/
def State.raiseRec (s : State) (k : Nat) (cause status tileIx pic info : Nat) : State :=
  s.raiseWith k (some (EventRecord.mk k (BitVec.ofNat 8 cause) (BitVec.ofNat 8 status) (BitVec.ofNat 16 tileIx)
    (BitVec.ofNat 32 pic) (BitVec.ofNat 32 info)))

/-- The filtered line of a level source changes (R397, R398). -/
def State.lineChange (s : State) (k : Nat) (line : Bool) : State :=
  let x := s.src k
  let s := s.setSrc k { x with raw := line }
  if line then (if x.en ∧ x.st = .idle then (s.toPending k).deliver else s)
  else (if x.st = .pending then s.setSrc k { x with raw := line, st := .idle } else s)

/-- The completion of source `k` through target `t` (R397, R402). -/
def State.complete (s : State) (t : Fin 16) (k : Nat) : State :=
  let x := s.src k
  if (x.st = .active ∨ x.st = .repend) ∧ x.target = t ∧ k ≠ 0 ∧ k < 1024 then
    let again := if isLevel k then x.raw else decide (x.st = .repend)
    if x.en && again then (s.toPending k).deliver else s.setSrc k { x with st := .idle }
  else s.orReg rEvcStat 1

/-- Software writes EVC_SRC_CFG (R408). -/
def State.writeSrcCfg (s : State) (k : Nat) (v : Word) : State :=
  if k = 0 ∨ 1024 ≤ k then s
  else
    let x := s.src k
    let en := v.getLsbD 12
    let free := !x.en && x.st = .idle
    let y : Source := if free then
        { x with target := fin 16 (v.toNat % 16), filter := v.extractLsb' 4 8, pol := v.getLsbD 13, en := en }
      else { x with en := en }
    let ignored := !free && (v.toNat % 16 ≠ x.target.1 || v.extractLsb' 4 8 ≠ x.filter || v.getLsbD 13 ≠ x.pol)
    let s := if ignored then s.orReg rEvcStat 4 else s
    let y := if !en && x.st = .pending then { y with st := .idle } else y
    let s := s.setSrc k y
    if en && isLevel k && y.raw && y.st = .idle then (s.toPending k).deliver else s

/-- EVC_CTRL DISABLE is written (R403): cleared, every PENDING source becomes deliverable. -/
def State.writeDisable (s : State) (v : Word) : State := (s.setReg rEvcCtrl (v &&& 1)).deliver

/-- A software read of EVC_CLAIM (R401): targets 0-5 claim, 6-9 read 0, 10-15 are reserved. -/
def State.claimRead (s : State) (t : Fin 16) : State × Nat :=
  if t.1 ≤ 5 then
    let k := s.claimable t
    if k = 0 then (s, 0) else (s.claimSource t k, k)
  else (s, 0)

/-- The initiator is the claimant of target `t` (R395): logical cores 0-3, the physical core without a logical number, Bellhouse. -/
def State.claimantOf (s : State) (i : Initiator) (t : Fin 16) : Bool :=
  match i with
  | .core k => k.1 = t.1
  | .bellhouse => t = 5
  | .unit l _ => t = 4 && l.1 < 5 && !((upFrom 0 4).any (fun k => (s.phys (fin 4 k)).1 = l.1))
  | _ => false

/-- A write of EVC_DONE (R401, R402). -/
def State.doneWrite (s : State) (i : Initiator) (t : Fin 16) (v : Word) : State :=
  if 10 ≤ t.1 then s
  else if 6 ≤ t.1 then s.orReg rEvcStat 1
  else if s.claimantOf i t then s.complete t (v.toNat % 1024)
  else s.orReg rEvcStat 1

end Sys2Proof.Machine
end

