-- ==== Sys2Proof/Machine/Ras.lean ====
section
/-! DEFINITION. The RAS monitor's counts (R517), spares and proposals (R515, R518-R522), and what a take boundary does with tile
engines out of service (R516). -/

namespace Sys2Proof.Machine

def State.modRas (s : State) (f : Ras → Ras) : State := { s with ras := f s.ras }

/-- Source 13 with RAS_STAT THRESHOLD (R517, R528). -/
def State.threshold (s : State) : State := (s.orReg rRasStat 4).raise 13

/-! ### Engines and clusters (R209-R210, R235) -/

/-- The engine state as reset leaves it, with the logical number of R210. -/
def engineReset (j : Nat) : Engine :=
  { logical := if 256 ≤ j then some (j - 16) else if j % 16 = 15 then none else some (15 * (j / 16) + j % 16)
    retired := false, out := none, run := .idle, fault := none, stop := false, preempt := none, snapshot := false, halt := false,
    halted := false, seq := Sequencer.atReset, units := Datapath.atReset, tm := Store.empty, busy := 0, e := 0, floorTile := false, viewOk := [] }

def State.engine (s : State) (j : Nat) : Engine := mapGet engineReset s.engines j
def State.setEngine (s : State) (j : Nat) (x : Engine) : State := { s with engines := mapSet engineReset s.engines j x }
def State.cluster (s : State) (n : Nat) : Cluster := vgetN (Cluster.atReset 0) s.clusters n
def State.modCluster (s : State) (n : Nat) (f : Cluster → Cluster) : State := { s with clusters := vmodN s.clusters n f }

/-- The cluster whose spare stands behind cluster `n` (R209). -/
def spareCluster (n : Nat) : Nat := if n = 16 then 15 else n

/-- The cluster whose control store engine `j` fetches from (R209, R234). -/
def State.storeOf (s : State) (j : Nat) : Nat := if j = 255 ∧ (s.cluster 15).lent then 16 else j / 16

/-- The owner number that engine `j` carries (R21, R234): its cluster's, or that of cluster 16 while it is lent to it. -/
def State.engineOwner (s : State) (j : Nat) : Nat := 15 + s.storeOf j

/-- Engine `j` is in service. -/
def State.inService (s : State) (j : Nat) : Bool :=
  (s.engine j).logical.isSome && !(s.engine j).retired && (s.engine j).out.isNone && (s.cluster (s.storeOf j)).out.isNone

/-! ### Proposals (R515, R518) -/

/-- The spare of a proposal's resource is already used (R515). -/
def State.spareGone (s : State) (kind target : Nat) : Bool :=
  match kind with
  | 1 => (s.cluster (spareCluster (target / 16))).spareUsed
  | 2 => s.ras.tabSpareUsed
  | 3 => decide (4 ≤ s.ras.lanesRetired)
  | 4 => s.ras.kslSpareUsed.getLsbD (target / 16)
  | 5 => s.ras.sramFree = 0
  | _ => !(vgetN DramChan.atReset s.mc.chans (target / 16)).pprAvail.getLsbD (target % 16)

def Proposal.live (p : Proposal) : Bool := decide (p.st = .proposed) || decide (p.st = .approved)
/-- Every proposal of an entry, in entry order. -/
def State.entries (s : State) : List Proposal := (upFrom 0 16).map (fun j => vgetN Proposal.empty s.ras.props j)

/-- A proposal for this resource is PROPOSED, APPROVED or waiting, or was REJECTED (R518). -/
def State.hasProposal (s : State) (kind target : Nat) : Bool :=
  let same : Proposal → Bool := fun p => p.kind = kind && p.target.toNat = target
  s.entries.any (fun p => p.live && same p) || s.ras.waiting.any same || s.ras.deferred.any same ||
    s.ras.rejected.any (fun r => r.1 = kind && r.2.toNat = target)

/-- The entry that a new proposal takes (R518): an empty one, else that of the lowest-numbered finished one (log entry 19). -/
def State.freeEntry (s : State) : Option Nat :=
  let idx := upFrom 0 16
  let at0 := fun j => vgetN Proposal.empty s.ras.props j
  match idx.find? (fun j => decide ((at0 j).st = .empty)) with
  | some j => some j
  | none => (idx.filter (fun j => !(at0 j).live)).foldl (fun b j => match b with
    | none => some j
    | some i => if (at0 j).number.toNat < (at0 i).number.toNat then some j else some i) none

/-- A proposal takes its number and its entry (R518, R519), or waits inside Bellhouse. -/
def State.enter (s : State) (p : Proposal) : State :=
  match s.freeEntry with
  | none => (s.modRas (fun r => { r with waiting := r.waiting ++ [p] })).orReg rRasStat 1
  | some j =>
    let auto := (s.reg rRasPolicy).getLsbD p.kind
    let q : Proposal := { p with number := s.ras.next, st := if auto then .approved else .proposed }
    (s.modRas (fun r => { r with props := vsetN r.props j q, next := r.next + 1 })).raise 14

/-- A cluster's other engine already has its proposal (R522). -/
def State.clusterBusy (s : State) (target : Nat) : Bool :=
  let same : Proposal → Bool := fun p => p.kind = 1 && p.target.toNat / 16 = target / 16
  s.entries.any (fun p => p.live && same p) || s.ras.waiting.any same

/-- A proposal is formed as soon as its condition is met (R515, R518, R522). -/
def State.propose (s : State) (kind target reason info : Nat) : State :=
  let p : Proposal := { number := 0, st := .proposed, kind := kind, reason := BitVec.ofNat 8 reason, target := BitVec.ofNat 32 target,
                        info := BitVec.ofNat 32 info }
  if s.hasProposal kind target then s
  else if kind = 1 ∧ s.clusterBusy target then s.modRas (fun r => { r with deferred := r.deferred ++ [p] })
  else if s.spareGone kind target then s.threshold
  else s.enter p

/-- Waiting proposals enter as entries become free. -/
def State.admitWaiting (s : State) : State :=
  s.ras.waiting.foldl (fun s p => if s.freeEntry.isSome then (s.modRas (fun r => { r with waiting := r.waiting.drop 1 })).enter p else s) s

/-- The entry of a proposal number. -/
def State.entryOf (s : State) (number : Word) : Option Nat :=
  if number = 0 then none else (upFrom 0 16).find? (fun j => (vgetN Proposal.empty s.ras.props j).number = number)

/-- A proposal changes state (R518): source 14; a REJECTED resource is remembered. After the first swap-in of a cluster is DONE, the
proposal of its next engine is formed (R522). -/
def State.moveProposal (s : State) (j : Nat) (st : PropState) : State :=
  let p := vgetN Proposal.empty s.ras.props j
  let s := (s.modRas (fun r => { r with props := vsetN r.props j { p with st := st }
                                        rejected := if st = .rejected then r.rejected ++ [(p.kind, p.target)] else r.rejected })).raise 14
  let s := if p.live ∧ st ≠ .approved ∧ st ≠ .proposed then s.admitWaiting else s
  if st = .done ∧ p.kind = 1 then
    let mine := s.ras.deferred.filter (fun q => q.target.toNat / 16 = p.target.toNat / 16)
    let next := mine.foldl (fun b q => match b with
      | none => some q
      | some x => if q.target.toNat < x.target.toNat then some q else some x) (none : Option Proposal)
    match next with
    | some q => (s.modRas (fun r => { r with deferred := r.deferred.filter (fun x => x.target ≠ q.target) })).enter q
    | none => s
  else s

/-! ### The RAS monitor (R517) -/

/-- An hour in always-on cycles (R517). -/
def hourCycles : Nat := 7372800000

/-- The corrected words of one site in an hour that R517 allows. -/
def siteLimit (site : Nat) : Nat := if site = siteDram then 10000 else 1000

/-- Words found at a site: the counts of R305, the monitor's own count in the current hour (log entry 20), and source 13 when a
limit is crossed or a word is uncorrectable. -/
def State.siteWords (s : State) (site : Nat) (vs : List Verdict) : State :=
  let c := (vs.filter (·.corrected)).length
  let u := (vs.filter (· = .uncorr)).length
  let s := s.countSite site vs
  let h := s.clk.aon / hourCycles
  let base := if h = s.ras.hour then s.ras.hourCorr else Vector.replicate 10 0
  let old := vgetN 0 base site
  let s := if c = 0 then s else s.modRas (fun r => { r with hour := h, hourCorr := vsetN base site (old + c) })
  let s := if old ≤ siteLimit site ∧ siteLimit site < old + c then s.threshold else s
  if u = 0 then s else s.threshold

/-! ### The take boundary (R516, R521) -/

/-- The take is at a boundary (R516). -/
def State.atBoundary (s : State) : Bool :=
  decide (s.take.st = .idle) || decide (s.take.st = .loaded) || decide (s.take.st = .closed) || decide (s.take.st = .faulted)

/-- A microcode fault (R231). -/
def EngineFault.isMicrocode : EngineFault → Bool
  | .seq => true
  | .reserved => true
  | .stack => true
  | .region => true
  | .safeGap => true
  | _ => false

/-- Engines and clusters that return to service at a take boundary (R516); the patch RAM row is no stated number (log entry 7). -/
def State.returnEngines (s : State) : State :=
  let s := s.engines.foldl (fun s e =>
    if (e.2.out.map EngineFault.isMicrocode).getD false then s.setEngine e.1 { s.engine e.1 with out := none } else s) s
  (upFrom 0 17).foldl (fun s n => match (s.cluster n).out with
    | some .uncorrRam => (s.modCluster n (fun c => { c with out := none })).propose 5 (Config.unstated 1 n) 2 1
    | some .uncorrRom => (s.modCluster n (fun c => { c with out := none })).threshold
    | _ => s) s

/-- The APPROVED proposal that is executed next: the lowest number that no restriction holds back (R521). -/
def State.nextExec (s : State) : Option Nat :=
  let at0 := fun j => vgetN Proposal.empty s.ras.props j
  let playing := (upFrom 0 9).any (fun k => (vgetN Session.atReset s.sessions k).params.isSome)
  if !s.atBoundary then none
  else ((upFrom 0 16).filter (fun j => decide ((at0 j).st = .approved) &&
      (decide ((at0 j).kind ≠ 2) || decide (s.take.st = .idle)) && (decide ((at0 j).kind ≠ 6) || !playing))).foldl (fun b j => match b with
    | none => some j
    | some i => if (at0 j).number.toNat < (at0 i).number.toNat then some j else some i) none

def MaintKind.isSwap : MaintKind → Bool
  | .swapIn _ => true
  | _ => false

/-- A swap-in is requested or runs: an execution in progress (R521). -/
def State.swapping (s : State) : Bool :=
  s.maintQueue.any (fun r => r.kind.isSwap) || s.engines.any (fun e => match e.2.run with
    | .maint r => r.kind.isSwap
    | _ => false)

/-- A kind 1 proposal whose turn it is asks for its swap-in routine (R234, R521). -/
def State.startExec (s : State) : State :=
  match s.nextExec with
  | some j =>
    let p := vgetN Proposal.empty s.ras.props j
    if p.kind = 1 ∧ !s.swapping then
      { s with maintQueue := s.maintQueue ++ [{ kind := .swapIn p.target.toNat, abandoned := 0, guarded := false }] }
    else s
  | none => s

/-! ### The FSP request that waits (R332) -/

/-- A sequence to FSP `f` starts (R331): the entry sequence where `f` has no trained values, nothing where it is the current FSP. -/
def State.fspStart (s : State) (f : Fin 3) : State :=
  if f = s.mc.fsp then s
  else { s with mc := { s.mc with training := some { entry := !s.mc.trained.getLsbD f.1, fsp := f } } }

/-- Both halves that are installed serve traffic. -/
def State.mcReady (s : State) : Bool := s.mc.readyA && (!s.hdg.ch32 || s.mc.readyB)

/-- The request that waits is taken once no sequence runs, the memory is READY and the take lets it (R332). -/
def State.fspTake (s : State) : State :=
  match s.mc.fspPend with
  | some f =>
    if s.mc.training.isSome || !s.atBoundary || !s.mcReady then s
    else { s with mc := { s.mc with fspPend := none } }.fspStart f
  | none => s

/-- What the device does at a take boundary (R332, R516, R521). -/
def State.takeBoundary (s : State) : State := s.returnEngines.startExec.fspTake

/-- The next execution when it is of kind `kind`. -/
def State.execOf (s : State) (kind : Nat) : Option (Nat × Proposal) :=
  match s.nextExec with
  | some j => let p := vgetN Proposal.empty s.ras.props j
    if p.kind = kind then some (j, p) else none
  | none => none

end Sys2Proof.Machine
end

