-- ==== Sys2Proof/Machine/Memory.lean ====
section
/-! DEFINITION. Reading and writing the memories behind device addresses (R496): the word code at each site (R303, R305, R546,
R328), the holder check (R352) and the memory protection map (R507, R508). -/

namespace Sys2Proof.Machine

/-- The protected stores behind device addresses. -/
inductive StoreId where
  | dram | cis | ctl | nvs
deriving DecidableEq, Repr

/-- The store and the address in it that a region names. -/
def Region.cell : Region → Option (StoreId × Nat)
  | .dram a => some (.dram, a)
  | .cis a => some (.cis, a)
  | .ctl a => some (.ctl, a)
  | .nvs a => some (.nvs, a)
  | _ => none

def State.store (s : State) : StoreId → Store
  | .dram => s.dram
  | .cis => s.cisSram
  | .ctl => s.ctlSram
  | .nvs => s.nvs

def State.setStore (s : State) (id : StoreId) (m : Store) : State :=
  match id with
  | .dram => { s with dram := m }
  | .cis => { s with cisSram := m }
  | .ctl => { s with ctlSram := m }
  | .nvs => { s with nvs := m }

def StoreId.site : StoreId → Nat
  | .dram => siteDram
  | .cis => siteCis
  | .ctl => siteCtl
  | .nvs => siteNvs

/-- A corrected DRAM word enters the list of this scrub period; the third of a row forms a kind 6 proposal (R515). -/
def State.dramCorrected (s : State) (c phy : Nat) : State :=
  if s.ras.dramCorr.contains (c, phy) then s
  else
    let s := s.modRas (fun r => { r with dramCorr := r.dramCorr ++ [(c, phy)] })
    if 3 ≤ (s.ras.dramCorr.filter (fun p => p.1 = c && rowOfPhys p.2 = rowOfPhys phy && bankOfPhys p.2 = bankOfPhys phy)).length then
      s.propose 6 (16 * c + bankOfPhys phy) 1 (rowOfPhys phy)
    else s

/-- One DRAM word found wrong: the channel counters, MC_CH_LAST_UNCORR and source 32 (R328), and the proposals of R515. -/
def State.noteDramWord (s : State) (a : Nat) (v : Verdict) : State :=
  let c := s.chanOf a
  let phy := s.physOf a
  let s := if v.corrected then (s.bump (rMcChCorr c) 1).dramCorrected c phy else s
  if v = .uncorr then
    let s := (((s.bump (rMcChUncorr c) 1).setReg64 (rMcChLastUncorr c) (BitVec.ofNat 64 phy)).orReg rMcStat 0x10).raise 32
    s.propose 6 (16 * c + bankOfPhys phy) 2 (rowOfPhys phy)
  else s

/-- Always-on cycles of 24 h (R515). -/
def dayCycles : Nat := 24 * hourCycles

/-- The row and the column, as kind 5 proposals name them, that a word of an SRAM site lies in: the spec places no word in a macro (log entry 7). -/
def sramRow (w : Nat × Nat) : Nat := Config.unstated 2 (w.1 + 16 * w.2)
def sramColumn (w : Nat × Nat) : Nat := Config.unstated 29 (w.1 + 16 * w.2)

/-- A corrected word of an on-chip SRAM: the fourth distinct one of a row or column within 24 h forms a kind 5 proposal (R515). -/
def State.sramCorrected (s : State) (site i : Nat) : State :=
  let old := s.ras.sramCorr.filter (fun w => decide (s.clk.aon - w.2.2 ≤ dayCycles) && decide ((w.1, w.2.1) ≠ (site, i)))
  let s := s.modRas (fun r => { r with sramCorr := old ++ [(site, i, s.clk.aon)] })
  if old.length < 3 then s
  else
    let alike := fun (f : Nat × Nat → Nat) => decide (3 ≤ (old.filter (fun w => f (w.1, w.2.1) = f (site, i))).length)
    let s := if alike sramRow then s.propose 5 (sramRow (site, i)) 1 4 else s
    if alike sramColumn then s.propose 5 (sramColumn (site, i)) 1 4 else s

/-- What a word of an on-chip SRAM found wrong means for its row and column (R515): one that is uncorrectable is enough. -/
def State.noteSramWord (s : State) (site i : Nat) (v : Verdict) : State :=
  let s := if v.corrected then s.sramCorrected site i else s
  if v = .uncorr then s.propose 5 (sramRow (site, i)) 2 1 else s

/-- What a read or a partial write of `k` bytes at `a` counts (R305, R328, R515, R517). -/
def State.noteWords (s : State) (id : StoreId) (a k : Nat) : State :=
  let m := s.store id
  (wordsOf a k).foldl (fun t i =>
    let v := verdict (m.syndrome i)
    match id with
    | .dram => t.noteDramWord (16 * i) v
    | .nvs => t
    | id => t.noteSramWord id.site i v) (s.siteWords id.site (m.verdicts a k))

/-- What an access finds: bytes, bytes of which some word is uncorrectable or poisoned, or a refusal: no region, no holder. -/
inductive ReadOut where
  | ok (b : List Byte)
  | bad (b : List Byte)
  | refused
deriving DecidableEq, Repr

/-- The identity page, written at manufacture only (R511): factory ID, silicon revision, grade. -/
def nvsIdentity (a : Nat) (b : Byte) : Byte :=
  if a < 16 then Config.factoryId.extractLsb' (8 * a) 8
  else if a < 18 then Config.siliconRev.extractLsb' (8 * (a - 16)) 8
  else if a < 20 then (0x7160 : Half).extractLsb' (8 * (a - 18)) 8
  else if a = 20 then (if Config.gradeX then 1 else 0)
  else b

/-- `k` bytes of a store as a reader sees them. -/
def State.readBytes (s : State) (id : StoreId) (a k : Nat) : List Byte :=
  match id with
  | .nvs => ((s.nvs.read a k).zip (upFrom a k)).map (fun p => nvsIdentity p.2 p.1)
  | id => (s.store id).read a k

/-- Read `k` bytes of a store. -/
def State.readStore (s : State) (id : StoreId) (a k : Nat) : State × ReadOut :=
  let b := s.readBytes id a k
  (s.noteWords id a k, if ((s.store id).verdicts a k).any (·.bad) then .bad b else .ok b)

/-- The words that `k` bytes at `a` touch in part. -/
def partWords (a k : Nat) : List Nat := (wordsOf a k).filter (fun i => !(decide (a ≤ 16 * i) && decide (16 * i + 16 ≤ a + k)))

/-- Write bytes into a store (R546). -/
def State.writeStore (s : State) (id : StoreId) (a : Nat) (b : List Byte) : State :=
  let s' := (partWords a b.length).foldl (fun t i => t.noteWords id (16 * i) 16) s
  s'.setStore id ((s.store id).write a b)

/-- Bytes a unit reads for its own work, as carried (R304): a refused read gives zeros. -/
def State.peek (s : State) (a k : Nat) : List Byte :=
  match (s.region a).cell with
  | some (id, o) => s.readBytes id o k
  | none => List.replicate k 0

/-- Some word of `k` bytes at `a` is uncorrectable or poisoned. -/
def State.peekBad (s : State) (a k : Nat) : Bool :=
  match (s.region a).cell with
  | some (id, o) => ((s.store id).verdicts o k).any (·.bad)
  | none => false

/-- A unit's own write to a store behind an address; nothing where there is none, nor in the NVS array, which Bellhouse alone writes (R14). -/
def State.poke (s : State) (a : Nat) (b : List Byte) : State :=
  match (s.region a).cell with
  | some (.nvs, _) => s
  | some (id, o) => (s.ctlSync a b.length true).writeStore id o b
  | none => s

/-- Payload words of `n` bytes at a device address that some uncorrectable or poisoned word touches (R301, R304). -/
def State.badWords (s : State) (a n : Nat) : List Nat :=
  (upFrom 0 (ceilDiv n 16)).filter (fun i => s.peekBad (a + 16 * i) (Nat.min 16 (n - 16 * i)))

/-- The words of a store that `n` bytes at device address `a` touch are poisoned (R304). -/
def State.poisonAt (s : State) (a n : Nat) : State :=
  match (s.region a).cell with
  | some (.nvs, _) => s
  | some (id, o) => s.setStore id ((wordsOf o n).foldl (fun m i => m.poison (16 * i)) (s.store id))
  | none => s

/-- The stretches of `n` bytes at `a` that lie in an uncorrectable or poisoned word: address and length (R304). -/
def State.badSpans (s : State) (a n : Nat) : List (Nat × Nat) :=
  ((wordsOf a n).filter (fun i => s.peekBad (16 * i) 16)).map (fun i =>
    (Nat.max a (16 * i), Nat.min (a + n) (16 * i + 16) - Nat.max a (16 * i)))

/-- What a unit's reading of memory counts: the words of `n` bytes at `a` (R305). -/
def State.noteArea (s : State) (a n : Nat) : State :=
  match (s.region a).cell with
  | some (id, o) => s.noteWords id o n
  | none => s

/-- The same for several areas, by address and length. -/
def State.noteAreas (s : State) (l : List (Nat × Nat)) : State := l.foldl (fun s a => s.noteArea a.1 a.2) s

/-- A unit reads `n` bytes at `a` for its own work: what that counts, the bytes, and whether some word of them is uncorrectable or poisoned. What a
core's cache still holds of control SRAM is seen (R253). -/
def State.readArea (s : State) (a n : Nat) : State × List Byte × Bool :=
  let s := s.ctlSync a n false
  (s.noteArea a n, s.peek a n, s.peekBad a n)

/-- The words of a store that take bytes of the given stretches, moved from `a` to `o`, are poisoned (R304). -/
def State.poisonSpans (s : State) (id : StoreId) (a o : Nat) (l : List (Nat × Nat)) : State :=
  s.setStore id ((l.flatMap (fun p => wordsOf (o + (p.1 - a)) p.2)).foldl (fun m i => m.poison (16 * i)) (s.store id))

/-- A unit moves `n` bytes from `a` to `d`: a word that takes a byte of a bad word is poisoned in its turn (R304, R305). -/
def State.move (s : State) (a d n : Nat) : State :=
  let r := s.readArea a n
  let t := r.1.poke d r.2.1
  match (s.region d).cell with
  | some (.nvs, _) => t
  | some (id, o) => t.poisonSpans id a o (s.badSpans a n)
  | none => t

/-! ### Requests to the memory channels (R321, R325-R328) -/

def State.modMc (s : State) (f : MemCtl → MemCtl) : State := { s with mc := f s.mc }
def State.chn (s : State) (c : Nat) : DramChan := vgetN DramChan.atReset s.mc.chans c
def State.modChn (s : State) (c : Nat) (f : DramChan → DramChan) : State :=
  s.modMc (fun m => { m with chans := vmodN m.chans c f })

/-- The Flume link of the unit behind address `a` (R376). -/
def State.targetLink (s : State) (a : Nat) : Fin 64 :=
  match s.region a with
  | .dram a => fin 64 (22 + s.chanOf a / 4)
  | .ctl _ => 19
  | .csr _ => 20
  | .nvs _ => 21
  | _ => 18

/-- A response to request `id` of initiator `i` waits at the interface of link `src` (R377). -/
def State.flumeRespond (s : State) (id : Nat) (i : Initiator) (src : Fin 64) (cls : Fin 4) (a len : Nat) (write err : Bool) (b : List Byte)
    (bad : List Nat) : State :=
  let beat : FlumeBeat :=
    { id := id, first := true, ini := i, src := src, dst := s.link i, cls := cls, addr := a, len := len, write := write, bytes := b, bad := bad,
      err := err, born := s.clk.fab, stage := 0, came := s.clk.fab, ready := s.clk.fab }
  { s with flume := { s.flume with rsp := { s.flume.rsp with wait := s.flume.rsp.wait ++ [beat] } } }

/-- The rows of a line: bank and row of its data and of its check bits (R321, R323). -/
def State.lineRows (s : State) (a : Nat) : List (Nat × Nat) :=
  let phy := s.physOf (a / 64 * 64)
  let chk := phy / 576 * 576 + 512 + 8 * (phy % 576 / 64)
  [(bankOfPhys phy, rowOfPhys phy), (bankOfPhys chk, rowOfPhys chk)]

/-- The device address of data offset `o` of channel `c` (R323). -/
def State.dataAddr (s : State) (c o : Nat) : Nat :=
  let g := 2 ^ s.mc.grainLog2
  (o / g * s.nCh + c) * g + o % g

/-- The check bits that code word `i` of the window is stored with (R302, R303). -/
def State.checkField (s : State) (i : Nat) : Half :=
  codeChk (BitVec.ofNat 128 (leNat ((upFrom (16 * i) 16).map s.dram.byte))) ^^^ s.dram.syndrome i

/-- The byte that lies at channel physical address `phy` of channel `c` (R321): a data byte, or a byte of the check line of its group: data line
i's check fields in bytes 8i to 8i + 7, two bytes for each code word, least significant first. -/
def State.physByte (s : State) (c phy : Nat) : Byte :=
  let grp := phy / 576
  let r := phy % 576
  if r < 512 then s.dram.byte (s.dataAddr c (512 * grp + r))
  else
    let b := r - 512
    (s.checkField (s.dataAddr c (512 * grp + 64 * (b / 8) + 16 * (b % 8 / 2)) / 16)).extractLsb' (8 * (b % 2)) 8

/-- The enabled bytes of word `w` of a line, with their addresses. -/
def enabledBytes (r : DramReq) (w : Nat) : List (Nat × Byte) :=
  ((upFrom (16 * w) 16).filter (fun i => r.enables.getLsbD i)).map (fun i => (r.addr / 64 * 64 + i, nth 0 r.bytes i))

/-- A write of word `w` of a line: whole, or read and merged (R327, R546). -/
def State.writeWord (s : State) (r : DramReq) (w : Nat) : State :=
  let e := enabledBytes r w
  let a := r.addr / 64 * 64 + 16 * w
  if e = [] then s
  else if e.length = 16 then { s with dram := s.dram.write a (e.map (·.2)) }
  else
    let s := s.noteWords .dram a 16
    { s with dram := e.foldl (fun m p => m.write p.1 [p.2]) s.dram }

/-- A request that came over Flume is answered: its id, whether it wrote, the bytes read and the poisoned words of them. -/
def State.dramAnswer (s : State) (r : DramReq) (b : List Byte) (bad : List Nat) : State :=
  match r.id with
  | some id => s.flumeRespond id r.ini (s.targetLink r.addr) r.cls r.addr b.length r.write false b bad
  | none => s

/-- The bytes that a read of `r` enables of its line. -/
def DramReq.pick (r : DramReq) (line : List Byte) : List Byte :=
  ((line.zip (upFrom 0 64)).filter (fun p => r.enables.getLsbD p.2)).map (·.1)

/-- The access of a request: a line written, or read for its requester (R327, R328). -/
def State.dramAccess (s : State) (c : Nat) (r : DramReq) : State :=
  let line := r.addr / 64 * 64
  if r.write then
    let s := (upFrom 0 4).foldl (fun s w => s.writeWord r w) s
    (r.bad.foldl (fun s w => s.poisonAt (line + 16 * w) 16) s).dramAnswer r [] []
  else
    let bad := s.badWords line 64
    let x := s.readStore .dram line 64
    let b : List Byte := match x.2 with
      | .ok b => b
      | .bad b => b
      | .refused => []
    (x.1.modChn c (fun y => { y with lastRead := b })).dramAnswer r (r.pick b) (bad.map (fun w => line + 16 * w))

/-- The access behaves as CLOSE: its hint or PAGE_IDLE 0, and no other queued request targets the row (R326). -/
def State.closes (s : State) (q : List DramReq) (r : DramReq) (p : Nat × Nat) : Bool :=
  (r.close || decide (s.cfg unitMc 20 2 = 0)) && !q.any (fun o => (s.lineRows o.addr).contains p)

/-- Request `i` of channel `c` is performed: its rows open, its access made, its rows closed or left open. -/
def State.perform (s : State) (c i : Nat) : State :=
  match (s.chn c).queue.drop i with
  | [] => s
  | r :: _ =>
    let rest := dropNth (s.chn c).queue i
    let rows := (s.lineRows r.addr).foldl (fun v p => vsetN v p.1 (if s.closes rest r p then none else some p.2)) (s.chn c).rows
    (s.modChn c (fun x => { x with queue := rest, rows := rows })).dramAccess c r

/-- The queued requests of initiator `i` to the lines of `k` bytes at `a` are performed, in acceptance order (R325). -/
def State.settleChan (s : State) (c : Nat) (i : Initiator) (a k : Nat) : Nat → State
  | 0 => s
  | fuel + 1 =>
    let q := (s.chn c).queue
    match (upFrom 0 q.length).find? (fun n => (q.drop n).head?.any (fun r =>
        decide (r.ini = i) && decide (a / 64 ≤ r.addr / 64) && decide (r.addr / 64 ≤ (a + k - 1) / 64))) with
    | some n => (s.perform c n).settleChan c i a k fuel
    | none => s

/-- An access of initiator `i` to `k` bytes at `a` comes after every earlier request of `i` to the same lines (R325). -/
def State.settle (s : State) (i : Initiator) (a k : Nat) : State :=
  match s.region a with
  | .dram _ => ([s.chanOf a, s.chanOf (a + k - 1)].dedup).foldl (fun s c => s.settleChan c i a k (s.chn c).queue.length) s
  | _ => s

/-! ### Accesses of an initiator (R352, R497) -/

/-- Read `k` bytes at a device address as initiator `i` (R352, R497). -/
def State.memRead (s : State) (i : Initiator) (a k : Nat) : State × ReadOut :=
  let r := s.region a
  match r.cell with
  | none => (s, .refused)
  | some (id, o) => if s.touchOk i r then ((s.ctlSync a k false).settle i a k).readStore id o k else (s, .refused)

/-- Write bytes at a device address as initiator `i`: false where it is refused or discarded (R352, R497, R511). -/
def State.memWrite (s : State) (i : Initiator) (a : Nat) (b : List Byte) : State × Bool :=
  let r := s.region a
  match r.cell with
  | none => (s, false)
  | some (.nvs, _) => (s, false)
  | some (id, o) => if s.touchOk i r then (((s.ctlSync a b.length true).settle i a b.length).writeStore id o b, true) else (s, false)

/-! ### The memory protection map (R507, R508) -/

/-- Whether the map allows an access: `remote` or P0, `write` or read. -/
def State.mpmAllows (s : State) (remote write : Bool) (a : Nat) : Bool :=
  let hit := (upFrom 0 16).find? (fun e =>
    (s.reg (rKeyMpmPerm e)).getLsbD 0 && decide ((s.reg64 (rKeyMpmBase e)).toNat ≤ a) &&
      decide (a ≤ (s.reg64 (rKeyMpmLimit e)).toNat))
  match hit with
  | some e => (s.reg (rKeyMpmPerm e)).getLsbD ((if remote then 3 else 1) + (if write then 1 else 0))
  | none => (s.reg rKeyMpmCtrl).getLsbD (if remote then 1 else 0)

/-- A denied access is recorded (R508). -/
def State.mpmDeny (s : State) (remote write : Bool) (link a : Nat) : State :=
  let info := link + (if write then 64 else 0) + (if remote then 128 else 0)
  (((s.orReg rKeyStat 0x20).setReg64 rKeyMpmDenyAddr (BitVec.ofNat 64 a)).setReg rKeyMpmDenyInfo (BitVec.ofNat 32 info)).bump
    rKeyMpmDenyCount 1

/-! ### CRC-32C (R306) -/

def crcBit (c : Word) : Word := if c.getLsbD 0 then (c >>> 1) ^^^ 0x82F63B78 else c >>> 1

/-- crc_byte of R306. -/
def crcByte (c : Word) (v : Byte) : Word :=
  crcBit (crcBit (crcBit (crcBit (crcBit (crcBit (crcBit (crcBit (c ^^^ v.setWidth 32))))))))

def crcBytes (c : Word) (b : List Byte) : Word := b.foldl crcByte c

/-- The register after the prefix (R306). -/
def crcSeed (dev tileIx pic : Nat) : Word := crcBytes 0xFFFFFFFF (leBytes 2 dev ++ leBytes 2 tileIx ++ leBytes 4 pic)

/-- A check value (R306). -/
def checkValue (dev tileIx pic : Nat) (data : List Byte) : Word := crcBytes (crcSeed dev tileIx pic) data ^^^ 0xFFFFFFFF

end Sys2Proof.Machine
end

