-- ==== Sys2Proof/Machine/Access.lean ====
section
/-! DEFINITION. What an access needs before it is accepted: the READY functions on its way (R23, R29, R501-R503), the class A limit and
credit of its initiator (R31, R382), and how one that must wait is held (R36, R501). -/

namespace Sys2Proof.Machine

/-! ### Registers by domain and function (R428, R498) -/

/-- Domain of the CSR register at `off` (R498); 29 for a reserved block. -/
def regDom (off : Nat) : Nat :=
  let b := off / 0x10000
  if b = 9 then (if 0x300 ≤ off % 0x10000 then 6 else 5)
  else if b < 16 then nth 29 [0, 0, 0, 3, 3, 4, 3, 3, 3, 5, 7, 8, 9, 10, 11, 1] b
  else if b ≤ 0x20 then 12 + (b - 16)
  else if b = 0x30 then 2
  else if b = 0x31 then 1
  else 29

/-- Registers in retention islands: every RW-K and RW-L register, the Kalsal ID and routes, SNS_RETIRED, TEC_PATCH_ID and the
match registers (R412, R501). -/
def retained (off : Nat) : Bool :=
  match regRowAt off with
  | some r => r.rwl ≠ 0 || r.rwk ≠ 0 || off = rSnsRetired || off = rSnsRetired + 4 ||
      (0x10 ≤ off / 0x10000 && off / 0x10000 ≤ 0x20 && (off % 0x10000 = 0x20 || (0x100 ≤ off % 0x10000 && off % 0x10000 < 0x200)))
  | none => false

/-- Registers that a retention island serves whatever the state of their domain (R501): besides those, the engine maps of the TE clusters
and the lane maps. -/
def islandReg (off : Nat) : Bool :=
  let b := off / 0x10000
  let o := off % 0x10000
  retained off || (0x10 ≤ b && b ≤ 0x20 && (o = 4 || o = 8 || o = 0xC)) || (b = 0xD && 0x100 ≤ o && o < 0x200 && (o - 0x100) % 0x40 = 4)

/-- The channel registers of channels that are not installed read 0 and wake nothing (R340, R503). -/
def State.absentReg (s : State) (off : Nat) : Bool :=
  let o := off % 0x10000
  decide (off / 0x10000 = 9) && decide (0x100 ≤ o) && !s.chanThere ((o - 0x100) / 0x20)

/-- The function that holds the register at `off`, as a bit of `ready` (R428, R498); FLUME answers for a reserved block. -/
def regFunction (off : Nat) : Nat :=
  let b := off / 0x10000
  let o := off % 0x10000
  if b = 9 then (if 0x300 ≤ o then 15 else 14)
  else if b = 0xE then (if 0x800 ≤ o then 21 else 20)
  else if b < 16 then nth 8 [0, 0, 0, 9, 11, 13, 10, 8, 12, 14, 16, 17, 18, 19, 20, 1] b
  else if b ≤ 0x20 then 22 + (b - 16)
  else if b = 0x30 then 3
  else if b = 0x31 then 2
  else 8

/-- The functions that an access of `i` to device address `a` needs (R23, R376, R501, R503): FLUME, but for Bellhouse's accesses to TOP, KEY
and HDG, and the function behind the address; none for a register in a retention island or of a channel not installed. -/
def State.pathNeeds (s : State) (i : Initiator) (a : Nat) : List Nat :=
  match s.region a with
  | .csr off =>
    if islandReg off || s.absentReg off then []
    else if i = .bellhouse ∧ off < 0x30000 then [regFunction off]
    else [8, regFunction off]
  | .dram a => [8, if s.chanOf a < 16 then 14 else 15]
  | .cis _ => [8, 13]
  | .cku _ _ => [8, 11]
  | .page _ _ => [8, 13]
  | .ctl _ => [8, 3]
  | .nvs _ => [8, 1]
  | .nowhere => [8]

/-! ### Class A (R31, R382) -/

/-- The acceptance point behind address `a` (R382): a memory channel, the Cistern 32, control SRAM 33, the NVS window 34, the access port of CSR
block b as 64 + b; 255 where no region lies. -/
def State.pointOf (s : State) (a : Nat) : Nat :=
  match s.region a with
  | .dram a => s.chanOf a
  | .cis _ => 32
  | .cku _ _ => 32
  | .page _ _ => 32
  | .ctl _ => 33
  | .nvs _ => 34
  | .csr off => 64 + off / 0x10000
  | .nowhere => 255

/-- The class A initiator that `i` is: logical cores 0-3, Bellhouse 4, the event controller 5, the DMA engine 6, the Kalsal ports
together 7; a unit that issues no class A requests stands for itself (R382). -/
def classAOf : Initiator → Nat
  | .core k => k.1
  | .bellhouse => 4
  | .dma _ => 6
  | .kalsal _ => 7
  | .unit l _ => if l = 6 then 5 else 8 + l.1

/-- A class A beat of initiator number `g`. -/
def FlumeBeat.classAOf (b : FlumeBeat) (g : Nat) : Bool := decide (b.cls = 0) && decide (Machine.classAOf b.ini = g)

/-- Requests in the channel queues that came over Flume as class A from initiator number `g`. -/
def State.dramClassA (s : State) (g : Nat) : List DramReq :=
  s.mc.chans.toList.flatMap (fun c => c.queue.filter (fun r => r.id.isSome && decide (r.cls = 0) && decide (classAOf r.ini = g)))

/-- Class A requests of initiator number `g` that are outstanding: accepted by its interface and not yet answered (R31). -/
def State.classAOut (s : State) (g : Nat) : Nat :=
  ((s.flume.req.beats ++ s.flume.rsp.wait ++ s.flume.rsp.beats).filter (·.classAOf g)).length + (s.dramClassA g).length

/-- The credit of initiator number `g` for acceptance point `p` is out: the point has not yet released the request's entry (R382). -/
def State.creditOut (s : State) (g p : Nat) : Bool :=
  s.flume.req.beats.any (fun b => b.classAOf g && decide (s.pointOf b.addr = p)) ||
    (s.dramClassA g).any (fun r => decide (s.chanOf r.addr = p))

/-- The interface of `i` accepts a class A request for acceptance point `p` (R31, R382). -/
def State.creditFree (s : State) (i : Initiator) (p : Nat) : Bool :=
  decide (s.classAOut (classAOf i) < 4) && !s.creditOut (classAOf i) p

/-! ### Waiting (R29, R36, R501) -/

/-- Logical core 0 stalls on a full completion ring: it issues nothing (R39). -/
def State.ringStalls (s : State) (i : Initiator) : Bool := decide (i = .core 0) && decide (s.stalled ≠ [])

/-- An access can be accepted: its core does not stall, the functions that it needs are READY and, of class A, its interface takes it. -/
def State.mayEnter (s : State) (i : Initiator) (needs : List Nat) (point : Option Nat) : Bool :=
  !s.ringStalls i && needs.all s.fnReady && (match point with
    | some p => s.creditFree i p
    | none => true)

/-- The core of an initiator. -/
def iniCore : Initiator → Option Core
  | .core k => some (.tabor k)
  | .bellhouse => some .bellhouse
  | _ => none

/-- A core that runs stalls (R501). -/
def State.stallIni (s : State) (i : Initiator) : State :=
  match iniCore i with
  | some c => if s.coreRun c = .running then s.setRun c .stalled else s
  | none => s

/-- The command waits in the order of issue, and a core that issued it stalls. -/
def State.hold (s : State) (i : Initiator) (needs : List Nat) (point : Option Nat) (c : Instr) : State :=
  { s with onHold := s.onHold ++ [Held.mk i needs point c] }.stallIni i

/-- The core that issued a held command goes on as the command runs. -/
def State.unstall (s : State) (i : Initiator) : State :=
  match iniCore i with
  | some c => if s.coreRun c = .stalled then s.setRun c .running else s
  | none => s

/-- An access of `i` to device address `a` of class A that command `c` makes: at once where it can be accepted, else it waits. -/
def State.access (s : State) (i : Initiator) (a : Nat) (c : Instr) (f : State → State) : State :=
  if s.mayEnter i (s.pathNeeds i a) (some (s.pointOf a)) then f s else s.hold i (s.pathNeeds i a) (some (s.pointOf a)) c

/-- An access to the register at CSR offset `off`. -/
def State.regAccess (s : State) (i : Initiator) (off : Nat) (c : Instr) (f : State → State) : State := s.access i (csrBase + off) c f

/-- What an initiator waits for goes with it as it is reset (R430). -/
def State.dropHeld (s : State) (i : Initiator) : State := { s with onHold := s.onHold.filter (fun h => h.ini ≠ i) }

end Sys2Proof.Machine
end

