-- ==== Sys2Proof/Machine/Log.lean ====
section
/-! DEFINITION. The take's setup as the units read it (R294-R297), the ledger's sizes (R142), the take log's records (R59-R86)
and the placing of log units in the magazine port's queue or the spill area (R54, R154). -/

namespace Sys2Proof.Machine

/-! ### Setup fields (R294-R297, R56, R57) -/

/-- CODE fields of a record image (R294). -/
def codeWidth (b : List Byte) : Nat := leAt b 16 2
def codeHeight (b : List Byte) : Nat := leAt b 18 2
def codeDepth (b : List Byte) : Nat := leAt b 20 1
def codePeriod (b : List Byte) : Nat := leAt b 21 1
def codeExposures (b : List Byte) : Nat := leAt b 22 1
/-- 0 L, 1 B, 2 floor-only (R65) -/
def codeMode (b : List Byte) : Nat := leAt b 23 1
/-- 0 intra, 1 temporal, 2 temporal and view (R65) -/
def codeScope (b : List Byte) : Nat := leAt b 24 1
/-- 0 picture, 1 band (R65) -/
def codeLatency (b : List Byte) : Nat := leAt b 25 1
def codeProfile (b : List Byte) : Nat := leAt b 26 1
def codeFlush (b : List Byte) : Nat := leAt b 27 1
def codeRateNum (b : List Byte) : Nat := leAt b 28 4
def codeRateDen (b : List Byte) : Nat := leAt b 32 4
/-- LOG fields of a record image (R295). -/
def logTakeId (b : List Byte) : Nat := leAt b 16 8
/-- 0 single, 1 mirror, 2 stripe (R65) -/
def logArrangement (b : List Byte) : Nat := leAt b 24 1
def logIndexInterval (b : List Byte) : Nat := leAt b 26 2
def logLbaBytes (b : List Byte) (m : Nat) : Nat := leAt b (28 + 2 * m) 2
def logExtents (b : List Byte) (m : Nat) : Nat := leAt b (32 + 2 * m) 2
def logNsid (b : List Byte) (m : Nat) : Nat := leAt b (36 + 4 * m) 4
/-- Extent `j` of magazine `m`: start LBA and 4 KiB units. -/
def logExtent (b : List Byte) (m j : Nat) : Nat × Nat :=
  let o := 64 + 16 * (j + if m = 0 then 0 else logExtents b 0)
  (leAt b o 8, leAt b (o + 8) 4)
/-- LEDGER fields of a record image (R296). -/
def ldgRDecl (b : List Byte) (m : Nat) : Nat := leAt b (16 + 48 * m) 8
def ldgBDecl (b : List Byte) (m : Nat) : Nat := leAt b (24 + 48 * m) 8
def ldgPendMax (b : List Byte) (m : Nat) : Nat := leAt b (32 + 48 * m) 8
def ldgSpillBase (b : List Byte) (m : Nat) : Nat := leAt b (40 + 48 * m) 8
def ldgSpillLen (b : List Byte) (m : Nat) : Nat := leAt b (48 + 48 * m) 8
def ldgFloorShift (b : List Byte) : Nat := leAt b 112 1
def ldgWarnLevel (b : List Byte) : Nat := leAt b 114 2
def ldgETab (b : List Byte) (i : Nat) : Nat := leAt b (116 + i) 1

/-- Tiles across and down (R57). -/
def tilesX (b : List Byte) : Nat := ceilDiv (codeWidth b) 256
def tilesY (b : List Byte) : Nat := ceilDiv (codeHeight b) 64
def tilesN (b : List Byte) : Nat := tilesX b * tilesY b
/-- Width and height of tile `t` (R57). -/
def tileW (b : List Byte) (t : Nat) : Nat :=
  if t % tilesX b = tilesX b - 1 then codeWidth b - 256 * (tilesX b - 1) else 256
def tileH (b : List Byte) (t : Nat) : Nat :=
  if t / tilesX b = tilesY b - 1 then codeHeight b - 64 * (tilesY b - 1) else 64
/-- Photosites of tile `t`, exposures counted (R142). -/
def tilePhotosites (b : List Byte) (t : Nat) : Nat := tileW b t * tileH b t * codeExposures b

def roundUp (v m : Nat) : Nat := ceilDiv v m * m

/-- Length of the unit of a tile that packs `k` bits for each photosite (R82, R142). -/
def packedUnit (b : List Byte) (t k : Nat) : Nat := 32 + roundUp (ceilDiv (tilePhotosites b t * k) 8) 4
/-- Tiles of band `y`. -/
def bandTiles (b : List Byte) (y : Nat) : List Nat := upFrom (y * tilesX b) (tilesX b)
/-- f_b and g_b (R142). -/
def bandSize (b : List Byte) (y k : Nat) : Nat := roundUp (sumNat ((bandTiles b y).map (fun t => packedUnit b t k))) 4096

def maxNat (l : List Nat) : Nat := l.foldl (fun a b => if a < b then b else a) 0

/-- The sizes of ledger `m` (R142, R157, R158) from CODE, LOG and LEDGER record images. -/
def ledgerSizes (code log ldg : List Byte) (m : Nat) : LedgerSizes :=
  let ny := tilesY code
  let f := (upFrom 0 ny).map (fun y => bandSize code y (codeDepth code - ldgFloorShift ldg))
  let g := (upFrom 0 ny).map (fun y => bandSize code y (codeDepth code))
  let h := roundUp (160 + 8 * tilesN code) 4096
  let z := roundUp (48 + 24 * logIndexInterval log) 4096 + 8192
  let arr := logArrangement log
  let rd := if arr = 1 then Nat.min (ldgRDecl ldg 0) (ldgRDecl ldg 1) else ldgRDecl ldg m
  let bd := if arr = 1 then Nat.min (ldgBDecl ldg 0) (ldgBDecl ldg 1) else ldgBDecl ldg m
  let k := if arr = 2 then 2 else 1
  let num := codeRateNum code
  let den := k * codeRateDen code
  let d := rd * den / num
  { f := f, g := g, h := h, z := z, fMax := h + sumNat f + z, pMax := h + sumNat g + z, dFull := d,
    dAdm := rd * (20000 * den - num) / (20000 * num), tNs := 1000000000 * den / num, rDecl := rd, cap := bd - d,
    pendMax := ldgPendMax ldg m, spillBase := ldgSpillBase ldg m, spillLen := ldgSpillLen ldg m }

/-! ### Which ledger and logs (R63, R64, R157, R158) -/

def State.arrangement (s : State) : Nat := logArrangement (s.active unitLog)
/-- Ledger and log of picture `k`. -/
def State.ledgerOf (s : State) (k : Nat) : Fin 2 := if s.arrangement = 2 then fin 2 k else 0
/-- The magazines that hold the log of ledger `m`. -/
def State.magsOf (s : State) (m : Fin 2) : List (Fin 2) := if s.arrangement = 1 then [0, 1] else [m]
/-- The magazines and the ledgers of the take. -/
def State.takeMags (s : State) : List (Fin 2) := if s.arrangement = 0 then [0] else [0, 1]
def State.takeLedgers (s : State) : List (Fin 2) := if s.arrangement = 2 then [0, 1] else [0]

def State.modLog (s : State) (m : Fin 2) (f : TakeLog → TakeLog) : State := { s with logs := vmod s.logs m f }
def State.modLedger (s : State) (m : Fin 2) (f : Ledger → Ledger) : State := { s with ledgers := vmod s.ledgers m f }
def State.ledger (s : State) (m : Fin 2) : Ledger := vget s.ledgers m
def State.log (s : State) (m : Fin 2) : TakeLog := vget s.logs m
def State.mag (s : State) (m : Fin 2) : MagPort := vget s.mags m
def State.modMag (s : State) (m : Fin 2) (f : MagPort → MagPort) : State := { s with mags := vmod s.mags m f }

def LedgerSizes.none : LedgerSizes :=
  { f := [], g := [], h := 0, z := 0, fMax := 0, pMax := 0, dFull := 0, dAdm := 0, tNs := 0, rDecl := 0, cap := 0, pendMax := 0,
    spillBase := 0, spillLen := 0 }
def Ledger.sz (l : Ledger) : LedgerSizes := l.sizes.getD LedgerSizes.none
/-- L + P + res (R149). -/
def Ledger.total (l : Ledger) : Nat := l.fill + l.pend + l.res
/-- Bytes held in the spill area. -/
def Ledger.spilled (l : Ledger) : Nat := sumNat (l.spill.map (fun u => u.bytes.length))

/-- Event `e` of ledger `m`: 0 warning, 1 floor, 2 spill start, 3 drop, 4 spill empty (R406), and its MAG_LDG_STAT bit (R160). -/
def State.ledgerEvent (s : State) (m : Fin 2) (e : Nat) : State :=
  (s.orReg (rMagLdgStat m.1) (BitVec.twoPow 32 e)).raise (144 + 8 * m.1 + e)

/-- The warning event when the sum first rises to the level, and its rearming below (R153). -/
def State.ledgerWarn (s : State) (m : Fin 2) : State :=
  let l := s.ledger m
  let hi := decide (l.sz.cap * ldgWarnLevel (s.active unitLedger) ≤ 65536 * l.total) && l.sizes.isSome
  let s' := s.modLedger m (fun l => { l with above := hi })
  if hi && !l.above then s'.ledgerEvent m 0 else s'

/-- A charge or a credit of ledger `m`, with the warning it may cause. -/
def State.ledgerDo (s : State) (m : Fin 2) (f : Ledger → Ledger) : State := (s.modLedger m f).ledgerWarn m

/-! ### Units towards the magazine (R54, R154, R157) -/

/-- Pending bytes of magazine `m` (R154, R486): the data bytes of Write commands submitted and not yet completed; a port that is not READY has
lost its commands (R487, log entry 10). -/
def State.pendingBytes (s : State) (m : Fin 2) : Nat :=
  if (s.mag m).st ≠ .ready then 0
  else sumNat ((s.mag m).cmds.map (fun c =>
    match c.purpose with
    | .write _ _ => c.bytes
    | _ => 0))

/-- Pending bytes of ledger `m`: in a mirror the larger of the two figures (R157). -/
def State.ledgerPending (s : State) (m : Fin 2) : Nat := maxNat ((s.magsOf m).map s.pendingBytes)

/-- The picture of record `k` passes through the spill area (R154). -/
def State.markSpilled (s : State) (k : Option Nat) : State :=
  match k with
  | none => s
  | some k =>
    if s.take.pics.any (fun p : Picture => p.number = k && !p.spilled) then
      { s with take := { s.take with pics := s.take.pics.map (fun p : Picture => if p.number = k then { p with spilled := true } else p) } }.bump
        (rMagLdgSpilled (s.ledgerOf k).1) 1
    else s

/-- Hand units (one for each magazine of ledger `m`, alike but for the TAKE_HEADER) to the ports or to the spill area (R154). -/
def State.placeUnit (s : State) (m : Fin 2) (u : Fin 2 → LogUnit) : State :=
  let l := s.ledger m
  let n := (u m).bytes.length
  if l.spill ≠ [] ∨ l.sz.pendMax < s.ledgerPending m + n then
    let one := { u m with other := if s.arrangement = 1 ∧ (u 1).bytes ≠ (u m).bytes then some (u 1).bytes else none }
    let s' := (s.modLedger m (fun l => { l with spill := l.spill ++ [one] })).markSpilled (u m).picture
    if l.spill = [] then s'.ledgerEvent m 2 else s'
  else (s.magsOf m).foldl (fun s k => s.modLog k (fun g => { g with units := g.units ++ [u k] })) s

/-- Bytes padded with zeros to a 4 KiB boundary (R53). -/
def pad4k (b : List Byte) : List Byte := b ++ List.replicate (roundUp b.length 4096 - b.length) 0

/-! ### Records (R59-R61) -/

/-- A whole record: header and body, `body` being bytes 32 up (R59, R61). -/
def logRecord (type seq dev tag : Nat) (body : List Byte) : List Byte :=
  let head := leBytes 4 0x31515653 ++ leBytes 2 type ++ [1, 0] ++ leBytes 4 (32 + body.length) ++ leBytes 4 tag ++ leBytes 8 seq ++
    leBytes 2 dev ++ [0, 0]
  head ++ leBytes 4 (checkValue dev 0xFFFF (seq % 2 ^ 32) (head ++ body)).toNat ++ body

/-- A record of the take's log `m` with sequence `seq`. -/
def State.takeRecord (s : State) (type seq : Nat) (body : List Byte) : List Byte :=
  logRecord type seq s.take.deviceId.toNat (logTakeId (s.active unitLog) % 2 ^ 32) body

/-- Add a record to the logs of ledger `m` at the next log address: it is placed and the logs advance (R53, R59, R63). -/
def State.addRecord (s : State) (m : Fin 2) (type : Nat) (body : Fin 2 → List Byte) (trailer : Bool) : State :=
  let mk : Fin 2 → LogUnit := fun k =>
    { addr := (s.log k).addr, bytes := pad4k (s.takeRecord type (s.log k).seq (body k)), picture := none, header := false,
      trailer := trailer, flushAfter := trailer, given := false, other := none }
  let n := (mk m).bytes.length
  (s.magsOf m).foldl (fun s k => s.modLog k (fun g => { g with addr := g.addr + n, seq := g.seq + 1 })) (s.placeUnit m mk)

def noLogAddr : Nat := 2 ^ 64 - 1

/-- INDEX body (R84). -/
def indexBody (g : TakeLog) : List Byte :=
  leBytes 4 g.entries.length ++ leBytes 4 0 ++ leBytes 8 (g.prevIndex.getD noLogAddr) ++
    (g.entries.flatMap (fun e => leBytes 4 e.picture ++ leBytes 4 (if e.dropped then 1 else 0) ++ leBytes 8 e.addr ++
      leBytes 8 e.ptp.toNat))

/-- DROP_NOTE body (R85). -/
def dropBody (r : DropRun) : List Byte :=
  leBytes 4 r.first ++ leBytes 4 r.count ++ leBytes 2 r.reason ++ List.replicate 6 0 ++ leBytes 8 r.ptp.toNat ++ List.replicate 8 0

/-- TAKE_TRAILER body (R86) of log `g` that ends with this record, formed at PTP time `now`. -/
def trailerBody (g : TakeLog) (reason : Nat) (now : DWord) : List Byte :=
  leBytes 2 reason ++ [0, 0] ++ leBytes 4 g.recorded ++ leBytes 4 g.dropped ++ leBytes 4 (g.last.getD 0xFFFFFFFF) ++
    leBytes 8 (g.prevIndex.getD noLogAddr) ++ leBytes 8 (g.addr + 4096) ++ leBytes 8 now.toNat ++ leBytes 8 g.tilesFloor ++
    leBytes 8 g.tilesRaw ++ leBytes 8 g.tilesMissing ++ leBytes 8 g.tilesMismatch ++ List.replicate 24 0

/-- TAKE_HEADER body (R65, R66) for magazine `m`. -/
def State.headerBody (s : State) (m : Fin 2) : List Byte :=
  let c := s.active unitCode
  let g := s.active unitLog
  let x := codeExposures c
  let p := codePeriod c
  leBytes 8 (logTakeId g) ++ leBytes 16 Config.factoryId.toNat ++ leBytes 4 (0x71600000 + Config.siliconRev.toNat) ++
    leBytes 2 0x0100 ++ leBytes 2 (leAt c 36 2) ++ leBytes 2 (codeWidth c) ++ leBytes 2 (codeHeight c) ++
    [BitVec.ofNat 8 (codeDepth c), BitVec.ofNat 8 p, BitVec.ofNat 8 x, BitVec.ofNat 8 (logArrangement g), BitVec.ofNat 8 m.1,
     BitVec.ofNat 8 (codeLatency c), BitVec.ofNat 8 (codeMode c), BitVec.ofNat 8 (codeScope c)] ++
    leBytes 4 (codeRateNum c) ++ leBytes 4 (codeRateDen c) ++ leBytes 2 (logIndexInterval g) ++ leBytes 2 (logLbaBytes g m.1) ++
    leBytes 8 s.take.startPtp.toNat ++ ((upFrom 0 16).flatMap (fun i => leBytes 1 (if i < p * p then leAt c (48 + i) 1 else 0))) ++
    ((upFrom 0 32).flatMap (fun i => leBytes 2 (if i < x * p * p then leAt c (64 + 2 * i) 2 else 0))) ++
    leBytes 4 (if x = 2 then leAt c 40 4 else 0) ++ leBytes 4 0 ++ leBytes 2 (logExtents g m.1) ++ List.replicate 6 0 ++
    ((upFrom 0 (logExtents g m.1)).flatMap (fun j => leBytes 8 (logExtent g m.1 j).1 ++ leBytes 8 (logExtent g m.1 j).2))

/-- The log space of magazine `m` in bytes (R52). -/
def logSpace (g : List Byte) (m : Nat) : Nat := sumNat ((upFrom 0 (logExtents g m)).map (fun j => (logExtent g m j).2 * 4096))

/-- Log address to LBA and byte within it (R52): extents from `j` on. -/
def logLba (g : List Byte) (m : Nat) : Nat → Nat → Nat → Option (Nat × Nat)
  | 0, _, _ => none
  | fuel + 1, j, rem =>
    if logExtents g m ≤ j then none
    else
      let x := logExtent g m j
      if rem < x.2 * 4096 then some (x.1 + rem / logLbaBytes g m, rem % logLbaBytes g m) else logLba g m fuel (j + 1) (rem - x.2 * 4096)

/-- The DROP_NOTE of the run in log `m` is written (R85). -/
def State.endRun (s : State) (m : Fin 2) : State :=
  match (s.log m).run with
  | none => s
  | some r =>
    let at0 := (s.log m).addr
    let s' := s.addRecord m 4 (fun _ => dropBody r) false
    (s.magsOf m).foldl (fun s k => s.modLog k (fun g =>
      { g with run := none
               entries := g.entries.map (fun e => if e.dropped && e.addr == noLogAddr then { e with addr := at0 } else e) })) s'

/-- An INDEX of the entries not yet covered, if there are any (R83, R84); the log bytes it takes. -/
def State.writeIndex (s : State) (m : Fin 2) : State × Nat :=
  let s := s.endRun m
  if (s.log m).entries = [] then (s, 0)
  else
    let at0 := (s.log m).addr
    let s' := s.addRecord m 3 (fun k => indexBody (s.log k)) false
    ((s.magsOf m).foldl (fun s k => s.modLog k (fun g => { g with entries := [], prevIndex := some at0 })) s',
      (s'.log m).addr - at0)

/-- A dropped picture enters log `m` (R85): a new run where none is open or the reason changes. The log bytes it charges. -/
def State.noteDrop (s : State) (m : Fin 2) (k reason : Nat) (ptp : DWord) : State × Nat :=
  let same := match (s.log m).run with
    | some r => decide (r.reason = reason)
    | none => false
  let s := if same then s else s.endRun m
  let add : TakeLog → TakeLog := fun g =>
    { g with run := some (match g.run with
               | some r => { r with count := r.count + 1 }
               | none => { first := k, count := 1, reason := reason, ptp := ptp })
             entries := g.entries ++ [{ picture := k, dropped := true, addr := noLogAddr, ptp := ptp }]
             dropped := g.dropped + 1, last := some k }
  ((s.magsOf m).foldl (fun s j => s.modLog j add) s, if same then 0 else 4096)

/-- An index boundary falls for this log after picture `k` (R83). -/
def State.indexDue (s : State) (k : Nat) : Bool :=
  let n := logIndexInterval (s.active unitLog)
  (k + 1) % n = 0 || (s.arrangement = 2 && (k + 2) % n = 0)

/-- An INDEX where a boundary falls after picture `k` (R83): its log bytes. -/
def State.indexAfter (s : State) (m : Fin 2) (k : Nat) : State × Nat := if s.indexDue k then s.writeIndex m else (s, 0)

/-- The closing records of ledger `m`'s log (R159, R86): any DROP_NOTE and INDEX still due, then the TAKE_TRAILER. After a cut they are charged
against the Z that the last picture held, but for the note of an open run, which was charged as the run began (R143, R155). -/
def State.closeLog (s : State) (m : Fin 2) (reason : Nat) (charge : Bool) : State :=
  if !(s.log m).isOpen then s
  else
    let a0 := (s.log m).addr + (if (s.log m).run.isSome then 4096 else 0)
    let s := (s.writeIndex m).1
    let s := s.addRecord m 5 (fun k => trailerBody (s.log k) reason s.clk.ns) true
    let s := (s.magsOf m).foldl (fun s k => s.modLog k (fun g => { g with isOpen := false })) s
    if charge then s.ledgerDo m (fun l => { l with res := 0, fill := l.fill + ((s.log m).addr - a0) }) else s

/-! ### The picture being recorded (R67, R68) -/

def Picture.unitOf (p : Picture) (t : Nat) : List Byte := ((p.units.find? (fun u => u.tile = t)).map (·.bytes)).getD []

/-- The tile units of band `b`, one after another (R68). -/
def Picture.bandBytes (p : Picture) (c : List Byte) (b : Nat) : List Byte := (bandTiles c b).flatMap p.unitOf

/-- Every tile of band `b` is final. -/
def Picture.bandFinal (p : Picture) (c : List Byte) (b : Nat) : Bool := (bandTiles c b).all (fun t => p.units.any (fun u => u.tile = t))

/-- Log bytes of band `b` (R143). -/
def Picture.bandLog (p : Picture) (c : List Byte) (b : Nat) : Nat := roundUp (p.bandBytes c b).length 4096

/-- Header area length A (R67). -/
def headArea (c : List Byte) : Nat := roundUp (160 + 8 * tilesN c) 4096

/-- Offset of band `b` in the record (R68). -/
def Picture.bandOffset (p : Picture) (c : List Byte) (b : Nat) : Nat := headArea c + sumNat ((upFrom 0 b).map (p.bandLog c))

/-- The picture whose record is being written in ledger `m`'s log: the oldest opened one. -/
def State.oldest (s : State) (m : Fin 2) : Option Picture :=
  s.take.pics.find? (fun p : Picture => p.opened && decide (s.ledgerOf p.number = m))

end Sys2Proof.Machine
end

