-- ==== Sys2Proof/Machine/Take.lean ====
section
/-! DEFINITION. Completions (R273-R277), the take's states and the moves it makes without a command (R280-R282), its stop on ABORT
and on entry to FAULTED (R86, R106, R156, R159, R178, R226, R374), and taking a DSN exception (R267-R269). -/

namespace Sys2Proof.Machine

/-! ### Status codes (R8) -/

def stOk : Nat := 0x00
def stPending : Nat := 0x01
def stBadarg : Nat := 0x10
def stBadprog : Nat := 0x11
def stState : Nat := 0x21
def stBusy : Nat := 0x22
def stNoresource : Nat := 0x30
def stIntegrity : Nat := 0x40
def stUncorrectable : Nat := 0x41
def stTimeout : Nat := 0x50
def stLink : Nat := 0x51
def stLocked : Nat := 0x60
def stKey : Nat := 0x61
def stLoop : Nat := 0x70

/-- The codes that a FINAL completion or an event record may carry, but for STATE, which has no side effect (R8, R9). -/
def finalCodes : List Nat :=
  [stOk, stBadarg, stBadprog, stBusy, stNoresource, stIntegrity, stUncorrectable, stTimeout, stLink, stLocked, stKey, stLoop]

/-- An unstated status is still one of the table's (R8): the free value `v` chooses it (log entry 7). -/
def freeStatus (v : Nat) : Nat := nth stOk finalCodes (v % 12)

/-- A status byte that came from outside, as a completion carries it: a code of the table stands, for any other the code is unstated (R8,
log entry 7). -/
def listedStatus (v : Nat) : Nat :=
  if v = stPending ∨ v = stState ∨ finalCodes.contains v then v else freeStatus (Config.unstated 25 v)

/-! ### Completion rings (R273, R276, R277) -/

def takeCode : TakeState → Nat
  | .idle => 0
  | .loaded => 1
  | .armed => 2
  | .rolling => 3
  | .cutting => 4
  | .closed => 5
  | .faulted => 6

/-- LOG2 of ring `k` (R274). -/
def State.ringLog2 (s : State) (k : Fin 4) : Nat := (s.reg (rTabCmdSize k.1)).toNat % 16

/-- The 16 bytes of a completion entry (R276). -/
def Completion.image (c : Completion) (phase : Bool) : List Byte :=
  leBytes 2 c.tag.toNat ++ [c.opcode, c.status, c.state, BitVec.ofNat 8 ((if phase then 1 else 0) + (if c.final then 2 else 0)), 0, 0] ++
    leBytes 8 c.value.toNat

/-- Ring `k` has no room for a completion. -/
def State.ringFull (s : State) (k : Fin 4) : Bool :=
  ((s.reg (rTabCplTail k.1)).toNat + 1) % 2 ^ s.ringLog2 k = (s.reg (rTabCplHead k.1)).toNat % 2 ^ s.ringLog2 k

/-- Write a completion into its ring with room and raise source 21 + k (R276, R277). -/
def State.writeCompletion (s : State) (c : Completion) : State :=
  let k := c.ring
  let n := 2 ^ s.ringLog2 k
  let tail := (s.reg (rTabCplTail k.1)).toNat % n
  let phase := vget s.ringPhase k
  let s := s.poke ((s.reg64 (rTabCplBase k.1)).toNat + 16 * tail) (c.image phase)
  let s := { s with ringPhase := vset s.ringPhase k (if tail + 1 = n then !phase else phase) }
  (s.setReg (rTabCplTail k.1) (BitVec.ofNat 32 ((tail + 1) % n))).raise (21 + k.1)

/-- Post a completion: not written when its ring pair has been disabled since the command was taken (R273); kept, with logical
core 0 stalled, while its ring is full or others wait (R39). -/
def State.postEntry (s : State) (c : Completion) : State :=
  if s.ringLog2 c.ring = 0 ∨ vget s.ringGen c.ring ≠ c.gen then s
  else if s.stalled ≠ [] ∨ s.ringFull c.ring then { s with stalled := s.stalled ++ [c] }
  else s.writeCompletion c

/-- Completions that waited for room, oldest first, as far as room goes: `fuel` of them. -/
def State.flushStalled (s : State) : Nat → State
  | 0 => s
  | fuel + 1 =>
    match s.stalled with
    | [] => s
    | c :: cs =>
      let s0 := { s with stalled := cs }
      if s.ringLog2 c.ring = 0 ∨ vget s.ringGen c.ring ≠ c.gen then s0.flushStalled fuel
      else if s.ringFull c.ring then s
      else (s0.writeCompletion c).flushStalled fuel

/-- Post a completion of command `p`; STATE and BADARG are counted once, at FINAL (R274, R278). -/
def State.post (s : State) (p : PendingCmd) (status : Nat) (final : Bool) (value : DWord) : State :=
  let s := if final && decide (status = stState) then s.bump (rTabRingStateCnt p.ring.1) 1 else s
  let s := if final && decide (status = stBadarg) then s.bump (rTabRingBadargCnt p.ring.1) 1 else s
  s.postEntry { ring := p.ring, gen := p.gen, tag := p.tag, opcode := p.opcode, status := BitVec.ofNat 8 status,
                state := BitVec.ofNat 8 (takeCode s.take.st), final := final, value := value }

/-- The FINAL completion of a command that may still be owed. -/
def State.postOwed (s : State) (p : Option PendingCmd) (status : Nat) (value : DWord) : State :=
  match p with
  | some p => s.post p status true value
  | none => s

/-! ### Moves of the take -/

/-- A take is ARMED, ROLLING or CUTTING. -/
def State.takeActive (s : State) : Bool :=
  decide (s.take.st = .armed) || decide (s.take.st = .rolling) || decide (s.take.st = .cutting)

def State.modTake (s : State) (f : Take → Take) : State := { s with take := f s.take }

/-- TAB_TAKE_STATE changes; the firmware rings doorbell 528 (R285). -/
def State.moveTake (s : State) (st : TakeState) (cause : Nat) : State :=
  let s := (s.modTake (fun t => { t with st := st, cause := BitVec.ofNat 8 cause })).raise 528
  if s.atBoundary then s.takeBoundary else s

/-- Last picture number recorded, as CUT's completion value (R279); with no picture recorded it is unstated (log entry 11). -/
def State.lastValue (s : State) : DWord := match s.take.lastRecorded with
  | some n => BitVec.ofNat 64 n
  | none => BitVec.ofNat 64 (Config.unstated 23 s.freeCount)

/-- A free value is drawn (log entry 8). -/
def State.drawn (s : State) : State := { s with freeCount := s.freeCount + 1 }

/-- Where the resident firmware, whose code the spec does not give, takes core `k` up again: below the program area (R284, log
entry 12). -/
def State.firmwarePc (s : State) (k : Nat) : DWord :=
  BitVec.ofNat 64 (0x020000000000 + 4 * (Config.unstated 24 (4 * s.freeCount + k) % 0x40000))

/-- The program's cores are released to the resident firmware: at P1, where it takes them up, their wait ended; a core in
reset or halted stays so (log entry 12). -/
def State.stopProgram (s : State) : State :=
  (((upFrom 1 3).foldl (fun s k =>
    if s.take.cores.getLsbD k then
      s.modCore (fin 4 k) (fun x => { x with status := 1, pc := s.firmwarePc k, run := match x.run with
                                        | .waiting _ _ => .running
                                        | r => r })
    else s) s).modTake (fun t => { t with cores := 0 })).drawn

def State.slot (s : State) (i : Fin 16) : Slot := vget s.slots i
def State.modSlot (s : State) (i : Fin 16) (f : Slot → Slot) : State := { s with slots := vmod s.slots i f }

/-- Slot `i` becomes UNUSED, keeping its area (R104, R547). -/
def State.freeSlot (s : State) (i : Fin 16) : State :=
  s.modSlot i (fun x => { Slot.unused with base := x.base, size := x.size })

/-- The current slot of a picture that will not complete: UNUSED once no REF_TILE of it is being sent, and never SHORT (R106). -/
def State.dropCurrent (s : State) (i : Fin 16) : State :=
  if (s.slot i).sends = 0 then s.freeSlot i else s.modSlot i (fun x => { x with current := true, final := false })

/-- Engines that run capture tiles of a picture that `p` names latch a stop (R226). -/
def State.stopCapture (s : State) (p : Nat → Bool) : State :=
  s.engines.foldl (fun s e => match e.2.run with
    | .capture k _ => if p k then s.setEngine e.1 { e.2 with stop := true } else s
    | _ => s) s

/-- The pictures in progress end without completing: their tiles leave the queue, their engines stop, their slots are released. -/
def State.dropPictures (s : State) (p : Nat → Bool) : State :=
  let gone := s.take.pics.filter (fun x => p x.number)
  let s := gone.foldl (fun s x => match x.slot with
    | some i => s.dropCurrent i
    | none => s) s
  let s := { s with tileQueue := s.tileQueue.filter (fun t => !p t.1) }.stopCapture p
  s.modTake (fun t => { t with pics := t.pics.filter (fun x => !p x.number) })

/-- The end cause of a chain that R374 stops: it leaves no record. -/
def endStopped : Nat := 6

/-- Channels stop (R374): start queues are discarded, and a chain ends once its bursts in flight are answered. -/
def State.stopChannels (s : State) (p : Nat → Bool) : State :=
  { s with dma := (upFrom 0 64).foldl (fun v c => if p c then
      vmodN v c (fun x => { x with queue := [], chain := x.chain.bind (fun y => if y.reqs = [] then none else some { y with ending := some endStopped }) })
    else v) s.dma }

/-- A stream begins (R178): the first access unit will be an IDR picture. -/
def Stream.begin (seq : Half) (pics : List StreamPic) : Stream := { Stream.atReset with run := true, seq := seq, pics := pics }

/-- Every picture of a stream, those that it codes after its present end too. -/
def Stream.all (x : Stream) : List StreamPic := x.pics ++ x.later

def Stream.mapPics (x : Stream) (f : StreamPic → StreamPic) : Stream := { x with pics := x.pics.map f, later := x.later.map f }

/-- A stream ends: it completes its current access unit, and ends it with an end of bitstream NAL unit (R178). A picture that is being received or
waits, of which no row is coded yet, is not that access unit: the model drops it, as the spec does not say (DESIGN CHOICE, log entry 101). -/
def Stream.stop (x : Stream) : Stream :=
  if x.run then { x with run := false, eob := x.set.isSome, pics := if x.row = 0 then [] else x.pics.take 1 }
  else { x with again := none, later := [] }

/-- The end of bitstream NAL unit has gone out: the stream rests, or starts afresh where it has been enabled anew (R178). -/
def Stream.ended (x : Stream) : Stream :=
  match x.again with
  | some q => Stream.begin q x.later
  | none => { x with eob := false }

/-- The proxy streams end (R178). -/
def State.stopStreams (s : State) : State :=
  { s with streams := (upFrom 0 4).foldl (fun v m => vmodN v m Stream.stop) s.streams }

/-- A magazine of ledger `m` still accepts writes. -/
def State.accepts (s : State) (m : Fin 2) : Bool := (s.magsOf m).any (fun k => (s.mag k).st = .ready)

/-- The pictures of a rolling take that stops get their notes in order, each with its own reason where it is already dropped, else with the one
given, if any; an INDEX stands at every boundary among them (R83, R85). -/
def State.notePictures (s : State) (reason : Option Nat) : State :=
  s.take.pics.foldl (fun s x =>
    match x.dropped.orElse (fun _ => reason) with
    | none => s
    | some r =>
      let m := s.ledgerOf x.number
      (((s.noteDrop m x.number r x.ptp).1).indexAfter m x.number).1) s

/-- In band latency the bands of the oldest picture of each ledger already stand in the log: what follows goes after them (R54). -/
def State.passBands (s : State) : State :=
  let c := s.active unitCode
  if codeLatency c ≠ 1 then s
  else s.takeLedgers.foldl (fun s m => match s.oldest m with
    | some p => if p.charged = [] then s
      else (s.magsOf m).foldl (fun s k => s.modLog k (fun g => { g with addr := p.recordAddr + p.bandOffset c p.charged.length })) s
    | none => s) s

/-- What the ledgers held for pictures that will not close is let go; the closing records of a take that is stopped are not charged (R149,
log entry 90). -/
def State.releaseLedgers (s : State) : State :=
  s.takeLedgers.foldl (fun s m => s.ledgerDo m (fun l => { l with res := 0, pend := 0, grants := [] })) s

/-- ABORT or entry to FAULTED: the picture in progress is abandoned, charging stops, the trailer is written where the magazine
still accepts writes (R86, R159). -/
def State.stopTake (s : State) (endReason : Nat) (dropReason : Option Nat) : State :=
  let rolling := decide (s.take.st = .rolling) || decide (s.take.st = .cutting)
  let s := if rolling then s.passBands.notePictures dropReason else s
  let s := (s.dropPictures (fun _ => true)).stopChannels (fun c => decide (c < 16))
  let s := if rolling then s.takeLedgers.foldl (fun s m =>
      if s.accepts m then s.closeLog m endReason false
      else (s.magsOf m).foldl (fun s k => s.modLog k (fun g => { g with isOpen := false })) s) s.releaseLedgers
    else s
  s.stopStreams

/-- The take enters FAULTED (R282): source 11, the stop of R226 and R374, and every PENDING command of the take completes. -/
def State.faultTake (s : State) (cause : Nat) (setupStatus : Nat) : State :=
  let idle := decide (s.take.st = .idle)
  if idle && s.take.setup.isNone || decide (s.take.st = .faulted) then s
  else
    let setup := s.take.setup
    let cutC := s.take.cutCmd
    let s := s.stopTake 2 (some 3)
    let s := (s.moveTake .faulted cause).modTake (fun t => { t with setup := none, cutCmd := none, faultPending := none })
    let s := ((s.postOwed setup setupStatus 0).postOwed cutC stTimeout s.lastValue).drawn
    s.raise 11

/-- A word of a setup bank, a slot descriptor or a ledger is uncorrectable or poisoned (R282, R301). -/
def State.setupBad (s : State) : Bool :=
  let rec0 := fun (r : Option SetupRecord) => (r.map (fun r => r.syn.any (fun p => (verdict p.2).bad))).getD false
  s.banks.toList.any (fun b => rec0 b.shadow || rec0 b.active || rec0 b.retiring) ||
    s.slots.toList.any (fun x => (verdict x.syn).bad) || s.ledgers.toList.any (fun g => (verdict g.syn).bad)

/-- Bytes of a picture's record are still on their way to a magazine: its record is not complete (R25, R282). -/
def State.recordsDue (s : State) : Bool :=
  s.takeLedgers.any (fun m => (s.ledger m).spill.any (fun u => u.picture.isSome)) ||
    s.takeMags.any (fun k => (s.log k).units.any (fun u => u.picture.isSome) || (s.mag k).cmds.any (fun c => match c.purpose with
      | .write u _ => u.picture.isSome
      | _ => false))

/-- R159: the take leaves CUTTING when the spill area is empty and every magazine has completed its trailer; a take cut for
heartbeat loss enters FAULTED when its picture's record is complete (R15). -/
def State.checkClosed (s : State) : State :=
  if s.take.st ≠ .cutting ∨ s.take.pics ≠ [] then s
  else match s.take.faultPending with
    | some c => if s.recordsDue then s else s.faultTake c.toNat stTimeout
    | none =>
      if s.takeLedgers.all (fun m => decide ((s.ledger m).spill = []) && (s.magsOf m).all (fun k => (s.log k).trailerDone)) then
        let c := s.take.cutCmd
        let s := (s.moveTake .closed 0).modTake (fun t => { t with cutCmd := none })
        (s.postOwed c stOk s.lastValue).drawn
      else s

/-- The closing records once the picture in progress is done: INDEX, DROP_NOTE and trailer of a cut take (R159). -/
def State.checkCut (s : State) : State :=
  if s.take.st = .cutting ∧ s.take.pics = [] ∧ s.take.faultPending = none then
    (s.takeLedgers.foldl (fun s m => s.closeLog m (if s.take.logFull then 1 else 0) true) s).checkClosed
  else s.checkClosed

/-! ### Exceptions (R267-R269) -/

/-- The physical core's halt event (R269, R406); Bellhouse has none. -/
def State.raiseHalt (s : State) (c : Core) : State :=
  match c with
  | .tabor k => s.raise (5 + (s.phys k).1)
  | .bellhouse => s

/-- A halt of a Tabor core by FETCH_UNCORR or UNCORR forms a kind 2 proposal (R515). -/
def State.haltProposal (s : State) (c : Core) (code : Nat) : State :=
  match c with
  | .tabor k => if code = 3 ∨ code = 8 then s.propose 2 (s.phys k).1 6 code else s
  | .bellhouse => s

/-- Entering an exception is one step (R268); while XL = 1 the core halts instead (R269). An exception at P0 and a core halt move
the take to FAULTED with cause 2 (R268, R282), a program in setup failing with BADPROG (R284). -/
def State.exception (s : State) (c : Core) (code : Nat) (addr : DWord) : State :=
  let st := s.getStatus c
  let p := st.getLsbD 0
  let s1 := (s.setXpc c (s.getPc c)).setCause c code addr
  if st.getLsbD 1 then
    let s2 := ((s1.setRun c .halted).raiseHalt c).haltProposal c code
    if isTabor c then s2.faultTake 2 stBadprog else s2
  else
    let s2 := s1.setStatus c (1 + 2 + (if p then 4 else 0))
    let s3 := s2.setPc c ((s.getXvec c &&& ~~~(0xFFF : DWord)) + BitVec.ofNat 64 (64 * code))
    if isTabor c && !p then s3.faultTake 2 stBadprog else s3

/-- Return from exception (R268): PC ← XPC, P ← PP, XL ← 0. Bellhouse stays at P1 (R271). -/
def State.returnFromException (s : State) (c : Core) : State :=
  let st := s.getStatus c
  let p := st.getLsbD 2
  let st' : DWord := (if p then 1 else 0) + (if p then 4 else 0)
  (s.setStatus c st').setPc c (s.getXpc c)

end Sys2Proof.Machine
end

