-- ==== Sys2Proof/Machine/Packets.lean ====
section
/-! DEFINITION. Kalsal packets (R444, R445) and their flits (R438), the routes (R451, R452), and the queue of a port (R443). -/

namespace Sys2Proof.Machine

/-! ### Routes (R451, R452) -/

def allPorts : List (Fin 4) := [0, 1, 2, 3]
def State.kslPort (s : State) (k : Fin 4) : KslPort := vget s.ksl.ports k
def State.modKsl (s : State) (f : Kalsal → Kalsal) : State := { s with ksl := f s.ksl }
def State.modPort (s : State) (k : Fin 4) (f : KslPort → KslPort) : State := s.modKsl (fun x => { x with ports := vmod x.ports k f })

/-- Direction of port `k`: 0 up, 1 down, 2 host, 3 unused (R462). -/
def State.kslDir (s : State) (k : Nat) : Nat := (s.reg (rKslRtDir k)).toNat % 4
def State.kslLo (s : State) (k : Nat) : Nat := (s.reg (rKslRtRange k)).toNat % 65536
def State.kslHi (s : State) (k : Nat) : Nat := (s.reg (rKslRtRange k)).toNat / 65536
def State.deviceId (s : State) : Nat := (s.reg rKslDevId).toNat % 65536
def State.upPort (s : State) : Option (Fin 4) := allPorts.find? (fun k => s.kslDir k.1 = 0)
def State.portActive (s : State) (k : Fin 4) : Bool := (s.kslPort k).st = .active

/-- A host port is one whose CONFIG reported a host adapter (R451); one that is ACTIVE first. -/
def State.hostPort (s : State) : Option (Fin 4) :=
  match allPorts.find? (fun k => (s.kslPort k).peerAdapter && s.portActive k) with
  | some k => some k
  | none => allPorts.find? (fun k => (s.kslPort k).peerAdapter)

/-- Only ENUM and TIME packets use the port (R456). -/
def State.portUnused (s : State) (k : Fin 4) : Bool := decide (s.kslDir k.1 = 3) && !(s.kslPort k).peerAdapter

/-- The port by which R452 sends a packet for another device `d` that arrived at `from0` (none: local); none where it is discarded. -/
def State.routeFrom (s : State) (d : Nat) (from0 : Option (Fin 4)) : Option (Fin 4) :=
  match allPorts.find? (fun k => s.kslDir k.1 = 1 && decide (s.kslLo k.1 ≤ d) && decide (d ≤ s.kslHi k.1)) with
  | some k => some k
  | none => match s.upPort with
    | some u => if from0 = some u then none else some u
    | none => none

/-- A packet is discarded by routing, as malformed, or for a down port (R445, R452, R548). -/
def State.routeDrop (s : State) : State := (s.orReg rKslStat 1).bump rKslRouteDrops 1

/-! ### Packets and flits (R438, R444, R445) -/

/-- VC of a packet type and direction: A-request 0, A-response 1, B 2, C 3 (R442, R445). -/
def typeVc (type : Nat) (rsp : Bool) : Nat := if type = 5 then 3 else if type = 1 ∨ type = 2 ∨ type = 4 then (if rsp then 1 else 0) else 2
def packetVc (p : Packet) : Nat := typeVc p.type p.rsp

/-- The 64-byte packet header (R444). -/
def Packet.header (p : Packet) : List Byte :=
  [BitVec.ofNat 8 p.type, BitVec.ofNat 8 ((if p.rsp then 1 else 0) + (if p.bcast then 2 else 0) + (if p.host then 4 else 0))] ++
    leBytes 2 p.dst.toNat ++ leBytes 2 p.src.toNat ++ [BitVec.ofNat 8 p.hops, p.status] ++ leBytes 4 p.payload.length ++
    leBytes 2 p.tag.toNat ++ [0, 0] ++ (p.fields ++ List.replicate 48 0).take 48

/-- Cut a list into pieces of `k`, at most `n` of them. -/
def pieces {α : Type} (k : Nat) : Nat → List α → List (List α)
  | 0, _ => []
  | _ + 1, [] => []
  | n + 1, l => l.take k :: pieces k n (l.drop k)

/-- A code word with its check bits complemented: poisoned (R304). -/
def poisonWord (w : CodeWord) : CodeWord := { w with chk := codeChk w.data ^^^ 0xFFFF }

/-- The code words of a packet. -/
def Packet.words (p : Packet) : List CodeWord :=
  let b := p.header ++ p.payload
  let ws := (pieces 16 b.length b).map goodWord
  (ws.zip (upFrom 0 ws.length)).map (fun x => if 4 ≤ x.2 ∧ p.bad.contains (x.2 - 4) then poisonWord x.1 else x.1)

/-- The flits of a packet's words (R438): 16 words each, SOP on the first, EOP on the last. -/
def flitsOf (vc origin : Nat) (held : Option (Fin 4)) (event : Option (Fin 16 × Nat)) (ws : List CodeWord) : List TxFlit :=
  let ps := pieces 16 ws.length ws
  (ps.zip (upFrom 0 ps.length)).map (fun x =>
    { vc := vc, origin := origin, held := held, sop := x.2 = 0, eop := x.2 + 1 = ps.length, words := x.1,
      event := if x.2 = 0 then event else none })

/-- The word's data cannot be used: uncorrectable or poisoned (R303). -/
def wordBad (w : CodeWord) : Bool := (readCode w).2.bad
def wordData (w : CodeWord) : List Byte := wordBytes (readCode w).1

/-- A packet as its words give it; its header words must be sound. -/
def packetOf (ws : List CodeWord) : Option Packet :=
  let h := (ws.take 4).flatMap wordData
  let n := leAt h 8 4
  if ws.length < 4 ∨ (ws.take 4).any wordBad then none
  else
    let flags := leAt h 1 1
    let body := ws.drop 4
    let bad := ((body.zip (upFrom 0 body.length)).filter (fun x => wordBad x.1)).map (·.2)
    some { type := leAt h 0 1, rsp := natBit flags 0, bcast := natBit flags 1, host := natBit flags 2, dst := BitVec.ofNat 16 (leAt h 2 2)
           src := BitVec.ofNat 16 (leAt h 4 2), hops := leAt h 6 1, status := BitVec.ofNat 8 (leAt h 7 1)
           tag := BitVec.ofNat 16 (leAt h 12 2), fields := h.drop 16, payload := (body.flatMap wordData).take n, bad := bad }

/-- Payload bytes that the header of R444 announces. -/
def headLength (ws : List CodeWord) : Nat := leAt ((ws.take 4).flatMap wordData) 8 4

def Packet.field (p : Packet) (off n : Nat) : Nat := leAt p.fields (off - 16) n

/-- Type, class and fields are those of R445; `n` is the announced payload length and `vc` the VC the packet came on. -/
def Packet.formed (p : Packet) (vc n : Nat) : Bool :=
  decide (packetVc p = vc) && (!p.bcast || decide (p.type = 3)) &&
    (match p.type with
    | 1 => if p.rsp then decide (n ≤ 64) else decide (n = 0) && decide (1 ≤ p.field 24 2) && decide (p.field 24 2 ≤ 64)
    | 2 => if p.rsp then decide (n = 0) else decide (1 ≤ p.field 24 2) && decide (p.field 24 2 ≤ 64) && decide (n = p.field 24 2)
    | 3 => decide (1 ≤ n) && decide (n ≤ 192)
    | 4 => decide (n = 0) && (p.rsp || (decide (6 ≤ p.field 18 1) && decide (p.field 18 1 ≤ 9)))
    | 5 => true
    | 6 => decide (n = 0) && decide (p.field 16 1 ≤ 2)
    | 7 => decide (n = 0) && decide (p.field 16 1 ≤ 2)
    | _ => false)

/-- Queue a packet at port `k` for sending, hops incremented (R443, R452); `origin` 0-3 is the port it arrived on, 4 is local. -/
def State.kslQueueWith (s : State) (k : Fin 4) (origin : Nat) (event : Option (Fin 16 × Nat)) (p : Packet) : State :=
  let fs := flitsOf (packetVc p) origin none event { p with hops := p.hops + 1 }.words
  s.modPort k (fun x => { x with txq := x.txq ++ fs })

def State.kslQueue (s : State) (k : Fin 4) (origin : Nat) (p : Packet) : State := s.kslQueueWith k origin none p

/-- Send a packet formed at this device on its way (R452, R548). -/
def State.kslSend (s : State) (p : Packet) : State :=
  let k := if p.dst.toNat = s.deviceId then (if p.host ∧ p.rsp then s.hostPort else none) else s.routeFrom p.dst.toNat none
  match k with
  | some k => if s.portActive k then s.kslQueue k 4 p else s.routeDrop
  | none => s.routeDrop

/-- The response to a request (R444, R446-R448). -/
def Packet.answer (p : Packet) (dev status : Nat) (payload : List Byte) (bad : List Nat) : Packet :=
  { type := p.type, rsp := true, bcast := false, host := p.host, dst := p.src, src := BitVec.ofNat 16 dev, hops := 0,
    status := BitVec.ofNat 8 status, tag := p.tag, fields := [], payload := payload, bad := bad }

end Sys2Proof.Machine
end

