-- ==== Sys2Proof/Machine/Sluice.lean ====
section
/-! DEFINITION. The Sluice egress scheduler (R386-R393): flows, services, buckets, picks, takeovers, and handing a packet to an
Ethernet port (R489) or a Kalsal port (R548). -/

namespace Sys2Proof.Machine

/-! ### Flows and services (R386, R391) -/

/-- A packet with no RTP fields. -/
def plainPacket (kind : SluKind) (bytes : Nat) (pkt : Option Packet) : SluPacket :=
  { kind := kind, bytes := bytes, pkt := pkt, rtp := none, ntp := 0, frame := [], since := none }

def flowService (f : Nat) : Nat :=
  if f < 4 then 1 else if f < 8 then 2 else if f < 16 then 3 else if f < 22 then 0 else if f < 26 then 5 else if f < 32 then 6 else 4

/-- Port of a flow by the configuration now in effect (R386); port 2 where the routes give none (log entry 13). -/
def State.flowPort (s : State) (f : Nat) : Nat :=
  let kal := fun d => match s.routeFrom d none with
    | some k => 2 + k.1
    | none => 2
  if f < 8 then s.cfg (unitPxy (f % 4)) 18 1 % 2
  else if f < 16 then (if s.hasActive unitRef then kal (s.cfg unitRef (96 + 2 * (f - 8)) 2) else 0)
  else if f < 18 then f - 16
  else if f < 22 then f - 16
  else if f < 26 then f - 20
  else if f < 32 then 0
  else if s.hasActive unitSlu then kal (s.cfg unitSlu (448 + 16 * f + 2) 2) else 0

def flowFixedPort (f : Nat) : Nat := if 16 ≤ f ∧ f < 22 then f - 16 else if 22 ≤ f ∧ f < 26 then f - 20 else 0

/-- A flow at reset: bucket full of one packet (R391). -/
def flowReset (f : Nat) : Flow :=
  { queue := [], tokens := 1000000, deficit := 0, port := flowFixedPort f, service := flowService f, moving := none }
def serviceReset (_ : Nat) : Service := { tokens := 1000000, deficit := 0, ptr := 0 }

def State.flow (s : State) (f : Nat) : Flow := mapGet flowReset s.slu.flows f
def State.setFlow (s : State) (f : Nat) (x : Flow) : State := { s with slu := { s.slu with flows := mapSet flowReset s.slu.flows f x } }
def State.service (s : State) (p v : Nat) : Service := mapGet serviceReset s.slu.services (8 * p + v)
def State.setService (s : State) (p v : Nat) (x : Service) : State :=
  { s with slu := { s.slu with services := mapSet serviceReset s.slu.services (8 * p + v) x } }

/-- QUANTUM, EN, RATE and BURST of a flow and of a service (R391); before any takeover 1, 0, 0 and 1. -/
def State.flowQuantum (s : State) (f : Nat) : Nat := if s.hasActive unitSlu then s.cfg unitSlu (448 + 16 * f) 1 else 1
def State.flowEn (s : State) (f : Nat) : Bool := f < 32 || s.cfg unitSlu (448 + 16 * f + 1) 1 = 1
def State.flowRate (s : State) (f : Nat) : Nat := s.cfg unitSlu (448 + 16 * f + 4) 4
def State.flowBurst (s : State) (f : Nat) : Nat :=
  if s.hasActive unitSlu ∧ !(16 ≤ f ∧ f < 32) then s.cfg unitSlu (448 + 16 * f + 8) 2 else 1
def State.svcQuantum (s : State) (p v : Nat) : Nat := if s.hasActive unitSlu then s.cfg unitSlu (16 + 64 * p + 8 * v) 1 else 1
def State.svcRate (s : State) (p v : Nat) : Nat := s.cfg unitSlu (16 + 64 * p + 8 * v + 4) 4
def State.svcBurst (s : State) (p v : Nat) : Nat := if s.hasActive unitSlu then s.cfg unitSlu (16 + 64 * p + 8 * v + 2) 2 else 1

/-- A bucket holds at least one packet (R390). -/
def bucketHolds (rate tokens : Nat) : Bool := rate = 0 || 1000000 ≤ tokens

/-- Flow `f` is eligible on its port (R388). -/
def State.flowEligible (s : State) (f : Nat) : Bool := decide ((s.flow f).queue ≠ []) && bucketHolds (s.flowRate f) (s.flow f).tokens

/-- The flows of a port's service, in increasing number. -/
def State.flowsOf (s : State) (p v : Nat) : List Nat := (upFrom 0 64).filter (fun f => (s.flow f).port = p && (s.flow f).service = v)

def State.svcEligible (s : State) (p v : Nat) : Bool :=
  bucketHolds (s.svcRate p v) (s.service p v).tokens && (s.flowsOf p v).any s.flowEligible

/-- Members in one pass from `ptr`, wrapping. -/
def rotate (ptr : Nat) (l : List Nat) : List Nat := l.filter (fun m => ptr ≤ m) ++ l.filter (fun m => m < ptr)

/-- A packet is offered to flow `f` (R387): discarded where flows 0-7 are full or flow 32-63 is not enabled; elsewhere the producer's
packet waits behind the 64 queued ones (log entry 14). -/
def State.sluOffer (s : State) (f : Nat) (p : SluPacket) : State :=
  let x := s.flow f
  if (f < 8 ∧ 64 ≤ x.queue.length) ∨ !s.flowEn f then ((s.bump (rSluFlowDrops f) 1).orReg rSluStat 1).raise 98
  else s.setFlow f { x with queue := x.queue ++ [p] }

/-! ### Picks (R388) -/

/-- drr over the flows of a service: the flow, with its deficit and the service's pointer moved. -/
def State.drrFlows (s : State) (p v : Nat) : List Nat → State × Option Nat
  | [] => (s, none)
  | m :: ms =>
    let x := s.flow m
    if s.flowEligible m then
      let d := (if x.deficit = 0 then s.flowQuantum m else x.deficit) - 1
      let s := s.setFlow m { x with deficit := d }
      (s.setService p v { s.service p v with ptr := if d = 0 then m + 1 else m }, some m)
    else
      let s := if x.queue = [] then s.setFlow m { x with deficit := 0 } else s
      (s.setService p v { s.service p v with ptr := m + 1 }).drrFlows p v ms

/-- drr over services 1-7 of a port. -/
def State.drrServices (s : State) (p : Nat) : List Nat → State × Option Nat
  | [] => (s, none)
  | v :: vs =>
    let x := s.service p v
    if s.svcEligible p v then
      let d := (if x.deficit = 0 then s.svcQuantum p v else x.deficit) - 1
      let s := s.setService p v { x with deficit := d }
      ({ s with slu := { s.slu with sptr := vsetN s.slu.sptr p (if d = 0 then v + 1 else v) } }, some v)
    else
      let s := if (s.flowsOf p v).all (fun f => decide ((s.flow f).queue = [])) then s.setService p v { x with deficit := 0 } else s
      { s with slu := { s.slu with sptr := vsetN s.slu.sptr p (v + 1) } }.drrServices p vs

/-- The flow that pick(port) chooses (R388). -/
def State.sluChoose (s : State) (p : Nat) : State × Option Nat :=
  match (rotate (vgetN 0 s.slu.ptr0 p) (s.flowsOf p 0)).find? s.flowEligible with
  | some f => ({ s with slu := { s.slu with ptr0 := vsetN s.slu.ptr0 p (f + 1) } }, some f)
  | none =>
    match s.drrServices p (rotate (vgetN 0 s.slu.sptr p) (upFrom 1 7)) with
    | (s, none) => (s, none)
    | (s, some v) => s.drrFlows p v (rotate (s.service p v).ptr (s.flowsOf p v))

/-- A move completes when the packets queued before the takeover have been picked (R393). -/
def State.sluMoved (s : State) (f : Nat) : State :=
  let x := s.flow f
  match x.moving with
  | none => s
  | some (left, p, v) =>
    if left ≤ 1 then ((s.setFlow f { x with moving := none, port := p, service := v, deficit := 0 }).orReg rSluStat 2).raise 99
    else s.setFlow f { x with moving := some (left - 1, p, v) }

/-- One REF_TILE of the picture in the packet has left: its slot is one send nearer to release (R106). -/
def State.refSent (s : State) (p : Packet) : State :=
  let pic := leAt p.fields 4 4
  match ([0, 1, 2, 3, 4, 5, 6, 7, 8, 9, 10, 11, 12, 13, 14, 15] : List (Fin 16)).find?
      (fun i => (s.slot i).source = none && (s.slot i).picture.toNat = pic && decide (0 < (s.slot i).sends)) with
  | some i => s.modSlot i (fun x => { x with sends := x.sends - 1 })
  | none => s

/-- PXY_STR_LAT_MAX of stream `m` (R183, R185): the first packet of lines that waited since fabric cycle `t` reaches the MAC. -/
def State.noteLatency (s : State) (m t : Nat) : State :=
  let v := Nat.min ((s.clk.fab - t) / 2) (2 ^ 32 - 1)
  if (s.reg (rPxyStrLatMax m)).toNat < v then s.setReg (rPxyStrLatMax m) (BitVec.ofNat 32 v) else s

/-- A picked packet goes to its port: an Ethernet port sends it or counts the drop (R489, R492), stamping a
Delay_Req (R491), a Kalsal port queues it or discards it (R548). -/
def State.sluHand (s : State) (f p : Nat) (k : SluPacket) : State :=
  let s := match k.since with
    | some t => if f < 4 then s.noteLatency f t else s
    | none => s
  if p < 2 then
    if !vgetN false s.ptp.linkUp p then (s.bump (rNetTxDownDrops p) 1).raise (162 + 8 * p)
    else
      let s := s.bump (rNetTxFrames p) 1
      if k.kind = .ptp then { s with ptp := { s.ptp with t3 := s.clk.ns.toNat, reqOut := true } } else s
  else match k.pkt with
    | none => s
    | some q =>
      let s := if k.kind = .refTile then s.refSent q else s
      let port := fin 4 (p - 2)
      if s.portActive port then s.kslQueue port 4 q else s.routeDrop

/-- A pick on one port (R388). -/
def State.sluPick (s : State) (p : Nat) : State :=
  let waiting := (upFrom 0 64).any (fun f => (s.flow f).port = p && decide ((s.flow f).queue ≠ []))
  match s.sluChoose p with
  | (s, none) => if waiting then s.bump (rSluPortIdle p) 1 else s
  | (s, some f) =>
    let x := s.flow f
    match x.queue with
    | [] => s
    | k :: ks =>
      let v := x.service
      let s := s.setFlow f { x with queue := ks, tokens := if s.flowRate f = 0 then x.tokens else x.tokens - 1000000 }
      let y := s.service p v
      let s := if v = 0 ∨ s.svcRate p v = 0 then s else s.setService p v { y with tokens := y.tokens - 1000000 }
      (((s.bump (rSluFlowPkts f) 1).bump (rSluPortPkts p) 1).sluMoved f).sluHand f p k

/-- Bucket accrual of one microsecond (R390). -/
def accrue (rate burst t : Nat) : Nat := if rate = 0 then burst * 1000000 else Nat.min (t + rate) (burst * 1000000)

def State.sluAccrue (s : State) : State :=
  let s := (upFrom 0 64).foldl (fun s f => s.setFlow f { s.flow f with tokens := accrue (s.flowRate f) (s.flowBurst f) (s.flow f).tokens }) s
  (upFrom 0 6).foldl (fun s p => (upFrom 1 7).foldl (fun s v =>
    s.setService p v { s.service p v with tokens := accrue (s.svcRate p v) (s.svcBurst p v) (s.service p v).tokens }) s) s

/-- A flow keeps its place until what was queued before the takeover has gone (R393). -/
def State.sluPlace (s : State) (f : Nat) : State :=
  let x := s.flow f
  let p := s.flowPort f
  let v := flowService f
  if x.port = p ∧ x.service = v then s.setFlow f { x with moving := none }
  else if x.queue = [] then s.setFlow f { x with port := p, service := v, deficit := 0, moving := none }
  else s.setFlow f { x with moving := some (x.queue.length, p, v) }

/-- A takeover at Sluice (R392, R393): clamps, discards of flows now disabled, moves. -/
def State.sluTakeover (s : State) : State :=
  let s := (upFrom 0 64).foldl (fun s f =>
    let x := s.flow f
    let s := s.setFlow f { x with tokens := Nat.min x.tokens (s.flowBurst f * 1000000), deficit := Nat.min x.deficit (s.flowQuantum f) }
    let s := if !s.flowEn f ∧ x.queue ≠ [] then
        (((s.setFlow f { s.flow f with queue := [] }).bump (rSluFlowDrops f) x.queue.length).orReg rSluStat 1).raise 98
      else s
    s.sluPlace f) s
  (upFrom 0 6).foldl (fun s p => (upFrom 1 7).foldl (fun s v =>
    let x := s.service p v
    s.setService p v { x with tokens := Nat.min x.tokens (s.svcBurst p v * 1000000), deficit := Nat.min x.deficit (s.svcQuantum p v) }) s) s

/-- SLUICE_PICK (R388, R389). -/
def execSluicePick (port : Fin 6) (s : State) : Host.Outcome State Fault Refusal := .next (s.sluPick port.1)

/-- TOKEN_ACCRUAL (R390). -/
def execTokenAccrual (s : State) : Host.Outcome State Fault Refusal := .next s.sluAccrue

end Sys2Proof.Machine
end

