-- ==== Sys2Proof/Machine/Links.lean ====
section
/-! DEFINITION. Kalsal links (R433-R437, R458) and enumeration as a link meets it (R454-R456): the KSL record in effect (R460), a link
going DOWN with its packets in flight, retrains, and the walk over the ports. -/

namespace Sys2Proof.Machine

/-! ### The KSL record in effect (R460) -/

def State.kslCred (s : State) (k : Fin 4) (vc : Nat) : Nat :=
  if s.hasActive unitKsl then s.cfg unitKsl (16 + 8 * k.1 + 2 * vc) 2 else nth 0 [32, 32, 64, 896] vc
def State.aOutMax (s : State) : Nat := if s.hasActive unitKsl then s.cfg unitKsl 48 1 else 1
def State.hopLimit (s : State) : Nat := if s.hasActive unitKsl then s.cfg unitKsl 49 1 else 32
def State.msgBase (s : State) : Nat := if s.hasActive unitKsl then s.cfg unitKsl 56 8 else 0x020000300000

/-- Event `e` of port `k` (R461): 0 a change of UP, 1 a link error, 2 a view event, 3 a ring arrival. -/
def kslSource (k : Fin 4) (e : Nat) : Nat := 176 + 4 * k.1 + e

/-! ### Enumeration (R454, R456) -/

/-- An ENUM packet of a subtype (0 ASSIGN, 1 REPORT, 2 REFUSE) for the neighbour on port `k`, offered to flow 22 + k. -/
def State.enumSend (s : State) (k : Fin 4) (sub epoch base count status : Nat) : State :=
  let factory := leBytes 16 Config.factoryId.toNat
  let fields := [BitVec.ofNat 8 sub, 0] ++ leBytes 2 epoch ++ leBytes 2 base ++ [0, 0] ++ leBytes 4 count ++ [0, 0, 0, 0] ++ factory
  let p : Packet := { type := 7, rsp := decide (sub ≠ 0), bcast := false, host := false, dst := (s.kslPort k).peerId,
                      src := BitVec.ofNat 16 s.deviceId, hops := 0, status := BitVec.ofNat 8 status, tag := 0, fields := fields,
                      payload := [], bad := [] }
  s.sluOffer (22 + k.1) (plainPacket .enumeration 64 (some p))

/-- ENUMERATE's writes of the routing registers: never while a take is ARMED, ROLLING or CUTTING (R13, R451). -/
def State.setRoute (s : State) (off : Nat) (w : Word) : State := if s.takeActive then s else s.setReg off w

def State.setDir (s : State) (k : Fin 4) (d : Nat) : State := s.setRoute (rKslRtDir k.1) (BitVec.ofNat 32 d)

/-- The first non-OK status stands (R454). -/
def Enumeration.note (e : Enumeration) (status : Nat) : Enumeration := { e with status := if e.status = stOk then status else e.status }

/-- Step 3 and 4 of R454 from port `k` on: ASSIGN to the next port whose link is up and whose peer is a device; with none left, the
answer to the parent or the completion of ENUMERATE. The status is the first that a subtree gave, STATE among them: R456 has ENUMERATE complete
so although ID, epoch and routes have been written, which R9 says of no command that completes with STATE; the model follows R456 (DEDUCED,
log entry 75). -/
def State.enumWalk (s : State) (e : Enumeration) : List (Fin 4) → State
  | k :: ks =>
    if s.portActive k && !(s.kslPort k).peerAdapter && decide (e.parent ≠ some k) then
      if 65536 ≤ e.next then (s.setDir k 3).enumWalk (e.note stNoresource) ks
      else (s.enumSend k 0 e.epoch.toNat e.next 0 stOk).modKsl (fun x => { x with enumr := some { e with waiting := some k } })
    else s.enumWalk e ks
  | [] =>
    let s := s.modKsl (fun x => { x with enumr := none })
    match e.parent with
    | some k => s.enumSend k 1 e.epoch.toNat 0 (e.next - e.base) e.status
    | none => match s.ksl.enumCmd with
      | some c => (s.modKsl (fun x => { x with enumCmd := none })).post c e.status true (BitVec.ofNat 64 (e.next - e.base))
      | none => s

/-- The ports after port `k`. -/
def portsAfter (k : Fin 4) : List (Fin 4) := allPorts.filter (fun j => decide (k.1 < j.1))

/-- The device takes ID `b` and the epoch (R454 steps 1-3): a host port becomes host, the parent's up, the others unused until visited. -/
def State.enumStart (s : State) (parent : Option (Fin 4)) (b : Nat) (epoch : Half) : State :=
  let s := s.setReg rKslDevId (BitVec.ofNat 32 b)
  let s := allPorts.foldl (fun s k => s.setDir k (if parent = some k then 0 else if (s.kslPort k).peerAdapter then 2 else 3)) s
  (s.modKsl (fun x => { x with epoch := epoch })).enumWalk
    { parent := parent, base := b, next := b + 1, epoch := epoch, waiting := none, status := stOk } allPorts

/-- The answer of port `k` is REPORT(count), or REFUSE where there is no count (R454). -/
def State.enumAnswer (s : State) (k : Fin 4) (count : Option Nat) (status : Nat) : State :=
  match s.ksl.enumr with
  | none => s
  | some e =>
    if e.waiting ≠ some k then s
    else
      let e := { e.note (listedStatus status) with waiting := none }
      match count with
      | some n =>
        ((s.setDir k 1).setRoute (rKslRtRange k.1) (BitVec.ofNat 32 (e.next % 65536 + 65536 * ((e.next + n - 1) % 65536)))).enumWalk
          { e with next := e.next + n } (portsAfter k)
      | none => (s.setDir k 3).enumWalk e (portsAfter k)

/-! ### Links (R435-R437, R458) -/

/-- The claim of an EVT's source is undone (R396): it is PENDING again, with any raise merged. -/
def State.unclaim (s : State) (t : Fin 16) (k : Nat) : State :=
  let x := s.src k
  if (x.st = .active ∨ x.st = .repend) ∧ x.target = t then (if x.en then (s.toPending k).deliver else s.setSrc k { x with st := .idle })
  else s

/-- A flit that a receive buffer held has left it: a credit of its VC goes back to the peer (R442). -/
def State.freeFlit (s : State) (held : Option (Fin 4)) (vc : Nat) : State :=
  match held with
  | some j => s.modPort j (fun x => { x with freed := vmodN x.freed vc (· + 1) })
  | none => s

/-- A full training and a link going DOWN discard sequence numbers, acknowledgements, credits, the replay buffer and every packet in
flight (R437, R458); the claims of EVT packets among them are undone (R396). -/
def KslPort.clear (x : KslPort) : KslPort :=
  { x with txSeq := 0, replay := [], resend := none, sinceMarker := 0, rxSeq := 0, faulty := 0, nak := false, awaited := false,
           retrainReq := false, partials := [], freed := Vector.replicate 4 0, peerFreed := Vector.replicate 4 0,
           sent := Vector.replicate 4 0, txq := [], txCur := Vector.replicate 4 none, txTurn := Vector.replicate 4 0, rr := 0 }

def noPartial (_ : Nat) : Option (RxRoute × List CodeWord) := none

/-- Packets that arrive elsewhere for port `k` have no way on (R548). -/
def KslPort.cutOff (x : KslPort) (k : Fin 4) : KslPort :=
  { x with partials := x.partials.map (fun e => (e.1, e.2.map (fun p => if p.1 = .onward k then (.nowhere, []) else p))) }

def State.linkFlush (s : State) (k : Fin 4) : State :=
  let x := s.kslPort k
  let events := (x.replay.map (·.2) ++ x.txq).filterMap (·.event)
  let s := x.txq.foldl (fun s f => s.freeFlit f.held f.vc) s
  let s := (allPorts.foldl (fun s j => s.modPort j (fun y => y.cutOff k)) s).modPort k KslPort.clear
  events.foldl (fun s e => s.unclaim e.1 e.2) s

/-- The link leaves or reaches ACTIVE: a change of UP (R461). -/
def State.setLink (s : State) (k : Fin 4) (st : KslState) : State :=
  let was := s.portActive k
  let s := s.modPort k (fun x => { x with st := st })
  if was ≠ s.portActive k then s.raise (kslSource k 0) else s

/-- The link goes DOWN (R436, R458). An enumeration that waits for the port meets REFUSE with LINK (R454). -/
def State.linkDown (s : State) (k : Fin 4) : State :=
  if (s.kslPort k).st = .down then s
  else (((s.modPort k (fun x => { x with retraining := false })).setLink k .down).linkFlush k).enumAnswer k none stLink

/-- A link fails training (R436): DOWN, with the port's link-error event of status LINK; its cause and info are not stated (log entry 7). -/
def State.trainFail (s : State) (k : Fin 4) : State :=
  ({ s with freeCount := s.freeCount + 1 }.linkDown k).raiseRec (kslSource k 1) (Config.unstated 16 s.freeCount) stLink 0xFFFF 0xFFFFFFFF
    (Config.unstated 17 s.freeCount)

/-- A retrain starts from ACTIVE and runs ALIGN and CONFIG only (R435). -/
def State.retrain (s : State) (k : Fin 4) : State :=
  if s.portActive k then
    ((((s.modPort k (fun x => { x with retraining := true, retrainReq := false })).setLink k .align).bump (rKslRetrains k.1) 1).orReg
      (rKslPortStat k.1) 0x40)
  else s

end Sys2Proof.Machine
end

