-- ==== Sys2Proof/Machine/Cistern.lean ====
section
/-! DEFINITION. The Cistern buffer manager (R341-R358): configuration, allocation, freeing, hand-over, the owner pages of the
software aperture, and the hand-overs to DMA channels (R361) and of check units (R314). -/

namespace Sys2Proof.Machine

/-- MIN[o][p] in effect (R355, R357). -/
def State.cisMin (s : State) (o p : Nat) : Nat :=
  if s.hasActive unitCis then s.cfg unitCis (192 + 12 * o + 2 * p) 2
  else if o = 0 then (if p = 2 then 2 else 0)
  else if o ≤ 4 then (if p = 0 ∨ p = 2 then 2 else 0)
  else 0

/-- WARN[p] and BP[p] in effect (R348, R355, R341). -/
def State.cisWarn (s : State) (p : Nat) : Nat := if s.hasActive unitCis then s.cfg unitCis (48 + 24 * p + 12) 4 else poolSram p / 8
def State.cisBp (s : State) (p : Nat) : Nat := if s.hasActive unitCis then s.cfg unitCis (48 + 24 * p + 16) 4 else poolSram p / 32

/-- ALLOCATED buffers of pool `p` in increasing index. -/
def State.poolBufs (s : State) (p : Nat) : List (Nat × Buffer) :=
  s.cis.bufs.filterMap (fun e => if e.1 / 2 ^ 29 = p then e.2.map (fun b => (e.1 % 2 ^ 29, b)) else none)

/-- c[o][p] (R344). -/
def State.charged (s : State) (o p : Nat) : Nat := ((s.poolBufs p).filter (fun e => e.2.charge.1 = o)).length
/-- Buffers of pool `p` that owner `o` holds. -/
def State.held (s : State) (o p : Nat) : Nat := ((s.poolBufs p).filter (fun e => e.2.holder.1 = o)).length

/-- s[p] of R347. -/
def State.shared (s : State) (p : Nat) : Int :=
  (s.poolN p : Int) - sumNat ((upFrom 0 64).map (fun o => Nat.max (s.charged o p) (s.cisMin o p)))

/-- The lowest index at or after `i` that rising `used` indices leave free. -/
def firstFree : Nat → List Nat → Nat
  | i, [] => i
  | i, u :: us => if u = i then firstFree (i + 1) us else if u < i then firstFree i us else i

/-- The lowest-numbered FREE buffer of pool `p` (R347). -/
def State.freeIndex (s : State) (p : Nat) : Nat := firstFree 0 ((s.poolBufs p).map (·.1))

/-- The smallest pool whose buffers hold `size` bytes (R346). -/
def poolFor (size : Nat) : Option Nat := if size = 0 then none else (upFrom 0 6).find? (fun p => size ≤ poolSize p)

/-- Warning and back-pressure events of pool `p` as s[p] or its thresholds change from those of state `old` (R348). -/
def State.cisNotice (s old : State) (p : Nat) : State :=
  let falls := fun (limit : State → Nat → Nat) => decide (s.shared p ≤ (limit s p : Int)) && decide ((limit old p : Int) < old.shared p)
  let s' := if falls State.cisWarn then (s.orReg rCisStat 1).raise 64 else s
  if falls State.cisBp then (s'.orReg rCisStat 2).raise 65 else s'

/-- The same for every pool after a change of the configuration (R348, R357). -/
def State.cisNotices (s old : State) : State := (upFrom 0 6).foldl (fun t p => t.cisNotice old p) s

/-- A rejected operation (R350): CIS_REJ registers, the count, and source 66, or for PAGE_DENIED source 67. -/
def State.cisReject (s : State) (handle : Word) (cause requester holder : Nat) : State :=
  let s := ((s.setReg rCisRejHandle handle).setReg rCisRejInfo (BitVec.ofNat 32 (cause + 256 * requester + 65536 * holder))).bump
    rCisRejCount 1
  if cause = 9 then (s.orReg rCisStat 8).raise 67 else (s.orReg rCisStat 4).raise 66

/-- Status that a rejection cause returns (R350). -/
def rejStatus (cause : Nat) : Nat := if 1 ≤ cause ∧ cause ≤ 4 then stState else stBadarg

/-- The handle names a buffer of pools 0-5 or a check unit (R342, R357). -/
def State.handleOk (s : State) (h : Word) : Bool :=
  let p := h.toNat / 2 ^ 29
  let i := h.toNat % 2 ^ 29
  if p = 7 then decide (i < 16)
  else if p = 6 then false
  else decide (i < s.poolN p) || (s.buf h.toNat).isSome

/-- The functions that a Cistern operation needs: FLUME and the Cistern (R23). -/
def cisNeeds : List Nat := [8, 13]

def isCkuHandle (h : Word) : Bool := h.toNat / 2 ^ 29 = 7
def ckuOf (h : Word) : Fin 16 := fin 16 (h.toNat % 16)

/-- The owner page of `o` (R354). -/
def pageReset (_ : Nat) : OwnerPage := { giveTo := 0, result := 0xFFFFFFFF, status := 0, cause := 0, bp := false }
def State.page (s : State) (o : Fin 64) : OwnerPage := mapGet pageReset s.cis.pages o.1
def State.setPage (s : State) (o : Fin 64) (p : OwnerPage) : State :=
  { s with cis := { s.cis with pages := mapSet pageReset s.cis.pages o.1 p } }

/-- Software reaches the page of owner `o` (R354). -/
def State.pageOk (s : State) (i : Initiator) (o : Nat) : Bool :=
  match i with
  | .bellhouse => o = 0
  | .core k => o = 1 + k.1 || (32 ≤ o && k.1 ≠ 0 && s.ownerMap o = k.1)
  | _ => false

/-- The initiator is software, which issues Cistern operations through owner pages (R354, R379). -/
def viaPage : Initiator → Bool
  | .core _ => true
  | .bellhouse => true
  | .kalsal _ => true
  | _ => false

/-- The outcome of an operation where its page shows it (R354); a unit gets its answer without a page. -/
def State.pageResult (s : State) (i : Initiator) (o : Fin 64) (handle : Option Word) (status cause : Nat) (bp : Bool) : State :=
  if viaPage i then
    let p := s.page o
    s.setPage o { p with result := handle.getD p.result, status := BitVec.ofNat 8 status, cause := cause, bp := bp }
  else s

/-! ### FREE (R344, R350) -/

/-- The cause that rejects a FREE, 0 for none (R350, in its order). -/
def State.freeCause (s : State) (o : Fin 64) (h : Word) : Nat :=
  if !s.handleOk h then 6
  else if isCkuHandle h then 7
  else match s.buf h.toNat with
    | none => 1
    | some b => if b.holder = o then 0 else 2

def State.holderOf (s : State) (h : Word) : Nat :=
  if isCkuHandle h then (vget s.cku (ckuOf h)).owner.1 else ((s.buf h.toNat).map (fun b => b.holder.1)).getD 0

/-- FREE by owner `o`. -/
def State.cisFree (s : State) (i : Initiator) (o : Fin 64) (h : Word) : State :=
  let c := s.freeCause o h
  if c ≠ 0 then (s.cisReject h c o.1 (s.holderOf h)).pageResult i o none (rejStatus c) c false
  else (s.setBuf h.toNat none).pageResult i o none stOk 0 false

/-- An access to an owner page by an initiator not permitted (R354). -/
def State.pageDenied (s : State) (o : Fin 64) (value : Option Word) : State := s.cisReject (value.getD 0xFFFFFFFF) 9 o.1 0

/-! ### GIVE (R314, R344, R350, R361) -/

/-- The cause that rejects a GIVE, 0 for none. -/
def State.giveCause (s : State) (o : Fin 64) (h : Word) (t : Fin 64) : Nat :=
  if !s.handleOk h then 6
  else if !isCkuHandle h && decide (s.buf h.toNat = none) then 4
  else if s.holderOf h ≠ o.1 then 3
  else if 32 ≤ t.1 ∧ s.ownerMap t.1 = 0 then 5
  else 0

def State.setHolder (s : State) (h : Word) (t : Fin 64) : State :=
  if isCkuHandle h then { s with cku := vmod s.cku (ckuOf h) (fun x => { x with owner := t }) }
  else match s.buf h.toNat with
    | some b => s.setBuf h.toNat (some { b with holder := t })
    | none => s

/-- The DMA channel that a target owner stands for (R345, R361). -/
def State.giveChannel (s : State) (t : Fin 64) : Option (Fin 64) :=
  let m := s.ownerMap t.1
  if 0x40 ≤ m ∧ m < 0x80 then some (fin 64 (m - 0x40)) else none

def State.modDma (s : State) (c : Fin 64) (f : DmaChannel → DmaChannel) : State := { s with dma := vmod s.dma c f }

/-- An accepted hand-over of owner `o` waits: a check unit with bytes not yet absorbed (R314), a full start queue (R361). -/
def State.giveWaits (s : State) (o : Fin 64) (h : Word) (t : Fin 64) : Bool :=
  (isCkuHandle h && decide ((vget s.cku (ckuOf h)).queue ≠ [])) ||
  (match s.giveChannel t with
   | some c => decide (o ≠ t) && decide (16 ≤ c.1) && !isCkuHandle h && decide (8 ≤ (vget s.dma c).queue.length)
   | none => false)

/-- A buffer handed to a Kalsal port is a MSG of the take program (R447): flow in byte 0, length in bytes 2-3, payload from byte 16;
the packet enters its Sluice flow and the buffer is freed (log entry 15). -/
def State.giveMsg (s : State) (h : Word) : State :=
  let a := s.bufAddr (h.toNat / 2 ^ 29) (h.toNat % 2 ^ 29)
  let f := leNat (s.peek a 1)
  let n := leNat (s.peek (a + 2) 2)
  let s0 := (s.noteArea a (16 + n)).setBuf h.toNat none
  if f < 32 ∨ 64 ≤ f ∨ n = 0 ∨ 192 < n then s0
  else
    let dst := s.cfg unitSlu (448 + 16 * f + 2) 2
    let pk : Packet := { type := 3, rsp := false, bcast := false, host := false, dst := BitVec.ofNat 16 dst,
                         src := BitVec.ofNat 16 s.deviceId, hops := 0, status := 0, tag := 0,
                         fields := BitVec.ofNat 8 f :: List.replicate 47 0, payload := s.peek (a + 16) n, bad := s.badWords (a + 16) n }
    s0.sluOffer f (plainPacket .msg n (some pk))

/-- GIVE by owner `o` to `t`: a hand-over that must wait is held until it can be accepted (R36); one to a DMA channel enters its start queue, or
comes straight back (R361). -/
def State.cisGive (s : State) (i : Initiator) (o : Fin 64) (h : Word) (t : Fin 64) : State :=
  let c := s.giveCause o h t
  if c ≠ 0 then (s.cisReject h c o.1 (s.holderOf h)).pageResult i o none (rejStatus c) c false
  else if s.giveWaits o h t then s.hold i cisNeeds none (.give i o h t)
  else
    let s := s.pageResult i o none stOk 0 false
    if o = t then s
    else match s.giveChannel t with
      | some ch =>
        if ch.1 < 16 ∨ isCkuHandle h then ((s.bump (rDmaChRefused ch.1) 1).orReg rDmaStat 4).raise 71
        else (s.setHolder h t).modDma ch (fun x => { x with queue := x.queue ++ [(h, o, t)] })
      | none => if 8 ≤ t.1 ∧ t.1 ≤ 11 ∧ !isCkuHandle h then (s.setHolder h t).giveMsg h else s.setHolder h t

/-! ### ALLOC (R346-R349) -/

/-- Grant the lowest FREE buffer of pool `p` to owner `o`. -/
def State.grant (s : State) (r : AllocReq) (p : Nat) : State :=
  let i := s.freeIndex p
  let s' := (s.setBuf (bufKey p i) (some { holder := r.owner, charge := r.owner })).bump (rCisPoolAllocs p) 1
  (s'.cisNotice s p).pageResult r.ini r.owner (some (handleOf p i)) stOk 0 false

/-- Refuse a shared request: null handle, back-pressure; the contention count when another was granted ahead of it (R349). -/
def State.refuse (s : State) (r : AllocReq) (p : Nat) (contended : Bool) : State :=
  let s := s.bump (rCisPoolEmpty p) 1
  let s := if contended then s.bump (rCisPoolContend p) 1 else s
  s.pageResult r.ini r.owner (some 0xFFFFFFFF) stNoresource 0 true

/-- Take out of `l` the request of the owner first at or after pointer `r`, wrapping (R349). -/
def pickOwner (r : Nat) (l : List AllocReq) : Option (AllocReq × List AllocReq) :=
  let key : AllocReq → Nat := fun q => (q.owner.1 + 64 - r) % 64
  let best := l.foldl (fun b q => match b with
    | none => some q
    | some c => if key q < key c then some q else some c) (none : Option AllocReq)
  best.map (fun q => (q, l.erase q))

/-- The shared requests of one class in the order of the rotation pointer; `fuel` of them. `won`: a shared request was granted. -/
def State.sharedClass (s : State) (p : Nat) : Nat → List AllocReq → Bool → State × Bool
  | 0, _, won => (s, won)
  | fuel + 1, l, won =>
    match pickOwner (vgetN 0 s.cis.rot p).1 l with
    | none => (s, won)
    | some (q, rest) =>
      let s := if 2 ≤ l.length then { s with cis := { s.cis with rot := vsetN s.cis.rot p (q.owner + 1) } } else s
      if (s.cisBp p : Int) < s.shared p then (s.grant q p).sharedClass p fuel rest true
      else (s.refuse q p won).sharedClass p fuel rest won

/-- The requests of one cycle to pool `p`: reserved first, then shared by class (R349). A request that is reserved at its turn is always granted
while a buffer is FREE; with none FREE, which only a change of the configuration brings about (R347), it gets the null handle (log entry 109). -/
def State.allocPool (s : State) (p : Nat) (l : List AllocReq) : State :=
  let r := l.foldl (fun (a : State × List AllocReq) q =>
    if a.1.charged q.owner.1 p < a.1.cisMin q.owner.1 p then
      (if a.1.freeIndex p < a.1.poolN p then a.1.grant q p else a.1.refuse q p false, a.2)
    else (a.1, a.2 ++ [q])) (s, [])
  ((upFrom 0 4).foldl (fun (a : State × Bool) c =>
    let k := r.2.filter (fun q => q.cls.1 = c)
    a.1.sharedClass p k.length k a.2) (r.1, false)).1

/-- A pool takes 4 operations in a fabric cycle; what is left waits for the next (R349). -/
def State.allocCycles (s : State) (p : Nat) : Nat → List AllocReq → State
  | 0, _ => s
  | fuel + 1, l => if l = [] then s else (s.allocPool p (l.take 4)).allocCycles p fuel (l.drop 4)

/-- A page access by an initiator not permitted, or a size outside the range, is rejected before the pools are asked (R350). -/
def State.allocCheck (s : State) (a : List AllocReq × State) (r : AllocReq) : List AllocReq × State :=
  if viaPage r.ini && !s.pageOk r.ini r.owner.1 then (a.1, a.2.pageDenied r.owner none)
  else match poolFor r.size.toNat with
    | none => (a.1, (a.2.cisReject 0xFFFFFFFF 8 r.owner.1 0).pageResult r.ini r.owner (some 0xFFFFFFFF) stBadarg 8 false)
    | some _ => (a.1 ++ [r], a.2)

/-- ALLOC requests that arrive in one fabric cycle (R346-R349). -/
def State.cisAlloc (s : State) (reqs : List AllocReq) : State :=
  let a := reqs.foldl s.allocCheck ([], s)
  (upFrom 0 6).foldl (fun s p =>
    let l := a.1.filter (fun r => poolFor r.size.toNat = some p)
    s.allocCycles p l.length l) a.2

/-- Free every buffer that owners 32-63 hold, counting each (R353). -/
def State.cisRelease (s : State) : State :=
  s.cis.bufs.foldl (fun s e => match e.2 with
    | some b => if 32 ≤ b.holder.1 then (s.setBuf e.1 none).bump rCisCloseFreed 1 else s
    | none => s) s

/-- The owners whose units lie in domain `d` (R11, R21). -/
def domOwners (d : Nat) : List Nat :=
  if d = 3 then [14] else if d = 7 then [5] else if d = 8 then [6] else if d = 9 then [7] else if d = 10 then [8, 9, 10, 11]
  else if d = 11 then [12, 13] else if 12 ≤ d ∧ d ≤ 28 then [d + 3] else []

/-- A hardware unit that stops, with its domain, frees every buffer it holds (R353, log entry 110). -/
def State.cisUnitStops (s : State) (d : Nat) : State :=
  s.cis.bufs.foldl (fun s e => match e.2 with
    | some b => if (domOwners d).contains b.holder.1 then s.setBuf e.1 none else s
    | none => s) s

/-! ### The owner page (R354) -/

/-- A 4-byte write to the page of `o`. -/
def State.pageWrite (s : State) (i : Initiator) (o : Fin 64) (off : Nat) (v : Word) : State :=
  if !s.pageOk i o.1 then s.pageDenied o (if off = 4 ∨ off = 0xC then some v else none)
  else match off with
    | 0x00 => s.cisAlloc [{ ini := i, owner := o, cls := 0, size := v }]
    | 0x04 => s.cisFree i o v
    | 0x08 => s.setPage o { s.page o with giveTo := fin 64 (v.toNat % 64) }
    | 0x0C => s.cisGive i o v (s.page o).giveTo
    | _ => s

/-- A 4-byte read of the page of `o`. -/
def State.pageRead (s : State) (i : Initiator) (o : Fin 64) (off : Nat) : State × Word :=
  if !s.pageOk i o.1 then (s.pageDenied o none, 0)
  else
    let p := s.page o
    (s, if off = 0x10 then p.result
        else if off = 0x14 then BitVec.ofNat 32 (p.status.toNat + 256 * p.cause + (if p.bp then 4096 else 0))
        else if 0x20 ≤ off ∧ off < 0x38 then BitVec.ofNat 32 (s.held o.1 ((off - 0x20) / 4))
        else if 0x40 ≤ off ∧ off < 0x58 then BitVec.ofNat 32 (s.charged o.1 ((off - 0x40) / 4))
        else 0)

/-- ALLOC (R346-R349): the requests of one cycle wait together while the Cistern is not READY. -/
def execAlloc (reqs : List AllocReq) (s : State) : Host.Outcome State Fault Refusal :=
  .next (if cisNeeds.all s.fnReady then s.cisAlloc reqs
    else match reqs with
      | [] => s
      | r :: _ => s.hold r.ini cisNeeds none (.alloc reqs))

/-- A FREE or GIVE of `ini`: through its owner's page it is a class A write (R354, R379). -/
def State.cisAccess (s : State) (ini : Initiator) (owner : Fin 64) (c : Instr) (f : State → State) : State :=
  if viaPage ini then s.access ini (0x010040080000 + 0x100 * owner.1) c f
  else if cisNeeds.all s.fnReady then f s else s.hold ini cisNeeds none c

/-- FREE (R344, R350, R354). -/
def execFree (ini : Initiator) (owner : Fin 64) (handle : Word) (s : State) : Host.Outcome State Fault Refusal :=
  .next (s.cisAccess ini owner (.free ini owner handle) (fun s =>
    if viaPage ini && !s.pageOk ini owner.1 then s.pageDenied owner (some handle) else s.cisFree ini owner handle))

/-- GIVE (R344, R350, R354, R361). -/
def execGive (ini : Initiator) (owner : Fin 64) (handle : Word) (target : Fin 64) (s : State) :
    Host.Outcome State Fault Refusal :=
  .next (s.cisAccess ini owner (.give ini owner handle target) (fun s =>
    if viaPage ini && !s.pageOk ini owner.1 then s.pageDenied owner (some handle) else s.cisGive ini owner handle target))

end Sys2Proof.Machine
end

