-- ==== Sys2Proof/Machine/Dma.lean ====
section
/-! DEFINITION. The DMA engine (R360-R374): chains, descriptors, bursts, the running CRC and how a chain ends. -/

namespace Sys2Proof.Machine

def State.chan (s : State) (c : Fin 64) : DmaChannel := vget s.dma c
def State.modChain (s : State) (c : Fin 64) (f : DmaChain → DmaChain) : State :=
  s.modDma c (fun x => { x with chain := x.chain.map f })

/-- End causes (R373). -/
def endDone : Nat := 0
def endBaddesc : Nat := 1
def endErr : Nat := 2
def endErrLast : Nat := 3
def endLoop : Nat := 4
def endTimeout : Nat := 5

/-- Status of an end cause (R373). -/
def endStatus (e : Nat) : Nat :=
  match e with
  | 0 => stOk
  | 4 => stLoop
  | 5 => stTimeout
  | _ => stBadarg

/-- The program channel's event (R406): completion or progress. -/
def State.raiseDma (s : State) (c : Fin 64) : State := if 16 ≤ c.1 then s.raise (72 + (c.1 - 16) / 2) else s

/-- A descriptor of 64 bytes (R362). -/
def dmaDesc (b : List Byte) : DmaDesc :=
  { ctrl := BitVec.ofNat 32 (leAt b 0 4), count := leAt b 4 4, src := leAt b 8 8, dst := leAt b 16 8, next := leAt b 24 8,
    crcPrefix := BitVec.ofNat 64 (leAt b 32 8), crcAddr := leAt b 40 8, hopLimit := leAt b 48 2, actOwner := leAt b 50 1,
    prio := leAt b 51 1, tag := BitVec.ofNat 32 (leAt b 52 4), rsvZero := decide (leAt b 0 4 < 128) && decide (leAt b 56 8 = 0) }

def DmaDesc.crcEn (d : DmaDesc) : Bool := d.ctrl.getLsbD 4
def DmaDesc.evt (d : DmaDesc) : Bool := d.ctrl.getLsbD 6

/-- R364: the descriptor is refused on channel `c`; `first` of its chain. -/
def State.descRefused (s : State) (c : Fin 64) (first : Bool) (d : DmaDesc) : Bool :=
  !d.rsvZero || decide (d.count = 0) || decide (d.next % 64 ≠ 0) || decide (7 < d.prio) ||
    (if first then
      (decide (16 ≤ c.1) && decide (s.ownerMap d.actOwner ≠ 0x40 + c.1)) || (d.crcEn && decide (d.crcAddr % 16 ≠ 0))
     else decide (d.crcPrefix ≠ 0) || decide (d.crcAddr ≠ 0) || decide (d.hopLimit ≠ 0) || decide (d.actOwner ≠ 0))

/-- The chain will end with cause `e`; the first cause stands (R371). -/
def DmaChain.finish (x : DmaChain) (e : Nat) : DmaChain := { x with ending := some (x.ending.getD e) }

/-- A chain starts from the head of the start queue (R361). -/
def State.dmaStart (s : State) (c : Fin 64) : State :=
  let ch := s.chan c
  match ch.chain, ch.queue with
  | none, (h, giver, owner) :: rest =>
    let a := s.bufAddr (h.toNat / 2 ^ 29) (h.toNat % 2 ^ 29)
    let x : DmaChain := { handle := h, giver := giver, owner := owner, descAddr := a, desc := none, hops := 0, hopLimit := 4096,
                          actOwner := owner, crcEn := false, crcAddr := 0, crc := 0, fed := 0, poison := false, moved := 0,
                          confirmed := 0, total := 0, reqs := [], ending := none, passed := 0 }
    s.modDma c (fun y => { y with queue := rest, chain := some x })
  | _, _ => s

/-- The chain has ended and every request is answered or timed out: CRC record, completion record, the buffer back, counters and
events (R368, R372, R373). -/
def State.dmaFinish (s : State) (c : Fin 64) : State :=
  match (s.chan c).chain with
  | none => s
  | some x => match x.ending with
    | none => s
    | some e =>
      if x.reqs ≠ [] then s
      else if e = endStopped then s.modDma c (fun y => { y with chain := none })
      else
        let st := endStatus e
        let own : Initiator := .dma x.actOwner
        let flags := (if e = endDone && !x.readBad then 1 else 0) + (if x.poison then 2 else 0)
        let crcRec := leBytes 4 (x.crc ^^^ 0xFFFFFFFF).toNat ++ [BitVec.ofNat 8 flags, BitVec.ofNat 8 st, 0, 0] ++ leBytes 8 x.fed
        let s := if x.crcEn then (s.memWrite own x.crcAddr crcRec).1 else s
        let (tag, left) := match x.desc with
          | some d => (d.tag, if e = endDone then 0 else d.count - x.confirmed)
          | none => (0, 0)
        let compl := [BitVec.ofNat 8 st, BitVec.ofNat 8 e, 0, 0] ++ leBytes 4 x.hops ++ leBytes 8 x.descAddr ++ leBytes 4 left ++
          leBytes 4 tag.toNat ++ leBytes 8 x.total
        let s := if 16 ≤ c.1 then
            ((s.memWrite own (s.bufAddr (x.handle.toNat / 2 ^ 29) (x.handle.toNat % 2 ^ 29)) compl).1).setHolder x.handle x.giver
          else s
        let s := s.modDma c (fun y => { y with chain := none, lastEnd := e, lastStatus := BitVec.ofNat 8 st })
        let s := s.bump (rDmaChChains c.1) 1
        let s := if e = endDone then s else ((s.bump (rDmaChErrors c.1) 1).orReg rDmaStat 1).raise 70
        s.raiseDma c

/-- A descriptor is fetched and checked (R364, R367, R369): only when the one before it is complete. -/
def State.dmaFetch (s : State) (c : Fin 64) : State :=
  match (s.chan c).chain with
  | none => s
  | some x =>
    if x.desc.isSome ∨ x.ending.isSome ∨ x.reqs ≠ [] then s
    else
      let first := decide (x.hops = 0)
      match (s.modDma c (fun y => { y with nextReq := y.nextReq + 1 })).memRead (.dma x.actOwner) x.descAddr 64 with
      | (s, .refused) => (s.modChain c (fun x => x.finish endErr)).dmaFinish c
      | (s, .ok b) | (s, .bad b) =>
        let d := dmaDesc b
        let x1 := { x with hops := x.hops + 1, desc := some d, moved := 0, confirmed := 0 }
        if s.descRefused c first d then (s.modChain c (fun _ => x1.finish endBaddesc)).dmaFinish c
        else
          let x2 := if first then
              { x1 with hopLimit := if d.hopLimit = 0 then 4096 else d.hopLimit, actOwner := fin 64 d.actOwner, crcEn := d.crcEn,
                        crcAddr := d.crcAddr, crc := crcBytes 0xFFFFFFFF (leBytes 8 d.crcPrefix.toNat) }
            else x1
          s.modChain c (fun _ => x2)

/-- Bursts in flight of a chain (R366). -/
def DmaChain.bursts (x : DmaChain) : List Nat := (x.reqs.map (·.burst)).dedup

/-- Channel `c` is ready to issue a burst (R366). -/
def State.dmaReady (s : State) (c : Fin 64) : Bool :=
  match (s.chan c).chain with
  | none => false
  | some x => match x.desc with
    | none => false
    | some d => x.ending.isNone && decide (x.moved < d.count) && decide (x.bursts.length < 4)

def State.dmaInFlight (s : State) : Nat :=
  sumNat ((upFrom 0 64).map (fun c => match (s.chan (fin 64 c)).chain with
    | some x => x.bursts.length
    | none => 0))

def State.dmaPrio (s : State) (c : Fin 64) : Nat :=
  match (s.chan c).chain with
  | some x => (x.desc.map (·.prio)).getD 0
  | none => 0

def State.dmaPassed (s : State) (c : Fin 64) : Nat := ((s.chan c).chain.map (·.passed)).getD 0

/-- The channel that issues the next burst (R366). -/
def State.dmaPick (s : State) : Option (Fin 64) :=
  let rs := ((upFrom 0 64).map (fin 64)).filter s.dmaReady
  let old := rs.filter (fun c => 64 ≤ s.dmaPassed c)
  let longest := old.foldl (fun b c => match b with
    | none => some c
    | some d => if s.dmaPassed d < s.dmaPassed c then some c else some d) (none : Option (Fin 64))
  match longest with
  | some c => some c
  | none =>
    let top := maxNat (rs.map s.dmaPrio)
    let cand := rs.filter (fun c => s.dmaPrio c = top)
    match cand.find? (fun c => s.dmaPtr ≤ c.1) with
    | some c => some c
    | none => cand.head?

/-- The writes of a burst, one for each destination line: performed in increasing address order (R365). -/
def State.dmaWrites (s : State) (own : Initiator) (burst finalEnd id : Nat) : Nat → Nat → List (Byte × Bool) → List DmaRequest →
    State × List DmaRequest
  | 0, _, _, acc => (s, acc)
  | fuel + 1, a, data, acc =>
    if data = [] then (s, acc)
    else
      let n := Nat.min (64 - a % 64) data.length
      let part := data.take n
      let w := s.memWrite own a (part.map (·.1))
      let s1 := if w.2 then
          (wordsOf a n).foldl (fun t i =>
            if ((part.zip (upFrom a n)).any (fun p => p.1.2 && decide (p.2 / 16 = i))) then
              match (t.region (16 * i)).cell with
              | some (id, o) => t.setStore id ((t.store id).poison o)
              | none => t
            else t) w.1
        else w.1
      let r : DmaRequest := { id := id + acc.length, addr := a, bytes := n, write := true, last := decide (a + n = finalEnd), refused := !w.2, burst := burst }
      s1.dmaWrites own burst finalEnd id fuel (a + n) (data.drop n) (acc ++ [r])

/-- Each byte read with whether its word was uncorrectable or poisoned: the source lines of a burst, rounded outward (R365); and whether any word of
those lines was. -/
def State.dmaSource (s : State) (own : Initiator) (a n : Nat) : State × Option (List (Byte × Bool)) × Bool :=
  let lo := a / 64 * 64
  let hi := (a + n + 63) / 64 * 64
  let lines := upFrom 0 ((hi - lo) / 64)
  let r := lines.foldl (fun (acc : State × Bool × List Byte) i =>
    match acc.1.memRead own (lo + 64 * i) 64 with
    | (s, .refused) => (s, true, acc.2.2)
    | (s, .ok b) | (s, .bad b) => (s, acc.2.1, acc.2.2 ++ b)) (s, false, [])
  if r.2.1 then (r.1, none, false)
  else
    let bytes := (r.2.2.drop (a - lo)).take n
    (r.1, some ((bytes.zip (upFrom a n)).map (fun p => (p.1, r.1.peekBad p.2 1))), r.1.peekBad lo (hi - lo))

/-- The chosen channel issues its next burst (R365-R367). -/
def State.dmaIssue (s : State) : State :=
  if 32 ≤ s.dmaInFlight then s
  else match s.dmaPick with
    | none => s
    | some c =>
      let forced := decide (64 ≤ s.dmaPassed c)
      let rs := ((upFrom 0 64).map (fin 64)).filter s.dmaReady
      let s := rs.foldl (fun s d => s.modChain d (fun x => { x with passed := if d = c then 0 else x.passed + 1 })) s
      let s := if forced then s else { s with dmaPtr := (c.1 + 1) % 64 }
      match (s.chan c).chain with
      | none => s
      | some x => match x.desc with
        | none => s
        | some d =>
          let dst := d.dst + x.moved
          let n := Nat.min (256 - dst % 256) (d.count - x.moved)
          let own : Initiator := .dma x.actOwner
          match (s.modDma c (fun y => { y with nextReq := y.nextReq + 1 })).dmaSource own (d.src + x.moved) n with
          | (s, none, _) => (s.modChain c (fun x => x.finish endErr)).dmaFinish c
          | (s, some data, bad) =>
            let feed := x.crcEn && d.crcEn
            let s := s.modChain c (fun y => { y with
              crc := if feed then crcBytes y.crc (data.map (·.1)) else y.crc
              fed := if feed then y.fed + n else y.fed
              poison := y.poison || (feed && data.any (·.2))
              readBad := y.readBad || bad
              moved := y.moved + n })
            let w := s.dmaWrites own (dst / 256) (d.dst + d.count) (s.chan c).nextReq 5 dst data []
            (w.1.modDma c (fun y => { y with nextReq := y.nextReq + w.2.length })).modChain c (fun y => { y with reqs := y.reqs ++ w.2 })

/-- A descriptor whose every write is answered completes (R363, R369, R373). -/
def State.dmaComplete (s : State) (c : Fin 64) : State :=
  match (s.chan c).chain with
  | none => s
  | some x => match x.desc with
    | none => s
    | some d =>
      if x.reqs ≠ [] ∨ x.moved < d.count ∨ x.ending.isSome then s.dmaFinish c
      else
        let s := s.modDma c (fun y => { y with lastTag := d.tag })
        let s := if d.evt then s.raiseDma c else s
        if d.next = 0 then (s.modChain c (fun x => x.finish endDone)).dmaFinish c
        else if x.hops = x.hopLimit then (s.modChain c (fun x => x.finish endLoop)).dmaFinish c
        else s.modChain c (fun x => { x with desc := none, descAddr := d.next })

/-- A late response is discarded (R370). -/
def State.dmaLate (s : State) (c : Fin 64) : State := ((s.bump (rDmaChLate c.1) 1).orReg rDmaStat 2).raise 71

/-- A response to the channel's request number `id` arrives (R371); to one no longer outstanding it is late (R370). -/
def State.dmaAnswer (s : State) (c : Fin 64) (id : Nat) (error : Bool) : State :=
  match (s.chan c).chain with
  | none => s.dmaLate c
  | some x => match x.reqs.find? (fun r => r.id = id) with
    | none => s.dmaLate c
    | some r =>
      let s := s.modChain c (fun x => { x with reqs := x.reqs.filter (fun r => r.id ≠ id) })
      if error || r.refused then
        let zero := match x.desc with
          | some d => decide (d.count ≤ x.moved)
          | none => false
        (s.modChain c (fun x => x.finish (if r.last && zero then endErrLast else endErr))).dmaFinish c
      else
        let s := (s.modChain c (fun x => { x with confirmed := x.confirmed + r.bytes, total := x.total + r.bytes })).modDma c
          (fun y => { y with bytes := y.bytes + BitVec.ofNat 64 r.bytes })
        s.dmaComplete c

/-- The chain's next request is a descriptor fetch or a source read (R364, R366). -/
def State.dmaReads (s : State) (c : Fin 64) : Bool :=
  match (s.chan c).chain with
  | none => false
  | some x => x.ending.isNone && ((x.desc.isNone && decide (x.reqs = [])) || s.dmaReady c)

/-- The 10 µs of request number `id` expire (R370): a write that is outstanding, or the read that the chain is about. A request that has been
answered, in that cycle or before, has no timer left (R41). -/
def State.dmaExpire (s : State) (c : Fin 64) (id : Nat) : State :=
  match (s.chan c).chain with
  | none => s
  | some x =>
    if x.reqs.any (fun r => r.id = id) then
      (s.modChain c (fun x => { x with reqs := x.reqs.filter (fun r => r.id ≠ id) }.finish endTimeout)).dmaFinish c
    else if id = (s.chan c).nextReq ∧ s.dmaReads c then
      ((s.modDma c (fun y => { y with nextReq := y.nextReq + 1 })).modChain c (fun x => x.finish endTimeout)).dmaFinish c
    else s

/-- DMA_CHAIN_START (R361). -/
def execDmaChainStart (c : Fin 64) (s : State) : Host.Outcome State Fault Refusal := .next (s.dmaStart c)

/-- DMA_DESCRIPTOR_FETCH (R364, R369). -/
def execDmaDescriptorFetch (c : Fin 64) (s : State) : Host.Outcome State Fault Refusal := .next (s.dmaFetch c)

/-- DMA_BURST (R365-R367). -/
def execDmaBurst (s : State) : Host.Outcome State Fault Refusal := .next s.dmaIssue

/-- DMA_RESPONSE (R370-R373). -/
def execDmaResponse (c : Fin 64) (index : Nat) (error : Bool) (s : State) : Host.Outcome State Fault Refusal :=
  .next (s.dmaAnswer c index error)

/-- DMA_TIMEOUT (R370, R41). -/
def execDmaTimeout (c : Fin 64) (index : Nat) (s : State) : Host.Outcome State Fault Refusal := .next (s.dmaExpire c index)

/-- Program channels stop with no record and no completion; their start queues are discarded (R374). -/
def State.stopProgramChannels (s : State) : State := s.stopChannels (fun c => decide (16 ≤ c))

end Sys2Proof.Machine
end

