-- ==== Sys2Proof/Machine/CheckUnit.lean ====
section
/-! DEFINITION. The check units (R314-R318). R406 gives the event of R314 no source number, so none is raised (log entry 16). -/

namespace Sys2Proof.Machine

def State.ckuAt (s : State) (k : Fin 16) : Cku := vget s.cku k
def State.modCku (s : State) (k : Fin 16) (f : Cku → Cku) : State := { s with cku := vmod s.cku k f }

/-- Bytes enter the CRC register (R315). -/
def Cku.take1 (x : Cku) (b : Byte) : Cku := { x with crc := crcByte x.crc b, count := x.count + 1 }
def Cku.takeBytes (x : Cku) (b : List Byte) : Cku := b.foldl Cku.take1 x

/-- START: the seed of the prefix registers (R315). -/
def Cku.start (x : Cku) : Cku :=
  { x with crc := crcBytes 0xFFFFFFFF (leBytes 4 x.pfx.toNat ++ leBytes 4 x.pic.toNat), count := 0 }
def Cku.seed (x : Cku) (v : Word) : Cku := { x with crc := v, count := 0 }

/-- STARTs and SEEDs at the head of the queue take effect (R316). -/
def Cku.settle : Nat → Cku → Cku
  | 0, x => x
  | fuel + 1, x => match x.queue with
    | .start :: q => ({ x with queue := q }.start).settle fuel
    | .seed v :: q => ({ x with queue := q }.seed v).settle fuel
    | .bytes [] :: q => { x with queue := q }.settle fuel
    | _ => x

/-- One fabric cycle: one byte is absorbed (R315). -/
def Cku.tick (x : Cku) : Cku :=
  match x.queue with
  | .bytes (b :: bs) :: q => ({ x with queue := if bs = [] then q else .bytes bs :: q }.take1 b).settle (q.length + 1)
  | _ => x.settle (x.queue.length + 1)

/-- Everything accepted is absorbed: what a read of RESULT, BYTES or STATE waits for (R316). -/
def Cku.drain (x : Cku) : Cku :=
  x.queue.foldl (fun x i => match i with
    | .bytes b => x.takeBytes b
    | .start => x.start
    | .seed v => x.seed v) { x with queue := [] }

/-- An item behind pending ones waits for them (R316). -/
def Cku.push (x : Cku) (i : FeedItem) : Cku := { x with queue := x.queue ++ [i] }.settle (x.queue.length + 1)

/-- The item being absorbed and four that wait behind it fill the unit (R316). -/
def Cku.full (x : Cku) : Bool := decide (5 ≤ x.queue.length)

/-- The initiator acts for the owner of unit `k` (R314). -/
def State.ckuOwns (s : State) (i : Initiator) (k : Fin 16) : Bool := s.actsFor i (s.ckuAt k).owner.1

/-- An access by a non-owner (R314). -/
def State.ckuStranger (s : State) (k : Fin 16) : State := s.orReg (rCkuStat k.1) 0x10

/-- The functions that an access to a check unit needs (R23). -/
def ckuNeeds : List Nat := [8, 11]

/-- A write enters the queue of unit `k`, or its writer is held while there is no room (R316). -/
def State.ckuPush (s : State) (i : Initiator) (k : Fin 16) (x : FeedItem) (c : Instr) : State :=
  if (s.ckuAt k).full then s.hold i ckuNeeds none c else s.modCku k (fun y => y.push x)

/-- CKU_FEED (R315-R317): 1, 2 or 4 bytes; discarded while the unit snoops. -/
def State.ckuFeed (s : State) (i : Initiator) (k : Fin 16) (b : List Byte) : State :=
  if b.length ≠ 1 ∧ b.length ≠ 2 ∧ b.length ≠ 4 then s
  else if !s.ckuOwns i k then s.ckuStranger k
  else if (s.ckuAt k).act then s.orReg (rCkuStat k.1) 4
  else s.ckuPush i k (.bytes b) (.ckuFeed i k b)

/-- CKU_SNOOP_REQ (R317). -/
def State.ckuSnoop (s : State) (i : Initiator) (k : Fin 16) (v : Word) : State :=
  if !s.ckuOwns i k then s.ckuStranger k
  else
    let on := v.getLsbD 0
    let x := s.ckuAt k
    if !on then s.modCku k (fun x => { x with req := false, act := false })
    else if s.takeActive then (s.modCku k (fun x => { x with req := true })).orReg (rCkuStat k.1) 0x40
    else s.modCku k (fun y => { y with req := true, act := x.act || !x.req })

/-- A take enters ARMED: every snoop ends (R317). -/
def State.ckuArmed (s : State) : State :=
  (upFrom 0 16).foldl (fun s k =>
    let k := fin 16 k
    if (s.ckuAt k).act then (s.modCku k (fun x => { x with act := false })).orReg (rCkuStat k.1) 0x20 else s) s

/-- The enabled bytes of a beat that unit `k` takes, and whether one is of a poisoned word (R317). -/
def ckuBeat (x : Cku) (beat : Beat) : List Byte × Bool :=
  let ws := beat.words.map readCode
  let bytes := ws.flatMap (fun w => (wordBytes w.1).map (fun b => (b, w.2.bad)))
  let hit := (bytes.zip (upFrom 0 bytes.length)).filter (fun p =>
    beat.enables.getLsbD p.2 && decide (x.base.toNat ≤ beat.addr.toNat + p.2) && decide (beat.addr.toNat + p.2 ≤ x.limit.toNat))
  (hit.map (·.1.1), hit.any (·.1.2))

/-- A beat on a Flume link (R317). -/
def State.ckuSeeBeat (s : State) (k : Fin 16) (link : Fin 64) (dir : Bool) (beat : Beat) : State :=
  let x := s.ckuAt k
  if x.act && decide (x.sel.toNat % 64 = link.1) && x.sel.getLsbD 6 == dir &&
      (x.sel.getLsbD 9 || decide (x.sel.toNat / 128 % 4 = beat.cls.1)) then
    let r := ckuBeat x beat
    let s := s.modCku k (fun x => x.takeBytes r.1)
    if r.2 then s.orReg (rCkuStat k.1) 8 else s
  else s

/-- A 4-byte write to the aperture (R315). `hold`: what the writing link last wrote to the _LO half (R500). -/
def State.ckuWrite (s : State) (i : Initiator) (k : Fin 16) (off : Nat) (v hold : Word) : State :=
  if !s.ckuOwns i k then s.ckuStranger k
  else match off with
    | 0x00 => s.modCku k (fun x => { x with pfx := v })
    | 0x04 => s.modCku k (fun x => { x with pic := v })
    | 0x08 => s.ckuPush i k .start (.ckuStart i k)
    | 0x0C => s.ckuPush i k (.seed v) (.ckuSeed i k v)
    | 0x10 => s.ckuFeed i k (leBytes 4 v.toNat)
    | 0x20 => s.modCku k (fun x => { x with sel := v &&& 0x3FF })
    | 0x24 => s.ckuSnoop i k v
    | 0x2C => s.modCku k (fun x => { x with base := v ++ hold })
    | 0x34 => s.modCku k (fun x => { x with limit := v ++ hold })
    | _ => s

/-- A 4-byte read of the aperture (R315, R316). -/
def State.ckuRead (s : State) (i : Initiator) (k : Fin 16) (off : Nat) : State × Word :=
  if !s.ckuOwns i k then (s.ckuStranger k, 0)
  else
    let s := if off = 0x14 ∨ off = 0x18 ∨ off = 0x1C then s.modCku k Cku.drain else s
    let x := s.ckuAt k
    (s, match off with
      | 0x00 => x.pfx
      | 0x04 => x.pic
      | 0x14 => x.crc ^^^ 0xFFFFFFFF
      | 0x18 => x.count
      | 0x1C => x.crc
      | 0x20 => x.sel
      | 0x24 => (if x.req then 1 else 0) + (if x.act then 2 else 0)
      | 0x28 => x.base.extractLsb' 0 32
      | 0x2C => x.base.extractLsb' 32 32
      | 0x30 => x.limit.extractLsb' 0 32
      | 0x34 => x.limit.extractLsb' 32 32
      | _ => 0)

/-- The device address of location `off` of unit `k` (R315). -/
def ckuAddr (k : Fin 16) (off : Nat) : Nat := 0x010040000000 + 0x1000 * k.1 + off

/-- CKU_START (R315, R316). -/
def execCkuStart (ini : Initiator) (k : Fin 16) (s : State) : Host.Outcome State Fault Refusal :=
  .next (s.access ini (ckuAddr k 0x08) (.ckuStart ini k) (fun s => s.ckuWrite ini k 0x08 0 0))

/-- CKU_SEED (R315, R316). -/
def execCkuSeed (ini : Initiator) (k : Fin 16) (value : Word) (s : State) : Host.Outcome State Fault Refusal :=
  .next (s.access ini (ckuAddr k 0x0C) (.ckuSeed ini k value) (fun s => s.ckuWrite ini k 0x0C value 0))

/-- CKU_FEED (R314-R317). -/
def execCkuFeed (ini : Initiator) (k : Fin 16) (bytes : List Byte) (s : State) : Host.Outcome State Fault Refusal :=
  .next (s.access ini (ckuAddr k 0x10) (.ckuFeed ini k bytes) (fun s => s.ckuFeed ini k bytes))

/-- CKU_SNOOP_REQ (R317). -/
def execCkuSnoopReq (ini : Initiator) (k : Fin 16) (value : Word) (s : State) : Host.Outcome State Fault Refusal :=
  .next (s.access ini (ckuAddr k 0x24) (.ckuSnoopReq ini k value) (fun s => s.ckuSnoop ini k value))

/-- CKU_SNOOP_BEAT (R317). -/
def execCkuSnoopBeat (k : Fin 16) (link : Fin 64) (dir : Bool) (beat : Beat) (s : State) : Host.Outcome State Fault Refusal :=
  .next (s.ckuSeeBeat k link dir beat)

end Sys2Proof.Machine
end

