-- ==== Sys2Proof/Machine/Headgate.lean ====
section
/-! DEFINITION. Headgate (R409-R431): requests, READY bits, the inrush governor's slot boundaries, PLLs, sleep, core and device
resets. -/

namespace Sys2Proof.Machine

/-! ### Domains and functions (R409, R428) -/

/-- Parent of a domain (R409); domain 0 has none and stands for itself. -/
def domParent (d : Nat) : Nat := if d = 0 ∨ d = 1 ∨ d = 3 then 0 else 3
/-- Q_sw in nC (R409). -/
def domCharge (d : Nat) : Nat := nth 1400 [0, 100, 600, 800, 900, 700, 700, 400, 300, 200, 500, 600] d
/-- ΔI in mA (R409); a TE cluster's depends on its clock. -/
def domStep (econ : Bool) (d : Nat) : Nat :=
  nth (if econ then 800 else 1600) [0, 50, 3200, 4000, 2400, 2800, 2800, 2000, 1200, 800, 3000, 3600] d
/-- PLL of a domain (R409): 0 fabric, 1 Tabor, 2 TE, 3 DRAM, 4 sensor, 5 PCIe, 6 Ethernet, 7 Kalsal SerDes, 8 the local oscillator. -/
def domPll (d : Nat) : Fin 9 := fin 9 (nth 2 [0, 8, 1, 0, 0, 3, 3, 4, 5, 6, 7, 0] d)
/-- The functions of a domain, as bits of `ready`: 0-21 as HDG_READY_0, 22 + n for TE cluster n (R428, R432). -/
def domFunctions (d : Nat) : List Nat :=
  match d with
  | 0 => [0]
  | 1 => [1, 2]
  | 2 => [3]
  | 3 => [8, 9, 10, 11, 12]
  | 4 => [13]
  | 5 => [14]
  | 6 => [15]
  | 7 => [16]
  | 8 => [17]
  | 9 => [18]
  | 10 => [19]
  | 11 => [20, 21]
  | d => [22 + (d - 12)]
/-- The domain of a function; 29 for a number that is none. -/
def functionDom (f : Nat) : Nat :=
  if f < 22 then nth 29 [0, 1, 1, 2, 2, 2, 2, 2, 3, 3, 3, 3, 3, 4, 5, 6, 7, 8, 9, 10, 11, 11] f else if f < 39 then 12 + (f - 22) else 29

def State.modHdg (s : State) (f : Headgate → Headgate) : State := { s with hdg := f s.hdg }
def State.dom (s : State) (d : Nat) : Domain := vgetN Domain.off s.hdg.doms d
def State.modDom (s : State) (d : Nat) (f : Domain → Domain) : State := s.modHdg (fun h => { h with doms := vmodN h.doms d f })

/-- Every READY bit of the domain is set (R410). -/
def State.domReady (s : State) (d : Nat) : Bool := (domFunctions d).all (fun f => s.hdg.ready.getLsbD f)

/-- The domain of setup unit `u`; CODE's is every TE cluster, REF's the fabric (R413, log entry 17). -/
def unitDomains (u : Nat) : List Nat :=
  match u with
  | 0 => [7]
  | 1 => upFrom 12 17
  | 2 => [8]
  | 3 => [8]
  | 4 => [3]
  | 9 => [9]
  | 10 => [10]
  | 11 => [3]
  | 12 => [4]
  | 13 => [5]
  | u => if u < 9 then [11] else []

def Bank.used (b : Bank) : Bool := b.shadow.isSome || b.active.isSome || b.retiring.isSome

/-- Domain of a target's claimant (R395). -/
def targetDom (t : Nat) : Option Nat := if t ≤ 4 then some 2 else if t = 5 then some 0 else if t ≤ 9 then some 10 else none

/-- Requests of the EVC wake logic (R19, R403, R404). -/
def State.evcWants (s : State) (d : Nat) : Bool :=
  (!s.evcDisabled && s.srcs.any (fun p => p.2.st = .pending && targetDom p.2.target.1 = some d)) ||
    (d = 3 && s.srcs.any (fun p => decide (32 ≤ p.1) && decide (p.2.st ≠ .idle)))

/-- One of the functions that an access needs lies in domain `d`. -/
def needsDom (needs : List Nat) (d : Nat) : Bool := needs.any (fun f => functionDom f = d)

/-- Accesses that wait, or are under way in Flume, hold requests for the domains on their way (R22, R501). -/
def State.portReq (s : State) (d : Nat) : Bool :=
  s.onHold.any (fun h => needsDom h.needs d) ||
    (s.flume.req.wait ++ s.flume.req.beats).any (fun b => needsDom (s.pathNeeds b.ini b.addr) d)

/-- Requests for domain `d` of any requester, parents aside (R22, R358, R413, R501). -/
def State.directReq (s : State) (d : Nat) : Bool :=
  (upFrom 0 4).any (fun k => (s.reg (rHdgReqCore k)).getLsbD d) || (s.reg rHdgReqBh).getLsbD d || s.evcWants d ||
    (upFrom 0 14).any (fun u => (vgetN Bank.empty s.banks u).used && (unitDomains u).contains d) ||
    (d = 2 && decide ((s.reg rHdgCoreRun).toNat % 16 ≠ 0)) || (d = 4 && decide (s.cis.bufs ≠ [])) || s.portReq d

/-- A request for domain `d`, parent holds included (R410). -/
def State.requested (s : State) (d : Nat) : Bool :=
  s.directReq d || (d = 3 && (upFrom 2 27).any (fun k => decide (k ≠ 3) && s.directReq k))

/-! ### Losing a domain's state (R411, R412) -/

/-- The channels from `a` on enter self-refresh (R335). -/
def sleepChans (v : Vector DramChan 32) (a : Nat) : Vector DramChan 32 :=
  (upFrom a 16).foldl (fun v c => vmodN v c (fun x =>
    { DramChan.atReset with selfRefresh := true, pprAvail := x.pprAvail })) v

/-- A half's controller state goes as its channels from `a` on enter self-refresh; the trained values and TRAINED stay (R412, R336). -/
def sleepMc (m : MemCtl) (a : Nat) : MemCtl :=
  { m with chans := sleepChans m.chans a, training := none, fspPend := none, scrubQuiet := true }

/-- KEEP_SEG of the active MC bank, 0xFF where none is active (R335, R338). -/
def State.keepSeg (s : State) : Nat := if s.hasActive unitMc then s.cfg unitMc 18 1 else 0xFF

/-- The loss of DRAM contents as half `h` of the channels enters self-refresh (R335, R336). -/
def State.lossOf (s : State) (h : Nat) : DramLoss :=
  { whole := false, half := h, keepSeg := s.keepSeg, grainLog2 := s.mc.grainLog2, nCh := s.nCh, chanBytes := s.chanBytes }

/-- Self-refresh keeps a DRAM byte (R335). -/
def State.dramKept (s : State) (a : Nat) : Bool := (s.lossOf 0).keeps a

/-- A store after a loss: what it takes is a free value until it is written again (R336). -/
def Store.lose (m : Store) (l : DramLoss) : Store :=
  { bytes := mapKeep (fun a => !l.takes a) m.bytes, syn := mapKeep (fun i => !l.takes (16 * i)) m.syn, loss := l :: m.loss }

/-- Kalsal keeps its lane maps and the epoch (R412, R433); the ports lose the rest. Requests outstanding end under R457 and an
enumeration under R456, which Bellhouse handles. -/
def sleepKsl (k : Kalsal) : Kalsal :=
  let ports := (upFrom 0 4).foldl (fun v i => vmodN v i (fun p => { KslPort.atReset with laneMap := p.laneMap, nextMap := p.nextMap })) k.ports
  { k with ports := ports, msgProd := 0 }

/-- Switching domain `d` off destroys its state but for the retention islands. The take itself, which the data plane goes on with, is no
state of the control plane's (R11, R16, log entry 87): only a program in setup and commands whose rings are gone leave it. -/
def State.loseDomain (s : State) (d : Nat) : State :=
  let s := { s with regs := mapKeep (fun o => regDom o ≠ d || retained o) s.regs }.cisUnitStops d
  match d with
  | 2 => { s with cores := Vector.replicate 4 TaborCore.inReset, ctlSram := Store.empty, visible := [],
                  take := { s.take with setup := none, cores := 0, cutCmd := none },
                  stalled := [], ringGen := (upFrom 0 4).foldl (fun v k => vmodN v k (· + 1)) s.ringGen,
                  ringPhase := Vector.replicate 4 true, gates := s.gates &&& ~~~0x1F,
                  onHold := s.onHold.filter (fun h => match h.ini with
                    | .core _ => false
                    | _ => true) }
  | 3 => { s with srcs := s.srcs.filter (fun p => p.1 < 32), cku := Vector.replicate 16 Cku.atReset,
                  dma := Vector.replicate 64 DmaChannel.atReset, dmaPtr := 0, slu := Sluice.atReset, flume := Flume.atReset, latches := [], holds := [],
                  slots := Vector.replicate 16 Slot.unused }
  | 4 => { s with cisSram := Store.empty, cis := Cistern.atReset,
                  cku := (upFrom 0 16).foldl (fun v k => vmodN v k (fun x => { x with owner := 0 })) s.cku }
  | 5 =>
    let m := { sleepMc s.mc 0 with readyA := false, scrubPtr := 0 }
    { s with mc := m, dram := s.dram.lose (s.lossOf 0) }
  | 6 =>
    let m := { sleepMc s.mc 16 with readyB := false }
    { s with mc := m, dram := s.dram.lose (s.lossOf 1) }
  | 7 => { s with sns := Sensor.atReset }
  | 8 => { s with mags := Vector.replicate 2 MagPort.atReset, ledgers := Vector.replicate 2 Ledger.atReset,
                  logs := Vector.replicate 2 TakeLog.atReset }
  | 9 => { s with ptp := Ptp.atReset }
  | 10 => let s := allPorts.foldl (fun s k => s.linkDown k) s
    { s with ksl := sleepKsl s.ksl }
  | 11 => { s with streams := Vector.replicate 4 Stream.atReset, sessions := Vector.replicate 9 Session.atReset }
  | _ => if 12 ≤ d ∧ d ≤ 28 then
      (upFrom (16 * (d - 12)) 16).foldl (fun s j =>
        let x := s.engine j
        s.setEngine j { engineReset j with logical := x.logical, retired := x.retired, out := x.out }) s
    else s

/-! ### READY bits (R428, R429) -/

/-- A READY bit is set: source 15 (R428). -/
def State.setReady (s : State) (f : Nat) : State :=
  if s.hdg.ready.getLsbD f then s
  else (s.modHdg (fun h => { h with ready := h.ready ||| BitVec.twoPow 40 f })).raise 15

/-- Logical core 0 runs and the event controller is READY: the firmware assigns its doorbells (R285), 528 to logical core 1, 529 and 530 to itself
(log entry 106). -/
def State.assignDoorbells (s : State) : State :=
  if s.fnReady 9 ∧ (vget s.cores 0).run ≠ .inReset then ((s.writeSrcCfg 528 0x1001).writeSrcCfg 529 0x1000).writeSrcCfg 530 0x1000 else s

/-- Logical cores whose RUN bit is set leave reset once CTRL_SRAM is READY (R429). -/
def State.releaseCores (s : State) : State :=
  (upFrom 0 4).foldl (fun s k =>
    let c := fin 4 k
    if (s.reg rHdgCoreRun).getLsbD k && s.hdg.ready.getLsbD 3 && decide ((vget s.cores c).run = .inReset) then
      (s.modCore c (fun _ => { TaborCore.inReset with run := .running, cycleBase := s.clk.tab })).setReady (4 + k) |> fun t => if k = 0 then t.assignDoorbells else t
    else s) s

/-- A core is put into reset: caches and dirty lines lost, its link's key gate closed (R430, R504). -/
def State.resetCore (s : State) (k : Fin 4) : State :=
  let l := (s.phys k).1
  let s := s.modCore k (fun _ => { TaborCore.inReset with cycleBase := s.clk.tab })
  ({ s with gates := s.gates &&& ~~~(BitVec.twoPow 64 l) }.dropHeld (.core k)).modHdg (fun h => { h with ready := h.ready &&& ~~~(BitVec.twoPow 40 (4 + k.1)) })

/-- The patch image in NVS whose rom_rev matches cluster `n`: the first that begins a line of the patch area (R511, R526, log entry 27). -/
def State.bootImage (s : State) (n : Nat) : Option PatchReq :=
  let b := fun k o m => leNat (s.readBytes .nvs (0x180000 + 512 * k + o) m)
  ((upFrom 0 1024).find? (fun k => decide (b k 0 4 = 0x54415054) && decide (b k 6 2 = (Config.romRev n).toNat))).map (fun k =>
    let a := 0x180000 + 512 * k
    let n := 276 + 32 * b k 12 2
    { cmd := none, image := s.readBytes .nvs a n, bad := (s.nvs.verdicts a n).any (·.bad) })

/-- The first READY of a TE cluster since device reset asks for the load of its patch image (R526). -/
def State.bootPatch (s : State) (n : Nat) : State :=
  if (s.cluster n).booted then s
  else
    let s := s.modCluster n (fun c => { c with booted := true })
    match s.bootImage n with
    | some r => { s with maintQueue := s.maintQueue ++ [{ kind := .patchLoad r, abandoned := 0, guarded := false }] }
    | none => s

/-- Channel `c` has committed its boot or wake sequence (R331, R336). -/
def State.chanUp (s : State) (c : Nat) : Bool := (vgetN DramChan.atReset s.mc.chans c).up

/-- Half `h` of the channels runs its boot sequence, or the switch sequence of a wake (R331, R336). -/
def State.halfTrains (s : State) (h : Nat) : Bool :=
  decide ((s.dom (5 + h)).st = .waking) && (s.dom (5 + h)).clock && !s.chanUp (16 * h) &&
    !(if h = 0 then s.mc.failedA else s.mc.failedB)

/-- A function becomes READY while its domain's clock runs (R422, R428); the memory halves only after their boot
sequence, or the switch sequence of a wake (R331, R336). -/
def State.becomeReady (s : State) (f : Nat) : State :=
  let d := functionDom f
  let ok := decide (d < 29) && (s.dom d).clock && decide ((s.dom d).st ≠ .sleeping) && decide (f ≠ 0) &&
    !(decide (4 ≤ f) && decide (f < 8)) && (decide (f ≠ 14) || s.chanUp 0) && (decide (f ≠ 15) || s.chanUp 16)
  if !ok then s
  else
    let s := s.setReady f
    let s := if s.domReady d then s.modDom d (fun x => { x with st := .on }) else s
    match f with
    | 3 => s.releaseCores
    | 9 => s.assignDoorbells.deliver
    | 14 => { s with mc := { s.mc with readyA := true } }
    | 15 => { s with mc := { s.mc with readyB := true } }
    | _ => if d = 1 ∧ s.domReady 1 then s.modHdg (fun h => { h with idValid := true, bhFast := true })
      else if 22 ≤ f ∧ f < 39 then s.bootPatch (f - 22) else s

/-! ### The governor (R414-R424) -/

/-- Stages of the governor (R418). -/
inductive Stage where
  | ramp (d : Nat)
  | clockStart (d : Nat)
  | clockStop (d : Nat)
deriving DecidableEq, Repr

/-- What has been admitted at a boundary: charge, rise and fall, currents in mA × 21,000 (one slot is 21 cycles of 2.048 MHz). -/
structure Budget where
  q : Nat
  rise : Nat
  fall : Nat
deriving DecidableEq, Repr

def rampCurrent (q : Nat) : Nat := q * 2048

/-- What a stage adds. -/
def stageCost (econ : Bool) (b : Budget) : Stage → Budget
  | .ramp d => { b with q := b.q + domCharge d, rise := b.rise + rampCurrent (domCharge d) }
  | .clockStart d => { b with rise := b.rise + 21000 * domStep econ d }
  | .clockStop d => { b with fall := b.fall + 21000 * domStep econ d }

/-- R419. -/
def State.fits (s : State) (b : Budget) : Bool :=
  let lim := 21000 * ((s.reg rHdgInrushDidt).toNat % 65536)
  decide (b.q ≤ (s.reg rHdgInrushQ).toNat % 65536) && decide (b.rise ≤ lim) && decide (b.fall ≤ lim)

/-- A PLL that a domain is about to use starts (R415). -/
def State.startPll (s : State) (p : Fin 9) : State :=
  s.modHdg (fun h => { h with plls := vmod h.plls p (fun x => if x = .off then .starting else x) })

/-- An admitted stage takes effect (R422, R423). -/
def State.doStage (s : State) : Stage → State
  | .ramp d => ((s.modDom d (fun x => { x with st := .waking, rampDone := false, clock := false })).startPll (domPll d)).bump rHdgWakes 1
  | .clockStart d => s.modDom d (fun x => { x with clock := true })
  | .clockStop d =>
    let s := s.modHdg (fun h => { h with
      ready := (domFunctions d ++ (if d = 2 then [4, 5, 6, 7] else [])).foldl (fun r f => r &&& ~~~(BitVec.twoPow 40 f)) h.ready
      sleepBegun := h.sleepBegun || decide (h.mode ≠ 0)
      bhFast := h.bhFast && decide (d ≠ 1) })
    (s.modDom d (fun x => { x with st := .sleeping, eligible := 0 })).loseDomain d

/-- Offer stages in order: one that fits is admitted, another is held over and counted (R419, R421). -/
def State.offer (s : State) (b : Budget) : List Stage → State × Budget
  | [] => (s, b)
  | g :: gs =>
    let b' := stageCost s.hdg.teEcon b g
    if s.fits b' then (s.doStage g).offer b' gs else (s.bump rHdgStagger 1).offer b gs

def allDoms : List Nat := upFrom 1 28
/-- The order in which a sleep switches off (R425). -/
def sleepOrder : List Nat := (upFrom 4 25).reverse ++ [2, 3, 1]

/-- Every child of domain `d` is OFF (R410). -/
def State.childrenOff (s : State) (d : Nat) : Bool := d ≠ 3 || (upFrom 2 27).all (fun k => k = 3 || decide ((s.dom k).st = .off))

/-- A domain whose clock stop is to be offered (R423, R425): never one that is requested (R22). -/
def State.stopDue (s : State) (d : Nat) : Bool :=
  decide ((s.dom d).st = .on) && s.childrenOff d && !s.requested d &&
    (decide (s.hdg.mode ≠ 0) || decide ((s.reg rHdgHoldoff).toNat % 256 ≤ (s.dom d).eligible))

/-- A domain whose ramp is to be offered (R410, R422, R427, R319). -/
def State.rampDue (s : State) (d : Nat) : Bool :=
  decide ((s.dom d).st = .off) && s.requested d && decide (1 ≤ (s.dom d).offFor) && s.domReady (domParent d) &&
    decide (s.hdg.mode = 0) && (decide (d ≠ 6) || s.hdg.ch32) && ((decide (d ≠ 5) && decide (d ≠ 6)) || s.hdg.pwrOk)

/-- What the boundary finds before the governor acts: switches open, ramps end, PLLs without users stop, counts (R414, R422, R423,
R427). -/
def State.slotBegin (s : State) : State :=
  let s := allDoms.foldl (fun s d =>
    let x := s.dom d
    match x.st with
    | .sleeping => s.modDom d (fun _ => Domain.off)
    | .waking => s.modDom d (fun x => { x with rampDone := true })
    | .off => s.modDom d (fun x => { x with offFor := x.offFor + 1 })
    | .on => s.modDom d (fun x => { x with eligible := if s.requested d then 0 else x.eligible + 1 })) s
  let s := s.modHdg (fun h => { h with plls := (upFrom 0 9).foldl (fun v p =>
    if allDoms.any (fun d => (domPll d).1 = p && decide ((vgetN Domain.off h.doms d).st ≠ .off)) then v else vsetN v p .off) h.plls })
  let both := decide ((s.dom 5).st = .off) && decide ((s.dom 6).st = .off)
  let s := if s.hdg.mode = 2 ∧ both then
      { s.modHdg (fun h => { h with pwrEn := false, pwrOk := false, offWakeBoot := true }) with dram := s.dram.lose { s.lossOf 0 with whole := true } }
    else s
  if !s.hdg.pwrEn ∧ s.hdg.mode = 0 ∧ (s.requested 5 ∨ s.requested 6) then
    { s.modHdg (fun h => { h with pwrEn := true }) with mc := { s.mc with bootedA := false, bootedB := false } }
  else s

/-- A slot boundary (R414-R424). -/
def State.slotBoundary (s : State) : State :=
  let s := s.slotBegin
  let starts := (allDoms.filter (fun d => decide ((s.dom d).st = .waking) && (s.dom d).rampDone && !(s.dom d).clock &&
    decide (vget s.hdg.plls (domPll d) = .locked))).map Stage.clockStart
  let stops := ((if s.hdg.mode ≠ 0 then sleepOrder else allDoms).filter s.stopDue).map Stage.clockStop
  let ramps := (allDoms.filter s.rampDue).map Stage.ramp
  let q0 := s.hdg.lastRamp
  let r := s.offer { q := 0, rise := 0, fall := rampCurrent q0 } (starts ++ stops ++ ramps)
  r.1.modHdg (fun h => { h with lastRamp := r.2.q })

/-! ### PLLs (R415) -/

def State.pllIs (s : State) (p : Fin 9) (x : PllState) : Bool := vget s.hdg.plls p = x
def State.setPll (s : State) (p : Fin 9) (x : PllState) : State := s.modHdg (fun h => { h with plls := vset h.plls p x })

/-! ### Resets (R430) -/

/-- What a device or power-on reset leaves: NVS contents with the factory identity, the repair table and the
NVS spares (R430, R515), DRAM undefined, the test port and the supply balls (R539, R545); the queue of commands. -/
def State.resetAll (s : State) (ch32 : Bool) (den : Fin 4) (cause : Word) : State :=
  let z := State.afterPowerOn ch32 den
  { z with pending := s.pending, freeCount := s.freeCount, nvs := s.nvs, dram := s.dram.lose { s.lossOf 0 with whole := true }, tap := s.tap, supply := s.supply,
           ras := { z.ras with wear := s.ras.wear, wearMax := s.ras.wearMax, wearMaxLine := s.ras.wearMaxLine, nvsFree := s.ras.nvsFree
                               sramFree := s.ras.sramFree } }.setReg
    rHdgRstCause cause

/-- A device reset keeps HDG_RST_CAUSE and adds its own bit (R430). -/
def State.deviceReset (s : State) (ch32 : Bool) (den : Fin 4) (bit : Nat) : State :=
  s.resetAll ch32 den (s.reg rHdgRstCause ||| BitVec.twoPow 32 bit)

/-! ### The commands -/

/-- SLOT_BOUNDARY (R414-R424). -/
def execSlotBoundary (s : State) : Host.Outcome State Fault Refusal := .next s.slotBoundary

/-- PLL_LOCKED (R415): no PLL locks while REF_LOST is 1; the local oscillator has no reference (R27). -/
def execPllLocked (p : Fin 9) (s : State) : Host.Outcome State Fault Refusal :=
  .next (if s.pllIs p .starting && (!s.hdg.refLost || decide (p = 8)) then s.setPll p .locked else s)

/-- PLL_LOCK_TIMEOUT (R415). -/
def execPllLockTimeout (p : Fin 9) (s : State) : Host.Outcome State Fault Refusal :=
  .next (if s.pllIs p .starting then (s.setPll p .failed).orReg rHdgStat 4 else s)

/-- PLL_RESTART (R415). -/
def execPllRestart (p : Fin 9) (s : State) : Host.Outcome State Fault Refusal :=
  .next (if s.pllIs p .failed then s.setPll p .starting else s)

/-- FUNCTION_READY (R422, R428). -/
def execFunctionReady (f : Fin 40) (s : State) : Host.Outcome State Fault Refusal := .next (s.becomeReady f.1)

/-- The offset in the CSR space of an address there. -/
def csrOff (addr : BitVec 48) : Nat := addr.toNat - csrBase

/-- DOMAIN_REQUEST_WRITE: core k writes HDG_REQ_CORE_k only, Bellhouse HDG_REQ_BH (R432). -/
def State.domainRequest (s : State) (i : Initiator) (off : Nat) (v : Word) : State :=
  let may : Bool := match i with
    | .core k => decide (off = rHdgReqCore k.1)
    | .bellhouse => decide (off = rHdgReqBh)
    | _ => false
  if may then s.setReg off (v &&& 0x1FFFFFFE) else s

def execDomainRequestWrite (ini : Initiator) (addr : BitVec 48) (value : Word) (s : State) : Host.Outcome State Fault Refusal :=
  .next (s.access ini addr.toNat (.domainRequestWrite ini addr value) (fun s => s.domainRequest ini (csrOff addr) value))

/-- A write refused by a lock (R506). -/
def State.lockReject (s : State) (addr : Nat) : State :=
  (((s.orReg rKeyStat 8).setReg64 rKeyLockRejAddr (BitVec.ofNat 64 addr)).bump rKeyLockRejCount 1).raise 17

/-- INRUSH_WRITE: clamped below at the largest single figure (R420), under KEY_LOCK bit 3, by Bellhouse only (R432). -/
def State.inrush (s : State) (i : Initiator) (didt : Bool) (v : Word) : State :=
  let off := if didt then rHdgInrushDidt else rHdgInrushQ
  let least := if didt then 4000 else 1400
  if i ≠ .bellhouse then s
  else if s.locked 3 then s.lockReject (csrBase + off)
  else
    let x := v.toNat % 65536
    if x < least then (s.setReg off (BitVec.ofNat 32 least)).orReg rHdgStat 0x10 else s.setReg off (BitVec.ofNat 32 x)

def execInrushWrite (ini : Initiator) (didt : Bool) (value : Word) (s : State) : Host.Outcome State Fault Refusal :=
  .next (s.regAccess ini (if didt then rHdgInrushDidt else rHdgInrushQ) (.inrushWrite ini didt value) (fun s => s.inrush ini didt value))

/-- CORE_RUN_WRITE (R429): by Bellhouse only (R432). -/
def State.coreRunWrite (s : State) (i : Initiator) (v : Word) : State :=
  if i ≠ .bellhouse then s
  else
    let s := (upFrom 0 4).foldl (fun s k => if v.getLsbD k then s else s.resetCore (fin 4 k)) s
    (s.setReg rHdgCoreRun (v &&& 0xF)).releaseCores

def execCoreRunWrite (ini : Initiator) (value : Word) (s : State) : Host.Outcome State Fault Refusal :=
  .next (s.regAccess ini rHdgCoreRun (.coreRunWrite ini value) (fun s => s.coreRunWrite ini value))

/-- Device sleep is asked for (R425): accepted only when no request for domains 1-28 stands. -/
def State.sleep (s : State) (i : Initiator) (mode : Nat) : State :=
  if i ≠ .bellhouse then s
  else if allDoms.any s.requested then s.orReg rHdgStat 1
  else s.modHdg (fun h => { h with mode := mode, sleepBegun := false })

def execSleepStandby (ini : Initiator) (s : State) : Host.Outcome State Fault Refusal :=
  .next (s.regAccess ini rHdgSleep (.sleepStandby ini) (fun s => s.sleep ini 1))
def execSleepOffWake (ini : Initiator) (s : State) : Host.Outcome State Fault Refusal :=
  .next (s.regAccess ini rHdgSleep (.sleepOffWake ini) (fun s => s.sleep ini 2))

/-- A wake holds: an enabled source 1-31 is PENDING, or a request stands (R426); the wake logic makes none while DISABLE is set (R403). -/
def State.wakeHolds (s : State) : Bool :=
  (!s.evcDisabled && (upFrom 1 31).any (fun k => (s.reg rHdgWakeEn).getLsbD k && decide ((s.src k).st = .pending))) ||
    allDoms.any s.requested

/-- WAKE (R42, R426). -/
def State.wakeUp (s : State) : State :=
  if s.hdg.mode = 0 ∨ !s.wakeHolds then s
  else
    let resting := s.hdg.sleepBegun && allDoms.all (fun d => decide ((s.dom d).st = .off))
    let begun := s.hdg.sleepBegun
    let s := s.modHdg (fun h => { h with mode := 0, sleepBegun := false })
    if resting then s
    else if begun then s.bump rHdgSleepAbandon 1
    else (s.orReg rHdgStat 2).bump rHdgSleepAbandon 1

def execWake (s : State) : Host.Outcome State Fault Refusal := .next s.wakeUp

/-- DRAM_PWR_OK has been high for 2 ms (R427). -/
def execDramPwrOk (s : State) : Host.Outcome State Fault Refusal :=
  .next (if s.hdg.pwrEn then s.modHdg (fun h => { h with pwrOk := true }) else s)

/-- WATCHDOG_KICK (R431): by Bellhouse only (R432). -/
def execWatchdogKick (ini : Initiator) (value : Word) (s : State) : Host.Outcome State Fault Refusal :=
  .next (s.regAccess ini rHdgWdogKick (.watchdogKick ini value) (fun s =>
    if ini = .bellhouse then { s with clk := { s.clk with wdog := 0 } } else s))

/-- The watchdog expires (R431); a period of 0 disables it. The straps keep their levels. -/
def State.watchdogExpires (s : State) : State :=
  if s.reg rHdgWdogPeriod = 0 then s else s.deviceReset s.hdg.ch32 s.hdg.den 3

/-- WATCHDOG_EXPIRY (R431). -/
def execWatchdogExpiry (s : State) : Host.Outcome State Fault Refusal := .next s.watchdogExpires

/-- POWER_ON_RESET (R430): HDG_RST_CAUSE too. -/
def execPowerOnReset (ch32 : Bool) (den : Fin 4) (s : State) : Host.Outcome State Fault Refusal :=
  .next { s.resetAll ch32 den 1 with supply := State.reset.supply }

/-- DEVICE_RESET by RESET_N (R430). -/
def execDeviceReset (ch32 : Bool) (den : Fin 4) (s : State) : Host.Outcome State Fault Refusal := .next (s.deviceReset ch32 den 1)

/-- The gate of a link closes (R504). -/
def State.closeGate (s : State) (l : Fin 64) : State := { s with gates := s.gates &&& ~~~(BitVec.twoPow 64 l.1) }

/-- A write to a register that holds an RW-K field (R504): accepted through an open gate, which it closes; else ignored, NOKEY. -/
def State.keyed (s : State) (i : Initiator) (accepted : State → State) : State :=
  if s.gates.getLsbD (s.link i).1 then accepted (s.closeGate (s.link i)) else s.orReg rKeyStat 4

/-- SOFT_RESET: a write of 1 to HDG_RESET, by Bellhouse under the key (R430, R432, R504). -/
def execSoftReset (ini : Initiator) (ch32 : Bool) (den : Fin 4) (s : State) : Host.Outcome State Fault Refusal :=
  .next (s.regAccess ini rHdgReset (.softReset ini ch32 den) (fun s =>
    if ini = .bellhouse then s.keyed ini (fun s => s.deviceReset ch32 den 2) else s))

/-- REFERENCE_LOST (R415). -/
def execReferenceLost (s : State) : Host.Outcome State Fault Refusal := .next (s.modHdg (fun h => { h with refLost := true }))

/-- REFERENCE_RETURN (R415). -/
def execReferenceReturn (s : State) : Host.Outcome State Fault Refusal := .next (s.modHdg (fun h => { h with refLost := false }))

end Sys2Proof.Machine
end

