-- ==== Sys2Proof/Machine/RefPool.lean ====
section
/-! DEFINITION. The reference pool (R100-R117, R547): list resolution, the current slot, marks, view matching and expiry, and the
samples of a slot in DRAM. -/

namespace Sys2Proof.Machine

/-! ### REF fields (R297) -/

def refShortMax (b : List Byte) : Nat := leAt b 16 1
def refLongMax (b : List Byte) : Nat := leAt b 17 1
def refHeldMax (b : List Byte) : Nat := leAt b 18 1
def refXexp (b : List Byte) : Nat := leAt b 19 1
def refNSrc (b : List Byte) : Nat := leAt b 20 1
def refNDest (b : List Byte) : Nat := leAt b 21 1
def refRpl (b : List Byte) (i : Nat) : Nat := leAt b (24 + i) 1
def refRplKind (b : List Byte) (i : Nat) : Nat := refRpl b i / 16 % 4
def refRplOp (b : List Byte) (i : Nat) : Nat := refRpl b i % 16
def refSrcDevice (b : List Byte) (j : Nat) : Nat := leAt b (32 + 16 * j) 2
def refSrcRank (b : List Byte) (j : Nat) : Nat := leAt b (34 + 16 * j) 2
def refViewPhase (b : List Byte) (j : Nat) : Int := (BitVec.ofNat 64 (leAt b (40 + 16 * j) 8)).toInt
def refDest (b : List Byte) (m : Nat) : Nat := leAt b (96 + 2 * m) 2
def refSlotBase (b : List Byte) : Nat := leAt b 112 8
def refSlotStride (b : List Byte) : Nat := leAt b 120 8
/-- Take rank of a CODE record (R294). -/
def codeRank (b : List Byte) : Nat := leAt b 36 2

/-- Picture period in ns (R114). -/
def codePeriodNs (c : List Byte) : Nat := if codeRateNum c = 0 then 0 else 1000000000 * codeRateDen c / codeRateNum c
/-- Bytes of a reference slot (R104). -/
def slotBytes (c : List Byte) : Nat := codeWidth c * codeHeight c * codeExposures c * 2

def allSlots : List (Fin 16) := [0, 1, 2, 3, 4, 5, 6, 7, 8, 9, 10, 11, 12, 13, 14, 15]

/-! ### Lists (R102, R103, R107) -/

/-- Every tile of the picture is final (R106). -/
def State.allFinal (s : State) (p : Picture) : Bool := decide (tilesN (s.active unitCode) ≤ p.units.length)

/-- A picture is in progress: its list is resolved and a tile is not final (R107). -/
def State.inProgress (s : State) (p : Picture) : Bool := p.opened && !s.allFinal p

/-- Slot `i` is in the list of a picture in progress (R103). -/
def State.inList (s : State) (i : Fin 16) : Bool :=
  s.take.pics.any (fun p => s.inProgress p && p.refs.any (fun r => r.slot.toNat = i.1))

def Slot.isShort (x : Slot) : Bool := decide (x.mark = .short)
def Slot.isLong (x : Slot) : Bool := decide (x.mark = .long)
/-- HELD by MARK, not the current slot. -/
def Slot.pinned (x : Slot) : Bool := decide (x.mark = .held) && !x.current
/-- Holds a peer picture, whole or arriving. -/
def Slot.peer (x : Slot) : Bool := decide (x.mark = .viewIn) || decide (x.mark = .pendingIn)

def State.slotsWhere (s : State) (p : Slot → Bool) : List (Fin 16) := allSlots.filter (fun i => p (s.slot i))

/-- Insert by a key, least first. -/
def insertBy (key : Fin 16 → Nat) (x : Fin 16) : List (Fin 16) → List (Fin 16)
  | [] => [x]
  | y :: ys => if key x < key y then x :: y :: ys else y :: insertBy key x ys

/-- Sort slots by a key, least first. -/
def sortSlots (key : Fin 16 → Nat) (l : List (Fin 16)) : List (Fin 16) := l.foldr (insertBy key) []

/-- The set of unit `u` that governs a picture's work: the retiring one when `old` has the unit's bit (R292). -/
def State.setOf (s : State) (old : BitVec 14) (u : Nat) : List Byte :=
  if old.getLsbD u then match (vgetN Bank.empty s.banks u).retiring with
    | some r => r.bytes
    | none => s.active u
  else s.active u

/-- A slot's picture of source `j` matches an own picture of ptp_time `t` under the REF set `r` (R114). -/
def State.viewMatches (s : State) (r : List Byte) (j : Nat) (t : DWord) (x : Slot) : Bool :=
  let d : Int := (t.toNat : Int) - x.ptp.toNat - refViewPhase r j
  x.peer && (x.source.map (fun k => decide (k.1 = j))).getD false && decide (d.natAbs ≤ codePeriodNs (s.active unitCode) / 4)

/-- The slot of source `j` matched to an own picture: the earliest ptp_time (R114). -/
def State.matched (s : State) (r : List Byte) (j : Nat) (t : DWord) : Option (Fin 16) :=
  (sortSlots (fun i => (s.slot i).ptp.toNat) (s.slotsWhere (s.viewMatches r j t))).head?

/-- One entry of the template of the REF set `r` (R102). -/
def State.resolveEntry (s : State) (r : List Byte) (t : DWord) (i : Nat) : Option RefEntry :=
  let op := refRplOp r i
  let own : Fin 16 → RefEntry := fun k =>
    { kind := 1, slot := BitVec.ofNat 8 k.1, device := s.take.deviceId, picture := (s.slot k).picture }
  match refRplKind r i with
  | 1 => ((sortSlots (fun k => (s.slot k).picture.toNat) (s.slotsWhere Slot.isShort)).reverse.drop op).head?.map own
  | 2 => ((sortSlots (fun k => (s.slot k).picture.toNat) (s.slotsWhere Slot.isLong)).drop op).head?.map own
  | 3 =>
    let dev := BitVec.ofNat 16 (refSrcDevice r op)
    some (match s.matched r op t with
      | some k => { kind := 2, slot := BitVec.ofNat 8 k.1, device := dev, picture := (s.slot k).picture }
      | none => { kind := 2, slot := 0xFF, device := dev, picture := 0xFFFFFFFF })
  | _ => none

/-- LIST_RESOLUTION (R102), by the REF set that governs the picture (R292). -/
def State.resolveList (s : State) (r : List Byte) (t : DWord) : List RefEntry := (upFrom 0 4).filterMap (s.resolveEntry r t)

/-- CURRENT_SLOT_TAKE (R105): the lowest UNUSED slot becomes HELD for picture `n`; with none, source 18. -/
def State.takeSlot (s : State) (n : Nat) (ptp : DWord) : State × Option (Fin 16) :=
  match (s.slotsWhere (fun x => decide (x.mark = .unused))).head? with
  | none => (s.raise 18, none)
  | some i => (s.modSlot i (fun x => { x with
      mark := .held, current := true, prevTake := false, device := s.take.deviceId, picture := BitVec.ofNat 32 n, source := none,
      ptp := ptp, accepted := [], sends := 0, final := false }), some i)

/-! ### Release, eviction and expiry (R106, R107, R114) -/

/-- A current slot whose picture is final, or will never be (R106). -/
def State.releasable (s : State) (i : Fin 16) : Bool :=
  let x := s.slot i
  decide (x.mark = .held) && x.current && decide (x.sends = 0) &&
    (x.final || !s.take.pics.any (fun p => p.slot = some i))

/-- The oldest SHORT slot outside every list in progress, when the count exceeds SHORT_MAX (R107). -/
def State.evict (s : State) : State :=
  let shorts := s.slotsWhere Slot.isShort
  if shorts.length ≤ refShortMax (s.active unitRef) then s
  else match (sortSlots (fun k => (s.slot k).picture.toNat) (shorts.filter (fun i => !s.inList i))).head? with
    | some i => s.freeSlot i
    | none => s

/-- Slot `i` is released (R106). -/
def State.releaseSlot (s : State) (i : Fin 16) : State :=
  let x := s.slot i
  if x.final ∧ 0 < refShortMax (s.active unitRef) then
    (s.modSlot i (fun x => { x with mark := .short, current := false })).evict
  else s.freeSlot i

/-- The releasable current slot of the lowest picture number. -/
def State.nextRelease (s : State) : Option (Fin 16) :=
  (sortSlots (fun k => (s.slot k).picture.toNat) (allSlots.filter s.releasable)).head?

/-- SLOT_RELEASE (R106, R107, R108). -/
def execSlotRelease (s : State) : Host.Outcome State Fault Refusal :=
  .next (match s.nextRelease with
    | some i => s.releaseSlot i
    | none => s)

/-- SHORT_EVICTION (R107). -/
def execShortEviction (s : State) : Host.Outcome State Fault Refusal := .next s.evict

/-- Tiles of a peer picture not yet accepted count as late, once (R109, R114); its later packets are refused (R113). -/
def State.abandonView (s : State) (i : Fin 16) : State :=
  let x := s.slot i
  match x.source with
  | some j => if x.mark = .pendingIn then
      { s with lateViews := s.lateViews ++ [(j, x.picture)] }.bump (rKslReftLate x.port.1)
        (tilesN (s.active unitCode) - x.accepted.length)
    else s
  | none => s

/-- The match window of slot `i` has passed for the own picture most recently started (R113, R114). Before any own picture of the take has
started the spec names no time to compare with; the model compares with 0, so that no view expires or is abandoned then (DESIGN CHOICE, log
entry 91). -/
def State.windowPassed (s : State) (j : Nat) (ptp : DWord) : Bool :=
  decide ((ptp.toNat : Int) + refViewPhase (s.active unitRef) j + codePeriodNs (s.active unitCode) / 4 < s.take.lastPtp.toNat)

/-- VIEW_SLOT_EXPIRY (R114). -/
def State.expireView (s : State) (i : Fin 16) : State :=
  let x := s.slot i
  match x.source with
  | some j => if x.peer ∧ s.windowPassed j.1 x.ptp ∧ !s.inList i then (s.abandonView i).freeSlot i else s
  | none => s

def execViewSlotExpiry (slot : Fin 16) (s : State) : Host.Outcome State Fault Refusal := .next (s.expireView slot)

/-! ### MARK (R108-R112, R260) -/

def markCode : Mark → Nat
  | .unused => 0
  | .short => 1
  | .long => 2
  | .viewIn => 3
  | .pendingIn => 4
  | .held => 5

/-- The slot descriptor (R112). -/
def State.slotDesc (s : State) (i : Fin 16) : DWord :=
  let x := s.slot i
  if x.mark = .unused then 0
  else BitVec.ofNat 64 (markCode x.mark + (if x.prevTake then 8 else 0) + (if s.inList i then 16 else 0) + 65536 * x.device.toNat +
    2 ^ 32 * x.picture.toNat)

/-- A transition by MARK that stands in R108, counts aside. -/
def markLegal (x : Slot) (target : Nat) : Bool :=
  match x.mark, target with
  | .held, 0 => true
  | .held, 1 => x.current || (!x.prevTake && x.source.isNone)
  | .held, 2 => x.current || (!x.prevTake && x.source.isNone)
  | .short, 0 => true
  | .short, 2 => true
  | .short, 5 => true
  | .long, 0 => true
  | .long, 5 => true
  | .viewIn, 0 => true
  | .viewIn, 5 => true
  | .pendingIn, 0 => true
  | _, _ => false

/-- The limit of a target mark is reached (R108, R109). -/
def State.markFull (s : State) (target : Nat) : Bool :=
  let r := s.active unitRef
  match target with
  | 1 => decide (refShortMax r ≤ (s.slotsWhere Slot.isShort).length)
  | 2 => decide (refLongMax r ≤ (s.slotsWhere Slot.isLong).length)
  | 5 => decide (refHeldMax r ≤ (s.slotsWhere Slot.pinned).length)
  | _ => false

def markOf (target : Nat) : Mark :=
  match target with
  | 1 => .short
  | 2 => .long
  | 3 => .viewIn
  | 4 => .pendingIn
  | 5 => .held
  | _ => .unused

/-- A MARK of slot `i` (R260): status and the state after. -/
def State.mark (s : State) (i : Fin 16) (target : Nat) : State × Nat :=
  let x := s.slot i
  if !markLegal x target then (s, stState)
  else if x.current || s.inList i || x.playing then (s, stBusy)
  else if s.markFull target then (s, stNoresource)
  else if target = 0 then ((s.abandonView i).freeSlot i, stOk)
  else (s.modSlot i (fun x => { x with mark := markOf target }), stOk)

/-! ### Slot areas and samples (R104, R547) -/

/-- The placement at ARM's REF takeover (R547, R111): every slot that is not HELD becomes UNUSED at its place. -/
def State.placeSlots (s : State) : State :=
  let r := s.active unitRef
  let n := slotBytes (s.active unitCode)
  allSlots.foldl (fun s i =>
    if (s.slot i).mark = .held then s.modSlot i (fun x => { x with prevTake := true })
    else s.modSlot i (fun _ => { Slot.unused with base := some (refSlotBase r + i.1 * refSlotStride r), size := n })) s

/-- CLOSE (R111): only slots pinned HELD by MARK are kept, as pictures of an earlier take. -/
def State.closeSlots (s : State) : State :=
  { allSlots.foldl (fun s i => if (s.slot i).pinned then s.modSlot i (fun x => { x with prevTake := true }) else s.freeSlot i) s with
    lateViews := [], wholeViews := [] }

/-- The area of a slot overlaps bytes `a` to `a + n - 1` (R547). -/
def Slot.overlaps (x : Slot) (a n : Nat) : Bool :=
  match x.base with
  | some b => decide (a < b + x.size) && decide (b < a + n)
  | none => false

/-- Bytes of a slot from its base where plane `i` row `v` column `u` lies: planes in plane index order, each in raster order (log
entry 21). -/
def planeOffset (c : List Byte) (i v u : Nat) : Nat :=
  let wp := codeWidth c / codePeriod c
  let hp := codeHeight c / codePeriod c
  2 * (i * wp * hp + v * wp + u)

/-- Sample (u, v) of plane `i` of the picture in slot `k` (R104). -/
def State.slotSample (s : State) (k : Fin 16) (i v u : Nat) : Nat :=
  match (s.slot k).base with
  | some b => leNat (s.peek (b + planeOffset (s.active unitCode) i v u) 2)
  | none => 0

/-- Planes of a picture (R58). -/
def planesOf (c : List Byte) : Nat := codeExposures c * codePeriod c * codePeriod c

/-- Write the samples of tile `t`, in plane index order and raster order (R212), into slot `k` (R104, R113). -/
def State.writeSlotTile (s : State) (k : Fin 16) (t : Nat) (samples : List Half) : State :=
  match (s.slot k).base with
  | none => s
  | some b =>
    let c := s.active unitCode
    let p := codePeriod c
    let w := tileW c t / p
    let h := tileH c t / p
    let x0 := t % tilesX c * 256 / p
    let y0 := t / tilesX c * 64 / p
    (upFrom 0 (planesOf c)).foldl (fun s i =>
      (upFrom 0 h).foldl (fun s v =>
        let row := (samples.drop (i * w * h + v * w)).take w
        s.poke (b + planeOffset c i (y0 + v) x0) (row.flatMap (fun x => leBytes 2 x.toNat))) s) s

/-- A view entry is available for band `ty` (R115). -/
def State.viewAvailable (s : State) (k : Fin 16) (ty : Nat) : Bool :=
  let c := s.active unitCode
  let b := ceilDiv (34 * codePeriod c) 64
  let x := s.slot k
  let lo := ty - b
  let hi := Nat.min (tilesY c - 1) (ty + b)
  decide (x.mark = .viewIn) || (upFrom (lo * tilesX c) ((hi + 1 - lo) * tilesX c)).all (fun t => x.accepted.contains t)

end Sys2Proof.Machine
end

