-- ==== Sys2Proof/Machine/Ledger.lean ====
section
/-! DEFINITION. The ledger's actions (R144-R159): opening, dispatch, charge and close of a picture, its record (R67-R73), and the
spill area's drain (R154, R157). -/

namespace Sys2Proof.Machine

/-- Replace the picture of number `k`. -/
def State.modPic (s : State) (k : Nat) (f : Picture → Picture) : State :=
  s.modTake (fun t => { t with pics := t.pics.map (fun p : Picture => if p.number = k then f p else p) })

def State.picOf (s : State) (k : Nat) : Option Picture := s.take.pics.find? (fun p : Picture => p.number = k)

/-- Bytes held in ledger `m`'s spill area. -/
def State.spillHeld (s : State) (m : Fin 2) : Nat := (s.ledger m).spilled

/-! ### Opening (R144, R151, R155, R55) -/

/-- The next picture to open. -/
def State.nextToOpen (s : State) : Option Picture := s.take.pics.find? (fun p : Picture => !p.opened)

/-- The credit of an opening (R144): fabric cycles since the previous one, exact. -/
def Ledger.credit (l : Ledger) (now : Nat) : Nat :=
  let dt := now - l.tLast
  if 2 * l.sz.tNs ≤ dt then l.sz.dFull else l.sz.rDecl * dt / 2000000000

/-- drop_test of R155: the spill area holds data and has less than P_max free. -/
def State.dropTest (s : State) (m : Fin 2) : Bool :=
  let l := s.ledger m
  decide (l.spill ≠ []) && decide (l.sz.spillLen - l.spilled < l.sz.pMax)

/-- Log space is left for the picture and the closing records (R55), earlier pictures at their largest, which in a floor-only take is every band
at its floor size (R79, R144). -/
def State.logRoom (s : State) (m : Fin 2) : Bool :=
  let l := s.ledger m
  let one := l.sz.h + sumNat (if codeMode (s.active unitCode) = 2 then l.sz.f else l.sz.g)
  let before := (s.take.pics.filter (fun p : Picture => p.opened && p.dropped.isNone && decide (s.ledgerOf p.number = m))).length
  (s.magsOf m).all (fun k => decide ((s.log k).addr + (before + 1) * one + 65536 ≤ logSpace (s.active unitLog) k.1))

/-- No picture of this ledger is still between its opening and its close in the ledger. -/
def State.ledgerFree (s : State) (m : Fin 2) : Bool :=
  s.take.pics.all (fun p => !p.opened || p.closing || decide (s.ledgerOf p.number ≠ m))

/-- A picture opens and starts (R102, R105, R144). -/
def State.startPicture (s : State) (p : Picture) (m : Fin 2) (l2 : Nat) : State :=
  let z := (s.ledger m).sz
  let s := s.ledgerDo m (fun l => { l with fill := l2 + z.h, res := z.fMax - z.h, tLast := s.clk.fab, waited := false })
  let refs := s.resolveList (s.setOf p.old unitRef) p.ptp
  let r := s.takeSlot p.number p.ptp
  let s := r.1.modPic p.number (fun p => { p with opened := true, refs := if r.2.isSome then refs else [], slot := r.2 })
  s.modTake (fun t => { t with lastPtp := p.ptp })

/-- PICTURE_DROP (R155). A picture already dropped at the sensor port opens the same way, holding Z for its notes, without the
event and the count (log entry 22). -/
def State.dropAtOpening (s : State) (p : Picture) (m : Fin 2) (l2 : Nat) : State :=
  let s := s.ledgerDo m (fun l => { l with fill := l2, res := l.sz.z, tLast := s.clk.fab, waited := false })
  let s := s.modPic p.number (fun q => { q with opened := true, dropped := some (p.dropped.getD 1)
                                                nextBand := tilesY (s.active unitCode) })
  if p.dropped.isSome then s else (s.ledgerEvent m 3).bump (rMagLdgDropped m.1) 1

/-- LOG_FULL (R55): the take ends at this boundary as if cut. -/
def State.logFull (s : State) (n : Nat) : State :=
  ((s.modTake (fun t => { t with logFull := true, pics := t.pics.filter (fun p : Picture => p.number < n) })).moveTake .cutting 0).checkCut

/-- One attempt of open_picture (R144). -/
def State.openPicture (s : State) : State :=
  match s.nextToOpen with
  | none => s
  | some p =>
    let m := s.ledgerOf p.number
    let l := s.ledger m
    if s.take.st ≠ .rolling ∧ s.take.st ≠ .cutting ∨ !s.ledgerFree m ∨ l.sizes.isNone then s
    else if p.dropped.isNone ∧ !s.logRoom m then s.logFull p.number
    else
      let c := l.credit s.clk.fab
      let l2 := l.fill - c
      let drop := p.dropped.isSome || s.dropTest m
      if l2 + l.pend + (if drop then l.sz.z else l.sz.fMax) ≤ l.sz.cap then
        if drop then s.dropAtOpening p m l2 else s.startPicture p m l2
      else if l.waited then s
      else (s.modLedger m (fun l => { l with waited := true })).bump (rMagLdgOpenWaits m.1) 1

/-- OPEN_PICTURE (R144, R55, R102, R105, R155). -/
def execOpenPicture (s : State) : Host.Outcome State Fault Refusal := .next s.openPicture

/-! ### Dispatch (R144, R146, R152, R233) -/

/-- Parcels of one tile line (R474): q numbers of tile column `tx`, photosite row `y`, exposure `x`. -/
def parcelIx (c : List Byte) (tx y x : Nat) : Nat := (x * codeHeight c + y) * tilesX c + tx

/-- The parcels of tile `t` in the ingress ring: the first one, or every one (R233). -/
def State.tileArrived (s : State) (p : Picture) (t : Nat) (every : Bool) : Bool :=
  let c := s.active unitCode
  let have1 : Nat → Bool := fun q => match s.sns.pic with
    | some x => x.recorded && decide (x.number.toNat = p.number) && x.parcels.contains q
    | none => false
  let y0 := t / tilesX c * 64
  p.ended ||
    (if every then (upFrom y0 (tileH c t)).all (fun y => (upFrom 0 (codeExposures c)).all (fun x => have1 (parcelIx c (t % tilesX c) y x)))
     else (upFrom 0 (codeExposures c)).any (fun x => have1 (parcelIx c (t % tilesX c) y0 x)))

/-- A tile is ready for dispatch (R233). -/
def State.tileReady (s : State) (p : Picture) (t : Nat) : Bool := s.tileArrived p t (codeLatency (s.active unitCode) = 0)

/-- The picture whose band is dispatched next. -/
def State.nextToDispatch (s : State) : Option Picture :=
  s.take.pics.find? (fun p : Picture => p.opened && p.dropped.isNone && decide (p.nextBand < tilesY (s.active unitCode)))

/-- dispatch_band (R144): the grant, and the band's tiles join the queue. FLOOR and MAG_LDG_FLOOR_BANDS tell of bands that failed the test;
whether R160 means the bands of a floor-only take too is not said: the model does not count them (DESIGN CHOICE, log entry 93). -/
def State.dispatchBand (s : State) : State :=
  match s.nextToDispatch with
  | none => s
  | some p =>
    let c := s.active unitCode
    let b := p.nextBand
    let m := s.ledgerOf p.number
    let l := s.ledger m
    if 4 ≤ l.grants.length ∨ !s.tileReady p (b * tilesX c) then s
    else
      let f := nth 0 l.sz.f b
      let g := nth 0 l.sz.g b
      let res := l.res - f
      let only := decide (codeMode c = 2)
      let normal := !only && decide (l.fill + l.pend + g + res ≤ l.sz.cap)
      let budget := !only && !normal
      let amount := if normal then g else f
      let s := s.ledgerDo m (fun l => { l with res := res, pend := l.pend + amount
                                               grants := l.grants ++ [{ picture := p.number, band := b, amount := amount, floor := budget }] })
      let s := if budget then
          let s := s.bump (rMagLdgFloorBands m.1) 1
          if p.floorBands = [] then s.ledgerEvent m 1 else s.orReg (rMagLdgStat m.1) 2
        else s
      let s := s.modPic p.number (fun p => { p with nextBand := b + 1, floorBands := if budget then p.floorBands ++ [b] else p.floorBands
                                                    tilesOut := p.tilesOut ++ bandTiles c b })
      { s with tileQueue := s.tileQueue ++ (bandTiles c b).map (fun t => (p.number, t)) }

/-- DISPATCH_BAND (R144, R146, R152). -/
def execDispatchBand (s : State) : Host.Outcome State Fault Refusal := .next s.dispatchBand

/-! ### The record (R67-R73) -/

/-- Tiles with a flag of tile_flags (R75). -/
def Picture.countFlag (p : Picture) (bit : Nat) : Nat := (p.units.filter (fun u => u.flags.getLsbD bit)).length

/-- tile_flags bits (R75). -/
def tfXexp : Nat := 0
def tfViewMissing : Nat := 1
def tfRawRecode : Nat := 2
def tfBudgetFloor : Nat := 3
def tfSrcMismatch : Nat := 4
def tfVerified : Nat := 5
def tfPartial : Nat := 6

def refBytes (r : RefEntry) : List Byte := [r.kind, r.slot] ++ leBytes 2 r.device.toNat ++ leBytes 4 r.picture.toNat

/-- pic_flags (R70). -/
def Picture.flags (p : Picture) (c : List Byte) (spilled : Bool) : Nat :=
  (if p.refs = [] then 1 else 0) + (if 0 < p.countFlag tfBudgetFloor then 2 else 0) + (if 0 < p.countFlag tfViewMissing then 4 else 0) +
    (if 0 < p.countFlag tfRawRecode then 8 else 0) + (if 0 < p.countFlag tfSrcMismatch then 16 else 0) + (if spilled then 32 else 0) +
    (if codeMode c = 0 ∧ p.units.all (fun u => u.flags.getLsbD tfVerified) then 64 else 0)

/-- The first band with a BUDGET_FLOOR tile (R69). -/
def Picture.firstFloor (p : Picture) (c : List Byte) : Nat :=
  ((upFrom 0 (tilesY c)).find? (fun b => (bandTiles c b).any (fun t => p.units.any (fun u => u.tile = t && u.flags.getLsbD tfBudgetFloor)))).getD 0xFFFF

/-- The tile directory (R73): offset and length of each tile's unit. -/
def Picture.directory (p : Picture) (c : List Byte) : List Byte :=
  (upFrom 0 (tilesY c)).flatMap (fun b =>
    ((bandTiles c b).foldl (fun (a : Nat × List Byte) t =>
      let n := (p.unitOf t).length
      (a.1 + n, a.2 ++ leBytes 4 a.1 ++ leBytes 4 n)) (p.bandOffset c b, [])).2)

/-- Picture header (R69) and directory. -/
def Picture.headBytes (p : Picture) (c : List Byte) (spilled : Bool) : List Byte :=
  leBytes 4 p.number ++ leBytes 4 (p.flags c spilled) ++ leBytes 8 p.ptp.toNat ++ leBytes 4 (tilesN c) ++ leBytes 1 p.refs.length ++ [0] ++
    leBytes 2 (p.firstFloor c) ++ leBytes 2 (p.countFlag tfBudgetFloor) ++ leBytes 2 (p.countFlag tfRawRecode) ++
    leBytes 2 (p.countFlag tfViewMissing) ++ leBytes 2 (p.countFlag tfSrcMismatch) ++
    (p.refs.flatMap refBytes) ++ List.replicate (32 - 8 * p.refs.length) 0 ++ (p.info ++ List.replicate 32 0).take 32 ++
    List.replicate 32 0 ++ p.directory c

/-- The tile area up to the last byte of the last tile unit (R68). -/
def Picture.tileArea (p : Picture) (c : List Byte) : List Byte :=
  let n := tilesY c
  ((upFrom 0 (n - 1)).flatMap (fun b => pad4k (p.bandBytes c b))) ++ p.bandBytes c (n - 1)

/-! ### Charges (R144, R154) -/

/-- A LogUnit of picture `p` at record offset `o`, for every magazine alike. -/
def pictureUnit (p : Picture) (o : Nat) (bytes : List Byte) (header flush : Bool) : Fin 2 → LogUnit := fun _ =>
  { addr := p.recordAddr + o, bytes := bytes, picture := some p.number, header := header, trailer := false, flushAfter := flush,
    given := false, other := none }

/-- charge_band (R144): in band latency the band is placed at once (R25), which ends a run of drops before it: should this picture be dropped
in its turn, R85's run would have to stand in two places of the log (DEDUCED, log entry 56). -/
def State.chargeBand (s : State) (m : Fin 2) : State :=
  match s.oldest m with
  | none => s
  | some p =>
    let c := s.active unitCode
    let b := p.charged.length
    match (s.ledger m).grants.find? (fun g : Grant => g.picture = p.number && g.band = b) with
    | none => s
    | some g =>
      if p.dropped.isSome ∨ !p.bandFinal c b then s
      else
        let band := decide (codeLatency c = 1)
        let s := if b = 0 && band then s.endRun m else s
        let p := if b = 0 then { p with recordAddr := (s.log m).addr } else p
        let a := p.bandLog c b
        let s := s.ledgerDo m (fun l => { l with pend := l.pend - g.amount, fill := l.fill + a
                                                 grants := l.grants.filter (fun x => x ≠ g) })
        let s := s.modPic p.number (fun q => { q with charged := q.charged ++ [b], recordAddr := p.recordAddr })
        if band then s.placeUnit m (pictureUnit p (p.bandOffset c b) (pad4k (p.bandBytes c b)) false false) else s

/-- CHARGE_BAND (R144, R154). -/
def execChargeBand (m : Fin 2) (s : State) : Host.Outcome State Fault Refusal := .next (s.chargeBand m)

/-! ### Close (R144, R25, R83) -/

/-- close_picture in the ledger: res is released and Z held for the closing charge. -/
def State.ledgerClose (s : State) (k : Nat) (m : Fin 2) : State :=
  (s.ledgerDo m (fun l => { l with res := 0, pend := l.pend + l.sz.z })).modPic k (fun p => { p with closing := true })

/-- The closing charge `zi` (R144). -/
def State.closingCharge (s : State) (m : Fin 2) (zi : Nat) : State :=
  s.ledgerDo m (fun l => { l with pend := l.pend - l.sz.z, fill := l.fill + zi })

/-- The record's units that are placed at close: in band latency the header area; in picture latency all of it in log order (R25). -/
def State.placeRecord (s : State) (m : Fin 2) (p : Picture) : State :=
  let c := s.active unitCode
  let band := decide (codeLatency c = 1)
  let n := tilesY c
  let flush := decide (codeFlush c = 1)
  let total := headArea c + (if band then 0 else sumNat ((upFrom 0 n).map (p.bandLog c)))
  let l := s.ledger m
  let spilled := p.spilled || decide (l.spill ≠ []) || decide (l.sz.pendMax < s.ledgerPending m + total)
  let body := p.headBytes c spilled
  let rest := List.replicate (headArea c - 32 - body.length) 0 ++ p.tileArea c
  let rec1 := s.takeRecord 2 (s.log m).seq (body ++ rest)
  let s := s.placeUnit m (pictureUnit p 0 (rec1.take (headArea c)) true (flush && band))
  if band then s
  else (upFrom 0 n).foldl (fun s b =>
    s.placeUnit m (pictureUnit p (p.bandOffset c b) (pad4k (p.bandBytes c b)) false (flush && decide (b + 1 = n)))) s

/-- The record is complete in the log (R83, R84, R86, R279). -/
def State.noteRecorded (s : State) (m : Fin 2) (p : Picture) : State :=
  let c := s.active unitCode
  let s := (s.magsOf m).foldl (fun s k => s.modLog k (fun g =>
    { g with addr := p.recordAddr + p.bandOffset c (tilesY c), seq := g.seq + 1
             entries := g.entries ++ [{ picture := p.number, dropped := false, addr := p.recordAddr, ptp := p.ptp }]
             recorded := g.recorded + 1, last := some p.number
             tilesFloor := g.tilesFloor + p.countFlag tfBudgetFloor, tilesRaw := g.tilesRaw + p.countFlag tfRawRecode
             tilesMissing := g.tilesMissing + p.countFlag tfViewMissing, tilesMismatch := g.tilesMismatch + p.countFlag tfSrcMismatch })) s
  s.modTake (fun t => { t with lastRecorded := some p.number })

/-- The picture leaves the take's list; its slot, when current, holds a final picture (R106). -/
def State.dropFromList (s : State) (k : Nat) : State :=
  s.modTake (fun t => { t with pics := t.pics.filter (fun p : Picture => p.number ≠ k) })

/-- The last stage of a close: the record, the notes and their charge, and for a cut take the closing records (R159). -/
def State.finishPicture (s : State) (m : Fin 2) (p : Picture) : State :=
  match p.dropped with
  | some r =>
    let c := s.active unitCode
    let s := if p.charged ≠ [] ∧ codeLatency c = 1 then
        (s.magsOf m).foldl (fun s k => s.modLog k (fun g => { g with addr := p.recordAddr + p.bandOffset c p.charged.length })) s
      else s
    let a := s.noteDrop m p.number r p.ptp
    let b := a.1.indexAfter m p.number
    ((b.1.closingCharge m (a.2 + b.2)).dropFromList p.number).checkCut
  | none =>
    let s := if codeLatency (s.active unitCode) = 1 then s else s.endRun m
    let p := if codeLatency (s.active unitCode) = 1 then p else { p with recordAddr := (s.log m).addr }
    let s := (s.placeRecord m p).noteRecorded m p
    let b := s.indexAfter m p.number
    ((b.1.closingCharge m b.2).dropFromList p.number).checkCut

/-- The picture to close next in a ledger: in its last stage the oldest, whose bands are all charged. -/
def State.closeIn (s : State) (m : Fin 2) : State :=
  let n := tilesY (s.active unitCode)
  let s := match s.take.pics.find? (fun p : Picture => p.opened && !p.closing && decide (s.ledgerOf p.number = m)) with
    | some p => if p.nextBand = n ∨ p.dropped.isSome then s.ledgerClose p.number m else s
    | none => s
  match s.oldest m with
  | some p => if p.closing ∧ (p.charged.length = n ∨ p.dropped.isSome) then s.finishPicture m p else s
  | none => s

/-- A picture is dropped at the sensor port while the take records (R473): its tiles stop, its uncharged grants are released, its
slot goes, and it waits for its close. -/
def State.sensorDrop (s : State) (k : Nat) : State :=
  match s.picOf k with
  | none => s
  | some p =>
    if p.dropped.isSome ∨ s.allFinal p then s
    else
      let m := s.ledgerOf k
      let s := { s with tileQueue := s.tileQueue.filter (fun t => t.1 ≠ k) }.stopCapture (fun n => decide (n = k))
      let s := match p.slot with
        | some i => s.dropCurrent i
        | none => s
      let mine := (s.ledger m).grants.filter (fun g : Grant => g.picture = k)
      let s := if mine.isEmpty then s else s.ledgerDo m (fun l =>
        { l with pend := l.pend - sumNat (mine.map (·.amount)), grants := l.grants.filter (fun g => g.picture ≠ k) })
      s.modPic k (fun p => { p with dropped := some 2, slot := none, refs := [], tilesOut := []
                                    nextBand := if p.opened then tilesY (s.active unitCode) else p.nextBand })

/-- CLOSE_PICTURE (R25, R67, R83, R85, R144, R159). -/
def State.closePicture (s : State) : State := s.takeLedgers.foldl (fun s m => s.closeIn m) s

def execClosePicture (s : State) : Host.Outcome State Fault Refusal := .next s.closePicture

/-! ### The spill area (R154, R157) -/

/-- A mirror's spilled units that neither port still holds leave the spill area (R157). -/
def State.settleSpill (s : State) (m : Fin 2) : State :=
  let inside : LogUnit → LogUnit → Bool := fun u x => decide (u.addr ≤ x.addr) && decide (x.addr < u.addr + u.bytes.length)
  let held : LogUnit → Bool := fun u => [0, 1].any (fun k : Fin 2 => decide ((s.mag k).st = .ready) &&
    ((s.log k).units.any (inside u) || (s.mag k).cmds.any (fun x => match x.purpose with
      | .write y _ => inside u y
      | _ => false)))
  let l := s.ledger m
  let rest := l.spill.filter (fun u => !u.given || held u)
  if rest.length = l.spill.length then s
  else
    let s := s.modLedger m (fun l => { l with spill := rest })
    if rest = [] then s.ledgerEvent m 4 else s

/-- The first spilled unit not yet given leaves when pending bytes allow (R154). -/
def State.drainSpill (s : State) (m : Fin 2) : State :=
  let l := s.ledger m
  match l.spill.find? (fun u => !u.given) with
  | none => s
  | some u =>
    let pend := s.ledgerPending m
    if pend = 0 ∨ pend + u.bytes.length ≤ l.sz.pendMax then
      let own : Fin 2 → LogUnit := fun k => { u with bytes := if k = 1 then u.other.getD u.bytes else u.bytes, other := none }
      let s := (s.magsOf m).foldl (fun s k => s.modLog k (fun g => { g with units := g.units ++ [own k] })) s
      if s.arrangement = 1 then
        s.modLedger m (fun l => { l with spill := l.spill.map (fun x => if x = u then { x with given := true } else x) })
      else
        let rest := l.spill.drop 1
        let s := s.modLedger m (fun l => { l with spill := rest })
        if rest = [] then s.ledgerEvent m 4 else s
    else s

/-- SPILL_DRAIN (R154, R157). -/
def execSpillDrain (m : Fin 2) (s : State) : Host.Outcome State Fault Refusal := .next (s.drainSpill m)

end Sys2Proof.Machine
end

