-- ==== Sys2Proof/Machine/Sensor.lean ====
section
/-! DEFINITION. The sensor port (R463-R478): link training, the judging of packets, pictures, the ingress ring, and the takeover of
setup banks at a picture boundary (R292). -/

namespace Sys2Proof.Machine

/-! ### SNS fields (R476) and geometry -/

def State.snsEnabled (s : State) (k : Nat) : Bool := natBit (s.cfg unitSns 16 1) k
def State.snsLanes (s : State) (k : Nat) : Nat := if s.snsEnabled k then s.cfg unitSns (17 + k) 1 else 0
def State.ringBase (s : State) : Nat := s.cfg unitSns 24 8
def State.ringPics (s : State) : Nat := s.cfg unitSns 32 1
/-- Parcels of a picture (R474). -/
def parcelsN (c : List Byte) : Nat := tilesX c * codeHeight c * codeExposures c
/-- Bytes of a ring slot (R474). -/
def ringSlotBytes (c : List Byte) : Nat := roundUp (parcelsN c * 528) 4096
/-- First byte of ring slot `j`. -/
def State.ringAddr (s : State) (j : Nat) : Nat := s.ringBase + j * ringSlotBytes (s.active unitCode)

/-- Ring slot `j` is in use (R475): the picture at the port, a recorded picture with tiles to hand over, or a stream's picture. -/
def State.ringBusy (s : State) (j : Nat) : Bool :=
  (match s.sns.pic with
   | some x => decide (x.slot = some j)
   | none => false) ||
  s.take.pics.any (fun p : Picture => decide (p.ring = j) && p.dropped.isNone && !s.allFinal p) ||
  (upFrom 0 4).any (fun m => (vgetN Stream.atReset s.streams m).all.any (fun x : StreamPic => decide (x.slot = some j)))

def State.modSns (s : State) (f : Sensor → Sensor) : State := { s with sns := f s.sns }
def State.snsLink (s : State) (k : Fin 4) : SnsLink := vget s.sns.links k
def State.modLink (s : State) (k : Fin 4) (f : SnsLink → SnsLink) : State := s.modSns (fun x => { x with links := vmod x.links k f })

/-- Event 132 + i (R477, R478). -/
def State.snsEvent (s : State) (i : Nat) : State := (s.orReg rSnsStat (BitVec.twoPow 32 i)).raise (132 + i)

/-! ### Pictures that enter the take -/

/-- A picture number is consumed: the picture enters the take's list (R63, R470). -/
def State.addPicture (s : State) (ring : Nat) (ptp : DWord) (info : List Byte) (dropped : Option Nat) : State :=
  s.modTake (fun t => { t with nextPic := t.nextPic + 1, began := true, pics := t.pics ++
    [{ number := t.nextPic, ring := ring, ptp := ptp, info := info, refs := [], slot := none, ended := dropped.isSome,
       dropped := dropped, opened := false, nextBand := 0, floorBands := [], tilesOut := [], units := [], charged := [],
       recordAddr := 0, spilled := false, old := 0, closing := false, overrun := [] }] })

/-- A number consumed without parcels: dropped with reason 2; its time is that of its consumption (R470, R473). -/
def State.addDropped (s : State) : State := s.addPicture 0 s.clk.ns [] (some 2)

/-- The take records: picture 0 has begun and the take rolls (R280). -/
def State.recording (s : State) : Bool := decide (s.take.st = .rolling) && s.take.began

/-! ### The end of a picture (R472, R473) -/

/-- First lost parcel as SNS_LAST_LOST holds it (R478). -/
def lostWord (c : List Byte) (q : Nat) : Word :=
  BitVec.ofNat 32 (q / tilesX c % codeHeight c + 16384 * (q / tilesX c / codeHeight c) + 65536 * (q % tilesX c))

/-- The streams that code this picture take it up, after the takeovers of its boundary (R163, R178); one without a line has only its end. Its RTP
time is then that of the end declaration: R471 defines ptp_time by the first parcel alone (DESIGN CHOICE, log entry 100). -/
def State.streamsBegin (s : State) (slot : Option Nat) : State :=
  let c := s.sns.delivered
  let new : StreamPic := { slot := slot, base := s.ringAddr (slot.getD 0), ptp := s.clk.ns, ended := false, old := 0, times := [], endAt := 0 }
  let v := (upFrom 0 4).foldl (fun v m => vmodN v m (fun x =>
    if decide (c % (Nat.max 1 (s.cfg (unitPxy m) 20 1)) = 0) then
      (if x.run then { x with pics := x.pics ++ [new] } else if x.again.isSome then { x with later := x.later ++ [new] } else x)
    else x)) s.streams
  { s with streams := v }.modSns (fun x => { x with delivered := x.delivered + 1 })

/-- The streams learn that the picture has ended (R177). -/
def State.streamsEnded (s : State) : State :=
  { s with streams := (upFrom 0 4).foldl (fun v m =>
      vmodN v m (fun x => x.mapPics (fun p => if p.ended then p else { p with ended := true, endAt := s.clk.fab }))) s.streams }

/-- What an end means for the take (R473). -/
def State.snsOutcome (s : State) (x : SnsPicture) (complete : Bool) : State :=
  if x.recorded then
    if complete then s.modPic x.number.toNat (fun p => { p with ended := true })
    else (s.sensorDrop x.number.toNat).modPic x.number.toNat (fun p => { p with ended := true })
  else if s.recording && x.slot.isSome && x.parcels.isEmpty then s.addDropped
  else s

/-- The picture at the port ends (R472). -/
def State.snsEnd (s : State) : State :=
  match s.sns.pic with
  | none => s
  | some x =>
    let c := s.active unitCode
    let lost := (upFrom 0 (parcelsN c)).find? (fun q => !x.parcels.contains q)
    let s := if x.parcels.isEmpty then s.streamsBegin none else s
    let s := (s.modSns (fun y => { y with pic := none })).streamsEnded
    let s := match lost with
      | some q => if x.slot.isSome then
          ((s.bump rSnsPicIncomplete 1).setReg rSnsLastLost (lostWord c q)).snsEvent 3
        else s
      | none => s
    s.snsOutcome x (x.slot.isSome && lost.isNone)

/-! ### Links (R463-R466) -/

/-- A link changes state: source 128 + k (R477). -/
def State.snsSet (s : State) (k : Fin 4) (st : SnsLinkState) : State :=
  if (s.snsLink k).st = st then s else (s.modLink k (fun x => { x with st := st })).raise (128 + k.1)

/-- A link goes DOWN (R466, R472): DROPPED from UP, and the picture in progress ends. -/
def State.snsDown (s : State) (k : Fin 4) : State :=
  let s := if (s.snsLink k).st = .up then s.orReg (rSnsLinkStat k.1) 8 else s
  (s.snsSet k .down).snsEnd

/-- The lanes not retired (R463). -/
def State.serviceLanes (s : State) : List Nat := (upFrom 0 52).filter (fun n => !(s.reg64 rSnsRetired).getLsbD n)

/-- Position `i` of link `k` by R463. -/
def State.snsLane (s : State) (k i : Nat) : Nat := nth 0 s.serviceLanes (sumNat ((upFrom 0 k).map s.snsLanes) + i)

/-- The lane assignment of link `k` is made (R463). -/
def State.snsAssign (s : State) (k : Fin 4) : State :=
  s.modLink k (fun x => { x with first := if s.snsEnabled k.1 then s.snsLane k.1 0 else 0, lanes := s.snsLanes k.1 })

/-- The links after an SNS takeover or the loss of the bank: an UP link whose lanes change, or that is not enabled, goes DOWN. -/
def State.snsRelink (s : State) : State :=
  ([0, 1, 2, 3] : List (Fin 4)).foldl (fun s k =>
    let x := s.snsLink k
    let same := s.snsEnabled k.1 && decide (x.lanes = s.snsLanes k.1) && decide (x.first = s.snsLane k.1 0)
    (if same then s else s.snsDown k).snsAssign k) s

/-- SENSOR_DOWN_WAIT (R466): 1 ms in DOWN have passed; the assignment of this training is made (R463). -/
def execSensorDownWait (k : Fin 4) (s : State) : Host.Outcome State Fault Refusal :=
  .next (if (s.snsLink k).st = .down ∧ s.snsEnabled k.1 ∧ (s.dom 7).st = .on then (s.snsAssign k).snsSet k .equalize else s)

/-- What Bellhouse makes of a sensor eye height (R515, R517). -/
def State.snsEye (s : State) (eye : Byte) (lane : Nat) : State :=
  let s := if eye.toNat < 20 then s.threshold else s
  if eye.toNat < 15 then s.propose 3 lane 3 eye.toNat else s

/-- SENSOR_EQUALIZE_DONE (R466, R478). -/
def execSensorEqualizeDone (k : Fin 4) (worstEye : Byte) (worstLane : Fin 52) (s : State) : Host.Outcome State Fault Refusal :=
  .next (if (s.snsLink k).st = .equalize then
      ((s.modLink k (fun x => { x with worstEye := worstEye, worstLane := worstLane.1 })).snsSet k .align).snsEye worstEye worstLane.1
    else s)

/-- SENSOR_ALIGN_DONE (R464, R466). -/
def execSensorAlignDone (k : Fin 4) (skew : BitVec 9) (s : State) : Host.Outcome State Fault Refusal :=
  .next (if (s.snsLink k).st = .align then (s.modLink k (fun x => { x with skew := skew })).snsSet k .up else s)

/-- A lane fails (R515): twice within 24 h form a kind 3 proposal. The row names no lane: the worst of the last EQUALIZE (log entry 23). -/
def State.snsLaneFail (s : State) (lane : Nat) : State :=
  let again := s.ras.laneFails.any (fun p => p.1 = lane && s.clk.aon - p.2 ≤ dayCycles)
  let s := s.modRas (fun r => { r with laneFails := r.laneFails ++ [(lane, s.clk.aon)] })
  if again then s.propose 3 lane 5 2 else s

/-- SENSOR_TRAIN_TIMEOUT (R466): a bound exceeded, block lock or the MARKER check failed. -/
def execSensorTrainTimeout (k : Fin 4) (s : State) : Host.Outcome State Fault Refusal :=
  .next (if (s.snsLink k).st = .equalize ∨ (s.snsLink k).st = .align then
      ((s.orReg (rSnsLinkStat k.1) 4).snsDown k).snsLaneFail (s.snsLink k).worstLane
    else s)

/-- SENSOR_LINK_LOSS (R466, R472). -/
def execSensorLinkLoss (k : Fin 4) (s : State) : Host.Outcome State Fault Refusal :=
  .next (if (s.snsLink k).st = .up then s.snsDown k else s)

/-! ### Takeover of setup banks (R17, R291, R292) -/

/-- Some work of an earlier boundary is still in progress for unit `u`. -/
def State.oldWork (s : State) (u : Nat) : Bool :=
  s.take.pics.any (fun p : Picture => p.old.getLsbD u) ||
    (upFrom 0 4).any (fun m => (vgetN Stream.atReset s.streams m).all.any (fun p : StreamPic => p.old.getLsbD u))

/-- What the VPS, SPS, PPS and HRD carry of a PXY record (R178, R298): profile, tier, level, CTU size, cbr_flag, VUI, output size, rates
and DECIM. -/
def pxySignalled (b : List Byte) : List Byte :=
  (b.drop 20).take 1 ++ (b.drop 23).take 8 ++ (b.drop 40).take 4 ++ (b.drop 48).take 16

/-- A takeover of stream `m`'s set (R178): its earlier pictures keep the old one; a stream enabled starts afresh with an IDR picture, once the access
unit it may still be completing has ended; one disabled ends, one whose signalled fields change restarts. -/
def State.streamTakeover (s : State) (m : Nat) (was now : List Byte) : State :=
  let x := vgetN Stream.atReset s.streams m
  let on := leAt now 16 1 = 1
  let seq := BitVec.ofNat 16 (leAt now 76 2)
  let y := if !decide on then x.stop
    else if x.run then { x with restart := x.restart || decide (pxySignalled was ≠ pxySignalled now) }
    else if x.eob then { x with again := some seq, later := [] }
    else Stream.begin seq []
  let s := if decide on && !x.run then (s.setReg (rPxyStrCpbLow m) 0xFFFFFFFF).setReg (rPxyStrLatMax m) 0 else s
  { s with streams := vsetN s.streams m y }

/-- Proxy work of earlier boundaries stays with the set that unit `u` gives up: a stream's own (R178), and those of NET and SLU, whose packets they
are (R292). -/
def State.ageStreams (s : State) (u : Nat) : State :=
  { s with streams := (upFrom 0 4).foldl (fun v m =>
      if u = unitPxy m ∨ u = 9 ∨ u = 11 then vmodN v m (fun x => x.mapPics (fun p => { p with old := p.old ||| BitVec.twoPow 14 u })) else v) s.streams }

/-- A ready bank is taken over: the set it replaces retires, governing what began before (R292). -/
def State.takeBank (s : State) (u : Nat) : State :=
  let b := vgetN Bank.empty s.banks u
  if !b.ready then s
  else
    let s := s.modTake (fun t => { t with pics := t.pics.map (fun p : Picture => { p with old := p.old ||| BitVec.twoPow 14 u }) })
    let s := s.ageStreams u
    let s := if 5 ≤ u ∧ u < 9 then s.streamTakeover (u - 5) ((b.active.map (·.bytes)).getD []) ((b.shadow.map (·.bytes)).getD []) else s
    { s with banks := vsetN s.banks u { shadow := none, ready := false, active := b.shadow,
                                        retiring := if s.oldWork u then b.active else none } }

/-- CIS takeover (R355, R357): the extensions now in effect, and the events of a shared count that falls with it (R348). -/
def State.cisTakeover (s old : State) : State :=
  let t := { s with cis := { s.cis with
      extBase := (upFrom 0 6).foldl (fun v p => vsetN v p (s.extBase p)) s.cis.extBase
      extCount := (upFrom 0 6).foldl (fun v p => vsetN v p (s.extCount p)) s.cis.extCount } }
  t.cisNotices old

/-- MC takeover (R338): DRAM contents do not survive a change of grain (log entry 1). -/
def State.mcTakeover (s : State) : State :=
  let g := s.cfg unitMc 16 1
  if g = s.mc.grainLog2 then s else { s with mc := { s.mc with grainLog2 := g }, dram := s.dram.lose { s.lossOf 0 with whole := true } }

/-- SNS takeover (R463, R474): the ring is new and the links take their lanes. -/
def State.snsTakeover (s : State) : State := (s.snsEnd.modSns (fun x => { x with nextSlot := 0 })).snsRelink

/-- The port's link goes up or down (R494). -/
def State.ethLink (s : State) (k : Fin 2) (up : Bool) : State :=
  if vget s.ptp.linkUp k = up then s
  else ({ s with ptp := { s.ptp with linkUp := vset s.ptp.linkUp k up } }.orReg (rNetPortStat k.1) 2).raise (160 + 8 * k.1)

/-- NET takeover: a change of FEC retrains the port's link, which goes down until it is up again (R488). -/
def State.netTakeover (s : State) (was : Nat → Nat) : State :=
  [0, 1].foldl (fun s (k : Fin 2) => if was k.1 = s.cfg unitNet (32 + k.1) 1 then s else s.ethLink k false) s

/-- Every ready bank is taken over in one fabric cycle (R286, R292), with what its unit does at a takeover. -/
def State.takeBanks (s : State) : State :=
  let was := fun u => (vgetN Bank.empty s.banks u).ready
  let fec := fun k => s.cfg unitNet (32 + k) 1
  let s' := (upFrom 0 14).foldl (fun s u => s.takeBank u) s
  let s' := if was 9 then s'.netTakeover fec else s'
  let s' := if was 12 then s'.cisTakeover s else s'
  let s' := if was 13 then s'.mcTakeover else s'
  let s' := if (upFrom 4 8).any was then s'.sluTakeover else s'
  if was 0 then s'.snsTakeover else s'

/-- A picture boundary (R274, R292). -/
def State.boundary (s : State) (number : Word) : State := s.takeBanks.modTake (fun t => { t with takePic := number })

/-- BANK_RETIRE (R292): the retired set becomes the shadow bank, which nothing can read or commit before STREC writes it (R291). -/
def execBankRetire (u : Fin 14) (s : State) : Host.Outcome State Fault Refusal :=
  .next (if (vgetN Bank.empty s.banks u.1).retiring.isSome && !s.oldWork u.1 then
      { s with banks := vmodN s.banks u.1 (fun b => { b with retiring := none }) }
    else s)

/-! ### Line coding (R465) -/

/-- A step of the additive scrambler or sequence x^(n) + x^(k) + 1 in an n-bit register: the new bit, shifted in at the bottom (log entry 112). -/
def polyStep {n : Nat} (k : Nat) (x : BitVec n) : BitVec n := (x <<< 1) ||| (if x.getLsbD (n - 1) ^^ x.getLsbD (k - 1) then 1 else 0)

/-- The next `m` bits of it, first bit first, and the register after them. -/
def polyBits {n : Nat} (k : Nat) (x : BitVec n) : Nat → List Bool × BitVec n
  | 0 => ([], x)
  | m + 1 =>
    let y := polyStep k x
    let r := polyBits k y m
    (y.getLsbD 0 :: r.1, r.2)

/-- A 66-bit block: its sync header and its 64 bits, least significant bit first (R465). -/
structure SnsBlock where
  sync : BitVec 2
  data : DWord
deriving DecidableEq, Repr

/-- The kinds of blocks (R465). -/
inductive SnsBlockKind where
  | data | idle | start | marker | train | invalid
deriving DecidableEq, Repr

/-- What a received block is: its sync header, then control byte 0 (R465). -/
def SnsBlock.kind (b : SnsBlock) : SnsBlockKind :=
  if b.sync = 1 then .data
  else if b.sync ≠ 2 then .invalid
  else match (b.data.extractLsb' 0 8).toNat with
    | 0x1E => .idle
    | 0x78 => .start
    | 0xC3 => .marker
    | 0x55 => .train
    | _ => .invalid

/-- The scrambler of a lane after `n` data blocks, from its seed of all ones XOR the lane's position (R465). -/
def snsScrambler (position : Nat) : Nat → BitVec 58
  | 0 => BitVec.allOnes 58 ^^^ BitVec.ofNat 58 position
  | n + 1 => (polyBits 39 (snsScrambler position n) 64).2

/-- Data block `n` of a lane as it is sent or, the scrambler being additive, as it is received; control blocks are not scrambled (R465). -/
def SnsBlock.scrambled (b : SnsBlock) (position n : Nat) : SnsBlock :=
  if b.sync = 1 then
    { b with data := b.data ^^^ BitVec.ofNat 64 (sumNat ((((polyBits 39 (snsScrambler position n) 64).1).zip (upFrom 0 64)).map (fun p =>
        if p.1 then 2 ^ p.2 else 0))) }
  else b

/-- A control block of eight bytes (R465). -/
def controlBlock (b : List Byte) : SnsBlock := { sync := 2, data := BitVec.ofNat 64 (leNat b) }
/-- START of a packet of `n` words on link `k` (R465). -/
def startBlock (n k : Nat) : SnsBlock := controlBlock ([0x78] ++ leBytes 2 n ++ leBytes 1 k)
/-- The MARKER of a position of link `k` with this number of lanes (R465). -/
def markerBlock (k position lanes : Nat) : SnsBlock :=
  controlBlock ([0xC3, BitVec.ofNat 8 k, BitVec.ofNat 8 position, BitVec.ofNat 8 lanes, 0x3C, 0x3C, 0x3C, 0x3C])
/-- A TRAIN block with the next 56 bits of a lane's PRBS31, and the sequence after them (R465). -/
def trainBlock (x : BitVec 31) : SnsBlock × BitVec 31 :=
  let r := polyBits 28 x 56
  (controlBlock (0x55 :: leBytes 7 (sumNat ((r.1.zip (upFrom 0 56)).map (fun p => if p.1 then 2 ^ p.2 else 0)))), r.2)

/-- The code words of a packet as bytes: 16 data bytes, then 2 check bytes, each least significant byte first (R467). -/
def packetBytes (ws : List CodeWord) : List Byte := ws.flatMap (fun w => leBytes 16 w.data.toNat ++ leBytes 2 w.chk.toNat)

/-- The blocks of a packet: START, then its bytes in data blocks, the last padded with zeros (R467). -/
def packetBlocks (p : SnsPacket) : List SnsBlock :=
  let b := packetBytes p.words
  startBlock p.n.toNat p.startLink.toNat :: (upFrom 0 (ceilDiv b.length 8)).map (fun i => { sync := 1, data := BitVec.ofNat 64 (leAt b (8 * i) 8) })

/-- The position on which block `i` of a link's sequence goes: the blocks are dealt in turn, MARKERs not counted (R465). -/
def dealt (lanes i : Nat) : Nat := i % Nat.max 1 lanes

/-- The MARKER check of ALIGN and UP: link, position and LINK_LANES agree with the assignment (R465, R466). -/
def State.markerFits (s : State) (k : Fin 4) (position : Nat) (b : SnsBlock) : Bool :=
  decide (b = markerBlock k.1 position (s.snsLink k).lanes)

/-! ### Packets (R467-R469) -/

def snsData (p : SnsPacket) : List Byte := p.words.flatMap (fun w => wordBytes (readCode w).1)
def snsVerdicts (p : SnsPacket) : List Verdict := p.words.map (fun w => (readCode w).2)
def pktType (p : SnsPacket) : Nat := leAt (snsData p) 0 1
def pktExp (p : SnsPacket) : Nat := leAt (snsData p) 1 1
def pktCountPic (p : SnsPacket) : Nat := leAt (snsData p) 2 2
def pktRow (p : SnsPacket) : Nat := leAt (snsData p) 4 2
def pktCol (p : SnsPacket) : Nat := leAt (snsData p) 6 2
def pktCount (p : SnsPacket) : Nat := leAt (snsData p) 8 2

/-- Why a packet is discarded (R469). -/
inductive SnsFail where
  | crc | malformed | duplicate
deriving DecidableEq, Repr

/-- Step 1 (R469): every word good and the trailer's crc agrees. -/
def crcOk (p : SnsPacket) : Bool :=
  let d := snsData p
  let m := 16 * (p.words.length - 1)
  (snsVerdicts p).all (fun v => !v.bad) && decide (leAt d m 4 = (crcBytes 0xFFFFFFFF (d.take m) ^^^ 0xFFFFFFFF).toNat)

/-- The LINE's own fields are in range (R467, R468). -/
def lineFields (c : List Byte) (p : SnsPacket) : Bool :=
  let n := pktCount p
  let e := pktCol p + n
  decide (p.n.toNat = 2 + ceilDiv (n * codeDepth c) 128) && decide (pktRow p < codeHeight c) && decide (pktExp p < codeExposures c) &&
    decide (pktCol p % 256 = 0) && decide (16 ≤ n) && decide (n ≤ 16384) && decide (n % 16 = 0) && decide (e ≤ codeWidth c) &&
    (decide (e = codeWidth c) || decide (e % 256 = 0))

/-- The lowest-numbered enabled link (R468). -/
def State.firstLink (s : State) : Option (Fin 4) := [0, 1, 2, 3].find? (fun k : Fin 4 => s.snsEnabled k.1)

/-- Step 2 (R469): the packet is well formed. -/
def State.snsFormed (s : State) (p : SnsPacket) : Bool :=
  let ours := match s.sns.pic with
    | some x => decide (x.countPic.toNat = pktCountPic p)
    | none => false
  decide (p.startLink.toNat = p.link.1) && decide (pktExp p < 2) && decide (leAt (snsData p) 10 6 = 0) &&
    (match pktType p with
     | 1 => decide (p.n = 5) && decide (s.firstLink = some p.link)
     | 2 => ours && lineFields (s.active unitCode) p
     | 3 => ours && decide (p.n = 2) && s.snsEnabled p.link.1
     | _ => false)

/-- The parcels q of a LINE, with their tile columns (R474). -/
def State.lineParcels (s : State) (p : SnsPacket) : List (Nat × Nat) :=
  (upFrom (pktCol p / 256) (ceilDiv (pktCount p) 256)).map (fun tx => (tx, parcelIx (s.active unitCode) tx (pktRow p) (pktExp p)))

/-- Step 3 (R469): some parcel of the LINE has been accepted already (log entry 24). -/
def State.snsDup (s : State) (p : SnsPacket) : Bool :=
  match s.sns.pic with
  | some x => pktType p = 2 && (s.lineParcels p).any (fun a => x.parcels.contains a.2)
  | none => false

/-- The first failure of a packet, in the order of R469. -/
def State.snsJudge (s : State) (p : SnsPacket) : Option SnsFail :=
  if p.n.toNat < 2 then some .malformed
  else if !crcOk p then some .crc
  else if !s.snsFormed p then some .malformed
  else if s.snsDup p then some .duplicate
  else none

/-- SNS_WORD_CORR and SNS_WORD_UNCORR (R469); no word is read of a packet that announces none. -/
def State.snsWords (s : State) (p : SnsPacket) : State :=
  if p.n.toNat < 2 then s
  else
    let vs := snsVerdicts p
    (s.bump rSnsWordCorr (vs.filter (·.corrected)).length).bump rSnsWordUncorr (vs.filter (· = .uncorr)).length

/-- A failed packet is discarded, and the first failure is counted (R469, R477). -/
def State.snsDiscard (s : State) (p : SnsPacket) (f : SnsFail) : State :=
  let s := s.snsWords p
  match f with
  | .crc => (s.bump rSnsPktCrc 1).snsEvent 0
  | .malformed => s.snsEvent 1
  | .duplicate => s.snsEvent 2

/-! ### PICTURE_START (R470) -/

/-- The picture numbers that a jump of count_pic consumes while the take records, and whether it raises the gap event. -/
def gapOf (prev : Option Half) (count : Nat) : Nat × Bool :=
  match prev with
  | none => (0, false)
  | some v =>
    let g := (count + 65536 - v.toNat) % 65536
    (if 2 ≤ g ∧ g ≤ 32767 then g - 1 else 0, decide (g ≠ 1))

/-- Tag flags of a ring slot are cleared before it is reserved (R475). -/
def State.clearTags (s : State) (j : Nat) : State :=
  let n := parcelsN (s.active unitCode)
  (upFrom 0 n).foldl (fun s q => s.poke (s.ringAddr j + 512 * n + 16 * q + 12) [0]) s

/-- A picture begins (R470). -/
def State.snsBegin (s : State) (p : SnsPacket) : State :=
  let s := s.snsEnd.bump rSnsPics 1
  let d := snsData p
  let c := s.active unitCode
  let geo := decide (leAt d 16 2 = codeWidth c) && decide (leAt d 18 2 = codeHeight c) && decide (leAt d 20 1 = codeDepth c) &&
    decide (leAt d 21 1 = codePeriod c) && decide (leAt d 22 1 = codeExposures c)
  let j := s.sns.nextSlot
  let slot := if geo && !s.ringBusy j then some j else none
  let g := gapOf s.sns.prevCount (pktCountPic p)
  let s := if g.2 then s.snsEvent 7 else s
  let s := if s.recording then (upFrom 0 g.1).foldl (fun s _ => s.addDropped) s else s
  let s := match slot with
    | some j => (s.clearTags j).modSns (fun x => { x with nextSlot := (j + 1) % Nat.max 1 s.ringPics })
    | none =>
      let s := (s.bump rSnsPicDiscarded 1).snsEvent (if geo then 6 else 5)
      if s.recording then s.addDropped else s
  let new : SnsPicture := { number := 0xFFFFFFFF, recorded := false, countPic := BitVec.ofNat 16 (pktCountPic p), slot := slot,
                            info := (d.drop 32).take 32, ends := [], parcels := [], ptp := none }
  s.modSns (fun x => { x with prevCount := some new.countPic, pic := some new })

/-! ### LINE (R471, R292, R309) -/

/-- The first parcel is the picture boundary: ready banks are taken over, the time is noted, and while the take rolls the picture
is numbered (R63, R280, R292, R308). -/
def State.firstParcel (s : State) (x : SnsPicture) : State × SnsPicture :=
  let rec0 := decide (s.take.st = .rolling)
  let number : Word := if rec0 then BitVec.ofNat 32 s.take.nextPic else 0xFFFFFFFF
  let x := { x with number := number, recorded := rec0, ptp := some s.clk.ns }
  let s := (s.boundary number).streamsBegin x.slot
  (if rec0 then s.addPicture (x.slot.getD 0) s.clk.ns x.info none else s, x)

/-- Photosite `i` of a LINE: `depth` bits, most significant first, packed continuously (R468). -/
def linePhotosite (depth : Nat) (payload : List Byte) (i : Nat) : Half :=
  let o := i * depth
  let w := (payload.drop (o / 8)).take 3
  let v := (nth 0 w 0).toNat * 65536 + (nth 0 w 1).toNat * 256 + (nth 0 w 2).toNat
  BitVec.ofNat 16 (v / 2 ^ (24 - depth - o % 8) % 2 ^ depth)

/-- One parcel is filed: its photosites, its check value and its tag (R309, R471, R474). -/
def State.fileParcel (s : State) (x : SnsPicture) (p : SnsPacket) (j tx q : Nat) : State :=
  let c := s.active unitCode
  let col := 256 * tx
  let w := Nat.min 256 (codeWidth c - col)
  let payload := (snsData p).drop 16
  let bytes := (upFrom (col - pktCol p) w).flatMap (fun i => leBytes 2 (linePhotosite (codeDepth c) payload i).toNat)
  let t := pktRow p / 64 * tilesX c + tx
  let chk := checkValue s.take.deviceId.toNat t x.number.toNat bytes
  let tag := leBytes 4 x.number.toNat ++ leBytes 2 t ++ leBytes 1 (pktRow p % 64) ++ leBytes 1 (pktExp p) ++ leBytes 4 chk.toNat ++
    [1, 0, 0, 0]
  (s.poke (s.ringAddr j + 512 * q) (bytes ++ List.replicate (512 - 2 * w) 0)).poke (s.ringAddr j + 512 * parcelsN c + 16 * q) tag

/-- The streams note when line `y` of exposure `e` is complete (R183). -/
def State.noteLine (s : State) (x : SnsPicture) (y e : Nat) : State :=
  let c := s.active unitCode
  if !(upFrom 0 (tilesX c)).all (fun tx => x.parcels.contains (parcelIx c tx y e)) then s
  else
    { s with streams := (upFrom 0 4).foldl (fun v m => if s.cfg (unitPxy m) 19 1 = e then
        vmodN v m (fun z => z.mapPics (fun p =>
          if p.slot = x.slot ∧ !p.ended then { p with times := mapSet (fun _ => 0) p.times y s.clk.fab } else p))
      else v) s.streams }

/-- An accepted LINE (R471); a discarded picture has no lines (R473). -/
def State.snsLine (s : State) (p : SnsPacket) : State :=
  match s.sns.pic with
  | none => s
  | some x =>
    match x.slot with
    | none => s
    | some j =>
      let r := if x.parcels.isEmpty then s.firstParcel x else (s, x)
      let ps := s.lineParcels p
      let s := ps.foldl (fun s a => s.fileParcel r.2 p j a.1 a.2) r.1
      let x' : SnsPicture := { r.2 with parcels := r.2.parcels ++ ps.map (·.2) }
      (s.modSns (fun y => { y with pic := some x' })).noteLine x' (pktRow p) (pktExp p)

/-! ### PICTURE_END (R472) -/

def State.snsPictureEnd (s : State) (p : SnsPacket) : State :=
  match s.sns.pic with
  | none => s
  | some x =>
    let ends := x.ends ++ [p.link]
    let x' : SnsPicture := { x with ends := ends }
    let s := s.modSns (fun y => { y with pic := some x' })
    if ([0, 1, 2, 3] : List (Fin 4)).all (fun k => !s.snsEnabled k.1 || ends.contains k) then s.snsEnd else s

/-! ### The commands -/

/-- A packet arrives on an UP link: judged under R469; `effect` when it is an accepted one of type `want`. -/
def State.snsPacket (s : State) (p : SnsPacket) (want : Nat) (effect : State → State) : State :=
  if (s.snsLink p.link).st ≠ .up then s
  else match s.snsJudge p with
    | some f => s.snsDiscard p f
    | none => if pktType p = want then effect ((s.snsWords p).bump (rSnsLinkPkts p.link.1) 1) else s

/-- PICTURE_START (R470). -/
def execPictureStart (p : SnsPacket) (s : State) : Host.Outcome State Fault Refusal := .next (s.snsPacket p 1 (fun s => s.snsBegin p))

/-- LINE (R471). -/
def execLine (p : SnsPacket) (s : State) : Host.Outcome State Fault Refusal := .next (s.snsPacket p 2 (fun s => s.snsLine p))

/-- PICTURE_END (R472). -/
def execPictureEnd (p : SnsPacket) (s : State) : Host.Outcome State Fault Refusal := .next (s.snsPacket p 3 (fun s => s.snsPictureEnd p))

/-- PIC_TIMEOUT (R472). -/
def execPicTimeout (s : State) : Host.Outcome State Fault Refusal := .next (if s.sns.pic.isSome then (s.snsEvent 4).snsEnd else s)

/-- SENSOR_PACKET_DISCARDED (R469): a packet that passes is none. -/
def execSensorPacketDiscarded (p : SnsPacket) (s : State) : Host.Outcome State Fault Refusal := .next (s.snsPacket p 0 (fun s => s))

end Sys2Proof.Machine
end

