-- ==== Sys2Proof/Machine/Magazine.lean ====
section
/-! DEFINITION. The magazine ports (R479-R487, R492): port states, controller initialisation, eject, and the NVMe commands of the take
log. NVMe opcodes, the status field and the Identify layout are NVMe 2.0's (log entry 25). -/

namespace Sys2Proof.Machine

/-! ### Events and the take -/

/-- Source 158 + m (R492). -/
def State.magEvent (s : State) (m : Fin 2) (cause status info : Nat) : State := s.raiseRec (158 + m.1) cause status 0xFFFF 0xFFFFFFFF info

/-- A take uses the magazine from ARM until CLOSE (R481). -/
def State.usesMag (s : State) (m : Fin 2) : Bool := s.hasActive unitLog && s.takeMags.contains m

/-- The magazine link loss of R282 (R487). -/
def State.magLoss (s : State) (m : Fin 2) : State := if s.usesMag m && s.takeActive then s.faultTake 3 stTimeout else s

/-- The port leaves service: outstanding commands are lost (R487). -/
def State.magDown (s : State) (m : Fin 2) (st : MagState) : State :=
  (s.modMag m (fun p => { p with st := st, cmds := [], waitSince := none, flushDue := [], dsmTodo := [] })).magLoss m

/-- Power and reference go: the gate is off and PERST# low (R480, R481). -/
def State.magPowerOff (s : State) (m : Fin 2) : State :=
  s.modMag m (fun p => { p with gate := false, perstN := false, refclk := false, speed := 0, width := 0, ioq := 0, qdepth := 0 })

/-! ### Commands to the controller (R483) -/

def opDeleteSq : Nat := 0x00
def opCreateSq : Nat := 0x01
def opDeleteCq : Nat := 0x04
def opCreateCq : Nat := 0x05
def opIdentify : Nat := 0x06
def opSetFeatures : Nat := 0x09
def opFlush : Nat := 0x00
def opWrite : Nat := 0x01
def opRead : Nat := 0x02
def opDsm : Nat := 0x09

/-- A command is submitted on a queue. -/
def State.nvmeSubmit (s : State) (m : Fin 2) (q op : Nat) (nsid : Word) (slba nlb bytes : Nat) (why : NvmePurpose) : State :=
  s.modMag m (fun p =>
    { p with nextCid := p.nextCid + 1
             cmds := p.cmds ++ [{ cid := p.nextCid, order := p.nextCid, queue := q, opcode := BitVec.ofNat 8 op, nsid := nsid, slba := slba, nlb := nlb,
                                  bytes := bytes, tries := 0, purpose := why }] })

def State.nvmeAdmin (s : State) (m : Fin 2) (op : Nat) (why : NvmePurpose) : State := s.nvmeSubmit m 0 op 0 0 0 0 why

/-- Free entries of I/O queue `q`: a queue of n entries holds n − 1 (log entry 25). -/
def MagPort.room (p : MagPort) (q : Nat) : Nat := p.qdepth - 1 - (p.cmds.filter (fun c => c.queue = q)).length

/-- Bytes of one data command at most: min(MDTS, 1 MiB) (R486). -/
def MagPort.maxBytes (p : MagPort) : Nat := if p.mdts = 0 then 1048576 else Nat.min (4096 * 2 ^ p.mdts) 1048576

/-! ### Port states (R480) -/

/-- MAG_PRESENCE_STABLE (R480). -/
def execMagPresenceStable (m : Fin 2) (s : State) : Host.Outcome State Fault Refusal :=
  .next (if (s.mag m).st = .absent ∧ (s.dom 8).st = .on then
      (s.modMag m (fun p => { p with st := .powering, present := true, gate := true, eject := .none })).bump (rMagInsertions m.1) 1
    else s)

/-- MAG_POWER_GOOD (R480). -/
def execMagPowerGood (m : Fin 2) (s : State) : Host.Outcome State Fault Refusal :=
  .next (if (s.mag m).st = .powering then s.modMag m (fun p => { p with st := .training, refclk := true }) else s)

/-- The port enters FAULT: gate off, PWR_FAULT, cause 3; with the power goes the link (R480, R487, R492). -/
def State.magFault (s : State) (m : Fin 2) : State :=
  (((s.magPowerOff m).orReg (rMagPortStat m.1) 0x2000).magEvent m 3 stLink 0).magDown m .fault

/-- MAG_POWER_TIMEOUT (R480). -/
def execMagPowerTimeout (m : Fin 2) (s : State) : Host.Outcome State Fault Refusal :=
  .next (if (s.mag m).st = .powering then s.magFault m else s)

/-- MAG_OVERCURRENT (R480). -/
def execMagOvercurrent (m : Fin 2) (s : State) : Host.Outcome State Fault Refusal :=
  .next (if (s.mag m).gate then s.magFault m else s)

/-- POWER_NOT_GOOD (R480): the ramp of POWERING is not good yet. -/
def execPowerNotGood (m : Fin 2) (s : State) : Host.Outcome State Fault Refusal :=
  .next (if (s.mag m).gate ∧ (s.mag m).st ≠ .powering then s.magFault m else s)

/-- MAG_PERST_RELEASE (R480). -/
def execMagPerstRelease (m : Fin 2) (s : State) : Host.Outcome State Fault Refusal :=
  .next (if (s.mag m).st = .training then s.modMag m (fun p => { p with perstN := true }) else s)

/-- The port enters FAILED with a cause (R480, R487, R492). -/
def State.magFail (s : State) (m : Fin 2) (cause status info : Nat) : State := (s.magEvent m cause status info).magDown m .failed

/-- INIT refuses the controller: REFUSED, FAILED, cause 8 (R482, R492). -/
def State.magRefuse (s : State) (m : Fin 2) (status info : Nat) : State :=
  (s.orReg (rMagPortStat m.1) 0x10000).magFail m 8 status info

/-- MAG_LINK_UP (R480, R482): the CAP checks, then EN is set. -/
def execMagLinkUp (m : Fin 2) (speed : Fin 8) (width : Fin 9) (nvmSet : Bool) (mpsMin mqes : Nat) (s : State) :
    Host.Outcome State Fault Refusal :=
  .next (if (s.mag m).st = .training ∧ (s.mag m).perstN then
      let s := s.modMag m (fun p => { p with st := .init, speed := speed.1, width := width.1, mqes := mqes, initStep := 2 })
      if !nvmSet ∨ 4096 < mpsMin then s.magRefuse m stNoresource 0 else s
    else s)

/-- MAG_LINK_TIMEOUT (R480): the cause is that of a link lost (log entry 26). -/
def execMagLinkTimeout (m : Fin 2) (s : State) : Host.Outcome State Fault Refusal :=
  .next (if (s.mag m).st = .training ∧ (s.mag m).perstN then s.magFail m 7 stLink 0 else s)

/-- MAG_LINK_LOST (R480, R487). -/
def execMagLinkLost (m : Fin 2) (s : State) : Host.Outcome State Fault Refusal :=
  .next (if (s.mag m).st = .ready ∨ (s.mag m).st = .init then
      (s.modMag m (fun p => { p with speed := 0, width := 0 })).magFail m 7 stLink 0
    else s)

/-- MAG_PRESENCE_LOST (R481, R487): from any state. -/
def execMagPresenceLost (m : Fin 2) (s : State) : Host.Outcome State Fault Refusal :=
  .next (if (s.mag m).st = .absent then s
    else (((s.magPowerOff m).modMag m (fun p => { p with present := false, eject := .none })).magEvent m 2 stLink 0).magDown m .absent)

/-- CLOSE restarts a FAILED port with a magazine present, but for one held after its eject (R480, R481). -/
def State.magReopen (s : State) (m : Fin 2) : State :=
  let p := s.mag m
  if p.st = .failed ∧ p.present ∧ p.eject = .none then
    ((s.magPowerOff m).modMag m (fun p => { p with st := .powering, gate := true })).bump (rMagInsertions m.1) 1
  else s

/-! ### Controller initialisation (R482) -/

/-- CONTROLLER_READY (R482, steps 2-4). -/
def execControllerReady (m : Fin 2) (s : State) : Host.Outcome State Fault Refusal :=
  .next (if (s.mag m).st = .init ∧ (s.mag m).initStep = 2 then
      (s.modMag m (fun p => { p with initStep := 4 })).nvmeAdmin m opIdentify .identify
    else s)

/-- CONTROLLER_READY_TIMEOUT (R482, R492). -/
def execControllerReadyTimeout (m : Fin 2) (s : State) : Host.Outcome State Fault Refusal :=
  .next (if (s.mag m).st = .init ∧ (s.mag m).initStep = 2 then s.magRefuse m stTimeout 0 else s)

/-- Step 7: 2n queue creations, completion queue first; then READY (R482). -/
def State.initQueues (s : State) (m : Fin 2) (done : Nat) : State :=
  let p := s.mag m
  if done < 2 * p.ioq then
    (s.modMag m (fun p => { p with initStep := 7 + done })).nvmeAdmin m (if done % 2 = 0 then opCreateCq else opCreateSq) .createQueues
  else (s.modMag m (fun p => { p with st := .ready, nextQueue := 2 })).magEvent m 1 stOk 0

/-- An admin command of INIT completes well; `data` is its result (R482). -/
def State.initNext (s : State) (m : Fin 2) (why : NvmePurpose) (data : List Byte) : State :=
  match why with
  | .identify =>
    (s.modMag m (fun p => { p with mdts := leAt data 77 1, vwc := natBit (leAt data 525 1) 0, initStep := 5 })).nvmeAdmin m
      opSetFeatures .setQueues
  | .setQueues =>
    let n := Nat.min (leAt data 0 2 + 1) (leAt data 2 2 + 1)
    if n < 2 then s.magRefuse m stNoresource 0
    else
      let s := s.modMag m (fun p => { p with ioq := Nat.min 16 n, qdepth := Nat.min 256 (p.mqes + 1), initStep := 6 })
      if (s.mag m).vwc then s.nvmeAdmin m opSetFeatures .setCache else s.initQueues m 0
  | .setCache => s.initQueues m 0
  | .createQueues => s.initQueues m ((s.mag m).initStep - 7 + 1)
  | _ => s

/-! ### Eject (R481) -/

/-- The next Delete command, submission queues first, or the shutdown notification when all have been deleted. -/
def State.ejectNext (s : State) (m : Fin 2) (done : Nat) : State :=
  let p := s.mag m
  if done < 2 * p.ioq then
    (s.modMag m (fun p => { p with eject := .deleting, initStep := done })).nvmeAdmin m (if done < p.ioq then opDeleteSq else opDeleteCq)
      .deleteQueues
  else s.modMag m (fun p => { p with eject := .shutdown })

/-- MAG_EJECT (R481). -/
def execMagEject (m : Fin 2) (s : State) : Host.Outcome State Fault Refusal :=
  .next (
    let s := (s.orReg (rMagPortStat m.1) 0x1000).magEvent m 6 stOk 0
    let p := s.mag m
    if s.usesMag m ∨ p.eject ≠ .none ∨ p.st = .absent ∨ p.st = .fault then s
    else if p.st = .ready then (s.modMag m (fun p => { p with cmds := [] })).ejectNext m 0
    else s.modMag m (fun p => { p with eject := .shutdown, cmds := [] }))

/-- PERST#, gate off, FAILED until presence is lost (R481). -/
def State.ejectEnd (s : State) (m : Fin 2) : State :=
  if (s.mag m).eject = .shutdown then ((s.magPowerOff m).modMag m (fun p => { p with eject := .done })).magDown m .failed else s

/-- SHUTDOWN_COMPLETE (R481). -/
def execShutdownComplete (m : Fin 2) (s : State) : Host.Outcome State Fault Refusal := .next (s.ejectEnd m)

/-- MAG_SHUTDOWN_TIMEOUT (R481). -/
def execMagShutdownTimeout (m : Fin 2) (s : State) : Host.Outcome State Fault Refusal := .next (s.ejectEnd m)

/-! ### Writes of the take log (R54, R484, R486) -/

/-- The extent that log address `a` lies in, with the bytes left in it, `fuel` extents from `j`. -/
def extentLeft (g : List Byte) (m : Nat) : Nat → Nat → Nat → Nat
  | 0, _, _ => 0
  | fuel + 1, j, rem =>
    let x := logExtent g m j
    if rem < x.2 * 4096 then x.2 * 4096 - rem else extentLeft g m fuel (j + 1) (rem - x.2 * 4096)

/-- LBA of log address `a` on magazine `m` (R52). -/
def lbaOf (g : List Byte) (m a : Nat) : Nat := ((logLba g m (logExtents g m) 0 a).map (·.1)).getD 0

/-- LBAs `a` to `a + n - 1` meet a range still to be deallocated (R484). -/
def MagPort.undone (p : MagPort) (a n : Nat) : Bool :=
  let meets : Nat × Nat → Bool := fun r => decide (a < r.1 + r.2) && decide (r.1 < a + n)
  p.dsmTodo.any meets || p.cmds.any (fun c => match c.purpose with
    | .dsm rs => rs.any meets
    | _ => false)

/-- Bytes read from the Cistern, zeros in place of the words that are bad (R304). -/
def zeroWords (b : List Byte) (bad : List Nat) : List Byte :=
  (b.zip (upFrom 0 b.length)).map (fun p => if bad.contains (p.2 / 16) then 0 else p.1)

/-- The Write commands of a unit as far as its queue takes them: the port, and what is left of the unit, if anything (R486). Bad words are
written as zeros, with the port's UNCORRECTABLE event, whose cause byte is stated nowhere (R304, log entry 107). -/
def State.writeParts (s : State) (m : Fin 2) (q : Nat) : Nat → LogUnit → State × Option LogUnit
  | 0, u => (s, some u)
  | fuel + 1, u =>
    let g := s.active unitLog
    let p := s.mag m
    let lba := Nat.max 1 (logLbaBytes g m.1)
    let n := Nat.min u.bytes.length (Nat.min p.maxBytes (extentLeft g m.1 (logExtents g m.1) 0 u.addr))
    let a := lbaOf g m.1 u.addr
    if p.room q = 0 ∨ n = 0 ∨ p.undone a (n / lba) then (s, some u)
    else
      let last := decide (n = u.bytes.length)
      let hit := u.bad.filter (fun i => decide (16 * i < n))
      let part := { u with bytes := zeroWords (u.bytes.take n) hit, bad := [] }
      let s := if hit = [] then s else s.magEvent m (Config.unstated 28 m.1 % 256) stUncorrectable 0
      let s := s.nvmeSubmit m q opWrite (BitVec.ofNat 32 (logNsid g m.1)) a (n / lba - 1) n (.write part last)
      if last then (s, none) else s.writeParts m q fuel { u with addr := u.addr + n, bytes := u.bytes.drop n, bad := (u.bad.filter (fun i => decide (n ≤ 16 * i))).map (fun i => i - n / 16) }

/-- Time waited for a submission entry ends: MAG_QWAIT in microseconds (R34, R486). -/
def State.endQwait (s : State) (m : Fin 2) : State :=
  match (s.mag m).waitSince with
  | some t => (s.modMag m (fun p => { p with waitSince := none })).bump (rMagQwait m.1) ((s.clk.fab - t) / 2000)
  | none => s

/-- The next queue for writes, 2 to n in rotation (R486). -/
def MagPort.rotateQueue (p : MagPort) : Nat := if p.ioq ≤ p.nextQueue then 2 else p.nextQueue + 1

/-- The first unit that waits is split and submitted as far as entries are free (R486). -/
def State.submitUnit (s : State) (m : Fin 2) : State :=
  match (s.log m).units with
  | [] => s
  | u :: us =>
    if (s.mag m).st ≠ .ready then s
    else
      let q := (s.mag m).nextQueue
      let full := decide ((s.mag m).room q = 0)
      let s := if full then s else s.endQwait m
      match s.writeParts m q (u.bytes.length + 1) u with
      | (s, none) =>
        let s := s.modLog m (fun g => { g with units := us })
        s.modMag m (fun p => { p with nextQueue := p.rotateQueue, flushDue := if u.flushAfter then p.flushDue ++ [p.nextCid] else p.flushDue })
      | (s, some v) =>
        let s := s.modLog m (fun g => { g with units := v :: us })
        if (s.mag m).room q = 0 ∧ (s.mag m).waitSince.isNone then s.modMag m (fun p => { p with waitSince := some s.clk.fab }) else s

/-- WRITE_SUBMIT (R486). -/
def execWriteSubmit (m : Fin 2) (s : State) : Host.Outcome State Fault Refusal := .next (s.submitUnit m)

def NvmeCmd.isWrite (c : NvmeCmd) : Bool :=
  match c.purpose with
  | .write _ _ => true
  | _ => false

/-- FLUSH (R25, R483). -/
def State.submitFlush (s : State) (m : Fin 2) : State :=
  let p := s.mag m
  match p.flushDue with
  | [] => s
  | t :: ts =>
    if p.st ≠ .ready ∨ p.room 2 = 0 ∨ p.cmds.any (fun c => c.isWrite && decide (c.order < t)) then s
    else (s.modMag m (fun p => { p with flushDue := ts })).nvmeSubmit m 2 opFlush
      (BitVec.ofNat 32 (logNsid (s.active unitLog) m.1)) 0 0 0 .flushCmd

def execFlush (m : Fin 2) (s : State) : Host.Outcome State Fault Refusal := .next (s.submitFlush m)

/-- DATASET_MANAGEMENT (R484): up to 256 ranges. -/
def State.submitDsm (s : State) (m : Fin 2) : State :=
  let p := s.mag m
  if p.st ≠ .ready ∨ p.dsmTodo.isEmpty ∨ p.room 2 = 0 then s
  else (s.modMag m (fun p => { p with dsmTodo := p.dsmTodo.drop 256 })).nvmeSubmit m 2 opDsm
    (BitVec.ofNat 32 (logNsid (s.active unitLog) m.1)) 0 0 0 (.dsm (p.dsmTodo.take 256))

def execDatasetManagement (m : Fin 2) (s : State) : Host.Outcome State Fault Refusal := .next (s.submitDsm m)

/-- Ranges of an extent, each of at most 2^32 − 1 LBAs (log entry 25). -/
def dsmRanges : Nat → Nat → Nat → List (Nat × Nat)
  | 0, _, _ => []
  | fuel + 1, a, n => if n = 0 then [] else if n < 2 ^ 32 then [(a, n)] else (a, 2 ^ 32 - 1) :: dsmRanges fuel (a + (2 ^ 32 - 1)) (n - (2 ^ 32 - 1))

/-- After the move to ARMED every extent of the log is to be deallocated (R484). -/
def State.dsmStart (s : State) (m : Fin 2) : State :=
  let g := s.active unitLog
  let all := (upFrom 0 (logExtents g m.1)).flatMap (fun j =>
    let x := logExtent g m.1 j
    dsmRanges 16 x.1 (x.2 * 4096 / Nat.max 1 (logLbaBytes g m.1)))
  s.modMag m (fun p => { p with dsmTodo := all })

/-! ### Completions (R487) -/

/-- SC and SCT of an NVMe status field, and DNR (log entry 25). -/
def nvmeCode (status : Half) : Nat := status.toNat % 2048
def nvmeDnr (status : Half) : Bool := status.getLsbD 14
/-- Unrecovered Read Error: SCT 0x2, SC 0x81 (R487). -/
def nvmeUnrecovered : Nat := 0x281

def State.dropCmd (s : State) (m : Fin 2) (cid : Nat) : State :=
  s.modMag m (fun p => { p with cmds := p.cmds.filter (fun c => c.cid ≠ cid) })

/-- An error completion: MAG_ERRORS, MAG_LAST_STATUS and cause 5; in INIT the refusal's cause 8 takes its place (R492, R493, log entry
26). -/
def State.nvmeError (s : State) (m : Fin 2) (c : NvmeCmd) (status : Half) : State :=
  let info := status.toNat + 65536 * c.opcode.toNat
  let s := (s.bump (rMagErrors m.1) 1).setReg (rMagLastStatus m.1) (BitVec.ofNat 32 info)
  if (s.mag m).st = .init then s
  else s.magEvent m 5 (if nvmeCode status = nvmeUnrecovered then stUncorrectable else stBadarg) info

/-- A command that failed is submitted again under a new identifier, with a timer of its own (R41, R487). -/
def State.resubmit (s : State) (m : Fin 2) (cid : Nat) : State :=
  s.modMag m (fun p => { p with
    nextCid := p.nextCid + 1
    cmds := p.cmds.map (fun x => if x.cid = cid then { x with cid := p.nextCid, tries := x.tries + 1 } else x) })

/-- A Write completes: the trailer may be complete, spilled data may leave, the take may close (R157, R159). -/
def State.writeDone (s : State) (m : Fin 2) (u : LogUnit) (last : Bool) : State :=
  let s := s.bump (rMagWrites m.1) 1
  let s := if u.trailer && last then s.modLog m (fun g => { g with trailerDone := true }) else s
  (s.takeLedgers.foldl (fun s l => s.settleSpill l) s).checkClosed

/-- An I/O command other than Read, or an admin command, completes. -/
def State.nvmeAnswer (s : State) (m : Fin 2) (c : NvmeCmd) (status : Half) (data : List Byte) : State :=
  let ok := decide (nvmeCode status = 0)
  let s := if ok then s else s.nvmeError m c status
  match c.purpose with
  | .write u last =>
    if ok then (s.dropCmd m c.cid).writeDone m u last
    else if !nvmeDnr status ∧ c.tries < 3 then
      s.resubmit m c.cid
    else (s.orReg (rMagPortStat m.1) 0x8000).magDown m .failed
  | .deleteQueues => (s.dropCmd m c.cid).ejectNext m ((s.mag m).initStep + 1)
  | .flushCmd | .dsm _ =>
    if ok then s.dropCmd m c.cid
    else if !nvmeDnr status ∧ c.tries < 3 then
      s.resubmit m c.cid
    else (s.orReg (rMagPortStat m.1) 0x8000).magDown m .failed
  | why =>
    if ok then (s.dropCmd m c.cid).initNext m why data else s.magRefuse m stBadarg (status.toNat + 65536 * c.opcode.toNat)

/-- NVME_TIMEOUT (R481, R482, R487): in INIT the event names the refusal. -/
def State.nvmeExpire (s : State) (m : Fin 2) (cid : Nat) : State :=
  match (s.mag m).cmds.find? (fun c => c.cid = cid) with
  | none => s
  | some c =>
    let s := s.bump (rMagTimeouts m.1) 1
    let info := 65536 * c.opcode.toNat
    match c.purpose with
    | .deleteQueues => (s.dropCmd m cid).ejectNext m ((s.mag m).initStep + 1)
    | _ =>
      let s := s.orReg (rMagPortStat m.1) 0x4000
      if (s.mag m).st = .init then s.magRefuse m stTimeout info else s.magFail m 4 stTimeout info

def execNvmeTimeout (m : Fin 2) (cid : Nat) (s : State) : Host.Outcome State Fault Refusal := .next (s.nvmeExpire m cid)

/-- A PRP entry of an outstanding command names the page: the port's own placement, which the spec does not give (log entry 7). -/
def State.prpNamed (s : State) (m : Fin 2) (addr : BitVec 48) : Bool :=
  decide ((s.mag m).cmds ≠ []) && decide (Config.unstated 3 (addr.toNat / 4096 * 2 + m.1) = 1)

/-- INBOUND_REQUEST (R486): only reads of named pages are served. -/
def execInboundRequest (m : Fin 2) (addr : BitVec 48) (write : Bool) (s : State) : Host.Outcome State Fault Refusal :=
  .next (if !write && s.prpNamed m addr then s else s.orReg (rMagPortStat m.1) 0x20000)

end Sys2Proof.Machine
end

