-- ==== Sys2Proof/Machine/Svq.lean ====
section
/-! DEFINITION. Svetquel raw coding of one tile: prediction (R88-R99), quantisation (R122), the S-lift (R124-R128), entropy coding
(R129-R134), floor and raw payloads (R82, R135), the tile unit (R74, R79, R80) and the check values of a tile (R309, R310). -/

namespace Sys2Proof.Machine

/-! ### Bits, most significant first -/

def putBits : Nat → Nat → List Bool
  | 0, _ => []
  | n + 1, v => natBit v n :: putBits n v

def bitsVal (b : List Bool) : Nat := b.foldl (fun a x => 2 * a + (if x then 1 else 0)) 0

/-- Bits packed into bytes; the last byte is filled with 0 bits. -/
def packBits : Nat → List Bool → List Byte
  | 0, _ => []
  | _ + 1, [] => []
  | fuel + 1, b :: bs =>
    BitVec.ofNat 8 (bitsVal (((b :: bs) ++ List.replicate 7 false).take 8)) :: packBits fuel ((b :: bs).drop 8)

def bitsToBytes (b : List Bool) : List Byte := packBits (b.length + 1) b
def bytesToBits (b : List Byte) : List Bool := b.flatMap (fun x => putBits 8 x.toNat)
/-- Zero bytes up to a multiple of 4. -/
def pad4 (b : List Byte) : List Byte := b ++ List.replicate (roundUp b.length 4 - b.length) 0

/-- Take `n` bits, or none when there are fewer. -/
def getBits (n : Nat) (b : List Bool) : Option (Nat × List Bool) := if b.length < n then none else some (bitsVal (b.take n), b.drop n)

def intAt (l : List Int) (i : Nat) : Int := nth 0 l i
def clipI (v lo hi : Int) : Int := if v < lo then lo else if hi < v then hi else v

/-! ### The S-lift (R124, R126) -/

/-- lift4 (R124). -/
def lift4 (a : List Int) : List Int :=
  let h0 := intAt a 0 - intAt a 1
  let l0 := intAt a 1 + h0 / 2
  let h1 := intAt a 2 - intAt a 3
  let l1 := intAt a 3 + h1 / 2
  let hh := l0 - l1
  [l1 + hh / 2, hh, h0, h1]

/-- unlift4 (R124). -/
def unlift4 (c : List Int) : List Int :=
  let l1 := intAt c 0 - intAt c 1 / 2
  let l0 := intAt c 1 + l1
  let a3 := l1 - intAt c 3 / 2
  let a2 := intAt c 3 + a3
  let a1 := l0 - intAt c 2 / 2
  [intAt c 2 + a1, a1, a2, a3]

/-- Apply `f` to each of the four rows of a 4 × 4 raster. -/
def onRows (f : List Int → List Int) (a : List Int) : List Int := (upFrom 0 4).flatMap (fun i => f ((a.drop (4 * i)).take 4))
def transpose4 (a : List Int) : List Int := (upFrom 0 16).map (fun k => intAt a (4 * (k % 4) + k / 4))
def slift (a : List Int) : List Int := transpose4 (onRows lift4 (transpose4 (onRows lift4 a)))
def unslift (c : List Int) : List Int := onRows unlift4 (transpose4 (onRows unlift4 (transpose4 c)))

/-- Sub-block `b` of an n × n block in raster order (R126, R128). -/
def subBlock (n : Nat) (q : List Int) (b : Nat) : List Int :=
  let m := n / 4
  (upFrom 0 16).map (fun k => intAt q ((4 * (b / m) + k / 4) * n + 4 * (b % m) + k % 4))

/-- Residuals to values in scan order (R128). -/
def scanOf (n : Nat) (t : Bool) (q : List Int) : List Int :=
  if t then (upFrom 0 (n / 4 * (n / 4))).flatMap (fun b => slift (subBlock n q b)) else q

/-- Values in scan order back to residuals in raster order. -/
def unscan (n : Nat) (t : Bool) (v : List Int) : List Int :=
  if t then
    let m := n / 4
    let back := (upFrom 0 (m * m)).map (fun b => unslift ((v.drop (16 * b)).take 16))
    (upFrom 0 (n * n)).map (fun k => intAt (nth [] back (k / n / 4 * m + k % n / 4)) (4 * (k / n % 4) + k % n % 4))
  else v

/-! ### Entropy coding (R129-R134) -/

/-- R129. -/
def zigzag (q : Int) : Nat := if 0 ≤ q then 2 * q.toNat else 2 * (-q).toNat - 1
def unzigzag (m : Nat) : Int := if m % 2 = 1 then -((m + 1) / 2 : Int) else (m / 2 : Int)

/-- Coder state of a plane segment: S and N of each context, and ri (R130). -/
structure Rice where
  ctx : List (Nat × Nat)
  ri : Nat
deriving DecidableEq, Repr

def Rice.start (d : Nat) : Rice := { ctx := List.replicate 24 (2 ^ ((d - 8) / 2), 1), ri := 0 }

/-- kof (R132). -/
def Rice.k (r : Rice) (c : Nat) : Nat :=
  let x := nth (0, 1) r.ctx c
  ((upFrom 0 24).find? (fun k => decide (x.1 ≤ x.2 * 2 ^ k))).getD 24

/-- update (R132). -/
def Rice.update (r : Rice) (c v : Nat) : Rice :=
  { r with ctx := modNth (fun x => if x.2 + 1 = 32 then ((x.1 + v + 1) / 2, 16) else (x.1 + v, x.2 + 1)) r.ctx c }

/-- One value coded in context `c` (R132). -/
def Rice.enc (d : Nat) (r : Rice) (c v : Nat) : List Bool × Rice :=
  let k := r.k c
  let z := v / 2 ^ k
  (if z < 24 then List.replicate z false ++ [true] ++ putBits k v else List.replicate 24 false ++ putBits (d + 3) v, r.update c v)

/-- Leading zero bits up to 24, and what follows the 1 bit that ends them, if one does. -/
def zeroRun : Nat → List Bool → Option (Nat × List Bool)
  | 0, b => some (0, b)
  | _ + 1, [] => none
  | fuel + 1, x :: b => if x then some (0, b) else (zeroRun fuel b).map (fun r => (r.1 + 1, r.2))

/-- One value decoded in context `c` (R132); none past the end. -/
def Rice.dec (d : Nat) (r : Rice) (c : Nat) (b : List Bool) : Option (Nat × Rice × List Bool) :=
  match zeroRun 24 b with
  | none => none
  | some (z, b) =>
    let k := r.k c
    let got := if z = 24 then getBits (d + 3) b else (getBits k b).map (fun x => (z * 2 ^ k + x.1, x.2))
    got.map (fun x => (x.1, r.update c x.1, x.2))

def log2Nat (n : Nat) : Nat := ((upFrom 0 64).filter (fun k => decide (2 ^ (k + 1) ≤ n))).length

/-- The context of scan position `k`; `prev` holds the earlier values, latest first (R131). -/
def contextOf (n : Nat) (t : Bool) (prev : List Int) (k : Nat) : Nat :=
  if t then
    let a := if k % 16 = 0 then 0 else (intAt prev 0).natAbs
    let lv := fun i => nth 0 [0, 1, 2, 2] i
    let pos := Nat.max (lv (k % 16 / 4)) (lv (k % 4))
    12 + 4 * pos + (if a = 0 then 0 else if a ≤ 2 then 1 else if a ≤ 8 then 2 else 3)
  else
    let a := (if k % n = 0 then 0 else (intAt prev 0).natAbs) + (if k < n then 0 else (intAt prev (n - 1)).natAbs)
    if a ≤ 2 then a else Nat.min 11 (log2Nat (a - 1) + 2)

/-- R133. -/
def jtab (ri : Nat) : Nat := nth 0 [0, 0, 1, 1, 2, 2, 3, 3, 4, 4, 5, 5, 6, 6, 7, 8] ri

/-- Zeros at the front. -/
def leadZeros : List Int → Nat
  | [] => 0
  | x :: xs => if x = 0 then leadZeros xs + 1 else 0

/-- The code of a run of `run` zeros with `rem` values left: bits, ri, and whether an interrupt value follows (R133). -/
def encRun : Nat → Nat → Nat → Nat → List Bool × Nat × Bool
  | 0, ri, _, _ => ([], ri, false)
  | fuel + 1, ri, run, rem =>
    let step := 2 ^ jtab ri
    if step ≤ run then
      let ri' := Nat.min (ri + 1) 15
      if rem = step then ([true], ri', false)
      else
        let r := encRun fuel ri' (run - step) (rem - step)
        (true :: r.1, r.2)
    else if run = rem then ([true], ri, false)
    else (false :: putBits (jtab ri) run, ri - 1, true)

/-- The values of a block from scan position `k` (R131-R133). -/
def encValues (d n : Nat) (t : Bool) : Nat → Rice → List Int → Nat → List Int → List Bool × Rice
  | 0, r, _, _, _ => ([], r)
  | _ + 1, r, _, _, [] => ([], r)
  | fuel + 1, r, prev, k, v :: vs =>
    if k ≠ 0 ∧ intAt prev 0 = 0 then
      let run := leadZeros (v :: vs)
      let e := encRun (vs.length + 2) r.ri run (vs.length + 1)
      let prev' := List.replicate run 0 ++ prev
      match (v :: vs).drop run with
      | [] => (e.1, { r with ri := e.2.1 })
      | w :: ws =>
        let x := Rice.enc d r (contextOf n t prev' (k + run)) (zigzag w - 1)
        let rest := encValues d n t fuel { x.2 with ri := e.2.1 } (w :: prev') (k + run + 1) ws
        (e.1 ++ x.1 ++ rest.1, rest.2)
    else
      let x := Rice.enc d r (contextOf n t prev k) (zigzag v)
      let rest := encValues d n t fuel x.2 (v :: prev) (k + 1) vs
      (x.1 ++ rest.1, rest.2)

/-- A run decoded: its length, ri, whether an interrupt follows, the rest; none when r ≥ rem or past the end (R133, R134). -/
def decRun : Nat → Nat → Nat → List Bool → Option (Nat × Nat × Bool × List Bool)
  | 0, _, _, _ => none
  | _ + 1, _, _, [] => none
  | fuel + 1, ri, rem, x :: b =>
    let step := 2 ^ jtab ri
    if x then
      if step ≤ rem then
        let ri' := Nat.min (ri + 1) 15
        if rem = step then some (step, ri', false, b)
        else (decRun fuel ri' (rem - step) b).map (fun r => (r.1 + step, r.2))
      else some (rem, ri, false, b)
    else match getBits (jtab ri) b with
      | none => none
      | some (r, b) => if rem ≤ r then none else some (r, ri - 1, true, b)

/-- The values of a block decoded: `prev` grows to all of them, latest first (R131-R134). -/
def decValues (d n : Nat) (t : Bool) (bound : Int) : Nat → Rice → List Int → Nat → List Bool → Option (List Int × Rice × List Bool)
  | 0, _, _, _, _ => none
  | fuel + 1, r, prev, k, b =>
    if n * n ≤ k then some (prev, r, b)
    else if k ≠ 0 ∧ intAt prev 0 = 0 then
      match decRun (n * n + 2) r.ri (n * n - k) b with
      | none => none
      | some (run, ri, more, b) =>
        let prev' := List.replicate run 0 ++ prev
        if !more then some (prev', { r with ri := ri }, b)
        else match Rice.dec d r (contextOf n t prev' (k + run)) b with
          | none => none
          | some (m, r, b) =>
            let v := unzigzag (m + 1)
            if bound < v.natAbs then none else decValues d n t bound fuel { r with ri := ri } (v :: prev') (k + run + 1) b
    else match Rice.dec d r (contextOf n t prev k) b with
      | none => none
      | some (m, r, b) =>
        let v := unzigzag m
        if bound < v.natAbs then none else decValues d n t bound fuel r (v :: prev) (k + 1) b

/-! ### Prediction (R88-R99) -/

/-- What coding a tile needs: depth, period, exposures, exposure_ratio, XEXP, tile size in photosites, tile origin, picture size in
photosites, error bound, and the samples of the reference pictures by ref_idx, plane, column and row. -/
structure TileEnv where
  d : Nat
  p : Nat
  x : Nat
  g : Nat
  xexp : Bool
  w : Nat
  h : Nat
  ox : Nat
  oy : Nat
  pw : Nat
  ph : Nat
  e : Nat
  ref : Nat → Nat → Nat → Nat → Nat

def TileEnv.maxv (v : TileEnv) : Int := 2 ^ v.d - 1
def TileEnv.mid (v : TileEnv) : Int := 2 ^ (v.d - 1)
/-- Side of a block in plane samples. -/
def TileEnv.n (v : TileEnv) : Nat := 16 / v.p
/-- Width and height of a plane of the tile. -/
def TileEnv.tw (v : TileEnv) : Nat := v.w / v.p
def TileEnv.th (v : TileEnv) : Nat := v.h / v.p
def TileEnv.planes (v : TileEnv) : Nat := v.x * v.p * v.p
def TileEnv.blocks (v : TileEnv) : Nat := v.w / 16 * (v.h / 16)
/-- Plane coordinates of block `b`. -/
def TileEnv.u0 (v : TileEnv) (b : Nat) : Nat := b % (v.w / 16) * v.n
def TileEnv.v0 (v : TileEnv) (b : Nat) : Nat := b / (v.w / 16) * v.n
/-- Exposure of plane `i`. -/
def TileEnv.exposure (v : TileEnv) (i : Nat) : Nat := i / (v.p * v.p)

/-- The boundary of a block (R91): top row, left column, corner. -/
def boundaryOf (at0 : Nat → Nat → Int) (mid : Int) (n u0 v0 : Nat) : List Int × List Int × Int :=
  let top := 0 < v0
  let left := 0 < u0
  let t := (upFrom 0 n).map (fun k => if top then at0 (u0 + k) (v0 - 1) else if left then at0 (u0 - 1) v0 else mid)
  let l := (upFrom 0 n).map (fun k => if left then at0 (u0 - 1) (v0 + k) else if top then at0 u0 (v0 - 1) else mid)
  (t, l, if top ∧ left then at0 (u0 - 1) (v0 - 1) else if top then intAt t 0 else if left then intAt l 0 else mid)

/-- An intra mode from a boundary, unclipped (R92). -/
def intraAt (mode : BlockMode) (n : Nat) (b : List Int × List Int × Int) (x y : Nat) : Int :=
  match mode with
  | .intraW => intAt b.2.1 y
  | .intraN => intAt b.1 x
  | .intraGrad => intAt b.2.1 y + intAt b.1 x - b.2.2
  | _ => ((b.1 ++ b.2.1).foldl (· + ·) 0 + n) / (2 * n : Int)

/-- Intra prediction of plane `i` at block (u0, v0), sample (x, y) (R91-R95); `rec` and `rec0` give the reconstructed plane and that of
exposure 0. -/
def TileEnv.intra (v : TileEnv) (i : Nat) (mode : BlockMode) (rec rec0 : Nat → Nat → Int) (u0 v0 x y : Nat) : Int :=
  if v.xexp && decide (v.p * v.p ≤ i) then
    let sc : Nat → Nat → Int := fun a b => clipI ((rec0 a b * v.g + 0x8000) / 65536) 0 v.maxv
    let off := intraAt mode v.n (boundaryOf (fun a b => rec a b - sc a b) 0 v.n u0 v0) x y
    clipI (sc (u0 + x) (v0 + y) + off) 0 v.maxv
  else clipI (intraAt mode v.n (boundaryOf rec v.mid v.n u0 v0) x y) 0 v.maxv

def tapI (a b c e : Int) : Int := -a + 9 * b + 9 * c - e

/-- The prediction from another picture (R98). -/
def TileEnv.inter (v : TileEnv) (r i : Nat) (mv : Int × Int) (u w : Nat) : Int :=
  let fetch : Int → Int → Int := fun a b =>
    (v.ref r i (clipI a 0 (v.pw / v.p - 1)).toNat (clipI b 0 (v.ph / v.p - 1)).toNat : Int)
  let bx : Int := v.ox / v.p + u + mv.1 / 2
  let by' : Int := v.oy / v.p + w + mv.2 / 2
  let row : Int → Int := fun j => tapI (fetch (bx - 1) (by' + j)) (fetch bx (by' + j)) (fetch (bx + 1) (by' + j)) (fetch (bx + 2) (by' + j))
  match decide (mv.1 % 2 = 0), decide (mv.2 % 2 = 0) with
  | true, true => fetch bx by'
  | false, true => clipI ((row 0 + 8) / 16) 0 v.maxv
  | true, false => clipI ((tapI (fetch bx (by' - 1)) (fetch bx by') (fetch bx (by' + 1)) (fetch bx (by' + 2)) + 8) / 16) 0 v.maxv
  | false, false => clipI ((tapI (row (-1)) (row 0) (row 1) (row 2) + 128) / 256) 0 v.maxv

/-- The mode takes its prediction from another picture. -/
def isInter (m : BlockMode) : Bool := decide (m = .inter) || decide (m = .view) || decide (m = .skip)

/-- The prediction of a block of plane `i`, in raster order. -/
def TileEnv.predict (v : TileEnv) (i b : Nat) (c : BlockChoice) (rec rec0 : Nat → Nat → Int) : List Int :=
  let mv := nth (0, 0) c.mv (v.exposure i)
  (upFrom 0 (v.n * v.n)).map (fun k =>
    let x := k % v.n
    let y := k / v.n
    if isInter c.mode then v.inter c.refIdx.1 i mv (v.u0 b + x) (v.v0 b + y)
    else v.intra i c.mode rec rec0 (v.u0 b) (v.v0 b) x y)

/-- A plane with block `b` replaced. -/
def TileEnv.putBlock (v : TileEnv) (plane : List Int) (b : Nat) (s : List Int) : List Int :=
  (plane.zip (upFrom 0 plane.length)).map (fun a =>
    let u := a.2 % v.tw
    let w := a.2 / v.tw
    if v.u0 b ≤ u ∧ u < v.u0 b + v.n ∧ v.v0 b ≤ w ∧ w < v.v0 b + v.n then intAt s ((w - v.v0 b) * v.n + (u - v.u0 b)) else a.1)

def TileEnv.blockOf (v : TileEnv) (plane : List Int) (b : Nat) : List Int :=
  (upFrom 0 (v.n * v.n)).map (fun k => intAt plane ((v.v0 b + k / v.n) * v.tw + v.u0 b + k % v.n))

/-- Sample (u, w) of a plane of the tile. -/
def TileEnv.at (v : TileEnv) (plane : List Int) (u w : Nat) : Int := intAt plane (w * v.tw + u)

/-! ### Quantisation (R122) -/

def quant (e : Nat) (r : Int) : Int := Int.sign r * (((r.natAbs + e) / (2 * e + 1) : Nat) : Int)
def TileEnv.rebuild (v : TileEnv) (pred q : Int) : Int := clipI (pred + q * (2 * v.e + 1)) 0 v.maxv

/-! ### Encoding (R79, R80, R127) -/

structure PlaneState where
  plane : List Int
  rice : Rice
  bits : List Bool

/-- One block of plane `i` coded (R127). -/
def TileEnv.encBlock (v : TileEnv) (i : Nat) (src plane0 : List Int) (st : PlaneState) (b : Nat) (c : BlockChoice) : PlaneState :=
  let s := v.blockOf src b
  if c.mode = .raw then
    { plane := v.putBlock st.plane b s, rice := st.rice, bits := st.bits ++ s.flatMap (fun x => putBits v.d x.toNat) }
  else
    let pred := v.predict i b c (v.at st.plane) (v.at plane0)
    if c.mode = .skip then { st with plane := v.putBlock st.plane b pred }
    else
      let q := (s.zip pred).map (fun a => quant v.e (a.1 - a.2))
      let t := nth false c.t i
      let r := encValues v.d v.n t (v.n * v.n + 1) st.rice [] 0 (scanOf v.n t q)
      { plane := v.putBlock st.plane b ((pred.zip q).map (fun a => v.rebuild a.1 a.2)), rice := r.2, bits := st.bits ++ [t] ++ r.1 }

/-- Plane `i` coded; the reconstruction and the segment. -/
def TileEnv.encPlane (v : TileEnv) (i : Nat) (src plane0 : List Int) (cs : List BlockChoice) : List Int × List Byte :=
  let z : PlaneState := { plane := List.replicate (v.tw * v.th) 0, rice := Rice.start v.d, bits := [] }
  let r := (cs.zip (upFrom 0 cs.length)).foldl (fun st a => v.encBlock i src plane0 st a.2 a.1) z
  (r.plane, bitsToBytes r.bits)

def TileEnv.planeOf (v : TileEnv) (samples : List Half) (i : Nat) : List Int :=
  ((samples.drop (i * (v.tw * v.th))).take (v.tw * v.th)).map (fun x => (x.toNat : Int))

/-- Every plane coded in index order: reconstructions and segments. -/
def TileEnv.encPlanes (v : TileEnv) (src : List Half) (cs : List BlockChoice) : List (List Int) × List (List Byte) :=
  (upFrom 0 v.planes).foldl (fun a i =>
    let r := v.encPlane i (v.planeOf src i) (nth [] a.1 (i - v.p * v.p)) cs
    (a.1 ++ [r.1], a.2 ++ [r.2])) ([], [])

/-- Codes of the block mode map (R79). -/
def modeCode : BlockMode → Nat
  | .intraW => 0
  | .intraN => 1
  | .intraGrad => 2
  | .intraAvg => 3
  | .inter => 4
  | .view => 5
  | .skip => 6
  | .raw => 7
def modeOf (c : Nat) : BlockMode := nth .raw [.intraW, .intraN, .intraGrad, .intraAvg, .inter, .view, .skip] c

/-- Block mode map and side information (R79, R80). -/
def mapBytes (cs : List BlockChoice) : List Byte := pad4 (bitsToBytes (cs.flatMap (fun c => putBits 3 (modeCode c.mode))))
def signedBits (n : Nat) (v : Int) : List Bool := putBits n (v % 2 ^ n).toNat
def sideBytes (x : Nat) (cs : List BlockChoice) : List Byte :=
  pad4 (bitsToBytes (cs.flatMap (fun c => if isInter c.mode then
    putBits 2 c.refIdx.1 ++ (upFrom 0 x).flatMap (fun i => signedBits 9 (nth (0, 0) c.mv i).1 ++ signedBits 8 (nth (0, 0) c.mv i).2)
  else [])))

/-- A PRED tile's reconstruction, map and payload (R79, R80). -/
def TileEnv.encPred (v : TileEnv) (src : List Half) (cs : List BlockChoice) : List (List Int) × List Byte × List Byte :=
  let r := v.encPlanes src cs
  (r.1, mapBytes cs, pad4 (sideBytes v.x cs ++ r.2.flatMap (fun s => leBytes 4 s.length) ++ r.2.flatten))

/-- FLOOR and RAW payload: k bits of each value, shifted by s (R82, R135). -/
def packPayload (k s : Nat) (src : List Half) : List Byte := pad4 (bitsToBytes (src.flatMap (fun x => putBits k (x.toNat / 2 ^ s))))
/-- A FLOOR value's reconstruction (R135). -/
def floorRec (s f : Nat) : Nat := if s = 0 then f else f * 2 ^ s + 2 ^ (s - 1)

/-! ### Decoding (R81, R134) -/

/-- Side information and modes of the blocks; none when a rule of R81 is broken. `kind k` is the kind of ref[k], 0 where ref_use has not
its bit. -/
def readChoices (x : Nat) (kind : Nat → Nat) : List Nat → List Bool → Option (List BlockChoice × List Bool)
  | [], b => some ([], b)
  | m :: ms, b =>
    let mode := modeOf m
    if isInter mode then
      match getBits (2 + 17 * x) b with
      | none => none
      | some (_, rest) =>
        let r := bitsVal (b.take 2)
        let s9 := fun i => (BitVec.ofNat 9 (bitsVal ((b.drop (2 + 17 * i)).take 9))).toInt
        let s8 := fun i => (BitVec.ofNat 8 (bitsVal ((b.drop (11 + 17 * i)).take 8))).toInt
        let mv := (upFrom 0 x).map (fun i => (s9 i, s8 i))
        let ok := mv.all (fun a => decide (-128 ≤ a.1) && decide (a.1 ≤ 128) && decide (-64 ≤ a.2) && decide (a.2 ≤ 64)) &&
          (match mode with
           | .inter => decide (kind r = 1)
           | .view => decide (kind r = 2)
           | _ => decide (kind r ≠ 0))
        if ok then (readChoices x kind ms rest).map (fun a => ({ mode := mode, refIdx := Fin.ofNat 4 r, mv := mv, t := [] } :: a.1, a.2))
        else none
    else (readChoices x kind ms b).map (fun a => ({ mode := mode, refIdx := 0, mv := [], t := [] } :: a.1, a.2))

/-- One block of plane `i` decoded. -/
def TileEnv.decBlock (v : TileEnv) (i : Nat) (plane0 : List Int) (st : PlaneState) (b : Nat) (c : BlockChoice) : Option PlaneState :=
  if c.mode = .raw then
    match getBits (v.d * (v.n * v.n)) st.bits with
    | none => none
    | some (_, rest) =>
      let s := (upFrom 0 (v.n * v.n)).map (fun k => (bitsVal ((st.bits.drop (k * v.d)).take v.d) : Int))
      some { plane := v.putBlock st.plane b s, rice := st.rice, bits := rest }
  else
    let pred := v.predict i b c (v.at st.plane) (v.at plane0)
    if c.mode = .skip then some { st with plane := v.putBlock st.plane b pred }
    else match st.bits with
      | [] => none
      | t :: bits =>
        match decValues v.d v.n t (if t then 4 * v.maxv else v.maxv) (v.n * v.n + 1) st.rice [] 0 bits with
        | none => none
        | some (prev, r, rest) =>
          let q := unscan v.n t prev.reverse
          some { plane := v.putBlock st.plane b ((pred.zip q).map (fun a => v.rebuild a.1 a.2)), rice := r, bits := rest }

/-- Plane `i` decoded from its segment; none when it is damaged: read beyond, or ended before the last byte (R134). -/
def TileEnv.decPlane (v : TileEnv) (i : Nat) (seg : List Byte) (plane0 : List Int) (cs : List BlockChoice) : Option (List Int) :=
  let z : PlaneState := { plane := List.replicate (v.tw * v.th) 0, rice := Rice.start v.d, bits := bytesToBits seg }
  match (cs.zip (upFrom 0 cs.length)).foldl (fun st a => st.bind (fun st => v.decBlock i plane0 st a.2 a.1)) (some z) with
  | none => none
  | some st => if 8 ≤ st.bits.length then none else some st.plane

/-- Every plane decoded in index order. -/
def TileEnv.decPlanes (v : TileEnv) (segs : List (List Byte)) (cs : List BlockChoice) : Option (List (List Int)) :=
  (segs.zip (upFrom 0 segs.length)).foldl (fun a s => a.bind (fun ps =>
    (v.decPlane s.2 s.1 (nth [] ps (s.2 - v.p * v.p)) cs).map (fun p => ps ++ [p]))) (some [])

/-- Segments of a plane directory. -/
def cutSegments : List Nat → List Byte → List (List Byte)
  | [], _ => []
  | n :: ns, b => b.take n :: cutSegments ns (b.drop n)

/-- A PRED tile decoded from map and payload (R79-R81, R134). -/
def TileEnv.decPred (v : TileEnv) (kind : Nat → Nat) (map payload : List Byte) : Option (List (List Int)) :=
  let bits := bytesToBits map
  let modes := (upFrom 0 v.blocks).map (fun b => bitsVal ((bits.drop (3 * b)).take 3))
  let pb := bytesToBits payload
  match readChoices v.x kind modes pb with
  | none => none
  | some (cs, rest) =>
    let side := roundUp (ceilDiv (pb.length - rest.length) 8) 4
    let lens := (upFrom 0 v.planes).map (fun i => leAt payload (side + 4 * i) 4)
    let o := side + 4 * v.planes
    if roundUp (o + sumNat lens) 4 ≠ payload.length then none else v.decPlanes (cutSegments lens (payload.drop o)) cs

/-- A FLOOR or RAW tile decoded (R82, R135). -/
def TileEnv.decPacked (v : TileEnv) (k s : Nat) (payload : List Byte) : Option (List (List Int)) :=
  let n := v.planes * (v.tw * v.th)
  let bits := bytesToBits payload
  if payload.length ≠ roundUp (ceilDiv (n * k) 8) 4 then none
  else some ((upFrom 0 v.planes).map (fun i => (upFrom (i * (v.tw * v.th)) (v.tw * v.th)).map (fun j =>
    (floorRec s (bitsVal ((bits.drop (j * k)).take k)) : Int))))

/-! ### The tile unit (R74) -/

def unitMode (u : List Byte) : Nat := leAt u 2 1
def unitE (u : List Byte) : Nat := leAt u 3 1
def unitS (u : List Byte) : Nat := leAt u 4 1
def unitRefUse (u : List Byte) : Nat := leAt u 5 1
def unitFlags (u : List Byte) : Nat := leAt u 6 2
def unitPayloadLen (u : List Byte) : Nat := leAt u 8 4
def unitSrcCheck (u : List Byte) : Nat := leAt u 12 4
def unitReconCheck (u : List Byte) : Nat := leAt u 16 4
def unitPayloadCheck (u : List Byte) : Nat := leAt u 20 4
/-- Bytes of the map of a unit of `blocks` blocks. -/
def mapLen (mode blocks : Nat) : Nat := if mode = 0 then roundUp (ceilDiv (3 * blocks) 8) 4 else 0

/-- A tile unit from its parts (R74). -/
def tileUnit (dev pic t mode e s refUse flags src recon w h : Nat) (body : List Byte) (mapBytes : Nat) : List Byte :=
  leBytes 2 t ++ leBytes 1 mode ++ leBytes 1 e ++ leBytes 1 s ++ leBytes 1 refUse ++ leBytes 2 flags ++ leBytes 4 (body.length - mapBytes) ++
    leBytes 4 src ++ leBytes 4 recon ++ leBytes 4 (checkValue dev t pic body).toNat ++ leBytes 1 (w - 1) ++ leBytes 1 (h - 1) ++ [1] ++
    List.replicate 5 0 ++ body

/-- Decode a tile unit's body; none when it is damaged (R196's last case). -/
def TileEnv.decUnit (v : TileEnv) (kind : Nat → Nat) (u : List Byte) : Option (List (List Int)) :=
  let body := u.drop 32
  match unitMode u with
  | 0 => let m := mapLen 0 v.blocks
    v.decPred kind (body.take m) (body.drop m)
  | 1 => v.decPacked (v.d - unitS u) (unitS u) body
  | _ => v.decPacked v.d 0 body

/-! ### Tile check values (R309, R310) -/

/-- Photosite (col, row) of exposure `x` from the planes of a tile (R58). -/
def TileEnv.photosite (v : TileEnv) (planes : List (List Int)) (x row col : Nat) : Int :=
  v.at (nth [] planes (x * v.p * v.p + row % v.p * v.p + col % v.p)) (col / v.p) (row / v.p)

/-- The parcel check values of a reconstruction, in the order of R310. -/
def TileEnv.parcelChecks (v : TileEnv) (dev t pic : Nat) (planes : List (List Int)) : List Word :=
  (upFrom 0 v.x).flatMap (fun x => (upFrom 0 v.h).map (fun row =>
    checkValue dev t pic ((upFrom 0 v.w).flatMap (fun col => leBytes 2 (v.photosite planes x row col).toNat))))

/-- The tile check value of parcel check values (R310). -/
def tileCheck (dev t pic : Nat) (checks : List Word) : Word := checkValue dev t pic (checks.flatMap (fun c => leBytes 4 c.toNat))

def samplesOf (planes : List (List Int)) : List Half := planes.flatten.map (fun x => BitVec.ofNat 16 x.toNat)

end Sys2Proof.Machine
end

