-- ==== Sys2Proof/Machine/Microcode.lean ====
section
/-! DEFINITION. Microwords (R216-R222): the control store, the fields of a microword, its unit fields and the sequencer. What the encodings of the
unit operations mean is no programming interface (R218): their results come with the command that issues the microwords. -/

namespace Sys2Proof.Machine

/-! ### Fields (R218) -/

def mwNext (w : BitVec 256) : Half := w.extractLsb' 0 16
def mwSeq (w : BitVec 256) : Nat := (w.extractLsb' 16 4).toNat
def mwPol (w : BitVec 256) : Bool := w.getLsbD 26
def mwLctr (w : BitVec 256) : Nat := (w.extractLsb' 27 2).toNat
def mwSafe (w : BitVec 256) : Bool := w.getLsbD 29
def mwCmt (w : BitVec 256) : Bool := w.getLsbD 30
def mwVop (w : BitVec 256) : Nat := (w.extractLsb' 32 10).toNat
def mwVd (w : BitVec 256) : Nat := (w.extractLsb' 42 5).toNat
def mwVmask (w : BitVec 256) : Nat := (w.extractLsb' 57 4).toNat
def mwVsat (w : BitVec 256) : Nat := (w.extractLsb' 61 3).toNat
def mwTmop (w : BitVec 256) : Nat := (w.extractLsb' 80 2).toNat
def mwTmv (w : BitVec 256) : Nat := (w.extractLsb' 82 5).toNat
def mwTma (w : BitVec 256) : Nat := (w.extractLsb' 87 5).toNat
/-- Post-increment of TMA. -/
def mwStep (w : BitVec 256) : Nat :=
  let k := (w.extractLsb' 92 4).toNat
  if k = 0 then 0 else 2 ^ (k - 1) * 64
def mwSop (w : BitVec 256) : Nat := (w.extractLsb' 96 8).toNat
def mwSd (w : BitVec 256) : Nat := (w.extractLsb' 104 5).toNat
def mwPop (w : BitVec 256) : Nat := (w.extractLsb' 128 8).toNat
def mwEop (w : BitVec 256) : Nat := (w.extractLsb' 160 8).toNat
def mwCkop (w : BitVec 256) : Nat := (w.extractLsb' 224 8).toNat
def mwEvt (w : BitVec 256) : Nat := (w.extractLsb' 240 8).toNat
/-- Some reserved bit is set. -/
def mwReserved (w : BitVec 256) : Bool := w.getLsbD 31 || decide (w.extractLsb' 119 9 ≠ 0) || decide (w.extractLsb' 248 8 ≠ 0)

/-! ### The control store (R216, R217, R221) -/

/-- First address of the patch RAM, and of what is not implemented. -/
def patchStart : Nat := 0x8000
def storeEnd : Nat := 0x8400

/-- Half `i` of the control store of cluster `n`, two to a microword, as it is fetched. -/
def State.storeHalf (s : State) (n i : Nat) : BitVec 128 :=
  let b : BitVec 128 := BitVec.ofNat 128 (leNat ((s.cluster n).store.read (16 * i) 16))
  if i < 2 * patchStart then Config.romHalf n i ^^^ b else b

def State.storeVerdict (s : State) (n i : Nat) : Verdict := verdict ((s.cluster n).store.syndrome i)

/-- The microword at control store address `a`. -/
def State.microword (s : State) (n a : Nat) : BitVec 256 := s.storeHalf n (2 * a + 1) ++ s.storeHalf n (2 * a)

/-- Where the word of address `a` is fetched from (R221): the lowest-numbered enabled match register decides; no patch word redirects. The sequencer
goes on from there (DEDUCED, log entry 103). -/
def State.fetchAddr (s : State) (n a : Nat) : Nat :=
  if patchStart ≤ a then a
  else match (upFrom 0 64).find? (fun k =>
      let m := s.reg (rTecMatch n k)
      m.getLsbD 31 && decide (m.toNat % 32768 = a)) with
    | some k => patchStart + (if (s.cluster n).page then 512 else 0) + (s.reg (rTecMatch n k)).toNat / 65536 % 512
    | none => a

/-- Address `a` + 1 lies in the same page or, as `a` does, in ROM (R220). -/
def runsOn (a : Nat) : Bool :=
  let b := a + 1
  (decide (b < patchStart)) || (decide (patchStart ≤ a) && decide (b < patchStart + 512)) || (decide (patchStart + 512 ≤ a) && decide (b < storeEnd))

/-! ### The sequencer (R219, R220, R225) -/

/-- A routine is entered; kinds as `routineEntry` numbers them: those from 2 up are maintenance routines, at 0x7000–0x7FFF (R222). -/
def Sequencer.enter (q : Sequencer) (kind : Nat) : Sequencer :=
  let e := (Config.routineEntry kind).toNat
  let a : Half := BitVec.ofNat 16 (if kind < 2 then e % 0x7000 else 0x7000 + e % 0x1000)
  { q with entry := a, uaddr := a, stack := [], gap := 0 }

/-- The class of the routine (R222). -/
def Sequencer.maint (q : Sequencer) : Bool := decide (0x7000 ≤ q.entry.toNat) && decide (q.entry.toNat < 0x8000)

/-- What issuing a microword comes to: the sequencer after it, the word held by WAIT, the routine's end, or a fault. -/
inductive Issue where
  | next (q : Sequencer)
  | hold
  | done
  | fault (f : EngineFault)
deriving DecidableEq, Repr

/-- The word at `a` is a safe point by itself. A held WAIT is one in each of its cycles (R225). -/
def Sequencer.afterSafe (q : Sequencer) (safe : Bool) : Sequencer := { q with gap := (if safe then 0 else q.gap) + 1 }

/-- The next address where the word runs on. -/
def Sequencer.follow (q : Sequencer) (a : Nat) : Issue := if runsOn a then .next { q with uaddr := BitVec.ofNat 16 (a + 1) } else .fault .region

/-- A loop counter after its decrement; the width of a counter is not given, so what one that is 0 becomes is a free value (log entry 7). -/
def loopDown (v : Nat) : Nat := if v = 0 then Config.unstated 27 0 else v - 1

/-- SEQ of the microword `w` at `a` (R219): the sequencer `q` already counts it as issued. -/
def Sequencer.issue (q : Sequencer) (w : BitVec 256) (a : Nat) (m : MicroStep) : Issue :=
  let go : Issue := .next { q with uaddr := mwNext w }
  let t := m.cond != mwPol w
  match mwSeq w with
  | 0 => q.follow a
  | 1 => go
  | 2 => if t then go else q.follow a
  | 3 => if 8 ≤ q.stack.length then .fault .stack else .next { q with uaddr := mwNext w, stack := BitVec.ofNat 16 (a + 1) :: q.stack }
  | 4 => match q.stack with
    | r :: rest => .next { q with uaddr := r, stack := rest }
    | [] => .fault .stack
  | 5 =>
    let v := loopDown (vgetN 0 q.loops (mwLctr w))
    let q := { q with loops := vsetN q.loops (mwLctr w) v }
    if v ≠ 0 then .next { q with uaddr := mwNext w } else q.follow a
  | 6 => .next { q with uaddr := mwNext w + q.dispatch.setWidth 16 }
  | 7 => if t then go else .hold
  | 8 => .done
  | _ => .fault .seq

/-! ### Unit fields (R211, R218) -/

def regZero (_ : Nat) : Word := 0
def maskZero (_ : Nat) : Half := 0

/-- VSAT: 1-4 clip to 0 – (2^(8 + 2k) − 1), 5-7 to the signed 17-, 18- and 19-bit ranges. -/
def vsatClip (k : Nat) (v : Word) : Word :=
  if k = 0 then v
  else if k ≤ 4 then BitVec.ofInt 32 (clipI v.toInt 0 (2 ^ (8 + 2 * k) - 1))
  else BitVec.ofInt 32 (clipI v.toInt (-(2 ^ (11 + k))) (2 ^ (11 + k) - 1))

/-- Lanes that a vector operation writes: a mask register, all of them for VMASK 8, those of the command above. -/
def vectorLanes (u : Datapath) (w : BitVec 256) (m : MicroStep) : Half :=
  if mwVmask w < 8 then mapGet maskZero u.mask (mwVmask w) else if mwVmask w = 8 then 0xFFFF else m.lanes

/-- Vector register `r` takes lane values where `on` has a bit. -/
def setVector (u : Datapath) (r : Nat) (on : Half) (v : Nat → Word) : Datapath :=
  { u with vector := (upFrom 0 16).foldl (fun x l => if on.getLsbD l then mapSet regZero x (16 * r + l) (v l) else x) u.vector }

def setScalar (u : Datapath) (r : Nat) (v : Word) : Datapath := { u with scalar := mapSet regZero u.scalar r v }

/-- The units after microword `w`: each holds what its own field makes of it; one whose field is 0 is idle. `loaded` is what TMOP reads. -/
def actUnits (u : Datapath) (w : BitVec 256) (m : MicroStep) (loaded : Option (Nat → Word)) : Datapath :=
  let n := m.units
  let v := if mwVop w = 0 then u
    else { setVector u (mwVd w) (vectorLanes u w m) (fun l => vsatClip (mwVsat w) (nth 0 m.vector l)) with mask := n.mask }
  let v := match loaded with
    | some f => setVector v (mwTmv w) 0xFFFF f
    | none => v
  let v := if mwSop w = 0 then v else setScalar v (mwSd w) m.scalar
  let v := if mwTmop w = 0 then v else setScalar v (mwTma w) (mapGet regZero v.scalar (mwTma w) + BitVec.ofNat 32 (mwStep w))
  let v := if mwPop w = 0 then v else { v with window := n.window }
  let v := if mwEop w = 0 then v else { v with contexts := n.contexts, ri := n.ri, header := n.header }
  if mwCkop w = 0 then v else { v with checks := n.checks }

/-- Loop counters and dispatch register after a scalar operation. -/
def Sequencer.act (q : Sequencer) (w : BitVec 256) (m : MicroStep) : Sequencer :=
  if mwSop w = 0 then q else { q with dispatch := m.dispatch, loops := (upFrom 0 4).foldl (fun v k => vsetN v k (nth 0 m.loops k)) q.loops }

/-! ### Tile memory (R212) -/

def tileEnd : Nat := 0x30000
def unitRegion : Nat := 0x10000
def recRegion : Nat := 0x20000

/-- The engine addresses that TMOP reads: 64 B from TMA up, or the words of a gather; none outside the regions. -/
def tileReads (u : Datapath) (w : BitVec 256) (m : MicroStep) : List (Nat × Nat) :=
  let a := (mapGet regZero u.scalar (mwTma w)).toNat
  let l := if mwTmop w = 1 then [(a, 64)] else if mwTmop w = 3 then (upFrom 0 16).map (fun k => (nth 0 m.gather k, 4)) else []
  l.filter (fun p => decide (p.1 + p.2 ≤ tileEnd))

/-- Lane values that TMOP loads; from outside the regions those of the command. -/
def Engine.loads (x : Engine) (w : BitVec 256) (m : MicroStep) : Option (Nat → Word) :=
  let a := (mapGet regZero x.units.scalar (mwTma w)).toNat
  let lane := fun (p : Nat) (l : Nat) => if p + 4 ≤ tileEnd then BitVec.ofNat 32 (leNat (x.tm.read p 4)) else nth 0 m.vector l
  if mwTmop w = 1 then some (fun l => lane (a + 4 * l) l) else if mwTmop w = 3 then some (fun l => lane (nth 0 m.gather l) l) else none

/-- What TMOP stores: an engine address and 64 bytes. -/
def Engine.stores (x : Engine) (w : BitVec 256) : Option (Nat × List Byte) :=
  let a := (mapGet regZero x.units.scalar (mwTma w)).toNat
  if mwTmop w = 2 ∧ a + 64 ≤ tileEnd then
    some (a, (upFrom 0 16).flatMap (fun l => leBytes 4 (mapGet regZero x.units.vector (16 * mwTmv w + l)).toNat))
  else none

end Sys2Proof.Machine
end

