-- ==== Sys2Proof/Machine/Engines.lean ====
section
/-! DEFINITION. The tile engines (R209-R237): dispatch, the interruption of routines, the capture tile from its transfer to its
hand-over (R74-R82, R117, R136-R140, R214), faults, maintenance routines and their commits, and debug halts. -/

namespace Sys2Proof.Machine

/-- An entry of a list, replaced. -/
def setNth {α : Type} (l : List α) (i : Nat) (x : α) : List α := modNth (fun _ => x) l i

/-! ### Events of an engine (R210, R231, R405) -/

/-- Source 256 + j with a record; the spec gives its cause byte no numbers (log entry 7). -/
def State.engineEvent (s : State) (j cause status tileIx pic : Nat) : State :=
  s.raiseRec (256 + j) (Config.unstated 4 cause) status tileIx pic 0

/-- Picture and tile in hand, as an event record gives them. -/
def EngineRun.pic : EngineRun → Nat
  | .capture k _ => k
  | _ => 0xFFFFFFFF
def EngineRun.tile : EngineRun → Nat
  | .capture _ t => t
  | .decode t => t
  | _ => 0xFFFF

def State.modEngine (s : State) (j : Nat) (f : Engine → Engine) : State := s.setEngine j (f (s.engine j))

/-- The 272 engines. -/
def allEngines : List Nat := upFrom 0 272

/-- Engine `j` is in service in a cluster whose domain is ON. -/
def State.engineUp (s : State) (j : Nat) : Bool := s.inService j && decide ((s.dom (12 + j / 16)).st = .on)

/-! ### Abandonment (R229, R232) -/

/-- A band leaves the bound of R26 and R35: counted once in MAG_BAND_OVERRUN (R227, R232). -/
def State.overrunBand (s : State) (k t : Nat) : State :=
  match s.picOf k with
  | none => s
  | some p =>
    let b := t / tilesX (s.active unitCode)
    if p.overrun.contains b then s
    else ((s.magsOf (s.ledgerOf k)).foldl (fun s m => s.bump (rMagBandOverrun m.1) 1) s).modPic k (fun p => { p with overrun := p.overrun ++ [b] })

/-- A capture tile goes back to the front of the dispatch queue (R232). -/
def State.requeueTile (s : State) (k t : Nat) : State :=
  if (s.picOf k).isSome then ({ s with tileQueue := (k, t) :: s.tileQueue }).overrunBand k t else s

/-- The routine of engine `j` is abandoned: a capture tile is dispatched again, a maintenance request restarts later (R229, R232); a
decode tile is simply not decoded yet (R194). -/
def State.abandonRun (s : State) (j : Nat) : State :=
  let x := s.engine j
  let s := s.setEngine j { x with run := .idle }
  match x.run with
  | .capture k t => s.requeueTile k t
  | .maint r => { s with maintQueue := { r with abandoned := r.abandoned + 1 } :: s.maintQueue }.bump (rTecMaintAbandon (j / 16)) 1
  | _ => s

/-- A routine ends at once (R231): it is abandoned, and with it what was latched for its next safe point: a capture tile that was to pre-empt it goes
back too (R232). -/
def State.endAtOnce (s : State) (j : Nat) : State :=
  let x := s.engine j
  let s := (s.setEngine j { x with stop := false, preempt := none, fault := none }).abandonRun j
  match x.preempt with
  | some (k, t) => s.requeueTile k t
  | none => s

/-! ### Safe points (R226) -/

/-- A statistics snapshot (R226, R237); the cycles held at WAIT microwords depend on the microcode, which the spec does not give (log
entry 7). -/
def State.takeSnapshot (s : State) (j : Nat) : State :=
  let x := s.engine j
  let w := Nat.min (Config.unstated 6 s.freeCount) x.busy
  let s := (s.setReg (rTeSnapBusy (j / 16) (j % 16)) (BitVec.ofNat 32 x.busy)).setReg (rTeSnapWait (j / 16) (j % 16)) (BitVec.ofNat 32 w)
  { s with freeCount := s.freeCount + 1 }.setEngine j { x with busy := 0, snapshot := false }

/-- Engine `j` halts for debug (R227). -/
def State.haltEngine (s : State) (j : Nat) : State :=
  let x := s.engine j
  let s := s.setEngine j { x with halt := false, halted := true }
  match x.run with
  | .capture k t => s.overrunBand k t
  | _ => s

/-- Requests 4 and 5 of R226: at a safe point, or at once on an idle engine. -/
def State.lateRequests (s : State) (j : Nat) : State :=
  let s := if (s.engine j).snapshot then s.takeSnapshot j else s
  if (s.engine j).halt then s.haltEngine j else s

/-- What a tile's coding takes from the moment it begins (R116, R117): which entries of its picture's list are available. -/
def State.beginCapture (s : State) (j k t : Nat) : State :=
  match s.picOf k with
  | none => s.modEngine j (fun x => { x with run := .idle })
  | some p =>
    let ty := t / tilesX (s.active unitCode)
    let ok := p.refs.map (fun r : RefEntry => decide (r.kind = 1) || (decide (r.slot.toNat < 16) && s.viewAvailable (fin 16 r.slot.toNat) ty))
    s.modEngine j (fun x => { x with run := .capture k t, viewOk := ok, seq := x.seq.enter 0 })

/-- An engine leaves service (R231): with a tile memory or register fault a kind 1 proposal is formed (R515, R519); at a take
boundary the boundary's rule applies at once (R516). -/
def State.engineOut (s : State) (j : Nat) (f : EngineFault) : State :=
  let s := s.modEngine j (fun x => { x with out := some f, fault := none })
  let s := if f = .tileMemory ∨ f = .register then s.propose 1 j 2 1 else s
  if s.atBoundary then s.takeBoundary else s

/-- The latched requests of R226 in their order, at a safe point of a tile routine or at the release of a halted one. -/
def State.safePoint (s : State) (j : Nat) : State :=
  let x := s.engine j
  match x.run with
  | .maint _ => s
  | .idle => s.lateRequests j
  | _ =>
    match x.fault with
    | some f => ((s.endAtOnce j).engineOut j f).lateRequests j
    | none =>
      let s := if x.stop then s.setEngine j { x with stop := false, run := .idle } else s
      match x.preempt with
      | some (k, t) =>
        let s := if x.stop then s else s.bump (rPxyPlayPreempts 0) 1
        ((s.modEngine j (fun y => { y with preempt := none })).beginCapture j k t).lateRequests j
      | none => s.lateRequests j

/-- STATISTICS_SNAPSHOT (R226): idle engines at once, tile routines at their next safe point; a maintenance routine is abandoned (R229). -/
def State.snapshotEngine (s : State) (j : Nat) : State :=
  match (s.engine j).run with
  | .idle => s.takeSnapshot j
  | .maint _ => (s.abandonRun j).takeSnapshot j
  | _ => s.modEngine j (fun x => { x with snapshot := true })

def execStatisticsSnapshot (cluster : Fin 17) (s : State) : Host.Outcome State Fault Refusal :=
  .next ((upFrom (16 * cluster.1) 16).foldl (fun s j => s.snapshotEngine j) s)

/-! ### Debug halts (R227) -/

/-- An engine is halted or its request is pending. -/
def State.debugBusy (s : State) : Bool := s.engines.any (fun e => e.2.halt || e.2.halted)

def State.requestHalt (s : State) (j : Nat) : State :=
  match (s.engine j).run with
  | .idle => s.haltEngine j
  | .maint _ => (s.abandonRun j).haltEngine j
  | _ => s.modEngine j (fun x => { x with halt := true })

/-- Release: the held engine continues, and what was latched meanwhile is taken. -/
def State.releaseHalts (s : State) : State :=
  s.engines.foldl (fun s e => if e.2.halt || e.2.halted then
      let x := s.engine e.1
      let s := s.setEngine e.1 { x with halt := false, halted := false }
      if x.halted then s.safePoint e.1 else s
    else s) s

/-! ### Dispatch (R147, R233) -/

/-- Engine `j` may take a capture tile. -/
def State.qualifies (s : State) (j : Nat) : Bool :=
  let x := s.engine j
  s.engineUp j && x.preempt.isNone && (match x.run with
    | .capture _ _ => false
    | .maint r => !r.guarded
    | _ => true)

/-- Steps from logical engine `last` up to `l`, wrapping from 255 to 0. -/
def rotation (last l : Nat) : Nat := (l + 255 - last) % 256

/-- The first qualifying engine after the one given the previous tile. -/
def State.nextEngine (s : State) : Option Nat :=
  (allEngines.filter s.qualifies).foldl (fun b j => match b with
    | none => some j
    | some i => if rotation s.lastEngine ((s.engine j).logical.getD 0) < rotation s.lastEngine ((s.engine i).logical.getD 0)
        then some j else some i) none

/-- e of a tile at its dispatch (R147): E_TAB in a B take, else 0. -/
def State.boundOf (s : State) (p : Picture) : Nat :=
  let l := s.ledger (s.ledgerOf p.number)
  if codeMode (s.active unitCode) = 1 then ldgETab (s.setOf p.old unitLedger) (Nat.min 15 (16 * l.total / l.sz.cap)) else 0

/-- Tile `t` of picture `p` goes to engine `j` (R226, R229, R233); one that is halted holds up its band (R227). -/
def State.dispatchTo (s : State) (j : Nat) (p : Picture) (t : Nat) : State :=
  let b := t / tilesX (s.active unitCode)
  let e := s.boundOf p
  let s := { s with lastEngine := (s.engine j).logical.getD s.lastEngine }.modEngine j
    (fun x => { x with e := e, floorTile := p.floorBands.contains b })
  let s := if (s.engine j).halted then s.overrunBand p.number t else s
  match (s.engine j).run with
  | .decode _ => s.modEngine j (fun x => { x with preempt := some (p.number, t) })
  | .maint _ => (s.abandonRun j).beginCapture j p.number t
  | _ => s.beginCapture j p.number t

/-- TILE_DISPATCH (R233): later tiles wait behind one that is not ready or finds no engine. -/
def State.tileDispatch (s : State) : State :=
  match s.tileQueue with
  | [] => s
  | (k, t) :: q =>
    match s.picOf k with
    | none => { s with tileQueue := q }
    | some p =>
      if p.dropped.isSome then { s with tileQueue := q }
      else if !s.tileReady p t then s
      else match s.nextEngine with
        | none => s
        | some j => { s with tileQueue := q }.dispatchTo j p t

def execTileDispatch (s : State) : Host.Outcome State Fault Refusal := .next s.tileDispatch

/-! ### The capture tile (R214) -/

/-- What coding tile `t` of picture `p` at bound `e` takes (R56-R58, R96, R97). -/
def State.tileEnv (s : State) (p : Picture) (t e : Nat) : TileEnv :=
  let c := s.active unitCode
  { d := codeDepth c, p := codePeriod c, x := codeExposures c, g := leAt c 40 4, xexp := decide (refXexp (s.setOf p.old unitRef) = 1),
    w := tileW c t, h := tileH c t, ox := t % tilesX c * 256, oy := t / tilesX c * 64, pw := codeWidth c, ph := codeHeight c, e := e,
    ref := fun k i u v => match p.refs[k]? with
      | some r => s.slotSample (fin 16 r.slot.toNat) i v u
      | none => 0 }

/-- The ring slot that holds picture `p` (R474). -/
def State.ringOf (s : State) (p : Picture) : Nat := leAt (s.setOf p.old unitSns) 24 8 + p.ring * ringSlotBytes (s.active unitCode)

/-- Parcel numbers of tile `t`, exposure after exposure, line after line (R310). -/
def tileParcels (c : List Byte) (t : Nat) : List Nat :=
  (upFrom 0 (codeExposures c)).flatMap (fun x => (upFrom (t / tilesX c * 64) (tileH c t)).map (fun y => parcelIx c (t % tilesX c) y x))

/-- Photosites of a parcel from its 512 bytes. -/
def halves : List Byte → List Half
  | a :: b :: r => (b ++ a) :: halves r
  | _ => []

/-- SRC of a tile, in plane index order and raster order (R58, R212), from its lines. -/
def TileEnv.srcOf (v : TileEnv) (lines : List (List Half)) : List Half :=
  (upFrom 0 v.planes).flatMap (fun i =>
    let m := i % (v.p * v.p)
    (upFrom 0 v.th).flatMap (fun y =>
      let line := nth [] lines (v.exposure i * v.h + y * v.p + m / v.p)
      (upFrom 0 v.tw).map (fun u => nth 0 line (u * v.p + m % v.p))))

/-- Where the lines of tile `t` lie, and their tags (R474). -/
def State.tileAreas (s : State) (p : Picture) (t : Nat) : List (Nat × Nat) :=
  (tileParcels (s.active unitCode) t).map (fun q => (s.ringOf p + 512 * q, 2 * tileW (s.active unitCode) t))

def State.tagAreas (s : State) (p : Picture) (t : Nat) : List (Nat × Nat) :=
  (tileParcels (s.active unitCode) t).map (fun q => (s.ringOf p + 512 * parcelsN (s.active unitCode) + 16 * q, 16))

/-- The transfer of a tile (R214, R310): lines by address, check values by the exposure and line of each ACCEPTED tag. -/
def State.tileLines (s : State) (p : Picture) (t : Nat) : List (List Half) := (s.tileAreas p t).map (fun a => halves (s.peek a.1 a.2))

def State.tileChecks (s : State) (p : Picture) (t : Nat) (regs : List Word) : List Word :=
  let c := s.active unitCode
  (s.tagAreas p t).foldl (fun l a =>
    let b := s.peek a.1 a.2
    if leAt b 12 1 % 2 = 1 then setNth l (leAt b 7 1 * tileH c t + leAt b 6 1) (BitVec.ofNat 32 (leAt b 8 4)) else l) regs

/-- Some word of the tile's transfer is poisoned or uncorrectable (R304). -/
def State.tilePoison (s : State) (p : Picture) (t : Nat) : Bool := (s.tileAreas p t).any (fun a => s.peekBad a.1 a.2)

/-- Entry `k` of the list may be used in a tile (R102, R117): view entries only when every view entry is available. -/
def usable (p : Picture) (viewOk : List Bool) (k : Nat) : Bool :=
  match p.refs[k]? with
  | some r => decide (r.slot.toNat < 16) && (decide (r.kind = 1) || viewOk.all (fun b => b))
  | none => false

/-- Kind of entry `k` in a tile, 0 where it may not be used. -/
def usedKind (p : Picture) (viewOk : List Bool) (k : Nat) : Nat :=
  if usable p viewOk k then ((p.refs[k]?).map (fun r => r.kind.toNat)).getD 0 else 0

def refUseOf (p : Picture) (viewOk : List Bool) : Nat :=
  sumNat ((upFrom 0 4).map (fun k => if usable p viewOk k then 2 ^ k else 0))

/-- A block choice that the rules allow (R79, R81, R97, R117): anything else is coded INTRA_W. -/
def legalChoice (x : Nat) (missing : Bool) (kind : Nat → Nat) (c : BlockChoice) : BlockChoice :=
  let ok := !missing && decide (c.mv.length = x) &&
    c.mv.all (fun a => decide (-128 ≤ a.1) && decide (a.1 ≤ 128) && decide (-64 ≤ a.2) && decide (a.2 ≤ 64)) &&
    (match c.mode with
     | .inter => decide (kind c.refIdx.1 = 1)
     | .view => decide (kind c.refIdx.1 = 2)
     | _ => decide (kind c.refIdx.1 ≠ 0))
  if isInter c.mode then (if ok then c else { c with mode := .intraW, refIdx := 0, mv := [] }) else { c with refIdx := 0, mv := [] }

def intraBlock : BlockChoice := { mode := .intraW, refIdx := 0, mv := [], t := [] }

/-- The choices for every block of the tile. -/
def legalChoices (blocks x : Nat) (missing : Bool) (kind : Nat → Nat) (l : List BlockChoice) : List BlockChoice :=
  (upFrom 0 blocks).map (fun b => legalChoice x missing kind (nth intraBlock l b))

/-- A SKIP block as an INTER or VIEW block of the same vectors. -/
def unskip (kind : Nat → Nat) (c : BlockChoice) : BlockChoice :=
  if c.mode = .skip then { c with mode := if kind c.refIdx.1 = 2 then .view else .inter } else c

/-- Every sample of the reconstruction lies within `e` of the source (R9's bound). -/
def withinBound (e : Nat) (src : List Half) (planes : List (List Int)) : Bool :=
  (src.zip planes.flatten).all (fun a => decide (((a.1.toNat : Int) - a.2).natAbs ≤ e))

/-- PRED coding with the encoder's choices; SKIP stands only where the bound holds without a residual (R99, R122). -/
def TileEnv.codePred (v : TileEnv) (kind : Nat → Nat) (src : List Half) (cs : List BlockChoice) : List (List Int) × List Byte × List Byte :=
  let r := v.encPred src cs
  if withinBound v.e src r.1 then r else v.encPred src (cs.map (unskip kind))

/-- What the reference fetches of the tile read (R98): the rows the taps reach, of every inter block and plane. -/
def State.fetchAreas (s : State) (p : Picture) (v : TileEnv) (cs : List BlockChoice) : List (Nat × Nat) :=
  let c := s.active unitCode
  let wp : Int := v.pw / v.p
  let hp : Int := v.ph / v.p
  ((cs.zip (upFrom 0 cs.length)).filter (fun a => isInter a.1.mode)).flatMap (fun a => (upFrom 0 v.planes).flatMap (fun i =>
    let mv := nth (0, 0) a.1.mv (v.exposure i)
    let lo : Int → Int := fun m => if m % 2 = 0 then 0 else 1
    let x0 := clipI ((v.ox / v.p + v.u0 a.2 : Nat) + mv.1 / 2 - lo mv.1) 0 (wp - 1)
    let x1 := clipI ((v.ox / v.p + v.u0 a.2 + v.n - 1 : Nat) + mv.1 / 2 + 2 * lo mv.1) 0 (wp - 1)
    let y0 := clipI ((v.oy / v.p + v.v0 a.2 : Nat) + mv.2 / 2 - lo mv.2) 0 (hp - 1)
    let y1 := clipI ((v.oy / v.p + v.v0 a.2 + v.n - 1 : Nat) + mv.2 / 2 + 2 * lo mv.2) 0 (hp - 1)
    match (p.refs[a.1.refIdx.1]?).bind (fun r => (s.slot (fin 16 r.slot.toNat)).base) with
    | some b => (upFrom y0.toNat (y1 - y0 + 1).toNat).map (fun y => (b + planeOffset c i y x0.toNat, 2 * (x1 - x0 + 1).toNat))
    | none => []))

/-- A tile as coded: its form, its body with the bytes of the map, its e, s and ref_use, and the encoder's reconstruction. -/
structure CodedTile where
  mode : Nat
  body : List Byte
  map : Nat
  e : Nat
  s : Nat
  refUse : Nat
  planes : List (List Int)

/-- RAW coding (R82). -/
def TileEnv.codeRaw (v : TileEnv) (src : List Half) : CodedTile :=
  { mode := 2, body := packPayload v.d 0 src, map := 0, e := 0, s := 0, refUse := 0, planes := (upFrom 0 v.planes).map (v.planeOf src) }

/-- FLOOR coding (R82, R135). -/
def TileEnv.codeFloor (v : TileEnv) (s : Nat) (src : List Half) : CodedTile :=
  { mode := 1, body := packPayload (v.d - s) s src, map := 0, e := 0, s := s, refUse := 0
    planes := (upFrom 0 v.planes).map (fun i => (v.planeOf src i).map (fun x => (floorRec s (x.toNat / 2 ^ s) : Int))) }

/-- PRED coding, or RAW where PRED would be longer (R78, R213) or the encoder prefers it. -/
def TileEnv.codeTile (v : TileEnv) (kind : Nat → Nat) (refUse : Nat) (src : List Half) (cs : List BlockChoice) (preferRaw : Bool) : CodedTile :=
  let r := v.codePred kind src cs
  let raw := v.codeRaw src
  if preferRaw || decide (raw.body.length < r.2.1.length + r.2.2.length) then raw
  else { mode := 0, body := r.2.1 ++ r.2.2, map := r.2.1.length, e := v.e, s := 0, refUse := refUse, planes := r.1 }

/-- recon_check of a reconstruction (R310). -/
def TileEnv.reconCheck (v : TileEnv) (dev t k : Nat) (planes : List (List Int)) : Word :=
  tileCheck dev t k (v.parcelChecks dev t k planes)

/-- What the decode routine makes of a coded tile (R137). -/
def TileEnv.decodeBack (v : TileEnv) (kind : Nat → Nat) (k : CodedTile) : List (List Int) :=
  let u := tileUnit 0 0 0 k.mode k.e k.s k.refUse 0 0 0 v.w v.h k.body k.map
  let w := { v with e := k.e, xexp := v.xexp && decide (k.mode = 0) }
  (w.decUnit kind u).getD k.planes

/-- The tile as it is committed: its unit, flags and reconstruction, and the INTEGRITY events of R138. -/
structure FinishedTile where
  unit : List Byte
  mode : Nat
  flags : Nat
  planes : List (List Int)
  recon : Word
  events : Nat

def flagIf (b : Bool) (i : Nat) : Nat := if b then 2 ^ i else 0

/-- R75, R76, R137, R138: `lossless` in an L take, `budget` on a budget floor tile, `missing` under R117. -/
def TileEnv.finish (v : TileEnv) (dev t k : Nat) (lossless budget missing : Bool) (kind : Nat → Nat) (src : List Half) (check : Word)
    (c : CodedTile) : FinishedTile :=
  let again := v.decodeBack kind c
  let bad1 := lossless && decide (c.mode = 0) && decide (v.reconCheck dev t k again ≠ check)
  let c2 := if bad1 then v.codeRaw src else c
  let planes := if lossless then v.decodeBack kind c2 else c2.planes
  let recon := v.reconCheck dev t k planes
  let compared := lossless && !(decide (c2.mode = 1) && decide (c2.s ≠ 0))
  let agree := decide (recon = check)
  let flags := flagIf (v.xexp && decide (c2.mode = 0)) tfXexp + flagIf missing tfViewMissing + flagIf bad1 tfRawRecode +
    flagIf budget tfBudgetFloor + flagIf (lossless && !agree) tfSrcMismatch + flagIf (compared && agree) tfVerified +
    flagIf (decide (v.w < 256) || decide (v.h < 64)) tfPartial
  { unit := tileUnit dev k t c2.mode c2.e c2.s c2.refUse flags check.toNat recon.toNat v.w v.h c2.body c2.map
    mode := c2.mode, flags := flags, planes := planes, recon := recon
    events := (if bad1 then 1 else 0) + (if compared && !agree then 1 else 0) }

/-- The REF_TILE packet of a tile for destination `m` (R445): the fields from byte 16 of the header. -/
def State.refTilePacket (s : State) (p : Picture) (t m : Nat) (v : TileEnv) (f : FinishedTile) : SluPacket :=
  let c := s.active unitCode
  let r := s.setOf p.old unitRef
  let fields := leBytes 2 (codeRank c) ++ leBytes 2 t ++ leBytes 4 p.number ++ leBytes 8 p.ptp.toNat ++ leBytes 2 v.pw ++ leBytes 2 v.ph ++
    [BitVec.ofNat 8 v.d, BitVec.ofNat 8 v.p, BitVec.ofNat 8 v.x, 0] ++ leBytes 4 f.recon.toNat ++ List.replicate 20 0
  let data := (samplesOf f.planes).flatMap (fun x => leBytes 2 x.toNat)
  { kind := .refTile, bytes := 64 + data.length
    pkt := some { type := 5, rsp := false, bcast := false, host := false, dst := BitVec.ofNat 16 (refDest r m), src := s.take.deviceId,
                  hops := 0, status := 0, tag := 0, fields := fields, payload := data, bad := [] }
    rtp := none, ntp := 0, frame := [], since := none }

def sampleBytes (l : List Half) : List Byte := l.flatMap (fun x => leBytes 2 x.toNat)

/-- What a routine leaves in the tile memory: SRC, UNIT whose header is in the tile header register, REC (R212, R214, R215). -/
def Engine.hold (x : Engine) (src : List Half) (unit : List Byte) (recon : List Half) : Engine :=
  { x with tm := ((x.tm.write 0 (sampleBytes src)).write unitRegion (unit.drop 32)).write recRegion (sampleBytes recon)
           units := { x.units with header := unit.take 32 } }

def Engine.withChecks (x : Engine) (regs : List Word) : Engine := { x with units := { x.units with checks := regs } }

/-- The hand-over (R139, R214): the unit to assembly, the reconstruction to the slot, REF_TILE packets to Sluice, the engine idle. -/
def State.handOver (s : State) (j : Nat) (p : Picture) (t : Nat) (v : TileEnv) (f : FinishedTile) : State :=
  let c := s.active unitCode
  let u : TileUnit := { tile := t, bytes := f.unit, mode := f.mode, flags := BitVec.ofNat 16 f.flags }
  let s := s.modPic p.number (fun p => { p with units := p.units ++ [u], tilesOut := p.tilesOut.filter (fun x => x ≠ t) })
  let s := (s.modEngine j (fun x => { x with run := .idle })).bump (rTeTiles (j / 16) (j % 16)) 1
  let s := match p.slot with
    | none => s
    | some i =>
      let n := refNDest (s.setOf p.old unitRef)
      let whole := decide (tilesN c ≤ p.units.length + 1)
      let s := (s.writeSlotTile i t (samplesOf f.planes)).modSlot i (fun x => { x with sends := x.sends + n, final := whole })
      (upFrom 0 n).foldl (fun s m => s.sluOffer (8 + m) (s.refTilePacket p t m v f)) s
  s.lateRequests j

/-- TILE_COMMIT (R137-R140, R214): an engine whose capture tile has all its parcels completes it; `choice` and `preferRaw` are the
encoder's. -/
def State.tileCommit (s : State) (j : Nat) (choice : List BlockChoice) (preferRaw : Bool) : State :=
  let x := s.engine j
  match x.run with
  | .capture k t =>
    match s.picOf k with
    | none => s
    | some p =>
      if x.halted || x.stop || x.fault.isSome || p.dropped.isSome || !s.tileArrived p t true then s
      else
        let c := s.active unitCode
        let dev := s.take.deviceId.toNat
        let v := s.tileEnv p t x.e
        let kind := usedKind p x.viewOk
        let missing := (p.refs.zip x.viewOk).any (fun a : RefEntry × Bool => decide (a.1.kind = 2) && !a.2)
        let src := v.srcOf (s.tileLines p t)
        let regs := s.tileChecks p t ((x.units.checks ++ List.replicate 128 0).take 128)
        let check := tileCheck dev t k (regs.take (v.x * v.h))
        let floor := x.floorTile || decide (codeMode c = 2)
        let cs := legalChoices v.blocks v.x missing kind choice
        let fetched := if floor then [] else s.fetchAreas p v cs
        let badRef := fetched.any (fun a => s.peekBad a.1 a.2)
        let badSrc := s.tilePoison p t
        let coded := if floor then v.codeFloor (ldgFloorShift (s.setOf p.old unitLedger)) src
          else v.codeTile kind (refUseOf p x.viewOk) src cs (preferRaw || badRef)
        let f := v.finish dev t k (decide (codeMode c = 0)) x.floorTile missing kind src check coded
        let s := s.noteAreas (s.tileAreas p t ++ s.tagAreas p t ++ fetched.dedup)
        let s := if badSrc then s.engineEvent j 1 stUncorrectable t k else s
        let s := if badRef then s.engineEvent j 1 stUncorrectable t k else s
        let s := (upFrom 0 f.events).foldl (fun s _ => s.engineEvent j 0 stIntegrity t k) s
        let s := s.modEngine j (fun x => (x.hold src f.unit (samplesOf f.planes)).withChecks regs)
        s.handOver j p t v f
  | _ => s

def execTileCommit (e : Fin 272) (choice : List BlockChoice) (preferRaw : Bool) (s : State) : Host.Outcome State Fault Refusal :=
  .next (s.tileCommit e.1 choice preferRaw)

/-! ### Faults (R231) -/

def faultCode : EngineFault → Nat
  | .uncorrRam => 2
  | .uncorrRom => 3
  | .seq => 4
  | .reserved => 5
  | .stack => 6
  | .region => 7
  | .safeGap => 8
  | .tileMemory => 9
  | .register => 10

/-- A cluster leaves service: every engine that fetches from it abandons its routine at once. -/
def State.clusterOut (s : State) (n : Nat) (f : EngineFault) : State :=
  let s := s.modCluster n (fun c => { c with out := some f })
  let s := (allEngines.filter (fun j => s.storeOf j = n)).foldl (fun s j => (s.endAtOnce j).lateRequests j) s
  if s.atBoundary then s.takeBoundary else s

/-- A latched fault takes the engine out at the next safe point, or at the next microword of a maintenance routine. -/
def State.latchFault (s : State) (j : Nat) (f : EngineFault) : State :=
  match (s.engine j).run with
  | .maint _ => ((s.endAtOnce j).engineOut j f).lateRequests j
  | _ => s.modEngine j (fun x => { x with fault := some (x.fault.getD f) })

/-- A fault of a running engine (R231); the status byte of its record is stated for none but an uncorrectable word (log entry 7). -/
def State.teFault (s : State) (j : Nat) (f : EngineFault) : State :=
  let x := s.engine j
  let n := s.storeOf j
  let st := if EngineFault.isMicrocode f ∨ f = .register then freeStatus (Config.unstated 5 (faultCode f)) else stUncorrectable
  let s := s.engineEvent j (faultCode f) st x.run.tile x.run.pic
  match f with
  | .uncorrRam => ((s.orReg (rTecStat n) 2).bump (rTecCsUncorr n) 1).clusterOut n f
  | .uncorrRom => ((s.orReg (rTecStat n) 2).bump (rTecCsUncorr n) 1).clusterOut n f
  | .tileMemory => ((s.orReg (rTecStat (j / 16)) 8).bump (rTecTmUncorr (j / 16)) 1).latchFault j f
  | .register => s.latchFault j f
  | _ => (((s.orReg (rTecStat n) 4).endAtOnce j).engineOut j f).lateRequests j

/-- Reads of code words of engine `j`'s tile memory (R235, R301, R305): corrected ones count, an uncorrectable one is a fault. -/
def State.noteTile (s : State) (j : Nat) (vs : List Verdict) : State :=
  let s := s.siteWords siteTile vs
  let k := (vs.filter (·.corrected)).length
  let s := if k = 0 then s else s.bump (rTecTmCorr (j / 16)) k
  if vs.any (·.bad) then s.teFault j .tileMemory else s

/-- Corrected control store halves (R217, R235). -/
def State.noteStore (s : State) (n : Nat) (vs : List Verdict) : State :=
  let k := (vs.filter (·.corrected)).length
  let s := s.siteWords siteStore vs
  if k = 0 then s else (s.orReg (rTecStat n) 1).bump (rTecCsCorr n) k

/-! ### Issuing microwords (R216-R221, R225-R227) -/

/-- Some request of R226 waits for a safe point. -/
def Engine.latched (x : Engine) : Bool := x.fault.isSome || x.stop || x.preempt.isSome || x.snapshot || x.halt

/-- TMOP of `w`: its reads are checked, its stores made; a store of part of a code word reads that word first (R546). -/
def State.tileAccess (s : State) (j : Nat) (w : BitVec 256) (m : MicroStep) : State :=
  let x := s.engine j
  let s := match x.stores w with
    | some (a, b) => s.modEngine j (fun x => { x with tm := x.tm.write a b })
    | none => s
  let part := match x.stores w with
    | some (a, b) => (partWords a b.length).map (fun i => verdict (x.tm.syndrome i))
    | none => []
  let vs := part ++ (tileReads x.units w m).flatMap (fun p => x.tm.verdicts p.1 p.2)
  if vs = [] then s else s.noteTile j vs

/-- Engine `j` fetches its next microword and issues it (R217-R221, R225); whether it goes on. At a safe point what is latched is taken first, and a
routine's last word waits for the command of its outcome (log entry 104). -/
def State.issueStep (s : State) (j : Nat) (m : MicroStep) : State × Bool :=
  let x := s.engine j
  let n := s.storeOf j
  let a := s.fetchAddr n x.seq.uaddr.toNat
  if storeEnd ≤ a then (s.teFault j .region, false)
  else
    let vs := [s.storeVerdict n (2 * a), s.storeVerdict n (2 * a + 1)]
    let s := s.noteStore n vs
    let w := s.microword n a
    if vs.any (·.bad) then (s.teFault j (if a < patchStart then .uncorrRom else .uncorrRam), false)
    else if mwReserved w then (s.teFault j .reserved, false)
    else if mwSafe w && !x.seq.maint && x.latched then (s.safePoint j, false)
    else if !x.seq.maint && !mwSafe w && decide (64 ≤ x.seq.gap) then (s.teFault j .safeGap, false)
    else match (x.seq.afterSafe (mwSafe w)).issue w a m with
      | .fault f => (s.teFault j f, false)
      | .done => (s, false)
      | .hold => if !x.seq.maint && x.latched then (s.safePoint j, false)
        else (s.modEngine j (fun x => { x with seq := { x.seq with gap := 0 } }), true)
      | .next q =>
        let s := (s.modEngine j (fun y => { y with seq := q.act w m, units := actUnits y.units w m (x.loads w m) })).tileAccess j w m
        (if mwEvt w = 0 then s else s.raiseRec (256 + j) (mwEvt w) (freeStatus (Config.unstated 26 (mwEvt w))) x.run.tile x.run.pic 0, true)

/-- Microwords are issued until the routine ends, is held at a safe point or faults. -/
def State.issueSteps (s : State) (j : Nat) : List MicroStep → State
  | [] => s
  | m :: ms =>
    if (s.engine j).run = .idle ∨ (s.engine j).halted ∨ (s.engine j).out.isSome then s
    else
      let r := s.issueStep j m
      if r.2 then r.1.issueSteps j ms else r.1

/-- The routine stands at a microword that is a safe point (R225). -/
def State.atSafePoint (s : State) (j : Nat) : Bool :=
  let n := s.storeOf j
  let a := s.fetchAddr n (s.engine j).seq.uaddr.toNat
  decide (a < storeEnd) && mwSafe (s.microword n a) && !(s.storeVerdict n (2 * a)).bad && !(s.storeVerdict n (2 * a + 1)).bad

/-- SAFE_POINT_REQUEST (R225, R226): the tile routine of an engine issues these microwords, and where it then stands at a safe point what is latched is
taken. -/
def State.toSafePoint (s : State) (j : Nat) (steps : List MicroStep) : State :=
  match (s.engine j).run with
  | .idle => s
  | .maint _ => s
  | _ =>
    let s := s.issueSteps j steps
    if !(s.engine j).halted && (s.engine j).latched && s.atSafePoint j then s.safePoint j else s

def execSafePointRequest (e : Fin 272) (steps : List MicroStep) (s : State) : Host.Outcome State Fault Refusal := .next (s.toSafePoint e.1 steps)

/-- TE_FAULT (R217, R231): on an engine that runs. A halted one issues no microword, but a fault of its tile memory or registers is latched for its
release (R227). -/
def State.teUpset (s : State) (j : Nat) (u : EngineUpset) : State :=
  let x := s.engine j
  if x.run = .idle ∨ x.out.isSome then s
  else match u with
    | .fetch upper bits =>
      let n := s.storeOf j
      let a := s.fetchAddr n x.seq.uaddr.toNat
      if x.halted ∨ storeEnd ≤ a then s
      else
        let i := 2 * a + if upper then 1 else 0
        let s := s.modCluster n (fun c => { c with store := c.store.upset i bits })
        let v := s.storeVerdict n i
        let s := s.noteStore n [v]
        if v.bad then s.teFault j (if a < patchStart then .uncorrRom else .uncorrRam) else s
    | .tile addr bits =>
      if tileEnd ≤ addr.toNat then s
      else
        let i := addr.toNat / 16
        let s := s.modEngine j (fun x => { x with tm := x.tm.upset i bits })
        s.noteTile j [verdict ((s.engine j).tm.syndrome i)]
    | .parity => s.teFault j .register
    | .issue steps => s.issueSteps j steps

def execTeFault (e : Fin 272) (u : EngineUpset) (s : State) : Host.Outcome State Fault Refusal := .next (s.teUpset e.1 u)

/-! ### Maintenance routines (R228-R230) -/

/-- The clusters of a patch image; every one where the image names none that exist, so that some engine refuses it. -/
def PatchReq.mask (r : PatchReq) : Nat :=
  let m := leAt r.image 8 4
  if m % 2 ^ 17 = 0 then 2 ^ 17 - 1 else m

/-- The routine's number in `routineEntry`. -/
def MaintKind.routine : MaintKind → Nat
  | .patchLoad _ => 2
  | .swapIn _ => 3
  | .scrub => 4
  | .slotMove _ => 5

/-- A request may run on engine `j` now (R223, R224, R230, R234). -/
def State.runnable (s : State) (j : Nat) (r : MaintReq) : Bool :=
  let guardedRun := s.engines.any (fun e => match e.2.run with
    | .maint q => q.guarded
    | _ => false)
  (decide (r.abandoned < 8) || !guardedRun) && (match r.kind with
    | .patchLoad q => !s.takeActive && natBit q.mask (s.storeOf j)
    | .swapIn _ => !s.takeActive
    | _ => true)

/-- MAINTENANCE_ROUTINE_START (R230): the first request that may run on the idle engine, else a scrub step of the device's own. -/
def State.maintStart (s : State) (j : Nat) : State :=
  let x := s.engine j
  if !s.engineUp j || decide (x.run ≠ .idle) || x.halted then s
  else
    match (s.maintQueue.zip (upFrom 0 s.maintQueue.length)).find? (fun a : MaintReq × Nat => s.runnable j a.1) with
    | some (r, i) => { s with maintQueue := dropNth s.maintQueue i }.setEngine j
        { x with run := .maint { r with guarded := decide (8 ≤ r.abandoned) }, seq := x.seq.enter r.kind.routine }
    | none => s.setEngine j { x with run := .maint { kind := .scrub, abandoned := 0, guarded := false }, seq := x.seq.enter 4 }

def execMaintenanceRoutineStart (e : Fin 272) (s : State) : Host.Outcome State Fault Refusal := .next (s.maintStart e.1)

/-- The routine of engine `j` has committed: the engine is idle, and a request latched meanwhile is taken. -/
def State.maintDone (s : State) (j : Nat) : State := (s.modEngine j (fun x => { x with run := .idle })).lateRequests j

/-- Word `k` of a patch image (R223). -/
def imageWord (b : List Byte) (k : Nat) : BitVec 256 := BitVec.ofNat 256 (leAt b (272 + 32 * k) 32)

/-- Why a patch image is refused (R223): the first condition of its table, as a MAINT status. -/
def State.patchRefusal (s : State) (r : PatchReq) : Option Nat :=
  let b := r.image
  let n := leAt b 12 2
  let m := leAt b 14 1
  let mask := leAt b 8 4
  let entry := fun k => leAt b (16 + 4 * k) 4
  let ws := (upFrom 0 n).map (imageWord b)
  let head := leAt b 0 4 = 0x54415054 ∧ 1 ≤ leAt b 4 2 ∧ mask < 2 ^ 17 ∧ 1 ≤ n ∧ n ≤ 512 ∧ m ≤ 64 ∧ leAt b 15 1 = 0 ∧ b.length = 276 + 32 * n
  if !decide head || (upFrom 0 17).any (fun k => natBit mask k && decide (leAt b 6 2 ≠ (Config.romRev k).toNat)) ||
      (upFrom m (64 - m)).any (fun k => decide (entry k ≠ 0)) then some stBadarg
  else if (upFrom 0 m).any (fun k => decide (n ≤ entry k / 65536 % 512)) then some stBadarg
  else if ws.any (fun w => mwReserved w || decide (9 ≤ mwSeq w)) then some stBadarg
  else if ws.any (fun w => mwCmt w && decide (mwSeq w ≠ 8)) then some stBadarg
  else if r.bad then some stUncorrectable
  else if leAt b (272 + 32 * n) 4 ≠ (checkValue 0 0xFFFE (leAt b 4 2) (b.take (272 + 32 * n))).toNat then some stIntegrity
  else if s.locked 1 then some stLocked
  else none

/-- What a patch load writes in cluster `n` before its commit (R224): the words, with their check bits, into the inactive page, whose later words stay,
and the shadow match registers. -/
def State.patchShadow (s : State) (n : Nat) (b : List Byte) : State :=
  s.modCluster n (fun c => { c with
    store := c.store.write (32 * (patchStart + if c.page then 0 else 512)) ((b.drop 272).take (32 * leAt b 12 2))
    shadow := (upFrom 0 64).foldl (fun v k => vsetN v k (BitVec.ofNat 32 (leAt b (16 + 4 * k) 4) &&& 0x81FF7FFF)) c.shadow })

/-- The commit in cluster `n` (R224): the loaded page becomes active, and the shadow match registers become the match registers. -/
def State.patchCluster (s : State) (n : Nat) (id : Half) : State :=
  let s := s.modCluster n (fun c => if c.page then { c with page := false, image0 := id } else { c with page := true, image1 := id })
  (upFrom 0 64).foldl (fun s k => s.setReg (rTecMatch n k) (vgetN 0 (s.cluster n).shadow k)) s

/-- A patch load ends: MAINT's FINAL completion, or PATCH_FAIL for a refused load at boot (R223, R506, R526). -/
def State.patchEnd (s : State) (r : PatchReq) (status value : Nat) : State :=
  let s := if status = stLocked then s.raise 17 else s
  match r.cmd with
  | some p => s.post p status true (BitVec.ofNat 64 value)
  | none => if status = stOk then s else s.orReg rRasStat 2

/-- PATCH_LOAD_COMMIT (R223, R224): not while a take is ARMED, ROLLING or CUTTING: the routine is then abandoned. -/
def State.patchCommit (s : State) (j : Nat) : State :=
  match (s.engine j).run with
  | .maint { kind := .patchLoad r, .. } =>
    if s.takeActive then s.abandonRun j
    else
      let b := r.image
      let s := s.maintDone j
      match s.patchRefusal r with
      | some st => s.patchEnd r st 0
      | none =>
        let mask := leAt b 8 4
        ((upFrom 0 17).foldl (fun s n => if natBit mask n then (s.patchShadow n b).patchCluster n (BitVec.ofNat 16 (leAt b 4 2)) else s) s).patchEnd r stOk (leAt b 4 2)
  | _ => s

def execPatchLoadCommit (e : Fin 272) (s : State) : Host.Outcome State Fault Refusal := .next (s.patchCommit e.1)

/-- The commit of a spare swap-in for engine `t` (R234): the spare takes its logical number, or it retires without replacement; whether
a spare was there. -/
def State.swapEngine (s : State) (t : Nat) : State × Bool :=
  let n := t / 16
  let sc := spareCluster n
  let spare := 16 * sc + 15
  let l := (s.engine t).logical
  let free := !(s.cluster sc).spareUsed
  let s := (s.modEngine t (fun x => { x with logical := none, retired := true })).modCluster n
    (fun c => { c with active := c.active &&& ~~~(BitVec.twoPow 16 (t % 16)), retired := c.retired ||| BitVec.twoPow 16 (t % 16) })
  if free then
    let s := (s.modEngine spare (fun x => { x with logical := l })).modCluster sc
      (fun c => { c with active := c.active ||| BitVec.twoPow 16 15, spareUsed := true, lent := decide (n = 16) })
    (if n = 16 then s.modCluster 16 (fun c => { c with lent := true }) else s, true)
  else (s, false)

/-- The proposal that a swap-in executes. -/
def State.swapProposal (s : State) (t : Nat) : Option Nat :=
  (upFrom 0 16).find? (fun j =>
    let p := vgetN Proposal.empty s.ras.props j
    decide (p.st = .approved) && decide (p.kind = 1) && decide (p.target.toNat = t))

/-- SPARE_SWAP_IN (R234, R518, R521): FAILED where the spare is gone. -/
def State.spareSwap (s : State) (j : Nat) : State :=
  match (s.engine j).run with
  | .maint { kind := .swapIn t, .. } =>
    if s.takeActive then s.abandonRun j
    else
      let r := (s.maintDone j).swapEngine t
      let s := match r.1.swapProposal t with
        | some i => r.1.moveProposal i (if r.2 then .done else .failed)
        | none => r.1
      s.startExec
  | _ => s

def execSpareSwapIn (e : Fin 272) (s : State) : Host.Outcome State Fault Refusal := .next (s.spareSwap e.1)

/-- The lowest engine that runs a routine of this kind and fetches from a cluster of `p`. -/
def State.runner (s : State) (p : Nat → Bool) (kind : MaintKind) : Option Nat :=
  allEngines.find? (fun j => p (s.storeOf j) && (match (s.engine j).run with
    | .maint r => decide (r.kind = kind)
    | _ => false))

/-- Halves of a control store. -/
def storeHalves : Nat := 2 * storeEnd

/-- CONTROL_STORE_SCRUB (R230, R235, R517): a step over `halves` halves from the scrub pointer commits the words it corrects in patch RAM, what it counts,
and the pointer. -/
def State.scrubCommit (s : State) (n halves : Nat) : State :=
  match s.runner (fun k => decide (k = n)) .scrub with
  | none => s
  | some j =>
    let s := s.maintDone j
    let c := s.cluster n
    let is := (upFrom c.scrubPtr (Nat.min halves storeHalves)).map (· % storeHalves)
    (s.modCluster n (fun c => { c with
      scrubPtr := (c.scrubPtr + halves) % storeHalves
      store := (is.filter (fun i => decide (2 * patchStart ≤ i))).foldl Store.scrub c.store })).noteStore n (is.map (s.storeVerdict n))

def execControlStoreScrub (cluster : Fin 17) (halves : Nat) (s : State) : Host.Outcome State Fault Refusal :=
  .next (s.scrubCommit cluster.1 halves)

/-- Bytes of one chunk of a slot move (R230). -/
def chunkBytes : Nat := 65536

/-- One chunk commits its progress pointer; the final one also moves the slot's base (R230, R547). -/
def State.slotChunk (s : State) (i : Fin 16) (done dest : Nat) : State :=
  let x := s.slot i
  match x.base with
  | none => s.modSlot i (fun x => { x with move := none })
  | some b =>
    let o := done * chunkBytes
    let n := Nat.min chunkBytes (x.size - o)
    let s := s.move (b + o) (dest + o) n
    if x.size ≤ o + n then s.modSlot i (fun x => { x with base := some dest, move := none })
    else { s.modSlot i (fun x => { x with move := some (done + 1, dest) }) with
             maintQueue := s.maintQueue ++ [{ kind := .slotMove i, abandoned := 0, guarded := false }] }

/-- REFERENCE_SLOT_MOVE (R230): where no move of the slot is under way it is requested; where an engine runs its routine, one chunk
commits. -/
def State.slotMove (s : State) (i : Fin 16) (dest : Nat) : State :=
  let x := s.slot i
  match x.move with
  | none => if x.base.isSome then
      { s.modSlot i (fun x => { x with move := some (0, dest) }) with
          maintQueue := s.maintQueue ++ [{ kind := .slotMove i, abandoned := 0, guarded := false }] }
    else s
  | some (done, d) =>
    match s.runner (fun _ => true) (.slotMove i) with
    | some j => (s.maintDone j).slotChunk i done d
    | none => s

def execReferenceSlotMove (slot : Fin 16) (dest : BitVec 48) (s : State) : Host.Outcome State Fault Refusal :=
  .next (s.slotMove slot dest.toNat)

end Sys2Proof.Machine
end

