-- ==== Sys2Proof/Machine/H265.lean ====
section
/-! DEFINITION. The H.265 streams of the proxy encoder (R161, R168-R173): set fields, the coding tools used, NAL units, parameter sets, SEI
messages and slice headers bit by bit. The syntax is that of H.265; the bits that CABAC makes of a CTU come with it from the encoder (log entry
102). -/

namespace Sys2Proof.Machine

/-! ### Set fields (R161, R298) -/

def pxyEn (b : List Byte) : Nat := leAt b 16 1
def pxyCore (b : List Byte) : Nat := leAt b 17 1
def pxyNetPort (b : List Byte) : Nat := leAt b 18 1
def pxyExpSel (b : List Byte) : Nat := leAt b 19 1
def pxyDecim (b : List Byte) : Nat := leAt b 20 1
def pxyLutEn (b : List Byte) : Nat := leAt b 21 1
def pxyYcc (b : List Byte) : Nat := leAt b 22 1
def pxyProfile (b : List Byte) : Nat := leAt b 23 1
def pxyTier (b : List Byte) : Nat := leAt b 24 1
def pxyLevel (b : List Byte) : Nat := leAt b 25 1
def pxyCtu (b : List Byte) : Nat := leAt b 26 1
def pxyCbr (b : List Byte) : Nat := leAt b 27 1
def pxyPt (b : List Byte) : Nat := leAt b 31 1
def pxyCropX (b : List Byte) : Nat := leAt b 32 2
def pxyCropY (b : List Byte) : Nat := leAt b 34 2
def pxyCropW (b : List Byte) : Nat := leAt b 36 2
def pxyCropH (b : List Byte) : Nat := leAt b 38 2
def pxyOutW (b : List Byte) : Nat := leAt b 40 2
def pxyOutH (b : List Byte) : Nat := leAt b 42 2
def pxyIdrPeriod (b : List Byte) : Nat := leAt b 44 2
def pxyQpMin (b : List Byte) : Int := (BitVec.ofNat 8 (leAt b 46 1)).toInt
def pxyQpMax (b : List Byte) : Int := (BitVec.ofNat 8 (leAt b 47 1)).toInt
def pxyBitRate (b : List Byte) : Nat := leAt b 48 8
def pxyCpbSize (b : List Byte) : Nat := leAt b 56 8
def pxyInitDelay (b : List Byte) : Nat := leAt b 64 4
def pxySsrc (b : List Byte) : Nat := leAt b 68 4
def pxyTsOffset (b : List Byte) : Nat := leAt b 72 4
def pxySeqStart (b : List Byte) : Nat := leAt b 76 2
def pxyMtu (b : List Byte) : Nat := leAt b 78 2
def pxyRtcpInterval (b : List Byte) : Nat := leAt b 80 2
def pxyHdrLen (b : List Byte) : Nat := leAt b 82 1
def s16At (b : List Byte) (o : Nat) : Int := (BitVec.ofNat 16 (leAt b o 2)).toInt
def s32At (b : List Byte) (o : Nat) : Int := (BitVec.ofNat 32 (leAt b o 4)).toInt
def pxyMtx (b : List Byte) (i : Nat) : Int := s16At b (84 + 2 * i)
def pxyMtxOff (b : List Byte) (i : Nat) : Int := s32At b (104 + 4 * i)
/-- Rows of CTUs and CTUs of a row (R170). -/
def pxyRows (b : List Byte) : Nat := ceilDiv (pxyOutH b) (pxyCtu b)
def pxyWCtu (b : List Byte) : Nat := ceilDiv (pxyOutW b) (pxyCtu b)
/-- Bit depth of the profile (R167). -/
def pxyBits (b : List Byte) : Nat := if pxyProfile b = 0 then 8 else 10

/-! ### Bit strings (H.265, 7.2 and 9.2) -/

abbrev Bits := List Bool

/-- The number of binary digits of `v`, at most `fuel`. -/
def bitLen : Nat → Nat → Nat
  | 0, _ => 0
  | fuel + 1, v => if v = 0 then 0 else 1 + bitLen fuel (v / 2)

def flag (b : Bool) : Bits := [b]
/-- ue(v). -/
def ueBits (v : Nat) : Bits :=
  let n := bitLen 64 (v + 1)
  putBits (n - 1) 0 ++ putBits n (v + 1)
/-- se(v). -/
def seBits (v : Int) : Bits := ueBits (if 0 < v then 2 * v.toNat - 1 else 2 * (-v).toNat)
/-- A stop bit, and zeros up to a byte boundary. -/
def trailed (b : Bits) : Bits := b ++ true :: List.replicate ((7 - b.length % 8) % 8) false

/-! ### NAL units (H.265, 7.3.1) -/

/-- Emulation prevention: no 0x000000 to 0x000003 in a NAL unit; `z` zero bytes stand before. -/
def escaped : Nat → List Byte → List Byte
  | _, [] => []
  | z, x :: r => if 2 ≤ z ∧ x.toNat ≤ 3 then 3 :: x :: escaped (if x = 0 then 1 else 0) r else x :: escaped (if x = 0 then z + 1 else 0) r

/-- A NAL unit of layer 0 and temporal sublayer 0 (R168). -/
def nalUnit (type : Nat) (payload : List Byte) : List Byte := [BitVec.ofNat 8 (2 * type), 1] ++ escaped 0 payload
/-- Its bits as R172 counts them: with a 4-byte start code. -/
def nalSize (n : List Byte) : Nat := 8 * n.length + 32
/-- What a slice NAL unit counts while its payload is still being written: the bytes so far, and the bits of the next one. -/
def openSize (b : Bits) : Nat := 48 + 8 * (escaped 0 (bitsToBytes (b.take (b.length / 8 * 8)))).length + b.length % 8

def nalTrail : Nat := 1
def nalIdr : Nat := 19
def nalVps : Nat := 32
def nalSps : Nat := 33
def nalPps : Nat := 34
def nalEos : Nat := 36
def nalEob : Nat := 37
def nalFiller : Nat := 38
def nalSei : Nat := 39

/-- End of sequence and end of bitstream have no payload. -/
def eosUnit : List Byte := nalUnit nalEos []
def eobUnit : List Byte := nalUnit nalEob []
/-- A filler data NAL unit that counts `n` bytes with its start code, at least 7 (R175). -/
def fillerUnit (n : Nat) : List Byte := nalUnit nalFiller (List.replicate (n - 7) 0xFF ++ [0x80])

/-! ### Parameter sets (R168-R171) -/

/-- general_profile_idc of PROFILE (R161). -/
def profileIdc (b : List Byte) : Nat := if pxyProfile b = 0 then 1 else if pxyProfile b = 1 then 2 else 4

/-- profile_tier_level: Main streams are Main 10 too; the constraint flags of Main 4:2:2 10; progressive frames (R168). -/
def profileTier (b : List Byte) : Bits :=
  let p := profileIdc b
  let compat := (upFrom 0 32).map (fun i => decide (i = p) || (decide (p = 1) && decide (i = 2)))
  putBits 2 0 ++ flag (decide (pxyTier b = 1)) ++ putBits 5 p ++ compat ++ [true, false, false, true] ++
    (if p = 4 then putBits 9 0x1A1 ++ putBits 34 0 else putBits 43 0) ++ [false] ++ putBits 8 (pxyLevel b)

/-- One decoded picture of reference, no reordering. -/
def orderingInfo : Bits := [true] ++ ueBits 1 ++ ueBits 0 ++ ueBits 0

def vpsBits (b : List Byte) : Bits :=
  putBits 4 0 ++ [true, true] ++ putBits 6 0 ++ putBits 3 0 ++ [true] ++ putBits 16 0xFFFF ++ profileTier b ++ orderingInfo ++ putBits 6 0 ++
    ueBits 0 ++ [false, false]

/-- Bits of a delay field: the choice, modulo 32, plus 1. -/
def auLen (h : PictureChoice) : Nat := h.auBits % 32 + 1
def outLen (h : PictureChoice) : Nat := h.outBits % 32 + 1
/-- Wide enough for the rows of a picture. -/
def duLen (h : PictureChoice) : Nat := Nat.max 10 (h.duBits % 32 + 1)
def duOutLen (h : PictureChoice) : Nat := h.duOutBits % 32 + 1
def pocLen (h : PictureChoice) : Nat := h.pocLsb % 13 + 4

/-- hrd_parameters (R171): sub-picture parameters outside the picture timing SEI, one CPB, the bit rate in units of 64 bits/s and the CPB size in
units of 16 bits. -/
def hrdBits (b : List Byte) (h : PictureChoice) : Bits :=
  [true, false, true] ++ putBits 8 (pxyRows b - 2) ++ putBits 5 ((duLen h) - 1) ++ [false] ++ putBits 5 ((duOutLen h) - 1) ++ putBits 4 0 ++
    putBits 4 0 ++ putBits 4 0 ++ putBits 5 31 ++ putBits 5 ((auLen h) - 1) ++ putBits 5 ((outLen h) - 1) ++
    [false, false, false] ++ ueBits 0 ++
    ueBits (pxyBitRate b / 64 - 1) ++ ueBits (pxyCpbSize b / 16 - 1) ++ ueBits (pxyCpbSize b / 16 - 1) ++ ueBits (pxyBitRate b / 64 - 1) ++
    flag (decide (pxyCbr b = 1))

/-- The VUI (R167, R169, R171): limited range, the colour description as given, chroma_sample_loc_type 0, timing and HRD. -/
def vuiBits (b c : List Byte) (h : PictureChoice) : Bits :=
  [false, false, true] ++ putBits 3 5 ++ [false, true] ++ putBits 8 (leAt b 28 1) ++ putBits 8 (leAt b 29 1) ++ putBits 8 (leAt b 30 1) ++
    [true] ++ ueBits 0 ++ ueBits 0 ++ [false, false, false, false] ++
    [true] ++ putBits 32 (pxyDecim b * codeRateDen c) ++ putBits 32 (codeRateNum c) ++ [false, true] ++ hrdBits b h ++ [false]

def spsBits (b c : List Byte) (h : PictureChoice) : Bits :=
  let depth := pxyBits b - 8
  putBits 4 0 ++ putBits 3 0 ++ [true] ++ profileTier b ++ ueBits 0 ++ ueBits (if pxyProfile b = 2 then 2 else 1) ++ ueBits (pxyOutW b) ++
    ueBits (pxyOutH b) ++ [false] ++ ueBits depth ++ ueBits depth ++ ueBits ((pocLen h) - 4) ++ orderingInfo ++
    ueBits 0 ++ ueBits (if pxyCtu b = 64 then 3 else 2) ++ ueBits 0 ++ ueBits 3 ++ ueBits (h.depthInter % 4) ++ ueBits (h.depthIntra % 4) ++
    [false, false, true, false] ++ (ueBits 1 ++ ueBits 1 ++ ueBits 0 ++ ueBits 0 ++ [true]) ++ [false, false] ++ flag h.strongIntra ++
    [true] ++ vuiBits b c h ++ [false]

/-- Range of QP of a bit depth (R161). -/
def qpLeast (b : List Byte) : Int := if pxyBits b = 8 then 0 else -12
def initQpOf (h : PictureChoice) (b : List Byte) : Int := clipI h.initQp (qpLeast b) 51

def ppsBits (b : List Byte) (h : PictureChoice) : Bits :=
  ueBits 0 ++ ueBits 0 ++ [false, false] ++ putBits 3 0 ++ [true, false] ++ ueBits 0 ++ ueBits 0 ++ seBits (initQpOf h b - 26) ++
    [false, false, true] ++ ueBits (h.qpDepth % (if pxyCtu b = 64 then 4 else 3)) ++ seBits 0 ++ seBits 0 ++
    [false, false, false, false, false, false, true, false, false, false] ++ ueBits 0 ++ [false, false]

/-- A parameter set NAL unit. -/
def setUnit (type : Nat) (b : Bits) : List Byte := nalUnit type (bitsToBytes (trailed b))

/-! ### SEI messages (R170, R171) -/

/-- A NAL unit of one SEI message: its payload is aligned, then the NAL unit's trailing bits follow. -/
def seiUnit (type : Nat) (payload : Bits) : List Byte :=
  let p := bitsToBytes (if payload.length % 8 = 0 then payload else trailed payload)
  nalUnit nalSei ([BitVec.ofNat 8 type, BitVec.ofNat 8 p.length] ++ p ++ [0x80])

/-- Buffering period: INIT_DELAY with the first access unit (R161), later the encoder's. -/
def bufferingUnit (delay : Nat) (h : PictureChoice) : List Byte :=
  seiUnit 0 (ueBits 0 ++ flag h.concatenation ++ putBits (auLen h) h.delayDelta ++ putBits 32 delay ++ putBits 32 h.offset ++ putBits 32 h.altDelay ++
    putBits 32 h.altOffset)

/-- Picture timing: the access unit is removed `removal` picture periods after the buffering period (R171). -/
def timingUnit (removal : Nat) (h now : PictureChoice) : List Byte :=
  seiUnit 1 (putBits (auLen h) (removal - 1) ++ putBits (outLen h) now.outDelay ++ putBits (duOutLen h) now.duOutDelay)

/-- Decoding unit information of row `j` of `n`: removed n − 1 − j sub-ticks before the last (R171). -/
def unitInfo (n j : Nat) (h : PictureChoice) : List Byte := seiUnit 130 (ueBits j ++ putBits (duLen h) (n - 1 - j) ++ [false])

/-! ### Slices (R168, R170) -/

/-- Bits that address a CTU of the picture. -/
def addressLen (b : List Byte) : Nat := bitLen 32 (pxyRows b * pxyWCtu b - 1)

/-- The slice header of row `j`: `poc` pictures since the IDR picture, whose own slices are I slices and all others P slices with the previous
picture as the one reference (R168). -/
def sliceHeader (b : List Byte) (h : PictureChoice) (v : SliceChoice) (idr : Bool) (poc j : Nat) : Bits :=
  let qp := clipI v.qp (pxyQpMin b) (pxyQpMax b)
  trailed (flag (decide (j = 0)) ++ (if idr then [false] else []) ++ ueBits 0 ++
    (if j = 0 then [] else putBits (addressLen b) (j * pxyWCtu b)) ++ ueBits (if idr then 2 else 1) ++
    (if idr then [] else putBits (pocLen h) poc ++ [true]) ++ [v.saoLuma, v.saoChroma] ++
    (if idr then [] else [false] ++ ueBits (v.mergeFewer % 5)) ++ seBits (qp - initQpOf h b) ++ [true])

/-! ### Coding tools (R169) -/

/-- A transform tree of a block of side `n`: transform units of 4 × 4 to 32 × 32. -/
def transformLegal : TransformTree → Nat → Bool
  | .leaf y cb cr, n => decide (4 ≤ n) && decide (n ≤ 32) && (y.isEmpty || decide (y.length = n * n)) && decide (cb.length ≤ n * n) &&
      decide (cr.length ≤ n * n)
  | .split a b c d, n => decide (8 ≤ n) && transformLegal a (n / 2) && transformLegal b (n / 2) && transformLegal c (n / 2) && transformLegal d (n / 2)

/-- Merge candidates of a slice. -/
def mergeMax (v : SliceChoice) : Nat := 5 - v.mergeFewer % 5

def motionLegal (v : SliceChoice) : Motion → Bool
  | .merge i => decide (i.1 < mergeMax v)
  | .amvp _ dx dy => decide (dx.natAbs < 2 ^ 15) && decide (dy.natAbs < 2 ^ 15)

def qpLegal (b : List Byte) (qp : Int) : Bool := decide (pxyQpMin b ≤ qp) && decide (qp ≤ pxyQpMax b)

/-- A coding unit of side `n`: no asymmetric partitions, NxN in 8 × 8 units only, no inter units in an I slice, QP in its range (R161, R169). -/
def unitLegal (b : List Byte) (v : SliceChoice) (idr : Bool) (n : Nat) : CodingUnit → Bool
  | .skip i => !idr && decide (i.1 < mergeMax v)
  | .inter part motion qp t => !idr && decide (motion.length = if part = .whole then 1 else 2) && motion.all (motionLegal v) && qpLegal b qp && transformLegal t n
  | .intra nxn luma _ qp t => decide (luma.length = if nxn then 4 else 1) && (!nxn || decide (n = 8)) && qpLegal b qp && transformLegal t n

/-- A quadtree of side `n` at luma sample (x, y): coding units of 8 × 8 up to the CTU size, inside the picture. -/
def treeLegal (b : List Byte) (v : SliceChoice) (idr : Bool) : CodingTree → Nat → Nat → Nat → Bool
  | .outside, _, x, y => decide (pxyOutW b ≤ x) || decide (pxyOutH b ≤ y)
  | .unit u, n, x, y => decide (8 ≤ n) && decide (x + n ≤ pxyOutW b) && decide (y + n ≤ pxyOutH b) && unitLegal b v idr n u
  | .split p q r t, n, x, y => decide (16 ≤ n) && decide (x < pxyOutW b) && decide (y < pxyOutH b) && treeLegal b v idr p (n / 2) x y &&
      treeLegal b v idr q (n / 2) (x + n / 2) y && treeLegal b v idr r (n / 2) x (y + n / 2) && treeLegal b v idr t (n / 2) (x + n / 2) (y + n / 2)

/-- A residual without a coded block, the unit split down to 32 × 32. -/
def noResidual (n : Nat) : TransformTree :=
  if n ≤ 32 then .leaf [] [] [] else .split (.leaf [] [] []) (.leaf [] [] []) (.leaf [] [] []) (.leaf [] [] [])

/-- The minimal form of a block (R173): one skipped unit with merge index 0, or one intra unit with DC mode and no coded block. Where the CTU reaches
past the picture it is split as H.265 infers, into such units. -/
def minimalTree (b : List Byte) (idr : Bool) (qp : Int) : Nat → Nat → Nat → Nat → CodingTree
  | 0, _, _, _ => .outside
  | fuel + 1, n, x, y =>
    if pxyOutW b ≤ x ∨ pxyOutH b ≤ y then .outside
    else if pxyOutW b < x + n ∨ pxyOutH b < y + n then
      .split (minimalTree b idr qp fuel (n / 2) x y) (minimalTree b idr qp fuel (n / 2) (x + n / 2) y) (minimalTree b idr qp fuel (n / 2) x (y + n / 2))
        (minimalTree b idr qp fuel (n / 2) (x + n / 2) (y + n / 2))
    else .unit (if idr then .intra false [1] 4 qp (noResidual n) else .skip 0)

/-! ### Slice data (R173) -/

/-- At most 40 bits of a minimal CTU: with the emulation prevention that they may call for, no more than 64 (R173). -/
def leastBits (u : CtuCode) : Bits := u.least.take 40

/-- A row: slice payload, trees, and how many CTUs are minimal. -/
structure CodedRow where
  bits : Bits
  trees : List CodingTree
  minimal : Nat
deriving DecidableEq, Repr

/-- The rest of a row in minimal form; `tree` gives the shape of CTU `i`. -/
def minimalRow (tree : Nat → CodingTree) (bits : Bits) (trees : List CodingTree) (i : Nat) (us : List CtuCode) : CodedRow :=
  { bits := bits ++ us.flatMap leastBits, trees := trees ++ (upFrom i us.length).map tree, minimal := us.length }

/-- CTU by CTU (R173): normally, while what follows still fits the budget in minimal form; `before` bits of the unit precede the slice. -/
def codeCtus (budget before : Nat) (tree : Nat → CodingTree) : Nat → Bits → List CodingTree → List CtuCode → CodedRow
  | _, bits, trees, [] => { bits := bits, trees := trees, minimal := 0 }
  | i, bits, trees, u :: us =>
    let b := bits ++ u.bits
    if before + openSize b + 64 * us.length + 64 ≤ budget then codeCtus budget before tree (i + 1) b (trees ++ [u.tree]) us
    else minimalRow tree bits trees i (u :: us)

end Sys2Proof.Machine
end

