-- ==== Sys2Proof/Machine/Proxy.lean ====
section
/-! DEFINITION. Proxy streams (R161-R182): the front end's exact arithmetic, the CPB model, rows, packets and sender reports. What the
encoder decides (the bits of each CTU) stands in the commands. -/

namespace Sys2Proof.Machine

/-! ### Front end (R164-R167) -/

/-- nrm of a photosite (R164). -/
def nrmOf (c : List Byte) (q x : Nat) : Nat :=
  (clipI ((x : Int) - leAt c (64 + 2 * q) 2) 0 (2 ^ codeDepth c - 1)).toNat * 2 ^ (16 - codeDepth c)

/-- Mosaic positions that make channel `ch` (0 red, 1 green, 2 blue): its own, or the clear ones (R164). -/
def channelCells (c : List Byte) (ch : Nat) : List Nat :=
  let p := codePeriod c
  let cells := upFrom 0 (p * p)
  if p = 1 then [0]
  else
    let own := cells.filter (fun m => leAt c (48 + m) 1 = ch + 1)
    if own.isEmpty then cells.filter (fun m => leAt c (48 + m) 1 = 4) else own

/-- The mean of a list, rounded half up. -/
def meanUp (l : List Nat) : Nat := (2 * sumNat l + l.length) / (2 * l.length)

/-- Photosite (col, row) of exposure `e` in the ring slot at `base` (R474). -/
def State.ringSite (s : State) (c : List Byte) (base e row col : Nat) : Nat :=
  leNat (s.peek (base + 512 * parcelIx c (col / 256) row e + 2 * (col % 256)) 2)

/-- One RGB channel of cell (u, v) (R164). -/
def State.cellChannel (s : State) (c : List Byte) (base e ch v u : Nat) : Nat :=
  let p := codePeriod c
  meanUp ((channelCells c ch).map (fun m => nrmOf c (e * p * p + m) (s.ringSite c base e (v * p + m / p) (u * p + m % p))))

/-- Source position of output index `x`: i and the phase (R165). -/
def scalePos (inw outw x : Nat) : Int × Nat :=
  let pos : Int := (((2 * x + 1) * inw * 64 / (2 * outw) : Nat) : Int) - 32
  (pos / 64, (pos % 64).toNat)

/-- One output of the scaler (R165); `coef` gives tap t of phase ph. -/
def scaleTap (coef : Nat → Nat → Int) (inw outw x : Nat) (src : Nat → Nat) : Nat :=
  let a := scalePos inw outw x
  let acc := (upFrom 0 8).foldl (fun z t => z + coef a.2 t * (src (clipI (a.1 - 3 + t) 0 (inw - 1)).toNat : Int)) (0 : Int)
  (clipI ((acc + 128) / 256) 0 65535).toNat

/-- Cropped rows that output row `y` needs (R165). -/
def rowsFor (b : List Byte) (y : Nat) : List Nat :=
  (upFrom 0 8).map (fun t => (clipI ((scalePos (pxyCropH b) (pxyOutH b) y).1 - 3 + t) 0 (pxyCropH b - 1)).toNat)

/-- Scaled sample (x, y) of channel `ch` (R165). -/
def State.scaled (s : State) (r : SetupRecord) (c : List Byte) (base ch y x : Nat) : Nat :=
  let b := r.bytes
  let coef := fun o ph t => s16At r.coef (o + 16 * ph + 2 * t)
  scaleTap (coef 1024) (pxyCropH b) (pxyOutH b) y (fun v =>
    scaleTap (coef 0) (pxyCropW b) (pxyOutW b) x (fun u => s.cellChannel c base (pxyExpSel b) ch (pxyCropY b + v) (pxyCropX b + u)))

/-- Node of the 3D LUT, component `k` (R166, R298). -/
def lutNode (lut : List Byte) (n : Nat × Nat × Nat) (k : Nat) : Int := leAt lut (6 * ((n.1 * 33 + n.2.1) * 33 + n.2.2) + 2 * k) 2

def stepAxis (n : Nat × Nat × Nat) (a : Nat) : Nat × Nat × Nat :=
  match a with
  | 0 => (n.1 + 1, n.2)
  | 1 => (n.1, n.2.1 + 1, n.2.2)
  | _ => (n.1, n.2.1, n.2.2 + 1)

/-- Axes by fraction, largest first, equal ones in the order r, g, b (R166). -/
def axisOrder (f : Nat → Nat) : List Nat :=
  let first := if f 0 < f 1 then (if f 1 < f 2 then 2 else 1) else if f 0 < f 2 then 2 else 0
  let rest := [0, 1, 2].filter (fun k => k ≠ first)
  first :: (if f (nth 0 rest 0) < f (nth 0 rest 1) then rest.reverse else rest)

/-- Matrix and 3D LUT (R166). -/
def colourOf (r : SetupRecord) (rgb : List Nat) : List Nat :=
  let b := r.bytes
  let at0 : Nat → Int := fun k => nth 0 rgb k
  let cs := (upFrom 0 3).map (fun k =>
    (clipI ((pxyMtx b (3 * k) * at0 0 + pxyMtx b (3 * k + 1) * at0 1 + pxyMtx b (3 * k + 2) * at0 2 + 2048) / 4096 + pxyMtxOff b k) 0 65535).toNat)
  if pxyLutEn b = 0 then cs
  else
    let i : Nat → Nat := fun k => nth 0 cs k * 32 / 65536
    let f : Nat → Nat := fun k => nth 0 cs k * 32 % 65536
    let o := axisOrder f
    let n0 := (i 0, i 1, i 2)
    let n1 := stepAxis n0 (nth 0 o 0)
    let n2 := stepAxis n1 (nth 0 o 1)
    let n3 := stepAxis n2 (nth 0 o 2)
    (upFrom 0 3).map (fun k =>
      let l := fun n => lutNode r.lut n k
      let v := l n0 * 65536 + (f (nth 0 o 0) : Int) * (l n1 - l n0) + (f (nth 0 o 1) : Int) * (l n2 - l n1) + (f (nth 0 o 2) : Int) * (l n3 - l n2)
      (clipI ((v + 32768) / 65536) 0 65535).toNat)

/-- Y, Cb, Cr (R167). -/
def yccOf (b : List Byte) (rgb : List Nat) : List Nat :=
  let k : Int × Int × Int × Int × Int := if pxyYcc b = 0 then (13933, 4732, 46871, 35317, 41615) else (17216, 3886, 44434, 34834, 44443)
  let bd := pxyBits b
  let x : Nat → Int := fun i => nth 0 rgb i
  let y := (k.1 * x 0 + k.2.2.1 * x 1 + k.2.1 * x 2 + 32768) / 65536
  let cb := ((x 2 - y) * k.2.2.2.1 + 32768) / 65536
  let cr := ((x 0 - y) * k.2.2.2.2 + 32768) / 65536
  let q : Int → Int → Int → Nat := fun base v g => (base * 2 ^ (bd - 8) + (v * g + 2 ^ (23 - bd)) / 2 ^ (24 - bd)).toNat
  [q 16 y 219, q 128 cb 224, q 128 cr 224]

/-- Chroma at even columns (R167). -/
def subsampleH (w : Nat) (l : List Nat) : List Nat :=
  (upFrom 0 (w / 2)).map (fun i =>
    let x := 2 * i
    (nth 0 l (x - 1) + 2 * nth 0 l x + nth 0 l (Nat.min (x + 1) (w - 1)) + 2) / 4)

/-- Averages of rows 2y and 2y + 1 (R167). -/
def subsampleV : List (List Nat) → List (List Nat)
  | a :: b :: r => (a.zip b).map (fun p => (p.1 + p.2 + 1) / 2) :: subsampleV r
  | l => l

/-- Output rows of CTU row `j`. -/
def ctuRowLines (b : List Byte) (j : Nat) : List Nat := upFrom (j * pxyCtu b) (Nat.min (pxyCtu b) (pxyOutH b - j * pxyCtu b))

/-- The encoder input of CTU row `j`: Y rows, Cb rows, Cr rows (R164-R167). -/
def State.encoderInput (s : State) (r : SetupRecord) (c : List Byte) (base j : Nat) : List (List Half) :=
  let b := r.bytes
  let w := pxyOutW b
  let rows := (ctuRowLines b j).map (fun y => (upFrom 0 w).map (fun x =>
    yccOf b (colourOf r ((upFrom 0 3).map (fun ch => s.scaled r c base ch y x)))))
  let comp := fun k => rows.map (fun l => l.map (fun p => nth 0 p k))
  let chroma := fun k =>
    let h := (comp k).map (subsampleH w)
    if pxyProfile b = 2 then h else subsampleV h
  (comp 0 ++ chroma 1 ++ chroma 2).map (fun l => l.map (fun v => BitVec.ofNat 16 v))

/-- Sensor lines of exposure EXP_SEL that CTU row `j` needs (R165, R177). -/
def linesFor (b c : List Byte) (j : Nat) : List Nat :=
  let p := codePeriod c
  (((ctuRowLines b j).flatMap (rowsFor b)).dedup.flatMap (fun v => upFrom ((pxyCropY b + v) * p) p)).dedup

/-- Line `y` is in the ring: every parcel of it carries an ACCEPTED tag (R474). -/
def State.lineThere (s : State) (c : List Byte) (base e y : Nat) : Bool :=
  (upFrom 0 (tilesX c)).all (fun tx => leNat (s.peek (base + 512 * parcelsN c + 16 * parcelIx c tx y e + 12) 1) % 2 = 1)

/-- The parcels of the lines that CTU row `j` needs (R165, R474). -/
def inputAreas (b c : List Byte) (base j : Nat) : List (Nat × Nat) :=
  (linesFor b c j).flatMap (fun y => (upFrom 0 (tilesX c)).map (fun tx => (base + 512 * parcelIx c tx y (pxyExpSel b), 512)))

/-! ### The CPB model (R171, R172) -/

/-- Denominator of the exact fractions of a stream. -/
def cpbDen (b c : List Byte) : Nat := 90000 * codeRateNum c * pxyRows b
/-- t_r(k, j) over that denominator, after an initial delay of `delay`; row intervals from the first removal on are whole. -/
def removalNum (b c : List Byte) (delay k j : Nat) : Nat :=
  let n := pxyRows b
  delay * codeRateNum c * n + 90000 * pxyDecim b * codeRateDen c * (k * n + j + 1) - 90000 * pxyDecim b * codeRateDen c * n
/-- a(k, j) with cbr = 1, over the denominator. -/
def arrivedNum (b c : List Byte) (delay k j : Nat) : Nat := pxyBitRate b * removalNum b c delay k j

/-- Bits arrived by the removal of unit (k, j), over the denominator: with CBR = 0 delivery pauses while the CPB is full. -/
def Stream.arrival (x : Stream) (b c : List Byte) : Nat :=
  let a := arrivedNum b c x.delay0 x.k x.row
  if pxyCbr b = 1 then a
  else
    let full := (x.sent + pxyCpbSize b) * cpbDen b c
    if x.k = 0 ∧ x.row = 0 then Nat.min a full
    else Nat.min (x.arrived + pxyBitRate b * 90000 * pxyDecim b * codeRateDen c) full

/-- initial_cpb_removal_delay of a later buffering period with cbr = 1: the time from the last bit before it to its removal, which is what H.265
Annex C asks for (R176). -/
def Stream.laterDelay (x : Stream) (b c : List Byte) : Nat :=
  (arrivedNum b c x.delay0 x.k (pxyRows b - 1) - x.sent * cpbDen b c) * 90000 / (cpbDen b c * pxyBitRate b)

/-! ### Packets (R180, R181) -/

/-- Bytes of the Ethernet header in a template (R161): 18 with a VLAN tag. -/
def ethHeader (b : List Byte) : Nat := if leAt b (136 + 12) 1 = 0x81 ∧ leAt b (136 + 13) 1 = 0 then 18 else 14
/-- RTP payload bytes that an IP packet of MTU bytes holds. -/
def rtpRoom (b : List Byte) : Nat := pxyMtu b - (pxyHdrLen b - ethHeader b) - 12

def beBytes (n v : Nat) : List Byte := (leBytes n v).reverse
/-- Bytes `o` and `o` + 1 of a header, most significant first. -/
def put16 (l : List Byte) (o v : Nat) : List Byte := l.take o ++ beBytes 2 v ++ l.drop (o + 2)
def be16At (l : List Byte) (o : Nat) : Nat := (nth 0 l o).toNat * 256 + (nth 0 l (o + 1)).toNat

/-- The sum of the 16-bit words of a byte string. -/
def wordSum : List Byte → Nat
  | a :: b :: r => a.toNat * 256 + b.toNat + wordSum r
  | [a] => a.toNat * 256
  | [] => 0

/-- The Internet checksum of words that sum to `v`: the complement of their ones' complement sum. -/
def inetCheck (v : Nat) : Nat := if v = 0 then 65535 else 65534 - (v - 1) % 65535

/-- HDR_TEMPLATE before a UDP payload (R181): the IP and UDP lengths and checksums filled in, every other byte as it stands; `up` is added to the
destination port (R182). -/
def udpFrame (b : List Byte) (up : Nat) (payload : List Byte) : List Byte :=
  let e := ethHeader b
  let u := pxyHdrLen b - 8
  let n := payload.length
  let t := (b.drop 136).take (pxyHdrLen b)
  let v6 := decide (leAt t e 1 / 16 = 6)
  let t := put16 (put16 t (u + 2) (be16At t (u + 2) + up)) (u + 4) (8 + n)
  let t := if v6 then put16 t (e + 4) (pxyHdrLen b - e - 40 + n) else put16 (put16 t (e + 2) (pxyHdrLen b - e + n)) (e + 10) 0
  let t := if v6 then t else put16 t (e + 10) (inetCheck (wordSum ((t.drop e).take (u - e))))
  let addresses := if v6 then (t.drop (e + 8)).take 32 else (t.drop (e + 12)).take 8
  let t := put16 t (u + 6) 0
  let k := inetCheck (wordSum addresses + 17 + (8 + n) + wordSum (t.drop u) + wordSum payload)
  put16 t (u + 6) (if k = 0 then 65535 else k) ++ payload

/-- The 12-byte RTP header (R181). -/
def rtpHeader (h : RtpPacket) : List Byte :=
  [0x80, BitVec.ofNat 8 ((if h.marker then 128 else 0) + h.pt)] ++ beBytes 2 h.seq.toNat ++ beBytes 4 h.timestamp.toNat ++ beBytes 4 h.ssrc.toNat

/-- A group of NAL units as one packet: single, or an aggregation packet (R180, RFC 7798); whether it carries the slice. -/
def groupPacket : List (List Byte × Bool) → List (List Byte × Bool)
  | [] => []
  | [n] => [n]
  | g => [([0x60, 0x01] ++ g.flatMap (fun n => beBytes 2 n.1.length ++ n.1), g.any (·.2))]

/-- Fragmentation units of a NAL unit (R180, RFC 7798): the start and end bits and its type stand in the FU header. -/
def fragments (room : Nat) (n : List Byte × Bool) : List (List Byte × Bool) :=
  let body := n.1.drop 2
  let k := ceilDiv body.length (room - 3)
  let type := leAt n.1 0 1 / 2 % 64
  (upFrom 0 k).map (fun i =>
    ([0x62, 0x01, BitVec.ofNat 8 ((if i = 0 then 128 else 0) + (if i + 1 = k then 64 else 0) + type)] ++ (body.drop (i * (room - 3))).take (room - 3), n.2))

/-- The packets of one decoding unit's NAL units (R180). -/
def packNals (room : Nat) : List (List Byte × Bool) → List (List Byte × Bool) → List (List Byte × Bool)
  | [], g => groupPacket g
  | n :: ns, g =>
    if room < n.1.length then groupPacket g ++ fragments room n ++ packNals room ns []
    else if g.isEmpty then packNals room ns [n]
    else if 2 + sumNat ((g ++ [n]).map (fun a => a.1.length + 2)) ≤ room then packNals room ns (g ++ [n])
    else groupPacket g ++ packNals room ns [n]

/-- RTP timestamp of a PTP time (R181). -/
def rtpTime (b : List Byte) (ns : DWord) : Word := BitVec.ofNat 32 (pxyTsOffset b + ns.toNat * 9 / 100000)

def State.stream (s : State) (m : Fin 4) : Stream := vget s.streams m
def State.modStream (s : State) (m : Fin 4) (f : Stream → Stream) : State := { s with streams := vmod s.streams m f }

/-- One RTP packet of stream `m` is handed to Sluice (R181). -/
def State.rtpPacket (s : State) (m : Fin 4) (b : List Byte) (ts : Word) (payload : List Byte) (marker : Bool) (since : Option Nat) : State :=
  let h : RtpPacket := { ssrc := BitVec.ofNat 32 (pxySsrc b), pt := pxyPt b, seq := (s.stream m).seq, timestamp := ts, marker := marker,
                         payload := payload }
  let frame := udpFrame b 0 (rtpHeader h ++ payload)
  let s := s.modStream m (fun x => { x with seq := x.seq + 1, pkts := x.pkts + 1, octets := x.octets + BitVec.ofNat 32 payload.length })
  (s.bump (rPxyStrPkts m.1) 1).sluOffer m.1
    { kind := .rtp, bytes := frame.length, pkt := none, rtp := some h, ntp := 0, frame := frame, since := since }

/-- The packets of a decoding unit; the last of an access unit carries M. The first that carries the slice ends the wait of R183. -/
def State.rtpUnit (s : State) (m : Fin 4) (b : List Byte) (ts : Word) (nals : List (List Byte × Bool)) (last : Bool) (since : Option Nat) : State :=
  let ps := packNals (rtpRoom b) nals []
  let carrier := (upFrom 0 ps.length).find? (fun i => (nth ([], false) ps i).2)
  (ps.zip (upFrom 0 ps.length)).foldl (fun s a =>
    s.rtpPacket m b ts a.1.1 (last && decide (a.2 + 1 = ps.length)) (if some a.2 = carrier then since else none)) s

/-! ### Rows (R168-R178) -/

def State.pxyEvent (s : State) (m : Fin 4) (e : Nat) : State := (s.orReg (rPxyStrStat m.1) (BitVec.twoPow 32 (1 + e))).raise (192 + 4 * m.1 + e)

/-- A picture began before the boundary at which stream `m` took its present set. -/
def StreamPic.older (p : StreamPic) (m : Fin 4) : Bool := p.old.getLsbD (unitPxy m.1)

/-- The set that governs a picture (R178, R292). -/
def State.pxySet (s : State) (m : Fin 4) (p : StreamPic) : Option SetupRecord :=
  let b := vgetN Bank.empty s.banks (unitPxy m.1)
  if p.older m then (match b.retiring with
    | some r => some r
    | none => b.active)
  else b.active

/-- A decoding unit leaves `left` bits of its budget (R185). -/
def State.noteLeft (s : State) (m : Fin 4) (left : Nat) : State :=
  let s := s.modStream m (fun x => { x with left := left })
  if left < (s.reg (rPxyStrCpbLow m.1)).toNat then s.setReg (rPxyStrCpbLow m.1) (BitVec.ofNat 32 left) else s

/-- An end of sequence or end of bitstream NAL unit follows the last unit, when its packets have gone already (R178): a packet of its own, which
carries M as the last of the access unit now (log entry 57); its 48 bits belong to that unit. -/
def State.lateEnd (s : State) (m : Fin 4) (b : List Byte) (nal : List Byte) : State :=
  let x := s.stream m
  ((s.rtpUnit m b x.lastTs [(nal, false)] true none).modStream m (fun x => { x with sent := x.sent + 48 })).noteLeft m (x.left - 48)

/-- An access unit begins: its set, its kind of picture, and a restart where one is due (R168, R178). -/
def State.beginUnit (s : State) (m : Fin 4) (p : StreamPic) (r : SetupRecord) (h : PictureChoice) : State :=
  let x := s.stream m
  let restart := x.restart && !p.older m
  let s := if !restart then s
    else ((match x.set with
      | some q => if x.eos then s else s.lateEnd m q.bytes eosUnit
      | none => s).pxyEvent m 2)
  let idr := restart || (match x.sinceIdr with
    | none => true
    | some n => decide (pxyIdrPeriod r.bytes ≤ n))
  let first := restart || x.sinceIdr.isNone
  s.modStream m (fun x => { x with
    set := some r, code := s.active unitCode, idr := idr, restart := x.restart && !restart, eos := x.eos && !restart
    k := if restart then 0 else x.k, sent := if restart then 0 else x.sent, arrived := if restart then 0 else x.arrived
    delay0 := if first then pxyInitDelay r.bytes else x.delay0
    choice := if idr then some h else x.choice
    removal := match x.sinceIdr with
      | some n => Nat.max 1 n
      | none => 1
    sinceIdr := if idr then some 0 else x.sinceIdr })

/-- A row is complete; with the last one the access unit, and with an end of bitstream NAL unit the stream. -/
def State.endRow (s : State) (m : Fin 4) (rows : Nat) (ts : Word) (eos stop : Bool) : State :=
  let x := s.stream m
  if x.row + 1 < rows then s.modStream m (fun x => { x with row := x.row + 1 })
  else
    (s.bump (rPxyStrPics m.1) 1).modStream m (fun x =>
      let y := { x with row := 0, k := x.k + 1, sinceIdr := x.sinceIdr.map (· + 1), pics := x.pics.drop 1, lastTs := ts, eos := eos }
      if stop then y.ended else y)

/-- Filler bytes of the last row (R175): the fewest that keep the next arrival within CPB_SIZE; a filler NAL unit with its start code
has at least 7. -/
def fillerBytes (b c : List Byte) (delay k sent : Nat) : Nat :=
  let need := arrivedNum b c delay (k + 1) (pxyRows b - 1) / cpbDen b c - sent - pxyCpbSize b
  if pxyCbr b = 0 ∨ need = 0 then 0 else Nat.max 7 (ceilDiv need 8)

/-- Every line that CTU row `j` of a picture needs is in the ring (R177). -/
def State.rowLines (s : State) (p : StreamPic) (b c : List Byte) (j : Nat) : Bool :=
  p.slot.isSome && (linesFor b c j).all (s.lineThere c p.base (pxyExpSel b))

/-- The next row of a stream that can be coded, its lines there or its picture ended (R177): the picture, the set and the code record. -/
def State.rowNext (s : State) (m : Fin 4) : Option (StreamPic × SetupRecord × List Byte) :=
  let x := s.stream m
  match x.pics with
  | [] => none
  | p :: _ =>
    match (if x.row = 0 then s.pxySet m p else x.set) with
    | none => none
    | some r =>
      let c := if x.row = 0 then s.active unitCode else x.code
      if p.ended || s.rowLines p r.bytes c x.row then some (p, r, c) else none

/-- When that row became ready: its last line accepted, or its picture declared ended. -/
def State.rowTime (s : State) (m : Fin 4) (a : StreamPic × SetupRecord × List Byte) : Nat :=
  let j := (s.stream m).row
  if s.rowLines a.1 a.2.1.bytes a.2.2 j then
    ((linesFor a.2.1.bytes a.2.2 j).filterMap (fun y => (a.1.times.find? (fun t => t.1 = y)).map (·.2))).foldl Nat.max 0
  else a.1.endAt

/-- No row of another stream on the same encoder core goes before it: rows in the order they become ready, of the same cycle the lower stream first
(R177). -/
def State.rowFirst (s : State) (m : Fin 4) (a : StreamPic × SetupRecord × List Byte) : Bool :=
  ([0, 1, 2, 3] : List (Fin 4)).all (fun n => decide (n = m) || (match s.rowNext n with
    | some z => decide (pxyCore z.2.1.bytes ≠ pxyCore a.2.1.bytes) || decide (s.rowTime m a < s.rowTime n z) ||
        (decide (s.rowTime m a = s.rowTime n z) && decide (m < n))
    | none => true))

/-- The bits of the slice data's end that come with a row. -/
def sliceTail (tail : List Bool) : Bits := tail.take 64

/-- The CTUs of row `j`, as coded against its budget, a row of a picture that ended without its lines wholly in minimal form (R173, R177). -/
def codeSlice (b : List Byte) (h : PictureChoice) (v : SliceChoice) (idr there : Bool) (poc j budget before : Nat) (ctus : List CtuCode) : CodedRow :=
  let head := sliceHeader b h v idr poc j
  let tree := fun i => minimalTree b idr (clipI v.qp (pxyQpMin b) (pxyQpMax b)) 5 (pxyCtu b) (i * pxyCtu b) (j * pxyCtu b)
  if there then codeCtus budget before tree 0 head [] ctus else minimalRow tree head [] 0 ctus

/-- NAL units before a slice (R170). -/
def Stream.leading (x : Stream) (b : List Byte) (h now : PictureChoice) : List (List Byte) :=
  let n := pxyRows b
  let delay := if x.k = 0 then x.delay0 else if pxyCbr b = 1 then x.laterDelay b x.code else h.laterDelay
  let sets := [setUnit nalVps (vpsBits b), setUnit nalSps (spsBits b x.code h), setUnit nalPps (ppsBits b h), bufferingUnit delay h]
  (if x.row ≠ 0 then [] else (if x.idr then sets else []) ++ [timingUnit x.removal h now]) ++ [unitInfo n x.row h]

/-- CTUs that the coding tools of R169 can make of a row. -/
def rowLegal (b : List Byte) (v : SliceChoice) (idr : Bool) (j : Nat) (ctus : List CtuCode) : Bool :=
  decide (ctus.length = pxyWCtu b) &&
    ((upFrom 0 ctus.length).zip ctus).all (fun a => treeLegal b v idr a.2.tree (pxyCtu b) (a.1 * pxyCtu b) (j * pxyCtu b))

/-- The next row of stream `m` is coded and sent, 48 bits of the last row's budget being kept for the NAL unit that may end it later. -/
def State.codeRow (s : State) (m : Fin 4) (p : StreamPic) (r : SetupRecord) (now : PictureChoice) (v : SliceChoice) (tail : List Bool)
    (ctus : List CtuCode) : State :=
  let x := s.stream m
  let b := r.bytes
  let c := x.code
  let n := pxyRows b
  let j := x.row
  let h := x.choice.getD now
  let there := s.rowLines p b c j
  let last := decide (j + 1 = n)
  let arr := x.arrival b c
  let budget := arr / cpbDen b c - x.sent
  let lead := x.leading b h now
  let before := sumNat (lead.map nalSize)
  let coded := codeSlice b h v x.idr there (x.sinceIdr.getD 0) j (budget - if last then 48 else 0) (before + (sliceTail tail).length) ctus
  let slice := nalUnit (if x.idr then nalIdr else nalTrail) (bitsToBytes (trailed (coded.bits ++ sliceTail tail)))
  let stop := last && x.eob && !x.run
  let eos := last && !stop && x.restart && p.older m && (x.pics.drop 1).all (fun q => !q.older m)
  let ends := (if eos then [eosUnit] else []) ++ (if stop then [eobUnit] else [])
  let size0 := before + nalSize slice + sumNat (ends.map nalSize)
  let fill := if last then fillerBytes b c x.delay0 x.k (x.sent + size0) else 0
  let size := size0 + 8 * fill
  let s := s.modStream m (fun x => { x with
    sent := x.sent + size, arrived := arr, coded := coded.trees, input := if there then s.encoderInput r c p.base j else x.input })
  let s := if coded.minimal = 0 then s else (s.bump (rPxyStrMinCtus m.1) coded.minimal).pxyEvent m 0
  let s := if there then s.noteAreas (inputAreas b c p.base j) else s.pxyEvent m 1
  let s := (if fill = 0 then s else s.bump (rPxyStrFillerBytes m.1) fill).noteLeft m (budget - size)
  let earlier := if j = 0 then [] else linesFor b c (j - 1)
  let waits := (((linesFor b c j).filter (fun y => !earlier.contains y)).filterMap (fun y => (p.times.find? (fun a => a.1 = y)).map (·.2)))
  let since := waits.foldl (fun (o : Option Nat) t => some (match o with
    | some u => Nat.min u t
    | none => t)) none
  let ts := rtpTime b p.ptp
  let rest := (if fill = 0 then [] else [fillerUnit fill]) ++ ends
  let all := lead.map (fun a => (a, false)) ++ [(slice, true)] ++ rest.map (fun a => (a, false))
  ((s.rtpUnit m b ts all last since).endRow m n ts eos stop)

/-- PROXY_ROW (R163-R181): the next row of the oldest picture, when its lines are there or its picture has ended and no other row of its core goes
before. CTUs that R169 does not allow change nothing: no encoder core makes them (log entry 102). A stream that has stopped between access units
sends the end of bitstream NAL unit. -/
def State.proxyRow (s : State) (m : Fin 4) (h : PictureChoice) (v : SliceChoice) (tail : List Bool) (ctus : List CtuCode) : State :=
  match s.rowNext m with
  | some a =>
    let s' := if (s.stream m).row = 0 then s.beginUnit m a.1 a.2.1 h else s
    if s.rowFirst m a && rowLegal a.2.1.bytes v (s'.stream m).idr (s'.stream m).row ctus then s'.codeRow m a.1 a.2.1 h v tail ctus else s
  | none =>
    let x := s.stream m
    match x.set with
    | some r => if x.eob && !x.run && x.pics.isEmpty then (s.lateEnd m r.bytes eobUnit).modStream m Stream.ended else s
    | none => s

def execProxyRow (m : Fin 4) (picture : PictureChoice) (slice : SliceChoice) (tail : List Bool) (ctus : List CtuCode) (s : State) :
    Host.Outcome State Fault Refusal :=
  .next (s.proxyRow m picture slice tail ctus)

/-! ### Sender reports (R182) -/

/-- NTP timestamp of a PTP time: UTC since 1900 in 32.32 (R182). -/
def ntpOf (ns : DWord) (utc : Half) : DWord :=
  let t : Int := (ns.toNat / 1000000000 : Nat) - utc.toInt + 2208988800
  BitVec.ofInt 32 t ++ BitVec.ofNat 32 (ns.toNat % 1000000000 * 2 ^ 32 / 1000000000)

/-- An RTCP sender report without report blocks (RFC 3550): SSRC, both timestamps, packets and payload octets sent. -/
def senderReport (b : List Byte) (x : Stream) (ntp : DWord) (ts : Word) : List Byte :=
  [0x80, 200, 0, 6] ++ beBytes 4 (pxySsrc b) ++ beBytes 8 ntp.toNat ++ beBytes 4 ts.toNat ++ beBytes 4 x.pkts.toNat ++ beBytes 4 x.octets.toNat

/-- RTCP_SENDER_REPORT (R182): to the RTP destination port + 1. -/
def execRtcpSenderReport (m : Fin 4) (s : State) : Host.Outcome State Fault Refusal :=
  let b := s.active (unitPxy m.1)
  let ntp := ntpOf s.clk.ns s.ptp.utc
  let frame := udpFrame b 1 (senderReport b (s.stream m) ntp (rtpTime b s.clk.ns))
  .next (if (s.stream m).run && decide (pxyRtcpInterval b ≠ 0) then
      s.sluOffer (4 + m.1) { kind := .rtcp, bytes := frame.length, pkt := none, rtp := none, ntp := ntp, frame := frame, since := none }
    else s)

end Sys2Proof.Machine
end

