-- ==== Sys2Proof/Machine/Play.lean ====
section
/-! DEFINITION. Decode sessions (R186-R207): Svetquel playback on the tile engines (session 0) and H.265 return streams (1-8), and the
completion of NVMe commands, of which the session's are the reads. -/

namespace Sys2Proof.Machine

def State.session (s : State) (k : Fin 9) : Session := vget s.sessions k
def State.modSession (s : State) (k : Fin 9) (f : Session → Session) : State := { s with sessions := vmod s.sessions k f }

/-- Event 208 + 4s + e: 0 concealed, 1 rejected, 2 slow, 3 final completion (R406). -/
def State.playRaise (s : State) (k : Fin 9) (e : Nat) : State := s.raise (208 + 4 * k.1 + e)
/-- A W1C bit of PXY_PLAY_STAT (R208). -/
def State.playStat (s : State) (k : Fin 9) (bit : Nat) : State := s.orReg (rPxyPlayStat k.1) (BitVec.twoPow 32 bit)

/-- The slot that a session compares is no longer in use by it (R193); it stays in use while another session that is not stopping compares it. -/
def State.letSlot (s : State) (k : Fin 9) : State :=
  match (s.session k).params.bind (·.cmpSlot) with
  | some i =>
    let other := (upFrom 0 9).any (fun j => decide (j ≠ k.1) && !(vgetN Session.atReset s.sessions j).stopping &&
      decide ((vgetN Session.atReset s.sessions j).params.bind (·.cmpSlot) = some i))
    s.modSlot i (fun y => { y with playing := other })
  | none => s

/-- A session ends (R207): PLAY's final completion, with the pictures output as its value (R279); decode routines stop (R226), and the
slot compared is no longer BUSY (R193). -/
def State.playEnd (s : State) (k : Fin 9) (status : Nat) : State :=
  let x := s.session k
  let s := s.letSlot k
  let s := if k = 0 then s.engines.foldl (fun s e => match e.2.run with
      | .decode _ => s.setEngine e.1 { e.2 with stop := true }
      | _ => s) s
    else s
  let s := s.modSession k (fun _ => Session.atReset)
  (s.postOwed x.cmd status (BitVec.ofNat 64 x.produced)).playRaise k 3

/-! ### Output buffers (R201, R206) -/

/-- The device's producer index and the consumer's word at `a`. -/
def State.ringUsed (s : State) (produced a : Nat) : Nat := (produced + 2 ^ 32 - leNat (s.peek (a + 4) 4)) % 2 ^ 32

/-- A buffer is free, and for session 0 the report ring is not full. -/
def State.outputRoom (s : State) (k : Fin 9) : Bool :=
  let x := s.session k
  match x.params with
  | none => false
  | some p => decide (s.ringUsed (x.produced % 2 ^ 32) p.outCtrl < p.outCount) &&
      (k ≠ 0 || decide (s.ringUsed (x.produced % 2 ^ 32) p.reportBase ≠ p.reportCount))

/-- An output: the picture in its buffer, the descriptor, the producer index (R206). -/
def State.putOutput (s : State) (k : Fin 9) (p : PlayParams) (bytes : List Byte) (picture : Nat) (ptp flags width height format : Nat) : State :=
  let n := (s.session k).produced
  let i := n % p.outCount
  let d := leBytes 4 n ++ leBytes 4 picture ++ leBytes 8 ptp ++ leBytes 4 flags ++ leBytes 2 width ++ leBytes 2 height ++ leBytes 1 format ++
    leBytes 1 i ++ List.replicate 6 0
  let s := s.noteArea (p.outCtrl + 4) 4
  let s := ((s.poke (p.outBuf + i * p.outStride) bytes).poke (p.outCtrl + 64 + i * 32) d).poke p.outCtrl (leBytes 4 (n + 1))
  ((s.bump (rPxyPlayPics k.1) 1).setReg (rPxyPlayLast k.1) (BitVec.ofNat 32 picture)).modSession k
    (fun x => { x with produced := x.produced + 1, recent := x.recent + 1, outAt := s.clk.fab })

/-! ### Reading the log (R52, R87, R189, R192) -/

/-- The extent of log address `a`: its LBA, the bytes left in it; `j` extents from the front. -/
def extentAt (lba : Nat) : List (Nat × Nat) → Nat → Option (Nat × Nat)
  | [], _ => none
  | (start, units) :: r, a => if a < units * 4096 then some (start + a / lba, units * 4096 - a) else extentAt lba r (a - units * 4096)

/-- Log bytes of the take. -/
def PlayTake.size (t : PlayTake) : Nat := sumNat (t.extents.map (fun e => e.2 * 4096))

/-- Read the session's log from `a`, `n` bytes to whole 4 KiB units. -/
def Session.ask (x : Session) (a n : Nat) : Session := { x with want := [(a, roundUp n 4096)], asked := [], got := [] }

/-- Reads that the port lost with its link count as failed (R487). -/
def State.playLost (s : State) : State :=
  let x := s.session 0
  match x.params with
  | none => s
  | some p =>
    let live := fun (e : Nat × Nat) => (s.mag p.mag).cmds.any (fun c => decide (c.purpose = .read e.1 e.2))
    let gone := x.asked.filter (fun e => !live e)
    s.modSession 0 (fun x => { x with asked := x.asked.filter live, got := x.got ++ gone.map (fun e => (e.1, List.replicate e.2 0, false)) })

/-- Every byte asked for has come or failed. -/
def Session.complete (x : Session) : Bool := x.want.isEmpty && x.asked.isEmpty

/-- The bytes read, in log order. -/
def Session.bytes (x : Session) : List Byte :=
  let rec go : Nat → Nat → List Byte := fun fuel a => match fuel with
    | 0 => []
    | fuel + 1 => match x.got.find? (fun e => e.1 = a) with
      | some e => e.2.1 ++ go fuel (a + e.2.1.length)
      | none => []
  go (x.got.length + 1) ((x.got.foldl (fun (o : Option Nat) e => some (match o with
    | some a => Nat.min a e.1
    | none => e.1)) none).getD 0)

/-- Log ranges whose Read failed. -/
def Session.failures (x : Session) : List (Nat × Nat) := (x.got.filter (fun e => !e.2.2)).map (fun e => (e.1, e.2.1.length))

/-! ### Records (R59, R65, R87) -/

/-- The crc of a record agrees (R59, R61). -/
def recordCrcOk (b : List Byte) : Bool :=
  let n := leAt b 8 4
  decide ((checkValue (leAt b 24 2) 0xFFFF (leAt b 16 8 % 2 ^ 32) (b.take 28 ++ (b.drop 32).take (n - 32))).toNat = leAt b 28 4)

/-- Fixed length of a record type (R60); of a PICTURE_UNIT, which R60 leaves variable, the header, R69's fields and ref[] that every one has, 160 B
(DESIGN CHOICE, log entry 97). -/
def fixedLength (b : List Byte) : Nat :=
  match leAt b 4 2 with
  | 1 => 192 + 16 * leAt b 184 2
  | 2 => 160
  | 3 => 48 + 24 * leAt b 32 4
  | 4 => 64
  | _ => 128

/-- R87 but for the crc. -/
def recordPlausible (t : PlayTake) (a lastSeq : Nat) (b : List Byte) : Bool :=
  decide (leAt b 0 4 = 0x31515653) && decide (leAt b 6 1 = 1) && decide (1 ≤ leAt b 4 2) && decide (leAt b 4 2 ≤ 5) &&
    decide (leAt b 12 4 = t.tag.toNat) && decide (leAt b 24 2 = t.device.toNat) && decide (fixedLength b ≤ leAt b 8 4) &&
    decide (a + leAt b 8 4 ≤ t.size) && decide (lastSeq < leAt b 16 8)

/-- The geometry of a TAKE_HEADER in the layout of a CODE record (R65, R294). -/
def headerCode (b : List Byte) : List Byte :=
  List.replicate 16 0 ++ (b.drop 64).take 7 ++ (b.drop 74).take 2 ++ (b.drop 73).take 1 ++ [0, 0] ++ (b.drop 76).take 8 ++ (b.drop 62).take 2 ++
    [0, 0] ++ (b.drop 176).take 4 ++ List.replicate 4 0 ++ (b.drop 96).take 80

def headerTake (b : List Byte) : PlayTake :=
  { device := BitVec.ofNat 16 (leAt b 24 2), tag := BitVec.ofNat 32 (leAt b 32 4), code := headerCode b
    arrangement := leAt b 71 1
    extents := (upFrom 0 (leAt b 184 2)).map (fun j => (leAt b (192 + 16 * j) 8, leAt b (200 + 16 * j) 4)) }

/-- Where log address `a` lies: the TAKE_HEADER's first 4 KiB from LOG_LBA on (R189), what follows by its extents (R52). -/
def Session.place (x : Session) (a : Nat) : Option (Nat × Nat) :=
  match x.params, x.take with
  | some p, none => if a < 4096 then some (p.logLba + a / p.lbaBytes, 4096 - a) else extentAt p.lbaBytes (headerTake x.bytes).extents a
  | some p, some t => extentAt p.lbaBytes t.extents a
  | none, _ => none

/-- The session plays the take that is being recorded on the same magazine (R192). -/
def State.playsRolling (s : State) (p : PlayParams) : Bool :=
  (decide (s.take.st = .rolling) || decide (s.take.st = .cutting)) && s.usesMag p.mag &&
    decide (p.nsid.toNat = logNsid (s.active unitLog) p.mag.1) && decide (p.logLba = (logExtent (s.active unitLog) p.mag.1 0).1)

/-- The ledger whose log magazine `m` holds. -/
def State.ledgerMag (s : State) (m : Fin 2) : Fin 2 := if s.arrangement = 2 then m else 0

/-- Every byte of the log below this address is on magazine `m`: no Write of it waits or is in flight (R25, R192). -/
def State.onMagazine (s : State) (m : Fin 2) : Nat :=
  let due := ((s.ledger (s.ledgerMag m)).spill.map (·.addr)) ++ ((s.log m).units.map (·.addr)) ++ ((s.mag m).cmds.filterMap (fun c => match c.purpose with
    | .write u _ => some u.addr
    | _ => none))
  due.foldl Nat.min (s.log m).addr

/-- A Read may be submitted now (R192). -/
def State.readGate (s : State) (p : PlayParams) : Bool :=
  let l := s.ledger (s.ledgerMag p.mag)
  !s.playsRolling p || (decide (2 * s.pendingBytes p.mag < l.sz.pendMax) && decide (l.spill = []))

/-- Reads are submitted as far as queue 1 and R192 allow; a port that is not READY answers none: the bytes count as failed. -/
def State.playIssue (s : State) : Nat → State
  | 0 => s
  | fuel + 1 =>
    let x := s.session 0
    match x.params, x.want with
    | some p, (a, n) :: rest =>
      let fail := s.modSession 0 (fun x => { x with want := rest, got := x.got ++ [(a, List.replicate n 0, false)] })
      if (s.mag p.mag).st ≠ .ready then fail.playIssue fuel
      else if !s.readGate p ∨ (s.mag p.mag).room 1 = 0 then s
      else match x.place a with
        | none => fail.playIssue fuel
        | some (lba, left) =>
          let k := Nat.min n (Nat.min left (s.mag p.mag).maxBytes)
          let s := s.nvmeSubmit p.mag 1 opRead p.nsid lba (k / Nat.max 1 p.lbaBytes - 1) k (.read a k)
          (s.modSession 0 (fun x => { x with want := if k < n then (a + k, n - k) :: rest else rest, asked := x.asked ++ [(a, k)] })).playIssue fuel
    | _, _ => s

/-- Bytes of a decoded picture. -/
def pictureBytes (c : List Byte) : Nat := codeWidth c * codeHeight c * codeExposures c * 2

/-- What R189 makes of the TAKE_HEADER: a status that ends the session, or nothing. -/
def headerRefusal (p : PlayParams) (b : List Byte) (good : Bool) : Option Nat :=
  let n := leAt b 8 4
  if !good || decide (leAt b 0 4 ≠ 0x31515653) || decide (leAt b 4 2 ≠ 1) || decide (leAt b 6 1 ≠ 1) || decide (leAt b 16 8 ≠ 0) ||
      decide (leAt b 12 4 ≠ leAt b 32 4) || decide (n < fixedLength b) || decide (b.length < n) || !recordCrcOk b then some stIntegrity
  else if leAt b 61 1 ≠ 1 ∨ leAt b 86 2 ≠ p.lbaBytes then some stBadarg
  else if p.areaLen < p.areaPics * pictureBytes (headerCode b) ∨ p.outStride < pictureBytes (headerCode b) then some stNoresource
  else none

/-- Entries that a valid record adds (R69, R71, R85); in a stripe log a note's numbers go by twos (R64). An INDEX adds none: the walk is the
authority (R87), and every picture that an INDEX lists has been walked before it. -/
def tocOf (stripe : Bool) (a : Nat) (b : List Byte) : List TocEntry :=
  match leAt b 4 2 with
  | 2 => [{ number := leAt b 32 4, addr := a, len := leAt b 8 4, intra := leAt b 36 1 % 2 = 1, dropped := false
            refs := (upFrom 0 (leAt b 52 1)).map (fun i => (BitVec.ofNat 16 (leAt b (66 + 8 * i) 2), leAt b (68 + 8 * i) 4)) }]
  | 4 => (upFrom 0 (leAt b 36 4)).map (fun i => { number := leAt b 32 4 + (if stripe then 2 * i else i), addr := a, len := 0, intra := false, dropped := true, refs := [] })
  | _ => []

/-! ### What to decode next (R190, R195) -/

def Session.entry (x : Session) (n : Nat) : Option TocEntry := x.toc.find? (fun e => decide (e.number = n) && !e.dropped)

/-- The walk has gone far enough to decide on picture `n`. -/
def Session.knows (x : Session) (n : Nat) : Bool := x.walkDone || x.toc.any (fun e => decide (n ≤ e.number) && (!e.dropped || decide (n = e.number)))

/-- The pictures to decode for output picture `n`: from the nearest INTRA picture within PREROLL (R190); without one, `n` alone if it stands. -/
def Session.chain (x : Session) (p : PlayParams) (n : Nat) : List Nat :=
  let lo := n - p.preroll
  let own := x.toc.filter (fun e => decide (lo ≤ e.number) && decide (e.number ≤ n) && !e.dropped)
  let start := own.foldl (fun (o : Option Nat) e => if e.intra then some (match o with
    | some a => Nat.max a e.number
    | none => e.number) else o) none
  match start with
  | some a => (own.filter (fun e => a ≤ e.number)).map (·.number)
  | none => ((x.entry n).map (·.number)).toList

/-- The first number to be output. -/
def PlayParams.start (p : PlayParams) : Nat := if p.reverse then p.last else p.first

/-- The number after `n` in the play direction, if the range has one (R192: FOLLOW has no LAST). -/
def PlayParams.after (p : PlayParams) (n : Nat) : Option Nat :=
  if p.reverse then (if n ≤ p.first then none else some (n - 1))
  else if !p.follow ∧ p.last ≤ n then none else some (n + 1)

/-- FOLLOW ends at CUT: the log has ended and no later picture is listed (R192). -/
def Session.followOver (x : Session) (p : PlayParams) : Bool := p.follow && x.walkDone && !x.toc.any (fun e => x.next ≤ e.number)

/-- The last number that the walk is to have passed before picture `x.next` is decoded: R191 asks which pictures the next PREROLL ones name. -/
def Session.ahead (x : Session) (p : PlayParams) : Nat :=
  if p.reverse then x.next else if p.follow then x.next + p.preroll else Nat.max x.next (Nat.min p.last (x.next + p.preroll))

/-- Choose: walk on, wait for the recording, decode, or output a repeat. -/
def State.playChoose (s : State) : State :=
  let x := s.session 0
  match x.params with
  | none => s
  | some p =>
    if x.followOver p then s.playEnd 0 stOk
    else if !x.waiting ∧ !(x.knows x.next && x.knows (x.ahead p)) then
      s.modSession 0 (fun x => { x.ask x.walk 4096 with phase := .walk, front := s.onMagazine p.mag })
    else if !x.knows x.next then s.modSession 0 (fun x => { x with phase := .await })
    else
      let c := if !x.primed ∨ p.reverse then (if p.reverse && (x.entry x.next).isNone then [] else x.chain p x.next)
        else ((x.entry x.next).map (·.number)).toList
      s.modSession 0 (fun x => match c with
        | [] => { x with primed := true, phase := .output, pic := none, todo := [] }
        | n :: _ =>
          let e := x.entry n
          { x.ask ((e.map (·.addr)).getD 0) ((e.map (·.len)).getD 0) with primed := true, phase := .fetch, todo := c, pic := none })

/-! ### The walk (R87) -/

/-- The walk has read what it asked for at `x.walk` (R87). Playing the take that is rolling, it waits at the end of what the magazine holds (R192);
before that end it steps over what is no record, as anywhere. -/
def State.playWalk (s : State) : State :=
  let x := s.session 0
  match x.params, x.take with
  | some p, some t =>
    let b := x.bytes
    let n := leAt b 8 4
    let headerArea := if leAt b 4 2 = 2 then roundUp (160 + 8 * leAt b 48 4) 4096 else n
    let headBad := x.failures.any (fun e => decide (e.1 < x.walk + headerArea))
    let sound := recordPlausible t x.walk x.lastSeq b && !x.failures.any (fun e => decide (e.1 = x.walk))
    let short := p.follow && s.playsRolling p && decide (x.front < x.walk + (if sound then roundUp n 4096 else 4096))
    if t.size ≤ x.walk then (s.modSession 0 (fun x => { x with walkDone := true })).playChoose
    else if short then (s.modSession 0 (fun x => { x with waiting := true })).playChoose
    else if sound ∧ b.length < n then s.modSession 0 (fun y => { y with want := [(x.walk + b.length, roundUp (n - b.length) 4096)] })
    else if !sound ∨ headBad ∨ (x.failures = [] ∧ !recordCrcOk (b.take n)) then
      ((s.bump (rPxyPlayDiscards 0) 1).modSession 0 (fun x => { x with walk := x.walk + 4096 })).playChoose
    else (s.modSession 0 (fun y => { y with walk := y.walk + roundUp n 4096, lastSeq := leAt b 16 8
                                            toc := y.toc ++ tocOf (decide (t.arrangement = 2)) x.walk (b.take n)
                                            walkDone := y.walkDone || decide (leAt b 4 2 = 5) })).playChoose
  | _, _ => s

/-! ### Decoding a picture (R191, R196-R200) -/

def PlayPicture.refCount (q : PlayPicture) : Nat := Nat.min 4 (leAt q.record 52 1)
def PlayPicture.refKind (q : PlayPicture) (k : Nat) : Nat := if k < q.refCount then leAt q.record (64 + 8 * k) 1 else 0
def PlayPicture.refKey (q : PlayPicture) (k : Nat) : Half × Nat :=
  (BitVec.ofNat 16 (leAt q.record (66 + 8 * k) 2), leAt q.record (68 + 8 * k) 4)

/-- Geometry of a picture: width, height, depth, period, exposures. -/
def geometryOf (c : List Byte) : List Byte := (c.drop 16).take 7

/-- The area picture of a key with the current geometry (R197). -/
def Session.resolve (x : Session) (c : List Byte) (key : Half × Nat) : Option AreaPicture :=
  (x.area.find? (fun a => decide (a.device = key.1) && decide (a.picture = key.2))).bind (fun a =>
    if geometryOf a.code = geometryOf c then some a else none)

/-- The area picture of device `d` with the highest number below `n`, of the current geometry (R198). -/
def Session.below (x : Session) (c : List Byte) (d : Half) (n : Nat) : Option AreaPicture :=
  let best := (x.area.filter (fun a => decide (a.device = d) && decide (a.picture < n))).foldl (fun (o : Option AreaPicture) a => match o with
    | none => some a
    | some b => if b.picture < a.picture then some a else some b) none
  best.bind (fun a => if geometryOf a.code = geometryOf c then some a else none)

/-- Samples of tile `t`. -/
def AreaPicture.tile (a : AreaPicture) (t : Nat) : List Half := mapGet (fun _ => []) a.tiles t

/-- Sample (u, v) of plane `i`. -/
def AreaPicture.sample (a : AreaPicture) (i u v : Nat) : Nat :=
  let c := a.code
  let p := codePeriod c
  let t := v * p / 64 * tilesX c + u * p / 256
  let tw := tileW c t / p
  let th := tileH c t / p
  (nth 0 (a.tile t) (i * (tw * th) + (v - t / tilesX c * 64 / p) * tw + (u - t % tilesX c * 256 / p))).toNat

/-- The unit of tile `t`, if its directory entry lies within the record (R73, R196). -/
def PlayPicture.unit (q : PlayPicture) (t : Nat) : Option (Nat × List Byte) :=
  let o := leAt q.record (160 + 8 * t) 4
  let n := leAt q.record (164 + 8 * t) 4
  if o + n ≤ q.record.length ∧ 32 ≤ n ∧ n % 4 = 0 then some (o, (q.record.drop o).take n) else none

/-- A Read of some byte of log range `a`, `n` failed. -/
def PlayPicture.unread (q : PlayPicture) (o n : Nat) : Bool :=
  q.failed.any (fun e => decide (e.1 < q.addr + o + n) && decide (q.addr + o < e.1 + e.2))

/-- Tile header fields within R74, for the tile's place and geometry; the reserved bytes are ignored (R66). -/
def unitFormed (c : List Byte) (t : Nat) (u : List Byte) : Bool :=
  let m := unitMode u
  let w := tileW c t
  let h := tileH c t
  decide (leAt u 0 2 = t) && decide (m ≤ 2) && (decide (m = 0) || decide (unitE u = 0)) && decide (unitS u < codeDepth c) &&
    (decide (m = 1) || decide (unitS u = 0)) && decide (unitRefUse u < 16) && decide (unitFlags u < 128) && decide (unitPayloadLen u % 4 = 0) &&
    decide (leAt u 24 1 + 1 = w) && decide (leAt u 25 1 + 1 = h) && decide (leAt u 26 1 = 1) &&
    decide (u.length = 32 + mapLen m (w / 16 * (h / 16)) + unitPayloadLen u)

/-- The coder of tile `t` of a recording, with a reader of its references. -/
def playEnv (c : List Byte) (t : Nat) (u : List Byte) (ref : Nat → Nat → Nat → Nat → Nat) : TileEnv :=
  { d := codeDepth c, p := codePeriod c, x := codeExposures c, g := leAt c 40 4, xexp := unitFlags u % 2 = 1, w := tileW c t, h := tileH c t
    ox := t % tilesX c * 256, oy := t / tilesX c * 64, pw := codeWidth c, ph := codeHeight c, e := unitE u, ref := ref }

/-- The entries that blocks of the unit name (R81, R197). -/
def namedEntries (v : TileEnv) (kind : Nat → Nat) (u : List Byte) : List Nat :=
  if unitMode u ≠ 0 then []
  else
    let m := mapLen 0 v.blocks
    let bits := bytesToBits ((u.drop 32).take m)
    let modes := (upFrom 0 v.blocks).map (fun b => bitsVal ((bits.drop (3 * b)).take 3))
    match readChoices v.x kind modes (bytesToBits (u.drop (32 + m))) with
    | some (cs, _) => ((cs.filter (fun c => isInter c.mode)).map (fun c => c.refIdx.1)).dedup
    | none => []

/-- What a decoded tile gives: samples, status word, unsound. -/
structure PlayTile where
  samples : List Half
  status : Nat
  unsound : Bool

/-- Concealment steps 2 and 3 (R198). -/
def Session.conceal (x : Session) (c : List Byte) (t : Nat) : List Half × Nat :=
  match x.lastDecoded.bind (fun a => if geometryOf a.code = geometryOf c then some a else none) with
  | some a => (a.tile t, 0x100)
  | none => (List.replicate (tileW c t * tileH c t * codeExposures c) (BitVec.ofNat 16 (2 ^ (codeDepth c - 1))), 0x200)

/-- A damaged tile (R198). -/
def Session.damaged (x : Session) (c : List Byte) (dev : Half) (q : PlayPicture) (t bits : Nat) : PlayTile :=
  match x.below c dev q.number with
  | some a => { samples := a.tile t, status := 0x10 + bits + 0x80, unsound := true }
  | none =>
    let r := x.conceal c t
    { samples := r.1, status := 0x10 + bits + r.2, unsound := true }

/-- Bands whose unsound tiles reach band `ty` (R115, R199). -/
def unsoundNear (c : List Byte) (a : AreaPicture) (ty : Nat) : Bool :=
  let b := ceilDiv (34 * codePeriod c) 64
  a.unsound.any (fun t => decide (ty - b ≤ t / tilesX c) && decide (t / tilesX c ≤ ty + b))

/-- The picture with whose samples entry `k` is read: the one named, or the substitute of R198. -/
def Session.source (x : Session) (c : List Byte) (q : PlayPicture) (k : Nat) : Option AreaPicture :=
  match x.resolve c (q.refKey k) with
  | some a => some a
  | none => x.below c (q.refKey k).1 (q.refKey k).2

/-- Decode tile `t` of the session's picture (R196-R200). -/
def Session.decodeTile (x : Session) (t0 : PlayTake) (q : PlayPicture) (t : Nat) : PlayTile :=
  let c := t0.code
  let dev := t0.device
  match q.unit t with
  | none => x.damaged c dev q t 0
  | some (o, u) =>
    let mis := if !q.unread o 32 && unitFlags u / 16 % 2 = 1 then 0x800 else 0
    if q.unread o u.length then x.damaged c dev q t mis
    else if (checkValue dev.toNat (leAt u 0 2) q.number (u.drop 32)).toNat ≠ unitPayloadCheck u then x.damaged c dev q t (8 + mis)
    else if !unitFormed c t u then x.damaged c dev q t mis
    else
      let kind := fun k => if natBit (unitRefUse u) k then q.refKind k else 0
      let ref := fun k i a b => match x.source c q k with
        | some p => p.sample i a b
        | none => 0
      let v := playEnv c t u ref
      let named := namedEntries v kind u
      let lost := named.filter (fun k => (x.resolve c (q.refKey k)).isNone)
      match v.decUnit kind u with
      | none => x.damaged c dev q t mis
      | some planes =>
        let inh := if named.any (fun k => match x.resolve c (q.refKey k) with
            | some a => unsoundNear c a (t / tilesX c)
            | none => false) then 0x400 else 0
        if lost.isEmpty then
          let check := (v.reconCheck dev.toNat t q.number planes).toNat
          let ok := decide (check = unitReconCheck u)
          let ver := ok && decide (codeMode c = 0) && decide (unitReconCheck u = unitSrcCheck u)
          { samples := samplesOf planes, status := 1 + (if ok then 2 else 0) + (if ver then 4 else 0) + inh + mis, unsound := !ok }
        else if lost.all (fun k => (x.source c q k).isSome) then
          { samples := samplesOf planes, status := 1 + 0x20 + 0x40 + inh + mis, unsound := true }
        else
          let r := x.conceal c t
          { samples := r.1, status := 0x20 + r.2 + inh + mis, unsound := true }

/-- SLOT_DIFF (R193): the slot compared holds this picture, and its samples of the tile differ. -/
def State.slotDiff (s : State) (p : PlayParams) (t0 : PlayTake) (q : PlayPicture) (t : Nat) (samples : List Half) : Bool × Bool :=
  match p.cmpSlot with
  | none => (false, false)
  | some i =>
    let x := s.slot i
    let c := t0.code
    if x.mark = .held ∧ x.device = t0.device ∧ x.picture.toNat = q.number ∧ x.base.isSome then
      let w := tileW c t / codePeriod c
      let h := tileH c t / codePeriod c
      let at0 := fun k => leNat (s.peek ((x.base.getD 0) + planeOffset c (k / (w * h)) (t / tilesX c * 64 / codePeriod c + k / w % h)
        (t % tilesX c * 256 / codePeriod c + k % w)) 2)
      (true, (samples.zip (upFrom 0 samples.length)).any (fun a => decide (a.1.toNat ≠ at0 a.2)))
    else (false, false)

/-- What SLOT_DIFF reads of the slot: the rows of the tile's planes (R104, R193). -/
def State.diffAreas (s : State) (p : PlayParams) (c : List Byte) (t : Nat) : List (Nat × Nat) :=
  match p.cmpSlot.bind (fun i => (s.slot i).base) with
  | none => []
  | some b =>
    let w := tileW c t / codePeriod c
    let h := tileH c t / codePeriod c
    (upFrom 0 (planesOf c)).flatMap (fun i => (upFrom 0 h).map (fun v =>
      (b + planeOffset c i (t / tilesX c * 64 / codePeriod c + v) (t % tilesX c * 256 / codePeriod c), 2 * w)))

/-- Keys named within the next PREROLL pictures still to be decoded (R191). -/
def Session.stillNamed (x : Session) (p : PlayParams) (a : AreaPicture) : Bool :=
  x.toc.any (fun e => (x.todo.contains e.number ||
      (if p.reverse then decide (e.number < x.next) && decide (x.next ≤ e.number + p.preroll)
       else decide (x.next < e.number) && decide (e.number ≤ x.next + p.preroll))) &&
    e.refs.any (fun k => decide (k.1 = a.device) && decide (k.2 = a.picture)))

/-- Eviction when the area is full (R191): `area` is in order of decoding, oldest first. -/
def Session.evict (x : Session) (p : PlayParams) : List AreaPicture :=
  if x.area.length < p.areaPics then x.area
  else match (x.area.zip (upFrom 0 x.area.length)).find? (fun a : AreaPicture × Nat => !x.stillNamed p a.1) with
    | some (_, i) => dropNth x.area i
    | none => x.area.drop 1

/-- Every tile of the picture is decoded: it enters the area; the next one of the chain is read, or the picture waits for output, a repeat in its
place where the number to output has no picture of its own (R190, R195). -/
def State.pictureDone (s : State) (p : PlayParams) (t0 : PlayTake) (q : PlayPicture) : State :=
  let a : AreaPicture := { device := t0.device, picture := q.number, code := t0.code, tiles := q.tiles, unsound := q.unsound }
  let s := s.modSession 0 (fun x =>
    let x := { x with todo := x.todo.drop 1, area := x.area.filter (fun b => b.device ≠ a.device ∨ b.picture ≠ a.picture) }
    { x with area := x.evict p ++ [a], lastDecoded := some a })
  match (s.session 0).todo with
  | [] => s.modSession 0 (fun x => { x with phase := .output, pic := x.pic.filter (fun q => decide (q.number = x.next)) })
  | n :: _ => s.modSession 0 (fun x =>
    let e := x.entry n
    { x.ask ((e.map (·.addr)).getD 0) ((e.map (·.len)).getD 0) with phase := .fetch, pic := none })

/-- A picture is about to be decoded: the reference entries it finds unresolved (R197, R201). -/
def Session.openPic (x : Session) (q : PlayPicture) : PlayPicture :=
  { q with unresolved := (upFrom 0 q.refCount).foldl (fun (b : BitVec 4) k =>
      if (x.resolve ((x.take.map (·.code)).getD []) (q.refKey k)).isNone then b ||| BitVec.twoPow 4 k else b) 0 }

/-- The record of the picture to decode has been read; one whose crc fails, or whose header area could not be read, is no picture
(R87, R195, R196). -/
def State.playFetched (s : State) : State :=
  let x := s.session 0
  match x.todo with
  | [] => s
  | n :: rest =>
    match x.entry n with
    | none => s
    | some e =>
      let b := x.bytes.take e.len
      let area := roundUp (160 + 8 * leAt b 48 4) 4096
      if x.failures.any (fun f => decide (f.1 < e.addr + area)) ∨ (x.failures = [] ∧ !recordCrcOk b) then
        let s := s.modSession 0 (fun x => { x with toc := x.toc.filter (fun a => a.addr ≠ e.addr), todo := rest })
        match rest with
        | [] => s.modSession 0 (fun x => { x with phase := .output, pic := none })
        | k :: _ => s.modSession 0 (fun x =>
          let f := x.entry k
          x.ask ((f.map (·.addr)).getD 0) ((f.map (·.len)).getD 0))
      else s.modSession 0 (fun x => { x with phase := .decode, pic := some (x.openPic
        { number := n, addr := e.addr, record := b, failed := x.failures, tiles := [], status := [], unsound := [], unresolved := 0 }) })

/-- The TAKE_HEADER has been read (R189). -/
def State.playHeader (s : State) : State :=
  let x := s.session 0
  match x.params with
  | none => s
  | some p =>
    let b := x.bytes
    let n := leAt b 8 4
    if b.length < n ∧ n ≤ 8192 ∧ x.failures = [] then s.modSession 0 (fun y => { y with want := [(4096, 4096)] })
    else match headerRefusal p b (x.failures.isEmpty) with
      | some st => s.playEnd 0 st
      | none => (s.modSession 0 (fun x => { x with take := some (headerTake b), walk := roundUp n 4096, next := p.start })).playChoose

/-- The walk that waits for the recording goes on when more of it is on the magazine, or the recording has ended (R192). -/
def State.playResume (s : State) : State :=
  match (s.session 0).params with
  | some p => if !s.playsRolling p ∨ s.onMagazine p.mag ≠ (s.session 0).front then (s.modSession 0 (fun x => { x with waiting := false })).playChoose
    else s
  | none => s

/-- Session 0 moves on: what has been read is used, and the next Reads are submitted. -/
def State.playPump (s : State) : State :=
  let s := s.playLost
  let x := s.session 0
  let s := if !x.complete then s
    else match x.phase with
      | .header => s.playHeader
      | .walk => s.playWalk
      | .await => s.playResume
      | .fetch => s.playFetched
      | _ => s
  s.playIssue 256

/-- An accepted PLAY of session 0 starts with its namespace (R189). -/
def State.playBegin (s : State) : State :=
  match (s.session 0).params with
  | none => s
  | some p =>
    if (s.mag p.mag).st = .ready then
      (s.nvmeSubmit p.mag 0 opIdentify p.nsid 0 0 0 .playNs).modSession 0 (fun x => { x with phase := .identify })
    else s.playEnd 0 stBadarg

/-- The Identify Namespace data (log entry 25): NSZE 0 for an inactive namespace, LBADS of the format in use. -/
def nsLbaBytes (d : List Byte) : Nat := if leAt d 0 8 = 0 then 0 else 2 ^ (leAt d (130 + 4 * (leAt d 26 1 % 16)) 1)

/-- NVME_COMPLETION (R189, R481, R482, R487, R493). -/
def State.nvmeComplete (s : State) (m : Fin 2) (cid : Nat) (status : Half) (data : List Byte) : State :=
  match (s.mag m).cmds.find? (fun c => c.cid = cid) with
  | none => s
  | some c =>
    let ok := decide (nvmeCode status = 0)
    match c.purpose with
    | .read a n =>
      let s := s.dropCmd m cid
      let s := if ok then s.bump (rMagReads m.1) 1 else s.nvmeError m c status
      let x := s.session 0
      if x.asked.contains (a, n) ∧ (x.params.map (·.mag)) = some m then
        (s.modSession 0 (fun x => { x with asked := x.asked.filter (fun e => e ≠ (a, n))
                                           got := x.got ++ [(a, (data ++ List.replicate n 0).take n, ok)] })).playPump
      else s
    | .playNs =>
      let s := s.dropCmd m cid
      let s := if ok then s else s.nvmeError m c status
      match (s.session 0).params, (s.session 0).phase with
      | some p, .identify =>
        if !ok ∨ nsLbaBytes data ≠ p.lbaBytes then s.playEnd 0 stBadarg
        else (s.modSession 0 (fun x => { x.ask 0 4096 with phase := .header })).playPump
      | _, _ => s
    | _ => (s.nvmeAnswer m c status data).playPump

def execNvmeCompletion (m : Fin 2) (cid : Nat) (status : Half) (data : List Byte) (s : State) : Host.Outcome State Fault Refusal :=
  .next (s.nvmeComplete m cid status data)

/-! ### Playback tiles (R194, R215) -/

/-- The next tile that no engine has in hand. -/
def State.nextPlayTile (s : State) (q : PlayPicture) (t0 : PlayTake) : Option Nat :=
  let busy := s.engines.filterMap (fun e => match e.2.run with
    | .decode t => some t
    | _ => none)
  (upFrom 0 (tilesN t0.code)).find? (fun t => !q.status.any (fun e => decide (e.1 = t)) && !busy.contains t)

/-- A decode routine completes (R193, R200, R208, R215). -/
def State.finishPlayTile (s : State) (j t : Nat) : State :=
  let s := (s.modEngine j (fun x => { x with run := .idle })).lateRequests j
  let x := s.session 0
  match x.params, x.take, x.pic with
  | some p, some t0, some q =>
    if x.phase ≠ .decode then s
    else
      let r := x.decodeTile t0 q t
      let d := s.slotDiff p t0 q t r.samples
      let st := r.status + (if d.2 then 0x2000 else 0)
      let concealed := decide (st / 64 % 16 ≠ 0)
      let s := (if d.1 then s.noteAreas (s.diffAreas p t0.code t) else s).bump (rTeTiles (j / 16) (j % 16)) 1
      let s := if st / 4 % 2 = 1 then s.bump (rPxyPlayVerified 0) 1 else s
      let s := if concealed then ((s.bump (rPxyPlayConcealed 0) 1).playStat 0 1).playRaise 0 0 else s
      let s := if (!concealed ∧ st / 2 % 2 = 0) ∨ d.2 then s.playStat 0 4 else s
      let q' : PlayPicture := { q with
        tiles := mapSet (fun _ => []) q.tiles t r.samples
        status := mapSet (fun _ => 0) q.status t (BitVec.ofNat 16 st)
        unsound := if r.unsound then q.unsound ++ [t] else q.unsound }
      let s := s.modSession 0 (fun x => { x with pic := some q' })
      let s := s.modEngine j (fun x => x.hold [] (((q.unit t).map (·.2)).getD []) r.samples)
      if tilesN t0.code ≤ q'.status.length then (s.pictureDone p t0 q').playPump else s
  | _, _, _ => s

/-- A capture tile is ready and waits for an engine: capture is served first (R50). -/
def State.captureWaits (s : State) : Bool :=
  match s.tileQueue with
  | [] => false
  | (k, t) :: _ => match s.picOf k with
    | some p => p.dropped.isNone && s.tileReady p t
    | none => false

/-- PLAYBACK_TILE_DECODE (R194, R215): an idle engine left free by capture starts the next tile; a running decode routine completes. -/
def State.playTile (s : State) (j : Nat) : State :=
  let e := s.engine j
  let x := s.session 0
  match e.run with
  | .decode t => if e.halted || e.stop || e.fault.isSome || e.preempt.isSome then s else s.finishPlayTile j t
  | .idle =>
    if !s.engineUp j || e.halted || s.captureWaits then s
    else match x.phase, x.take, x.pic with
      | .decode, some t0, some q => if x.stopping then s else match s.nextPlayTile q t0 with
        | some t => s.setEngine j { e with run := .decode t, seq := e.seq.enter 1 }
        | none => s
      | _, _, _ => s
  | _ => s

def execPlaybackTileDecode (e : Fin 272) (s : State) : Host.Outcome State Fault Refusal := .next (s.playTile e.1)

/-! ### Output of session 0 (R195, R201, R206) -/

/-- A picture as it lies in an output buffer: planes in index order, each in raster order, u16 samples. -/
def AreaPicture.image (a : AreaPicture) : List Byte :=
  let c := a.code
  let w := codeWidth c / codePeriod c
  let h := codeHeight c / codePeriod c
  (upFrom 0 (planesOf c)).flatMap (fun i => (upFrom 0 h).flatMap (fun v => (upFrom 0 w).flatMap (fun u => leBytes 2 (a.sample i u v))))

/-- The mid-level flat of a repeat before any output (R195). -/
def flatImage (c : List Byte) : List Byte :=
  (upFrom 0 (codeWidth c * codeHeight c * codeExposures c)).flatMap (fun _ => leBytes 2 (2 ^ (codeDepth c - 1)))

/-- Tiles with a bit of `mask`. -/
def countStatus (st : List Nat) (mask : Nat) : Nat := (st.filter (fun v => Nat.land v mask ≠ 0)).length

/-- The report entry (R201) of picture number `n`, at index `produced`, with the tile status words `st`. -/
def State.putReport (s : State) (p : PlayParams) (n picStatus ptp unresolved logAddr : Nat) (st : List Nat) : State :=
  let i := (s.session 0).produced % 2 ^ 32
  let addr := if p.tileStatus then Config.unstated 8 i else 0
  let e := leBytes 4 n ++ leBytes 4 picStatus ++ leBytes 8 ptp ++ leBytes 4 st.length ++ leBytes 4 (countStatus st 4) ++
    leBytes 4 (countStatus st 0x3C0) ++ leBytes 4 (countStatus st 0x10) ++ leBytes 4 (countStatus st 0x400) ++ leBytes 1 unresolved ++ [0, 0, 0] ++
    leBytes 8 logAddr ++ leBytes 8 addr ++ List.replicate 8 0
  let s := if p.tileStatus then s.poke addr (st.flatMap (fun v => leBytes 2 v)) else s
  (s.poke (p.reportBase + 64 + 64 * (i % p.reportCount)) e).poke p.reportBase (leBytes 4 (i + 1))

/-- The session goes on to the next number, or ends after the last one. -/
def State.playNext (s : State) (p : PlayParams) : State :=
  match p.after (s.session 0).next with
  | none => s.playEnd 0 stOk
  | some n => (s.modSession 0 (fun x => { x with next := n, pic := none, waiting := false })).playChoose.playPump

/-- Photosites that playback may decode a second (R50): 1.5 times the R45 capacity that the rolling take leaves, over `den` seconds. -/
def State.spareRate (s : State) : Nat × Nat :=
  let c := s.active unitCode
  let rolls := decide (s.take.st = .rolling) || decide (s.take.st = .cutting)
  let den := if rolls then codeRateDen c else 1
  let p := if rolls then codeWidth c * codeHeight c * codeExposures c * codeRateNum c else 0
  (((if s.hdg.teEcon then 12000000000 else 24000000000) * den - p) * 3, 2 * den)

/-- The next picture of session 0 is due: the requested rate, if any, and the rate that the spare capacity allows are both kept (R50, R195). -/
def State.outputDue (s : State) (p : PlayParams) (t0 : PlayTake) : Bool :=
  let x := s.session 0
  let dt := s.clk.fab - x.outAt
  let r := s.spareRate
  let size := codeWidth t0.code * codeHeight t0.code * codeExposures t0.code
  decide (x.produced = 0) ||
    ((decide (p.rateNum = 0) || decide (2000000000 * p.rateDen ≤ dt * p.rateNum)) && decide (2000000000 * size * r.2 ≤ dt * r.1))

/-- The picture that waits is output, or a repeat takes its place (R195). A repeat's descriptor carries ptp_time 0, as its report entry does; the
spec gives the entry's value alone (DESIGN CHOICE, log entry 98). -/
def State.outputPlay (s : State) (p : PlayParams) (t0 : PlayTake) : State :=
  let x := s.session 0
  let c := t0.code
  match x.pic with
  | some q =>
    let st := (upFrom 0 (tilesN c)).map (fun t => (mapGet (fun _ => (0 : Half)) q.status t).toNat)
    let a : AreaPicture := { device := t0.device, picture := q.number, code := c, tiles := q.tiles, unsound := q.unsound }
    let conc := countStatus st 0x3C0
    let ver := decide (countStatus st 4 = st.length)
    let cmp := match p.cmpSlot with
      | some i => decide ((s.slot i).device = t0.device) && decide ((s.slot i).picture.toNat = q.number)
      | none => false
    let ptp := leAt q.record 40 8
    let pic := (if conc = 0 then 0 else 4) + (if ver then 8 else 0) + (if cmp then 16 else 0)
    let flags := (if conc = 0 then 0 else 2) + (if countStatus st 0x400 = 0 then 0 else 4) + (if ver then 8 else 0)
    let s := s.putReport p q.number pic ptp q.unresolved.toNat q.addr st
    let s := s.putOutput 0 p a.image q.number ptp flags (codeWidth c) (codeHeight c) 0
    (s.modSession 0 (fun x => { x with shown := some a })).playNext p
  | none =>
    let st := List.replicate (tilesN c) 0x1000
    let dropped := x.toc.any (fun e => decide (e.number = x.next) && e.dropped)
    let s := s.putReport p x.next (1 + (if dropped then 2 else 0)) 0 0 noLogAddr st
    let img := match x.shown with
      | some a => a.image
      | none => flatImage c
    (s.putOutput 0 p img x.next 0 1 (codeWidth c) (codeHeight c) 0).playNext p

/-! ### H.265 return streams (R202-R206) -/

/-- Load of a core's sessions (R188). -/
def PlayParams.load (p : PlayParams) : Nat := p.maxW * p.maxH * p.maxRate

/-- The NAL units that a payload shows: nal_unit_type, nuh_layer_id, and whether the unit begins here (RFC 7798). -/
def nalHead (b : List Byte) : Nat × Nat := (leAt b 0 1 / 2 % 64, leAt b 0 1 % 2 * 32 + leAt b 1 1 / 8)

/-- NAL units of an aggregation packet, after its payload header. -/
def aggregated : Nat → List Byte → List (Nat × Nat × Bool)
  | 0, _ => []
  | fuel + 1, b =>
    if b.length < 4 then []
    else
      let n := leAt b 0 1 * 256 + leAt b 1 1
      let h := nalHead (b.drop 2)
      (h.1, h.2, true) :: aggregated fuel (b.drop (2 + n))

def payloadNals (b : List Byte) : List (Nat × Nat × Bool) :=
  let h := nalHead b
  if h.1 = 48 then aggregated b.length (b.drop 2)
  else if h.1 = 49 then [(leAt b 2 1 % 64, h.2, decide (128 ≤ leAt b 2 1))]
  else [(h.1, h.2, true)]

/-- Layer above 0, or a reserved or unspecified nal_unit_type of H.265 (R203). -/
def nalForeign (e : Nat × Nat × Bool) : Bool :=
  decide (0 < e.2.1) || between 10 e.1 15 || between 22 e.1 31 || decide (41 ≤ e.1)

def RxUnit.nals (u : RxUnit) : List (Nat × Nat × Bool) := u.packets.flatMap (fun p => payloadNals p.2)
/-- NAL units, and those that R203 discards. -/
def RxUnit.count (u : RxUnit) : Nat := (u.nals.filter (fun e => e.2.2)).length
def RxUnit.foreign (u : RxUnit) : Nat := (u.nals.filter (fun e => e.2.2 && nalForeign e)).length
def RxUnit.has (u : RxUnit) (p : Nat → Bool) : Bool := u.nals.any (fun e => !nalForeign e && p e.1)
def RxUnit.irap (u : RxUnit) : Bool := u.has (fun t => between 16 t 21)
def RxUnit.rasl (u : RxUnit) : Bool := u.has (fun t => between 8 t 9)

/-- Insert a packet by sequence number, counted from `base`; a second copy changes nothing. -/
def insertSeq (base : Half) (e : Half × List Byte) : List (Half × List Byte) → List (Half × List Byte)
  | [] => [e]
  | x :: r => if e.1 = x.1 then x :: r else if (e.1 - base).toNat < (x.1 - base).toNat then e :: x :: r else x :: insertSeq base e r

/-- First sequence number of a unit, counted from `base`. -/
def RxUnit.key (base : Half) (u : RxUnit) : Nat := ((u.packets.head?.map (fun e => (e.1 - base).toNat))).getD 0

def insertUnit (base : Half) (u : RxUnit) : List RxUnit → List RxUnit
  | [] => [u]
  | x :: r => if u.key base < x.key base then u :: x :: r else x :: insertUnit base u r

/-- The numbers from `a` up to the last packet of the unit are not all there. -/
def RxUnit.gapFrom (u : RxUnit) (a : Option Half) : Bool :=
  match u.packets.head?, u.packets.getLast? with
  | some f, some l =>
    let start := match a with
      | some q => q + 1
      | none => f.1
    decide (u.packets.length ≠ (l.1 - start).toNat + 1)
  | _, _ => true

/-- The first open access unit is passed to the core's input queue (R202, R203): discarded with a full queue, and from then on until an IRAP
picture arrives. -/
def State.passUnit (s : State) (k : Fin 9) : State :=
  let x := s.session k
  match x.opens with
  | [] => s
  | u :: rest =>
    let u := { u with gap := u.gapFrom x.passedSeq }
    let s := s.modSession k (fun x => { x with opens := rest, passedTs := some u.timestamp, passedSeq := (u.packets.getLast?.map (·.1)).orElse (fun _ => x.passedSeq) })
    if 8 ≤ x.queue.length ∨ x.discarding && !u.irap then
      (s.bump (rPxyPlayDiscards k.1) u.count).modSession k (fun x => { x with discarding := true })
    else s.modSession k (fun x => { x with queue := x.queue ++ [{ u with fresh := x.discarding }], discarding := false })

/-- Units whose marker packet has arrived are passed on, in order: `fuel` of them (R202, log entry 59). -/
def State.passMarked (s : State) (k : Fin 9) : Nat → State
  | 0 => s
  | fuel + 1 => match (s.session k).opens with
    | u :: _ => if u.marker then (s.passUnit k).passMarked k fuel else s
    | [] => s

/-- An RTP packet arrives for a session (R202): it joins its access unit by timestamp, in the order of sequence numbers. One of a unit already passed
on is discarded: its number counted as a gap. -/
def State.rtpReceive (s : State) (k : Fin 9) (r : RtpPacket) : State :=
  let x := s.session k
  match x.params with
  | none => s
  | some p =>
    let late := (x.passedTs.map (fun t => decide ((t - r.timestamp).toNat < 2 ^ 31))).getD false
    if r.ssrc ≠ p.ssrc ∨ r.pt ≠ p.pt ∨ (nalHead r.payload).1 = 50 ∨ late then s.bump (rPxyPlayDiscards k.1) 1
    else
      let base : Half := match x.passedSeq, x.opens.head?.bind (fun u => u.packets.head?) with
        | some q, _ => q + 1
        | none, some e => e.1 - 0x8000
        | none, none => r.seq - 0x8000
      let mine := (x.opens.find? (fun u => u.timestamp = r.timestamp)).getD
        { timestamp := r.timestamp, ptp := s.clk.ns, packets := [], marker := false, gap := false, fresh := false }
      let u := { mine with packets := insertSeq base (r.seq, r.payload) mine.packets, marker := mine.marker || r.marker }
      let others := x.opens.filter (fun u => u.timestamp ≠ r.timestamp)
      (s.modSession k (fun x => { x with opens := insertUnit base u others })).passMarked k (others.length + 1)

/-- JITTER_EXPIRY (R202): the first open unit is JITTER old. -/
def execJitterExpiry (sess : Fin 9) (s : State) : Host.Outcome State Fault Refusal :=
  .next ((s.passUnit sess).passMarked sess (s.session sess).opens.length)

/-- A stream is rejected (R203): profile, level, size, rate. -/
def auRejected (p : PlayParams) (a : AccessUnit) : Bool :=
  !(decide (a.profileIdc = 1) || decide (a.profileIdc = 2) || (decide (a.profileIdc = 4) && a.main422)) || decide (186 < a.levelIdc) ||
    decide (p.maxW < a.width) || decide (p.maxH < a.height) || decide (p.maxRate < a.rate)

/-- Output format (R206), which the model takes from the profile alone: an 8-bit stream of profile 2 counts as 10-bit, one of profile 4 as 4:2:2 10-bit
(DESIGN CHOICE, log entry 99). -/
def auFormat (a : AccessUnit) : Nat := if a.profileIdc = 1 then 3 else if a.profileIdc = 4 then 2 else 1

/-- CTU rows among the CTUs of a picture (R205). -/
def lostRows (w ctu : Nat) (lost : List Nat) : Nat := ((lost.map (fun a => a / Nat.max 1 (ceilDiv w ctu))).dedup).length

/-- ACCESS_UNIT_DECODE (R203-R205): the first access unit of the queue; decoding holds while a decoded picture finds no free buffer (R206). An IRAP
that fails R203 again while a rejection is being discarded counts as a further rejection, with its own event: R204 does not say (DESIGN CHOICE,
log entry 95). -/
def State.decodeUnit (s : State) (k : Fin 9) (a : AccessUnit) : State :=
  let x := s.session k
  match x.params, x.queue with
  | some p, u :: rest =>
    if !x.ready.isEmpty && !s.outputRoom k then s
    else
      let s := s.modSession k (fun x => { x with queue := rest })
      let drop := fun (s : State) => s.bump (rPxyPlayDiscards k.1) u.count
      let until_ := x.untilIrap || u.fresh
      if (!until_ || u.irap) && auRejected p a then
        ((((drop s).bump (rPxyPlayRejects k.1) 1).playStat k 2).modSession k (fun x => { x with untilIrap := true })).playRaise k 1
      else if until_ ∧ !u.irap then drop s
      else if u.rasl ∧ x.skipRasl then drop s
      else
        let rows := lostRows a.width a.ctu a.lost
        let s := if u.foreign = 0 then s else s.bump (rPxyPlayDiscards k.1) u.foreign
        let s := if a.slicesOk = 0 then s else s.bump (rPxyPlayVerified k.1) a.slicesOk
        let s := if rows = 0 then s else ((s.bump (rPxyPlayConcealed k.1) rows).playStat k 1).playRaise k 0
        let before := x.concealed && !u.irap
        let pic : ReturnPicture := { timestamp := u.timestamp, ptp := u.ptp, concealed := decide (rows ≠ 0), degraded := before && a.usesConcealed
                                     width := a.width, height := a.height, format := auFormat a, ctu := a.ctu, lost := a.lost }
        s.modSession k (fun x => { x with untilIrap := false, skipRasl := if u.irap then until_ else x.skipRasl
                                          concealed := before || decide (rows ≠ 0), ready := x.ready ++ [pic] })
  | _, _ => s

def execAccessUnitDecode (sess : Fin 9) (au : AccessUnit) (s : State) : Host.Outcome State Fault Refusal := .next (s.decodeUnit sess au)

/-- Bytes of a decoded H.265 picture (R206). -/
def returnBytes (r : ReturnPicture) : Nat :=
  let n := r.width * r.height
  if r.format = 3 then n * 3 / 2 else if r.format = 2 then n * 4 else n * 3

/-- Components of a format: first sample, samples across, and luma samples for one across and down (R206). -/
def returnPlanes (r : ReturnPicture) : List (Nat × Nat × Nat × Nat) :=
  let n := r.width * r.height
  let sy := if r.format = 2 then 1 else 2
  let c := r.width / 2 * (r.height / sy)
  [(0, r.width, 1, 1), (n, r.width / 2, 2, sy), (n + c, r.width / 2, 2, sy)]

/-- The CTU that sample `i` of a picture lies in. -/
def ReturnPicture.ctuOf (r : ReturnPicture) (i : Nat) : Nat :=
  match (returnPlanes r).reverse.find? (fun p => decide (p.1 ≤ i)) with
  | some (o, w, sx, sy) =>
    let x := (i - o) % Nat.max 1 w * sx
    let y := (i - o) / Nat.max 1 w * sy
    y / Nat.max 1 r.ctu * ceilDiv r.width r.ctu + x / Nat.max 1 r.ctu
  | none => 0

/-- Byte `i` of an output picture: where a CTU is concealed, that of the previous output picture of the same size and format, else of 1 << (bd − 1)
(R205); anywhere else H.265's, from data that the model does not hold (log entry 7). -/
def ReturnPicture.byte (r : ReturnPicture) (prev : Option ReturnImage) (free : Nat → Nat) (i : Nat) : Byte :=
  let wide := decide (r.format ≠ 3)
  if r.lost.contains (r.ctuOf (if wide then i / 2 else i)) then
    match prev.filter (fun q => decide (q.width = r.width) && decide (q.height = r.height) && decide (q.format = r.format)) with
    | some q => nth 0 q.bytes i
    | none => if wide then BitVec.ofNat 8 (512 / 256 ^ (i % 2)) else 128
  else BitVec.ofNat 8 (free i)

/-- A decoded H.265 picture is output (R205, R206). -/
def State.outputReturn (s : State) (k : Fin 9) (p : PlayParams) (r : ReturnPicture) : State :=
  let bytes := (upFrom 0 (returnBytes r)).map (r.byte (s.session k).lastImage (fun i => Config.unstated 9 (s.freeCount * 2 ^ 32 + i)))
  let flags := (if r.concealed then 2 else 0) + (if r.degraded then 4 else 0)
  ({ s with freeCount := s.freeCount + 1 }.putOutput k p bytes r.timestamp.toNat r.ptp.toNat flags r.width r.height r.format).modSession k
    (fun x => { x with ready := x.ready.drop 1, lastImage := some { width := r.width, height := r.height, format := r.format, bytes := bytes } })

/-- PICTURE_OUTPUT (R195, R201, R206, R207): a session that is stopping ends at this boundary. -/
def State.pictureOutput (s : State) (k : Fin 9) : State :=
  let x := s.session k
  match x.params with
  | none => s
  | some p =>
    if x.stopping then s.playEnd k stOk
    else if !s.outputRoom k then s
    else if k = 0 then (match x.phase, x.take with
      | .output, some t0 => if s.outputDue p t0 then s.outputPlay p t0 else s
      | _, _ => s.playPump)
    else match x.ready with
      | r :: _ => s.outputReturn k p r
      | [] => s

def execPictureOutput (sess : Fin 9) (s : State) : Host.Outcome State Fault Refusal := .next (s.pictureOutput sess)

/-- PLAY_PROGRESS (R50, R188, R208): a second has passed. The achieved rate is the pictures output in it. -/
def State.playProgress (s : State) (k : Fin 9) : State :=
  let x := s.session k
  match x.params with
  | none => s
  | some p =>
    let rate := x.recent * 65536
    let s := (s.setReg (rPxyPlayRate k.1) (BitVec.ofNat 32 rate)).modSession k (fun x => { x with recent := 0 })
    let s := if p.rateNum * 65536 ≤ rate * p.rateDen then s else (s.playStat k 3).playRaise k 2
    let s := match x.cmd with
      | some c => s.post c stPending false (BitVec.ofNat 64 rate)
      | none => s
    if k = 0 then s.playPump else s

def execPlayProgress (sess : Fin 9) (s : State) : Host.Outcome State Fault Refusal := .next (s.playProgress sess)

end Sys2Proof.Machine
end

