-- ==== Sys2Proof/Machine/Net.lean ====
section
/-! DEFINITION. The network ports (R488, R489), the time base's source, step and servo (R490), and the PTP slave (R491). -/

namespace Sys2Proof.Machine

/-! ### The time base (R490) -/

/-- TIME_SRC in effect: 0 Kalsal up port, 1 Ethernet, 2 free-running; 0 while no record is active (R460). -/
def State.timeSrc (s : State) : Nat := s.cfg unitKsl 52 1

/-- The up port is ACTIVE. -/
def State.upActive (s : State) : Bool := (s.upPort.map s.portActive).getD false

/-- The source in effect, as NET_TIME_STAT reports it (R490, R494). -/
def State.timeSource (s : State) : Nat := if s.timeSrc = 1 then 1 else if s.timeSrc = 0 && s.upActive then 0 else 2

def State.ptpPort (s : State) : Nat := s.cfg unitNet 34 1 % 2
def State.netRaise (s : State) (e : Nat) : State := s.raise (160 + 8 * s.ptpPort + e)

/-- An s32 field saturates (R494). -/
def satS32 (v : Int) : Word := BitVec.ofInt 32 (satInt 32 v)

/-- 100 ppm in units of 2^-31 (R490). -/
def clampPpm (f : Int) : Int := if f < -214748 then -214748 else if 214748 < f then 214748 else f

/-- An offset, given doubled as R491's quotient leaves it: a step where it exceeds 1 µs outside a take, else the servo. Half a
nanosecond has no stated rounding (log entry 7). `count` is R491's lock count. -/
def State.timeOffset (s : State) (twice : Int) (count : Bool) : State :=
  let off : Int := if twice % 2 = 0 then twice / 2 else twice / 2 + (Config.unstated 10 twice.natAbs % 2 : Nat)
  let s := { s with ptp := { s.ptp with offset := satS32 off } }
  let inTake := decide (s.take.st = .armed) || decide (s.take.st = .rolling) || decide (s.take.st = .cutting)
  if 2000 < twice.natAbs ∧ !inTake then
    let clk : Clocks := { s.clk with ns := BitVec.ofInt 64 ((s.clk.ns.toNat : Int) - off) }
    ({ s with clk := clk, ptp := { s.ptp with locked := false, good := 0 } }.orReg rNetTimeStat 8).netRaise 5
  else
    let n := s.ptp.servoCount
    let good := if count then (if twice.natAbs ≤ 200 then s.ptp.good + 1 else 0) else s.ptp.good
    let ptp : Ptp := { s.ptp with servoCount := n + 1, good := good, locked := s.ptp.locked || decide (16 ≤ good) }
    let clk : Clocks := { s.clk with freq := clampPpm (Config.servo n off) }
    { s with clk := clk, ptp := ptp }

/-! ### PTP (R491) -/

/-- The device takes the message: TIME_SRC 1, versionPTP 2, the configured domain (R489, R491). -/
def State.ptpTaken (s : State) (m : PtpMsg) : Bool :=
  decide (s.timeSource = 1) && s.hasActive unitNet && decide (m.version = 2) && decide (m.domain = s.cfg unitNet 36 1)

/-- The message comes from the selected master. -/
def State.fromMaster (s : State) (m : PtpMsg) : Bool := s.ptpTaken m && decide (s.ptp.master ≠ 0) && decide (m.clockId = s.ptp.master)

/-- PTP_SYNC: t2 at arrival; t1 from a one-step Sync (R491). -/
def execPtpSync (m : PtpMsg) (s : State) : Host.Outcome State Fault Refusal :=
  .next (if s.fromMaster m then
      let p : Ptp := { s.ptp with t2 := s.clk.ns.toNat, syncSeq := m.seqId, haveSync := !m.twoStep, awaitFollow := m.twoStep,
                                  t1 := if m.twoStep then s.ptp.t1 else m.stamp }
      { s with ptp := p }
    else s)

/-- PTP_FOLLOW_UP: t1 of a two-step Sync (R491). -/
def execPtpFollowUp (m : PtpMsg) (s : State) : Host.Outcome State Fault Refusal :=
  .next (if s.fromMaster m && s.ptp.awaitFollow && decide (m.seqId = s.ptp.syncSeq) then
      { s with ptp := { s.ptp with t1 := m.stamp, haveSync := true, awaitFollow := false } }
    else s)

/-- PTP_DELAY_RESP: t4, the offset of R491, and the interval of the next Delay_Req. -/
def execPtpDelayResp (m : PtpMsg) (s : State) : Host.Outcome State Fault Refusal :=
  .next (if s.fromMaster m && s.ptp.reqOut && decide (m.seqId = s.ptp.reqSeq) then
      let s := { s with ptp := { s.ptp with reqOut := false, interval := m.interval } }
      if s.ptp.haveSync then
        let a : Int := s.ptp.t2 - s.ptp.t1
        s.timeOffset (2 * a - (a + (m.stamp - s.ptp.t3))) true
      else s
    else s)

/-- PTP_ANNOUNCE: `best` is the outcome of the best master clock algorithm (R491). -/
def execPtpAnnounce (m : PtpMsg) (s : State) : Host.Outcome State Fault Refusal :=
  .next (if s.ptpTaken m && m.best then
      let change := decide (m.clockId ≠ s.ptp.master)
      let s := { s with ptp := { s.ptp with master := m.clockId, utc := m.utcOffset, haveSync := s.ptp.haveSync && !change
                                            awaitFollow := s.ptp.awaitFollow && !change, reqOut := s.ptp.reqOut && !change } }
      if change then s.netRaise 3 else s
    else s)

/-- Bytes of a Delay_Req frame of 44 message bytes by PTP_TRANSPORT. -/
def delayReqBytes (transport : Nat) : Nat := if transport = 0 then 86 else if transport = 1 then 106 else 58

/-- PTP_DELAY_REQ: a two-step Delay_Req goes to flow 16 or 17 (R491); it is stamped as it leaves. -/
def execPtpDelayReq (s : State) : Host.Outcome State Fault Refusal :=
  .next (if decide (s.timeSource = 1) && decide (s.ptp.master ≠ 0) then
      { s with ptp := { s.ptp with reqSeq := s.ptp.reqSeq + 1, reqOut := false } }.sluOffer (16 + s.ptpPort)
        (plainPacket .ptp (delayReqBytes (s.cfg unitNet 35 1)) none)
    else s)

/-- ANNOUNCE_RECEIPT_TIMEOUT: the master is lost; the time base runs on at the last f (R491). -/
def execAnnounceReceiptTimeout (s : State) : Host.Outcome State Fault Refusal :=
  .next (if decide (s.timeSource = 1) && decide (s.ptp.master ≠ 0) then
      ({ s with ptp := { s.ptp with master := 0, locked := false, good := 0, haveSync := false, awaitFollow := false
                                    reqOut := false } }.orReg rNetTimeStat 0x10).netRaise 4
    else s)

/-! ### The ports (R488, R489) -/

/-- ETH_LINK_CHANGE. -/
def execEthLinkChange (port : Fin 2) (up : Bool) (s : State) : Host.Outcome State Fault Refusal := .next (s.ethLink port up)

/-- The running kind 1 sessions that a UDP datagram on this port is for (R202). -/
def State.ethSessions (s : State) (k : Fin 2) (udp : Option Nat) : List (Fin 9) :=
  match udp with
  | none => []
  | some u => ([1, 2, 3, 4, 5, 6, 7, 8] : List (Fin 9)).filter (fun i => match (s.session i).params with
    | some p => decide (p.netPort = k) && decide (p.udpPort = u)
    | none => false)

/-- The datagram carries a PTP message that is kept (R489). -/
def State.ethPtp (s : State) (k : Fin 2) (f : EthFrame) : Bool :=
  (f.etherPtp || decide (f.udpPort = some 319) || decide (f.udpPort = some 320)) && s.hasActive unitNet &&
    decide (k.1 = s.ptpPort) && decide (f.ptpDomain = s.cfg unitNet 36 1)

/-- A received frame (R488, R489). A frame of a running session's port goes to the session, where one without RTP is discarded (R202). How R182's
received RTCP is matched to a stream the spec does not say: the sender of the frame gives the stream number, of any stream (DESIGN CHOICE, log
entry 96). -/
def State.ethFrame (s : State) (k : Fin 2) (f : EthFrame) : State :=
  let drop := fun (s : State) => s.bump (rNetRxDiscards k.1) 1
  let keep := fun (s : State) => s.bump (rNetRxFrames k.1) 1
  let rtcp := fun (s : State) => match f.rtcp with
    | some m => s.bump (rPxyStrRtcpIn m.1) 1
    | none => s
  if !vget s.ptp.linkUp k then s
  else if !f.fcsOk then drop (s.bump (rNetFcsErr k.1) 1)
  else if f.pause then drop (s.bump (rNetPauseRx k.1) 1)
  else if f.etherPtp then (if s.ethPtp k f then keep s else drop s)
  else if f.fragment || !f.ipSumOk || !f.udpSumOk then drop s
  else if s.ethPtp k f then keep s
  else if !f.toMac || !f.toIp then drop s
  else match s.ethSessions k f.udpPort with
    | [] => drop (rtcp s)
    | is => is.foldl (fun s i => match f.rtp with
      | some r => s.rtpReceive i r
      | none => s.bump (rPxyPlayDiscards i.1) 1) (keep s)

/-- ETH_FRAME_RECEIVE. -/
def execEthFrameReceive (port : Fin 2) (frame : EthFrame) (s : State) : Host.Outcome State Fault Refusal := .next (s.ethFrame port frame)

end Sys2Proof.Machine
end

