-- ==== Sys2Proof/Machine/Rings.lean ====
section
/-! DEFINITION. The ring registers (R273-R277), the heartbeat (R15, R39), the moves on heartbeat loss (R15, R282) and on a setup that
runs out of time (R284). -/

namespace Sys2Proof.Machine

/-- Ring pair `k` is enabled (R273). -/
def State.ringOn (s : State) (k : Fin 4) : Bool := s.ringLog2 k ≠ 0

/-- A write of TAB_CMD_TAIL: entries up to the new index become visible, in the order of the writes (R277). -/
def State.tailWrite (s : State) (k : Fin 4) (v : Word) : State :=
  let n := 2 ^ s.ringLog2 k
  let old := (s.reg (rTabCmdTail k.1)).toNat
  let new := v.toNat % 4096
  let s := s.setReg (rTabCmdTail k.1) (BitVec.ofNat 32 new)
  if s.ringOn k then { s with visible := s.visible ++ List.replicate ((new + n - old % n) % n) k } else s

/-- A ring pair is disabled: nothing more is taken from it, and no completion of an earlier command is written (R273). -/
def State.ringOff (s : State) (k : Fin 4) : State :=
  let s := s.setReg (rTabCmdSize k.1) 0
  let s := { s with visible := s.visible.filter (fun r => r ≠ k), ringGen := vmod s.ringGen k (· + 1) }
  s.flushStalled s.stalled.length

/-- A ring pair is enabled with 2^log2 entries (R273). -/
def State.ringStart (s : State) (k : Fin 4) (log2 : Nat) : State :=
  let s := ((s.setReg (rTabCmdSize k.1) (BitVec.ofNat 32 log2)).setReg (rTabCmdHead k.1) 0).setReg (rTabCplTail k.1) 0
  { s with ringPhase := vset s.ringPhase k true }

/-- A write of TAB_CMD_SIZE (R273). -/
def State.sizeWrite (s : State) (k : Fin 4) (v : Word) : State :=
  let n := v.toNat % 16
  if s.ringOn k then (if n = 0 then s.ringOff k else s)
  else if 4 ≤ n ∧ n ≤ 12 then s.ringStart k n
  else s

/-- A write of TAB_CPL_HEAD: completions that waited for room are written (R39, R276). -/
def State.cplHeadWrite (s : State) (k : Fin 4) (v : Word) : State :=
  let s := s.setReg (rTabCplHead k.1) (v &&& 0xFFF)
  s.flushStalled s.stalled.length

/-- A heartbeat of any core (R15). -/
def State.beat (s : State) : State := { s with clk := { s.clk with hb := 0 } }

/-- Bellhouse detects heartbeat loss: source 10, and the cut or the fault (R15, R282, R406). -/
def State.hbLoss (s : State) : State :=
  let s := s.raise 10
  match s.take.st with
  | .idle => s
  | .faulted => s
  | .rolling => ((s.moveTake .cutting 0).modTake (fun t => { t with faultPending := some 1 })).checkCut
  | .cutting => (s.modTake (fun t => { t with faultPending := some 1 })).checkCut
  | _ => s.faultTake 1 stTimeout

/-- COMMAND_TAIL_WRITE (R277). -/
def execCommandTailWrite (ini : Initiator) (ring : Fin 4) (value : Word) (s : State) : Host.Outcome State Fault Refusal :=
  .next (s.regAccess ini (rTabCmdTail ring.1) (.commandTailWrite ini ring value) (fun s => s.tailWrite ring value))

/-- RING_ENABLE (R273): a write of 4-12 to TAB_CMD_SIZE while it is 0. -/
def execRingEnable (ini : Initiator) (ring : Fin 4) (value : Word) (s : State) : Host.Outcome State Fault Refusal :=
  .next (s.regAccess ini (rTabCmdSize ring.1) (.ringEnable ini ring value) (fun s =>
    if value.toNat % 16 = 0 then s else s.sizeWrite ring value))

/-- RING_DISABLE (R273): a write of 0 to TAB_CMD_SIZE. -/
def execRingDisable (ini : Initiator) (ring : Fin 4) (s : State) : Host.Outcome State Fault Refusal :=
  .next (s.regAccess ini (rTabCmdSize ring.1) (.ringDisable ini ring) (fun s => s.sizeWrite ring 0))

/-- HEARTBEAT (R15): a core that stalls writes none (R39). -/
def execHeartbeat (ini : Initiator) (k : Fin 4) (value : Word) (s : State) : Host.Outcome State Fault Refusal :=
  .next (s.regAccess ini (rTabHb k.1) (.heartbeat ini k value) State.beat)

/-- HEARTBEAT_LOSS (R15). -/
def execHeartbeatLoss (s : State) : Host.Outcome State Fault Refusal := .next s.hbLoss

/-- SETUP_TIMEOUT (R284): neither doorbell within 100 ms. -/
def execSetupTimeout (s : State) : Host.Outcome State Fault Refusal :=
  .next (if s.take.setup.isSome then s.faultTake 5 stTimeout else s)

end Sys2Proof.Machine
end

