-- ==== Sys2Proof/Machine/Csr.lean ====
section
/-! DEFINITION. The register interface (R496-R514): reads and writes of every CSR by its access codes, the register views of State,
pairs, the key gate, locks, debug halts, the tag area and NVS writes; the event controller's registers (R395-R408); FLUME_REQUEST
(R378). -/

namespace Sys2Proof.Machine

/-! ### Views of State (RO fields) -/

def bitIf (b : Bool) (i : Nat) : Nat := if b then 2 ^ i else 0

/-- The two-bit codes of domains `a` to `a + n - 1`, lowest first (R432). -/
def State.domCodes (s : State) (a : Nat) : Nat → Nat
  | 0 => 0
  | n + 1 => (match (s.dom a).st with
    | .off => 0
    | .waking => 1
    | .on => 2
    | .sleeping => 3) + 4 * s.domCodes (a + 1) n

/-- TOP_READY (R428). -/
def State.topReady (s : State) : Bool :=
  (upFrom 0 39).all (fun f => s.hdg.ready.getLsbD f || (decide (f = 15) && !s.hdg.ch32) ||
    (decide (4 ≤ f) && decide (f < 8) && !(s.reg rHdgCoreRun).getLsbD (f - 4)))

/-- HDG views (R432). -/
def State.viewHdg (s : State) (o : Nat) : Nat :=
  match o with
  | 0 => bitIf s.hdg.refLost 3 + 32 * s.hdg.mode
  | 8 => s.domCodes 0 16
  | 0xC => s.domCodes 16 13
  | 0x10 => s.hdg.ready.toNat % 2 ^ 22 + bitIf s.topReady 31
  | 0x14 => s.hdg.ready.toNat / 2 ^ 22 % 2 ^ 17
  | 0x18 => sumNat (allDoms.map (fun d => bitIf (s.requested d) d))
  | 0x64 => bitIf s.hdg.teEcon 9
  | _ => 0

/-- TOP views (R510, R514). -/
def State.viewTop (s : State) (o : Nat) : Nat :=
  let e := s.engine ((s.reg rTopDbgCtrl).toNat % 512)
  match o with
  | 0 => 0x71600000 + Config.siliconRev.toNat
  | 4 => bitIf Config.gradeX 0
  | 8 => bitIf s.hdg.idValid 0
  | 0x28 => bitIf e.halted 0 + bitIf (e.halt && !e.halted) 1 + (if e.halted then 16 * e.seq.uaddr.toNat else 0)
  | o => if 0x10 ≤ o ∧ o < 0x20 then (if s.hdg.idValid then (Config.factoryId.toNat / 2 ^ (8 * (o - 0x10))) % 2 ^ 32 else 0) else 0

/-- EVC views (R407, R408). -/
def State.viewEvc (s : State) (o : Nat) : Nat :=
  if 0x1004 ≤ o ∧ o < 0x2000 then
    let n := (o - 0x1000) / 4
    let x := s.src n
    x.target.1 + 16 * x.filter.toNat + bitIf x.en 12 + bitIf x.pol 13 + bitIf (isLevel n) 14 + 65536 * (match x.st with
      | .idle => 0
      | .pending => 1
      | .active => 2
      | .repend => 3) + bitIf x.raw 18
  else 0

/-- CKU views (R318). -/
def State.viewCku (s : State) (o : Nat) : Nat :=
  if o < 64 then
    let x := s.ckuAt (fin 16 (o / 4))
    bitIf (decide (x.queue ≠ [])) 0 + bitIf x.act 1 + 256 * x.owner.1
  else 0

/-- CIS views (R359). -/
def State.viewCis (s : State) (o : Nat) : Nat :=
  let p := (o - 0x100) / 0x20
  if o < 0x100 ∨ 6 ≤ p then 0
  else match (o - 0x100) % 0x20 with
    | 0 => bitIf (decide (s.shared p ≤ (s.cisBp p : Int))) 0 +
        bitIf (decide (s.extCount p ≠ 0) || (s.poolBufs p).any (fun b => decide (poolSram p ≤ b.1))) 1
    | 4 => s.poolN p - ((s.poolBufs p).filter (fun b => decide (b.1 < s.poolN p))).length
    | 8 => (BitVec.ofInt 32 (s.shared p)).toNat
    | 0xC => s.poolN p
    | 0x1C => (vgetN 0 s.cis.rot p).1
    | _ => 0

/-- DMA views (R375). -/
def State.viewDma (s : State) (o : Nat) : Nat :=
  let c := (o - 0x100) / 0x20
  if o = 4 then s.dmaInFlight
  else if o < 0x100 ∨ 64 ≤ c then 0
  else
    let x := s.chan (fin 64 c)
    match (o - 0x100) % 0x20 with
    | 0 => bitIf x.chain.isSome 0 + 2 * x.queue.length + bitIf (decide (c < 16)) 5 + 64 * x.lastEnd + 65536 * x.lastStatus.toNat
    | 0x1C => x.lastTag.toNat
    | _ => 0

/-- A count of requests or credit waits of an implemented link (R385). -/
def flmCount (off : Nat) : Bool :=
  let o := off % 0x10000
  decide (off / 0x10000 = 7) && decide (0x100 ≤ o) && decide (o < 0x3F0) && (decide (o % 0x10 = 0) || decide (o % 0x10 = 8))

def natZero (_ : Nat) : Nat := 0

/-- What the accesses that complete within their own row add to such a count: a free value (log entry 7), of everything since the count was last
read, so 0 in the cycle of that read. -/
def State.flmFree (s : State) (off : Nat) : Nat :=
  let t := mapGet natZero s.flume.readAt off
  if s.clk.fab = t then 0 else Config.unstated 11 ((2 ^ 64 * s.clk.fab + t) * 2 ^ 22 + off)

/-- FLM views (R385): the longest acceptance times measured in Flume, and those of the accesses that complete within their own row, which are
free values (log entry 7). A link not implemented reads 0. -/
def State.viewFlm (s : State) (o : Nat) : Nat :=
  let k := (o - 0x100) / 0x10
  if o = 4 then Nat.max s.flume.aMax (Config.unstated 12 s.clk.fab) % 65536
  else if o < 0x100 ∨ 47 ≤ k ∨ o % 0x10 ≠ 4 then 0
  else Nat.max (mapGet natZero s.flume.aMaxLink k) (Config.unstated 13 (64 * s.clk.fab + k)) % 65536

/-- SLU views (R394). -/
def State.viewSlu (s : State) (o : Nat) : Nat :=
  let f := (o - 0x200) / 0x10
  if o < 0x200 ∨ 64 ≤ f then 0
  else
    let x := s.flow f
    match o % 0x10 with
    | 0 => x.queue.length + bitIf (!bucketHolds (s.flowRate f) x.tokens ||
        !bucketHolds (s.svcRate x.port x.service) (s.service x.port x.service).tokens) 7 + 256 * x.port + 2048 * x.service +
        bitIf x.moving.isSome 14 + 32768 * x.deficit
    | 0xC => x.tokens / 1000
    | _ => 0




/-- MC views (R339, R340). -/
def State.viewMc (s : State) (o : Nat) : Nat :=
  match o with
  | 0 => bitIf s.hdg.ch32 0 + 2 * s.hdg.den.1 + 16 * s.mc.grainLog2 + 512 * s.mc.fsp.1 + 2048 * s.mc.trained.toNat
  | 4 => bitIf s.mc.readyA 0 + bitIf s.mc.readyB 1 + bitIf (s.mc.training.isSome || s.halfTrains 0 || s.halfTrains 1) 2 + bitIf s.mc.fspPend.isSome 3
  | o =>
    let c := (o - 0x100) / 0x20
    if o < 0x100 ∨ !s.chanThere c then 0
    else
      let x := vgetN DramChan.atReset s.mc.chans c
      match (o - 0x100) % 0x20 with
      | 0 => bitIf x.up 0 + bitIf x.selfRefresh 1 + 8 * x.mr4.toNat + 256 * x.pprAvail.toNat
      | 0x18 => x.margin.toNat
      | _ => 0

/-- SNS views (R478). -/
def State.viewSns (s : State) (o : Nat) : Nat :=
  let k := (o - 0x100) / 0x20
  if o < 0x100 ∨ 4 ≤ k then 0
  else
    let x := vgetN SnsLink.atReset s.sns.links k
    match (o - 0x100) % 0x20 with
    | 0 => (match x.st with
      | .down => 0
      | .equalize => 1
      | .align => 2
      | .up => 3) + 16 * x.first + 1024 * x.lanes
    | 8 => x.worstEye.toNat + 256 * x.worstLane
    | 0xC => x.skew.toNat
    | _ => 0

/-- MAG port views (R493). -/
def State.viewMag (s : State) (o : Nat) : Nat :=
  let m := (o - 0x100) / 0x80
  if o < 0x100 ∨ 2 ≤ m then 0
  else
    let x := vgetN MagPort.atReset s.mags m
    match (o - 0x100) % 0x80 with
    | 0 => (match x.st with
      | .absent => 0
      | .powering => 1
      | .training => 2
      | .init => 3
      | .ready => 4
      | .failed => 5
      | .fault => 6) + bitIf x.present 3 + bitIf x.gate 4 + 32 * x.speed + 256 * x.width
    | 4 => x.ioq + 65536 * x.qdepth
    | _ => 0

/-- Data bytes of Writes submitted and not yet completed (R486). -/
def MagPort.pending (x : MagPort) : Nat := sumNat (x.cmds.map (fun c => match c.purpose with
  | .write _ _ => c.bytes
  | _ => 0))

/-- NET views (R494). -/
def State.viewNet (s : State) (o : Nat) : Nat :=
  match o with
  | 8 => s.timeSource + bitIf s.ptp.locked 2
  | 0xC => s.ptp.offset.toNat
  | 0x10 => s.ptp.utc.toNat
  | 0x100 => bitIf (vget s.ptp.linkUp 0) 0
  | 0x140 => bitIf (vget s.ptp.linkUp 1) 0
  | _ => 0

/-- KSL views (R461, R462). -/
def State.viewKsl (s : State) (o : Nat) : Nat :=
  match o with
  | 4 => s.ksl.epoch.toNat
  | 0xC => s.ksl.msgProd
  | o =>
    let k := (o - 0x100) / 0x40
    if o < 0x100 ∨ 4 ≤ k then 0
    else
      let x := s.kslPort (fin 4 k)
      match (o - 0x100) % 0x40 with
      | 0 => (match x.st with
        | .down => 0
        | .detect => 1
        | .equalize => 2
        | .align => 3
        | .config => 4
        | .active => 5) + bitIf (decide (x.st = .active)) 3 + bitIf x.peerAdapter 4
      | 4 => x.nextMap.toNat
      | 8 => x.peerId.toNat + 65536 * x.peerPort.1
      | 0x24 => x.worstEye.toNat + 256 * x.worstLane.1
      | _ => 0

/-- PXY views (R185, R208). -/
def State.viewPxy (s : State) (o : Nat) : Nat :=
  let k := (o - 0x800) / 0x40
  if 0x400 ≤ o ∧ o < 0x500 ∧ o % 0x40 = 0 then bitIf (s.stream (fin 4 ((o - 0x400) / 0x40))).run 0
  else if 0x800 ≤ o ∧ k < 9 ∧ o % 0x40 = 0 then bitIf (s.session (fin 9 k)).params.isSome 0
  else 0

/-- NVS views (R525). -/
def State.viewNvs (s : State) (o : Nat) : Nat :=
  match o with
  | 0 => bitIf s.ras.nvsBusy 0
  | 4 => s.ras.nvsFree % 8192
  | 0x10 => s.ras.wearMax.toNat
  | 0x14 => s.ras.wearMaxLine
  | _ => 0

/-- The state code of TE_STAT_k (R237). -/
def State.engineCode (s : State) (j : Nat) : Nat :=
  let x := s.engine j
  if x.retired || x.out.isSome || (s.cluster (s.storeOf j)).out.isSome then 3
  else match x.run with
    | .idle => 0
    | .capture _ _ => 1
    | .decode _ => 1
    | .maint _ => 2

/-- Cluster and engine views (R235-R237). -/
def State.viewTec (s : State) (n o : Nat) : Nat :=
  let c := s.cluster n
  match o with
  | 0 => bitIf c.page 4 + bitIf c.out.isSome 5
  | 4 => 15 + bitIf (decide (n < 16) && !c.spareUsed) 4 + bitIf c.lent 5
  | 8 => c.active.toNat
  | 0xC => c.retired.toNat
  | 0x20 => (if c.page then c.image1 else c.image0).toNat + 65536 * (Config.romRev n).toNat
  | o =>
    if 0x200 ≤ o ∧ o < 0x240 then
      let j := 16 * n + (o - 0x200) / 4
      let x := s.engine j
      s.engineCode j + bitIf (match x.run with
        | .decode _ => true
        | _ => false) 2 + 8 * x.logical.getD 0 + 65536 * (match x.run with
        | .capture _ t => t
        | .decode t => t
        | _ => 0)
    else 0

/-- TAB views (R274). -/
def State.viewTab (s : State) (o : Nat) : Nat :=
  match o with
  | 0 => takeCode s.take.st + 256 * s.take.cause.toNat
  | 4 => s.take.takePic.toNat
  | _ => 0

def propCode : PropState → Nat
  | .empty => 0
  | .proposed => 1
  | .approved => 2
  | .rejected => 3
  | .done => 4
  | .failed => 5

/-- RAS views (R528, R529). -/
def State.viewRas (s : State) (o : Nat) : Nat :=
  if o = 0x10 then s.ras.next.toNat
  else if 0x400 ≤ o ∧ o < 0x500 then
    let p := vgetN Proposal.empty s.ras.props ((o - 0x400) / 0x10)
    match o % 0x10 with
    | 0 => p.number.toNat
    | 4 => propCode p.st + 256 * p.kind + 65536 * p.reason.toNat
    | 8 => p.target.toNat
    | _ => p.info.toNat
  else 0

/-- RAS_SPARE, also the value of MAINT op 3 (R300, R528). -/
def State.rasSpare (s : State) : Nat :=
  let te := ((upFrom 0 16).filter (fun n => !(s.cluster n).spareUsed)).length
  let ksl := sumNat ((upFrom 0 4).map (fun k => bitIf (!s.ras.kslSpareUsed.getLsbD k) k))
  let ppr := sumNat ((upFrom 0 s.nCh).map (fun c => popNat 16 (vgetN DramChan.atReset s.mc.chans c).pprAvail.toNat))
  te + bitIf (!s.ras.tabSpareUsed) 5 + 64 * (4 - s.ras.lanesRetired) + 512 * ksl + 2 ^ 13 * (s.ras.nvsFree % 8192) +
    2 ^ 26 * (ppr % 1024) + 2 ^ 36 * s.ras.sramFree.toNat + 2 ^ 48 * (s.entries.filter (fun p => p.live)).length

/-- MC_SEG_START_k (R335): the lowest device address whose 576 B group lies wholly at or above the start of segment `k`. -/
def State.segStart (s : State) (k : Nat) : Nat :=
  let o := 512 * ceilDiv (k * (s.chanBytes / 8)) 576
  let g := 2 ^ s.mc.grainLog2
  o / g * g * s.nCh + o % g

/-- The ledger whose registers ledger `m` shows: in a mirror, ledger 1 holds nothing (R157). -/
def State.ledgerShown (s : State) (m : Nat) : Ledger :=
  if m = 1 ∧ s.arrangement = 1 then Ledger.atReset else vgetN Ledger.atReset s.ledgers m

/-- The 64-bit value of a pair whose _LO is at `off`: a view of State, or what is stored (R500). -/
def State.pairVal (s : State) (off : Nat) : DWord :=
  let o := off % 0x10000
  let v : Option Nat := match off / 0x10000 with
    | 6 => if 0x100 ≤ o then some (s.chan (fin 64 ((o - 0x100) / 0x20))).bytes.toNat else none
    | 9 => if o = 8 then some s.window
      else if o = 0x18 then some s.mc.scrubPtr
      else if 0x40 ≤ o ∧ o < 0x80 then some (s.segStart ((o - 0x40) / 8))
      else none
    | 0xB =>
      if 0x800 ≤ o then
        let g := s.ledgerShown ((o - 0x800) / 0x80)
        some (match (o - 0x800) % 0x80 with
          | 0 => g.fill
          | 8 => g.pend
          | 0x10 => g.res
          | 0x18 => (g.sizes.map (·.cap)).getD 0
          | _ => sumNat (g.spill.map (fun u => u.bytes.length)))
      else some (vgetN MagPort.atReset s.mags ((o - 0x100) / 0x80)).pending
    | 0xC => if o = 0 then some s.clk.ns.toNat else some s.ptp.master.toNat
    | 0x31 => some s.rasSpare
    | _ => none
  match v with
  | some x => BitVec.ofNat 64 x
  | none => s.reg64 off

/-- What a register shows of State besides its stored fields. -/
def State.view (s : State) (off : Nat) : Nat :=
  let o := off % 0x10000
  match off / 0x10000 with
  | 0 => s.viewTop o
  | 2 => s.viewHdg o
  | 3 => s.viewEvc o
  | 4 => s.viewCku o
  | 5 => s.viewCis o
  | 6 => s.viewDma o
  | 7 => s.viewFlm o
  | 8 => s.viewSlu o
  | 9 => s.viewMc o
  | 0xA => s.viewSns o
  | 0xB => s.viewMag o
  | 0xC => s.viewNet o
  | 0xD => s.viewKsl o
  | 0xE => s.viewPxy o
  | 0xF => s.viewNvs o
  | 0x30 => s.viewTab o
  | 0x31 => s.viewRas o
  | b => if 0x10 ≤ b ∧ b ≤ 0x20 then s.viewTec (b - 0x10) o else 0

/-! ### Accesses (R498-R501) -/

/-- A stream that is not enabled shows the reset values of its fields other than W1C and RC (R185). -/
def State.pxyHidden (s : State) (off : Nat) : Bool :=
  (upFrom 0 4).any (fun m => (decide (off = rPxyStrCpbLow m) || decide (off = rPxyStrLatMax m)) && decide (pxyEn (s.active (unitPxy m)) = 0))

/-- In the mirror arrangement every register of ledger 1 reads zero (R160). -/
def State.mirrorHidden (s : State) (off : Nat) : Bool := decide (s.arrangement = 1) && decide (0xB0880 ≤ off) && decide (off < 0xB0900)

/-- The initiator is Bellhouse or a Tabor core at P1 (R505, R525). -/
def State.privileged (s : State) (i : Initiator) : Bool :=
  match i with
  | .bellhouse => true
  | .core k => s.atP1 (.tabor k)
  | _ => false

/-- Whether an initiator's access may clear or write in the NVS and RAS blocks (R525, R528). -/
def State.mayClear (s : State) (i : Initiator) (off : Nat) : Bool :=
  match off / 0x10000 with
  | 0xF => s.privileged i
  | 0x31 => i = .bellhouse
  | _ => true

/-- The latch or hold of a pair, per link (R500). -/
def pairKey (l : Fin 64) (off : Nat) : Nat := 2 ^ 22 * l.1 + off
def wordZero (_ : Nat) : Word := 0

/-- A 4-byte read of the CSR at offset `off` by initiator `i` (R499, R500). -/
def State.csrRead (s : State) (i : Initiator) (off : Nat) : State × Word :=
  let l := s.link i
  if s.absentReg off then (s, 0)
  else match regRowAt off with
    | none => (s, 0)
    | some r =>
      if r.pair = 1 then
        let v := s.pairVal off
        ({ s with latches := mapSet wordZero s.latches (pairKey l (off + 4)) (v.extractLsb' 32 32) }, v.extractLsb' 0 32)
      else if r.pair = 2 then (s, mapGet wordZero s.latches (pairKey l off))
      else if 0x30100 ≤ off ∧ off < 0x30150 ∧ off % 8 = 0 then
        let c := s.claimRead (fin 16 ((off - 0x30100) / 8))
        (c.1, BitVec.ofNat 32 c.2)
      else if s.pxyHidden off || s.mirrorHidden off then (s, r.reset)
      else
        let key : Nat := if off = rKeyStat ∧ s.gates.getLsbD l.1 then 1 else 0
        let wo : Word := if off = rTopDbgCtrl then 0x1FF else 0xFFFFFFFF
        if flmCount off then
          let t := { s with flume := { s.flume with readAt := mapSet natZero s.flume.readAt off s.clk.fab } }
          (t.setReg off 0, s.reg off + BitVec.ofNat 32 (s.flmFree off))
        else
          let v : Word := (s.reg off &&& wo) ||| BitVec.ofNat 32 (s.view off + key)
          (if r.rc ≠ 0 ∧ s.mayClear i off then s.setReg off 0 else s, v)

/-- A write ignored for want of privilege (R505). -/
def State.nonPriv (s : State) : State := s.orReg rKeyStat 0x10

/-- The write of the fields of a row to the stored register: RW and RW-L take the value, W1C clears (R5). -/
def State.putFields (s : State) (off : Nat) (r : RegRow) (v : Word) : State :=
  let m := r.rw ||| r.rwl
  let old := s.reg off
  s.setReg off (((old &&& ~~~m) ||| (v &&& m)) &&& ~~~(v &&& r.w1c))

/-- KEY_GATE (R504, R505). -/
def State.keyGate (s : State) (i : Initiator) (v : Word) : State :=
  if !s.privileged i then s.nonPriv
  else if v = 0xA7C3 then { s with gates := s.gates ||| BitVec.twoPow 64 (s.link i).1 }
  else ((s.closeGate (s.link i)).orReg rKeyStat 2).bump rKeyBadCount 1 |>.raise 16

/-- KEY_LOCK (R504-R506). -/
def State.keyLock (s : State) (i : Initiator) (v : Word) : State :=
  if !s.privileged i then s.nonPriv else s.keyed i (fun s => s.orReg rKeyLock (v &&& 0x3F))

/-- TOP_DEBUG (R227, R504): clearing EN releases a halted engine. -/
def State.topDebug (s : State) (i : Initiator) (v : Word) : State :=
  if !s.privileged i then s.nonPriv
  else s.keyed i (fun s =>
    let s := s.setReg rTopDebug (v &&& 1)
    if v.getLsbD 0 then s else s.releaseHalts)

/-- TOP_DBG_CTRL (R227, R514): while an engine is halted or its request is pending, HALT and a new ENGINE are ignored. -/
def State.topDbgCtrl (s : State) (i : Initiator) (v : Word) : State :=
  if !s.privileged i then s.nonPriv
  else if !(s.reg rTopDebug).getLsbD 0 then s
  else
    let e := v.toNat % 512
    let held := s.debugBusy
    let old := (s.reg rTopDbgCtrl).toNat % 512
    let clash := held && (v.getLsbD 9 || decide (e ≠ old))
    let s := if clash then s.orReg rTopDbgStat 4 else s.setReg rTopDbgCtrl (BitVec.ofNat 32 e)
    let s := if v.getLsbD 9 && !clash && decide (e < 272) then s.requestHalt e else s
    if v.getLsbD 10 && !clash then s.releaseHalts else s

/-- REQ_STATUS and BUSY of TOP_TAG_STAT (R514). -/
def tagStat (busy : Bool) (status : Nat) : Word := BitVec.ofNat 32 (bitIf busy 0 + 256 * status)
def State.tagBusy (s : State) : Bool := (s.reg rTopTagStat).getLsbD 0

/-- The outcome of a tag request (R512): TOP_TAG_DONE, BUSY cleared, source 19; a SET_TAG that waits for this SEQ completes with it, a lock's
refusal raising source 17 (R506). -/
def State.tagOutcome (s : State) (status : Nat) (seq : Byte) : State :=
  let s := ((s.setReg rTopTagDone (BitVec.ofNat 32 (status % 256 + 256 * seq.toNat))).clrReg rTopTagStat 1).raise 19
  match s.tagCmd with
  | some (p, q) => if seq = q then
      let s := if status = stLocked then s.raise 17 else s
      { s with tagCmd := none }.post p (listedStatus status) true 0
    else s
  | none => s

/-- What Bellhouse finds wrong with the request (R512), 0 for nothing. -/
def State.tagRefusal (s : State) : Nat :=
  let r := (s.reg rTopTagRange).toNat
  let n := r / 65536 % 8192
  if n = 0 ∨ 4096 < r % 4096 + n then stBadarg else if s.locked 2 then stLocked else 0

/-- One tag request (R512): the handle goes from the writer's owner to owner 0 and doorbell 531 to Bellhouse, which frees the buffer and
reports at once a request that it refuses. -/
def State.tagRequest (s : State) (i : Initiator) (seq : Byte) : State :=
  let s := s.setReg rTopTagGo (seq.setWidth 32)
  if s.tagBusy then s.setReg rTopTagStat (tagStat true stBusy)
  else
    let h := s.reg rTopTagHandle
    let o := ownOwner i
    let c := s.giveCause o h 0
    if c ≠ 0 then (s.cisReject h c o.1 (s.holderOf h)).setReg rTopTagStat (tagStat false (rejStatus c))
    else
      let s := ((s.setHolder h 0).setReg rTopTagStat (tagStat true stOk)).raise 531
      let st := s.tagRefusal
      if st = 0 then s else (s.cisFree .bellhouse 0 h).tagOutcome st seq

/-- TOP_TAG_GO (R504, R505, R512). -/
def State.tagGo (s : State) (i : Initiator) (v : Word) : State :=
  if !s.privileged i then s.nonPriv else s.keyed i (fun s => s.tagRequest i (v.setWidth 8))

/-- TOP_TAG_DONE (R505, R512, R514): Bellhouse alone reports an outcome. -/
def State.tagDone (s : State) (i : Initiator) (v : Word) : State :=
  if !s.privileged i then s.nonPriv
  else if i ≠ .bellhouse then s
  else s.tagOutcome (v.toNat % 256) (v.extractLsb' 8 8)

/-- Writes of the Kalsal ID and routes (R451): the lock decides first, then the take. -/
def State.kslRoute (s : State) (off : Nat) (write : State → State) : State :=
  if s.locked 5 then s.lockReject (csrBase + off)
  else if s.takeActive then s.orReg rKslStat 0x10
  else write s

/-- Writes to the HDG block (R432). -/
def State.hdgWrite (s : State) (i : Initiator) (off : Nat) (r : RegRow) (v : Word) : State :=
  if rHdgReqCore 0 ≤ off ∧ off ≤ rHdgReqBh then s.domainRequest i off v
  else if i ≠ .bellhouse then s
  else if off = rHdgInrushQ then s.inrush i false v
  else if off = rHdgInrushDidt then s.inrush i true v
  else if off = rHdgSleep then (if v.toNat % 4 = 1 then s.sleep i 1 else if v.toNat % 4 = 2 then s.sleep i 2 else s)
  else if off = rHdgCoreRun then s.coreRunWrite i v
  else if off = rHdgReset then s.keyed i (fun s => if v.getLsbD 0 then s.deviceReset s.hdg.ch32 s.hdg.den 2 else s)
  else if off = rHdgWdogKick then { s with clk := { s.clk with wdog := 0 } }
  else if r.rwl ≠ 0 ∧ s.locked r.lock then s.lockReject (csrBase + off)
  else s.putFields off r v

/-- Writes to the EVC block (R402, R403, R407, R408). -/
def State.evcWrite (s : State) (i : Initiator) (off : Nat) (r : RegRow) (v : Word) : State :=
  if off = rEvcCtrl then s.writeDisable v
  else if 0x31000 ≤ off then s.writeSrcCfg ((off - 0x31000) / 4) v
  else if 0x30104 ≤ off ∧ off < 0x30180 ∧ off % 8 = 4 then s.doneWrite i (fin 16 ((off - 0x30104) / 8)) v
  else s.putFields off r v

/-- Writes to the TAB block (R273, R274, R277): BASE is ignored while the pair is enabled. -/
def State.tabWrite (s : State) (off : Nat) (r : RegRow) (v : Word) : State :=
  if off < rTabCmdBase 0 then (if rTabHb 0 ≤ off ∧ off ≤ rTabHb 3 then s.beat else s)
  else
    let k := fin 4 ((off - rTabCmdBase 0) / 0x40)
    if off = rTabCmdSize k.1 then s.sizeWrite k v
    else if off = rTabCmdTail k.1 then s.tailWrite k v
    else if off = rTabCplHead k.1 then s.cplHeadWrite k v
    else s.putFields off r v

/-- The write of a _HI half: both halves at once from the link's hold, under the row's access code (R500). -/
def State.pairWrite (s : State) (i : Initiator) (off : Nat) (lo hi : RegRow) (v : Word) : State :=
  let hold := mapGet wordZero s.holds (pairKey (s.link i) (off - 4))
  let b := off / 0x10000
  if b = 0x30 ∧ s.ringOn (fin 4 ((off - rTabCmdBase 0) / 0x40)) then s
  else if hi.rwl ≠ 0 ∧ s.locked hi.lock then s.lockReject (csrBase + off)
  else (s.putFields (off - 4) lo hold).putFields off hi v

/-- A 4-byte write of the CSR at offset `off` by initiator `i` (R5, R499-R506). -/
def State.csrWrite (s : State) (i : Initiator) (off : Nat) (v : Word) : State :=
  let b := off / 0x10000
  if b ≤ 1 ∧ !s.privileged i then s.nonPriv
  else if s.absentReg off then s
  else match regRowAt off with
    | none => s
    | some r =>
      if r.pair = 1 then { s with holds := mapSet wordZero s.holds (pairKey (s.link i) off) v }
      else if r.pair = 2 then
        match regRowAt (off - 4) with
        | some lo => s.pairWrite i off lo r v
        | none => s
      else if off = rKeyGate then s.keyGate i v
      else if off = rKeyLock then s.keyLock i v
      else if off = rTopDebug then s.topDebug i v
      else if off = rTopDbgCtrl then s.topDbgCtrl i v
      else if off = rTopTagGo then s.tagGo i v
      else if off = rTopTagDone then s.tagDone i v
      else if b = 2 then s.hdgWrite i off r v
      else if b = 3 then s.evcWrite i off r v
      else if b = 0x30 then s.tabWrite off r v
      else if off = rKslDevId ∨ (b = 0xD ∧ r.rwl ≠ 0) then s.kslRoute off (fun s => s.putFields off r v)
      else if !s.mayClear i off then s
      else if off = rRasPolicy then (if (s.reg rRasPolicy).getLsbD 7 then s else s.putFields off r v)
      else if r.rwl ≠ 0 ∧ s.locked r.lock then s.lockReject (csrBase + off)
      else s.putFields off r v

/-- A request is accepted from a link (R385). -/
def State.flumeAccept (s : State) (l : Fin 64) : State := s.bump (rFlmLinkReq l.1) 1

/-- An error response under R378. -/
def State.flumeError (s : State) (l : Fin 64) : State := (s.orReg rFlmStat 2).bump (rFlmLinkErr l.1) 1 |>.raise 97

/-! ### The commands -/

/-- A command's register access: its address must lie in the CSR space and be 4-byte aligned (R496, R499). -/
def State.onCsr (s : State) (i : Initiator) (addr : BitVec 48) (c : Instr) (f : State → Nat → State) : State :=
  s.access i addr.toNat c (fun s =>
    if csrBase ≤ addr.toNat ∧ addr.toNat < csrBase + 0x400000 ∧ addr.toNat % 4 = 0 then f (s.flumeAccept (s.link i)) (csrOff addr)
    else s.flumeError (s.link i))

/-- REGISTER_WRITE (R5, R499). -/
def execRegisterWrite (ini : Initiator) (addr : BitVec 48) (value : Word) (s : State) : Host.Outcome State Fault Refusal :=
  .next (s.onCsr ini addr (.registerWrite ini addr value) (fun s off => s.csrWrite ini off value))

/-- READ_CLEAR (R5, R43). -/
def execReadClear (ini : Initiator) (addr : BitVec 48) (s : State) : Host.Outcome State Fault Refusal :=
  .next (s.onCsr ini addr (.readClear ini addr) (fun s off => (s.csrRead ini off).1))

/-- PAIR_LO_READ (R500). -/
def execPairLoRead (ini : Initiator) (addr : BitVec 48) (s : State) : Host.Outcome State Fault Refusal :=
  .next (s.onCsr ini addr (.pairLoRead ini addr) (fun s off => (s.csrRead ini off).1))

/-- PAIR_HI_WRITE (R500). -/
def execPairHiWrite (ini : Initiator) (addr : BitVec 48) (value : Word) (s : State) : Host.Outcome State Fault Refusal :=
  .next (s.onCsr ini addr (.pairHiWrite ini addr value) (fun s off => s.csrWrite ini off value))

/-- KEY_GATE (R504, R505). -/
def execKeyGate (ini : Initiator) (value : Word) (s : State) : Host.Outcome State Fault Refusal :=
  .next (s.regAccess ini rKeyGate (.keyGate ini value) (fun s => s.keyGate ini value))

/-- KEY_LOCK (R504-R506). -/
def execKeyLock (ini : Initiator) (value : Word) (s : State) : Host.Outcome State Fault Refusal :=
  .next (s.regAccess ini rKeyLock (.keyLock ini value) (fun s => s.keyLock ini value))

/-- TOP_DEBUG_WRITE (R227, R504). -/
def execTopDebugWrite (ini : Initiator) (value : Word) (s : State) : Host.Outcome State Fault Refusal :=
  .next (s.regAccess ini rTopDebug (.topDebugWrite ini value) (fun s => s.topDebug ini value))

/-- DEBUG_HALT (R227): a write with HALT = 1. -/
def execDebugHalt (ini : Initiator) (value : Word) (s : State) : Host.Outcome State Fault Refusal :=
  .next (s.regAccess ini rTopDbgCtrl (.debugHalt ini value) (fun s => s.topDbgCtrl ini (value ||| 0x200)))

/-- DEBUG_RELEASE (R227): a write with RELEASE = 1. -/
def execDebugRelease (ini : Initiator) (value : Word) (s : State) : Host.Outcome State Fault Refusal :=
  .next (s.regAccess ini rTopDbgCtrl (.debugRelease ini value) (fun s => s.topDbgCtrl ini (value ||| 0x400)))

/-- TOP_TAG_GO (R512). -/
def execTopTagGo (ini : Initiator) (value : Word) (s : State) : Host.Outcome State Fault Refusal :=
  .next (s.regAccess ini rTopTagGo (.topTagGo ini value) (fun s => s.tagGo ini value))

/-- TOP_TAG_DONE (R512). -/
def execTopTagDone (ini : Initiator) (value : Word) (s : State) : Host.Outcome State Fault Refusal :=
  .next (s.regAccess ini rTopTagDone (.topTagDone ini value) (fun s => s.tagDone ini value))

/-- EVC_CLAIM (R401). -/
def execEvcClaim (ini : Initiator) (t : Fin 16) (s : State) : Host.Outcome State Fault Refusal :=
  .next (s.regAccess ini (rEvcClaim t.1) (.evcClaim ini t) (fun s => (s.claimRead t).1))

/-- EVC_DONE (R402). -/
def execEvcDone (ini : Initiator) (t : Fin 16) (value : Word) (s : State) : Host.Outcome State Fault Refusal :=
  .next (s.regAccess ini (rEvcDone t.1) (.evcDone ini t value) (fun s => s.doneWrite ini t value))

/-- EVC_SRC_CFG_WRITE (R408). -/
def execEvcSrcCfgWrite (ini : Initiator) (n : Fin 1024) (value : Word) (s : State) : Host.Outcome State Fault Refusal :=
  .next (s.regAccess ini (rEvcSrcCfg n.1) (.evcSrcCfgWrite ini n value) (fun s => s.writeSrcCfg n.1 value))

/-- EVC_DISABLE (R403). -/
def execEvcDisable (ini : Initiator) (value : Word) (s : State) : Host.Outcome State Fault Refusal :=
  .next (s.regAccess ini rEvcCtrl (.evcDisable ini value) (fun s => s.writeDisable value))

/-- The line of a source after POL, which inverts a pin (R399). -/
def State.afterPol (s : State) (n : Nat) (line : Bool) : Bool := if 1 ≤ n ∧ n ≤ 4 then line ^^ (s.src n).pol else line

/-- A level source's line has held this value for `samples` sampling clocks: the change is recognised on the FILTER-th, with FILTER 0 on the first
(R398, R399). -/
def State.lineSampled (s : State) (n : Nat) (line : Bool) (samples : Nat) : State :=
  if isLevel n ∧ Nat.max 1 (s.src n).filter.toNat ≤ samples then s.lineChange n (s.afterPol n line) else s

/-- LEVEL_LINE_CHANGE (R397-R399). -/
def execLevelLineChange (n : Fin 1024) (change : LineChange) (s : State) : Host.Outcome State Fault Refusal :=
  .next (s.lineSampled n.1 change.line change.samples)

/-! ### Single accesses (R315, R354, R378, R496-R499) -/

/-- An error response to a link other than R378's (R352, R511). -/
def State.linkErr (s : State) (l : Fin 64) : State := s.bump (rFlmLinkErr l.1) 1

/-- The pair key of a check unit's 64-bit locations (R315, R500). -/
def ckuPair (l : Fin 64) (k : Fin 16) (off : Nat) : Nat := pairKey l (0x40000 + 0x40 * k.1 + off)

/-- A read of a check unit aperture; any size but 4 is discarded (R315, R500). -/
def State.apRead (s : State) (i : Initiator) (k : Fin 16) (off n : Nat) : State × Word :=
  let l := s.link i
  if n ≠ 4 then (s, 0)
  else if (off = 0x2C ∨ off = 0x34) ∧ s.ckuOwns i k then (s, mapGet wordZero s.latches (ckuPair l k off))
  else
    let r := s.ckuRead i k off
    if (off = 0x28 ∨ off = 0x30) ∧ s.ckuOwns i k then
      ({ r.1 with latches := mapSet wordZero r.1.latches (ckuPair l k (off + 4)) (s.ckuRead i k (off + 4)).2 }, r.2)
    else r

/-- A write of a check unit aperture: FEED takes 1, 2 or 4 bytes, every other location 4 (R315, R500). -/
def State.apWrite (s : State) (i : Initiator) (k : Fin 16) (off : Nat) (b : List Byte) : State :=
  let l := s.link i
  let v := BitVec.ofNat 32 (leNat b)
  if off = 0x10 then s.ckuFeed i k b
  else if b.length ≠ 4 then s
  else if off = 0x28 ∨ off = 0x30 then
    (if s.ckuOwns i k then { s with holds := mapSet wordZero s.holds (ckuPair l k off) v } else s.ckuStranger k)
  else s.ckuWrite i k off v (mapGet wordZero s.holds (ckuPair l k (off - 4)))

/-- One read of `n` bytes at device address `a`. -/
def State.readAt (s : State) (i : Initiator) (a n : Nat) : State × ReadOut :=
  let r := s.region a
  match r with
  | .nowhere => (s, .refused)
  | .csr off =>
    if n ≠ 4 ∨ off % 4 ≠ 0 then (s, .refused)
    else
      let x := s.csrRead i off
      (x.1, .ok (leBytes 4 x.2.toNat))
  | .cku k off =>
    let x := s.apRead i k off n
    (x.1, .ok (leBytes n x.2.toNat))
  | .page o off =>
    if n ≠ 4 then (s, .ok (List.replicate n 0))
    else
      let x := s.pageRead i o off
      (x.1, .ok (leBytes 4 x.2.toNat))
  | _ => s.memRead i a n

/-- One write at device address `a`: false where it is answered with an error (R378, R511); a write that is no holder's is discarded (R352). -/
def State.writeAt (s : State) (i : Initiator) (a : Nat) (b : List Byte) : State × Bool :=
  let r := s.region a
  match r with
  | .nowhere => (s, false)
  | .nvs _ => (s, false)
  | .csr off => if b.length ≠ 4 ∨ off % 4 ≠ 0 then (s, false) else (s.csrWrite i off (BitVec.ofNat 32 (leNat b)), true)
  | .cku k off => (s.apWrite i k off b, true)
  | .page o off => (if b.length = 4 then s.pageWrite i o off (BitVec.ofNat 32 (leNat b)) else s, true)
  | _ => ((s.memWrite i a b).1, true)

/-- The request is turned away at the ingress edge router (R378, R499). -/
def State.routerRefuses (s : State) (cls : Fin 4) (a n : Nat) : Bool :=
  match s.region a with
  | .nowhere => true
  | .csr off => decide (cls ≠ 0) || decide (n ≠ 4) || decide (off % 4 ≠ 0)
  | _ => false

/-! ### NVS writes (R512, R523, R524) -/

/-- The wear counter of visible line `n`. -/
def Ras.wearOf (r : Ras) (n : Nat) : Nat := mapGet Config.nvsWear r.wear n

/-- The visible line with the highest wear counter, the lowest such (R525). -/
def Ras.worst (r : Ras) : Nat × Nat :=
  (upFrom 0 32768).foldl (fun b n => if b.2 < r.wearOf n then (n, r.wearOf n) else b) (0, r.wearOf 0)

/-- Line `n` has wear counter `w`; a spare that takes a line's place may lower the highest counter. -/
def Ras.setWear (r : Ras) (n w : Nat) (swap : Bool) : Ras :=
  let q := { r with wear := mapSet Config.nvsWear r.wear n w }
  if swap ∧ r.wearMaxLine = n then { q with wearMax := BitVec.ofNat 32 q.worst.2, wearMaxLine := q.worst.1 }
  else if r.wearMax.toNat < w then { q with wearMax := BitVec.ofNat 32 w, wearMaxLine := n }
  else q

/-- One NVS line takes bytes `b` at `a` of it, partial words merged (R546) and words of the bad stretches poisoned (R304), its wear counter goes up, and a spare, with its own counter, takes its place where the read-back is bad or the
counter reaches 99,000,000 (R523); with no spare left the line keeps its contents and SPARE_OUT is set (R524). The second part says
whether the line was written. -/
def State.nvsLine (s : State) (n a : Nat) (b : List Byte) (bad : List (Nat × Nat)) (badBack : Bool) : State × Bool :=
  let w := s.ras.wearOf n + 1
  let swap := badBack || decide (99000000 ≤ w)
  let s := s.modRas (fun r => r.setWear n w false)
  let wear := fun (s : State) (low : Bool) => if low || decide (90000000 < w) then (s.orReg rNvsStat 2).raise 20 else s
  if swap && decide (s.ras.nvsFree = 0) then ((wear s false).orReg rNvsStat 4, false)
  else
    let s := ((s.writeStore .nvs a b).poisonSpans .nvs 0 0 bad).bump rNvsLineWrites 1
    if swap then
      let s := (s.bump rNvsRemaps 1).modRas (fun r =>
        let q := r.setWear n (Config.nvsSpareWear r.nvsFree) true
        { q with nvsFree := r.nvsFree - 1 })
      (wear s (decide (s.ras.nvsFree < 512)), true)
    else (wear s false, true)

/-- The lines that `k` bytes at `a` touch. -/
def nvsLines (a k : Nat) : List Nat := if k = 0 then [] else upFrom (a / 64) ((a + k - 1) / 64 + 1 - a / 64)

/-- The part of line `n` that `k` bytes at `a` cover: its start and length. -/
def nvsPart (a k n : Nat) : Nat × Nat := (Nat.max a (64 * n), Nat.min (a + k) (64 * n + 64) - Nat.max a (64 * n))

/-- NVS_WRITE: Bellhouse writes the bytes of a buffer it holds into the window from `offset`; line by line (R511, R512, R523). -/
def State.nvsWrite (s : State) (h : Word) (offset length : Nat) (bad : List Nat) : State :=
  match s.buf h.toNat with
  | none => s
  | some x =>
    if x.holder ≠ 0 ∨ length = 0 ∨ offset < 0x1000 ∨ 0x200000 < offset + length then s
    else
      let from0 := s.bufAddr (h.toNat / 2 ^ 29) (h.toNat % 2 ^ 29)
      let r := s.readArea from0 length
      let spans := (s.badSpans from0 length).map (fun p => (offset + (p.1 - from0), p.2))
      ((nvsLines offset length).foldl (fun (a : State × Bool) n =>
        if a.2 then
          let p := nvsPart offset length n
          a.1.nvsLine n p.1 ((r.2.1.drop (p.1 - offset)).take p.2) (spans.map (fun x => (Nat.max x.1 p.1, Nat.min (x.1 + x.2) (p.1 + p.2) - Nat.max x.1 p.1))) (bad.contains n)
        else a) (r.1, true)).1

def execNvsWrite (handle : Word) (offset length : Nat) (badReadBack : List Nat) (s : State) : Host.Outcome State Fault Refusal :=
  .next (s.nvsWrite handle offset length badReadBack)

end Sys2Proof.Machine
end

