-- ==== Sys2Proof/Machine/Ranges.lean ====
section
/-! DEFINITION. The ranges of the setup records' fields (R259, R293): every field against the range its table gives for that field
alone, reserved and unlisted bytes 0. -/

namespace Sys2Proof.Machine

/-- The setup that a test judges: for each unit the record concerned (R286, R291). -/
abbrev Setup := Nat → Option SetupRecord

def Setup.bytes (f : Setup) (u : Nat) : List Byte := ((f u).map (·.bytes)).getD []

/-- The bytes from `a` to `b` are 0. -/
def zeroFrom (r : List Byte) (a b : Nat) : Bool := ((r.drop a).take (b + 1 - a)).all (fun x => x = 0)


def aligned (v n : Nat) : Bool := v % n = 0

/-- Where `c` fails the status is `st`, else OK. -/
def failIf (c : Bool) (st : Nat) : Nat := if c then st else 0

/-- The first status that is not OK. -/
def firstFail : List Nat → Nat
  | [] => 0
  | x :: xs => if x = 0 then firstFail xs else x

/-- SNS (R476). -/
def rangeSns (r : List Byte) : Bool :=
  let en := leAt r 16 1
  decide (en ≠ 0) && decide (en < 16) &&
    (upFrom 0 4).all (fun k => if natBit en k then between 1 (leAt r (17 + k) 1) 48 else decide (leAt r (17 + k) 1 = 0)) &&
    zeroFrom r 21 23 && aligned (leAt r 24 8) 4096 && between 2 (leAt r 32 1) 8 && zeroFrom r 33 35 &&
    between 100 (leAt r 36 4) 1000000 && zeroFrom r 40 63

/-- CODE (R56, R65, R294). -/
def rangeCode (r : List Byte) : Bool :=
  let d := codeDepth r
  between 256 (codeWidth r) 16384 && between 64 (codeHeight r) 8640 && [10, 12, 14, 16].contains d && [1, 2, 4].contains (codePeriod r) &&
    between 1 (codeExposures r) 2 && decide (codeMode r ≤ 2) && decide (codeScope r ≤ 2) && decide (codeLatency r ≤ 1) &&
    decide (codeProfile r ≤ 1) && decide (codeFlush r ≤ 1) && decide (1 ≤ codeRateNum r) && decide (1 ≤ codeRateDen r) &&
    zeroFrom r 38 39 && zeroFrom r 44 47 && (upFrom 0 16).all (fun i => decide (leAt r (48 + i) 1 ≤ 5)) &&
    (upFrom 0 32).all (fun i => decide (leAt r (64 + 2 * i) 2 < 2 ^ d))

/-- The magazines of an arrangement code (R48). -/
def arrMags (arr : Nat) : List Nat := if arr = 0 then [0] else [0, 1]
/-- The ledgers of an arrangement code (R157, R158). -/
def arrLedgers (arr : Nat) : List Nat := if arr = 2 then [0, 1] else [0]

/-- LOG (R65, R295): the ranges that stand alone, for either magazine; n_extents is judged by R51. -/
def rangeLog (r : List Byte) : Bool :=
  let n := logExtents r 0 + logExtents r 1
  decide (logArrangement r ≤ 2) && zeroFrom r 25 25 && between 1 (logIndexInterval r) 1024 &&
    (upFrom 0 2).all (fun m => [512, 4096].contains (logLbaBytes r m) && decide (logExtents r m ≤ 256)) && zeroFrom r 44 63 &&
    (upFrom 0 n).all (fun j => zeroFrom r (64 + 16 * j + 12) (64 + 16 * j + 15)) && zeroFrom r (64 + 16 * n) (r.length - 1)

/-- LEDGER (R141, R296): the ranges that stand alone, of both magazines whatever the arrangement uses; a DRAM address lies in the DRAM region
(R498). -/
def rangeLedger (r : List Byte) : Bool :=
  (upFrom 0 2).all (fun m => between 10000000 (ldgRDecl r m) 16000000000 && between 16777216 (ldgBDecl r m) (2 ^ 36) &&
      aligned (ldgBDecl r m) 4096 && aligned (ldgPendMax r m) 4096 && aligned (ldgSpillBase r m) 4096 &&
      decide (ldgSpillBase r m < cisBase) && aligned (ldgSpillLen r m) 4096) &&
    zeroFrom r 56 63 && zeroFrom r 104 111 && zeroFrom r 113 113 && zeroFrom r 132 191

/-- REF (R100, R297). -/
def rangeRef (r : List Byte) : Bool :=
  decide (refShortMax r ≤ 14) && decide (refLongMax r ≤ 14) && decide (refHeldMax r ≤ 14) && decide (refXexp r ≤ 1) &&
    decide (refNSrc r ≤ 4) && decide (refNDest r ≤ 8) && zeroFrom r 22 23 && (upFrom 0 4).all (fun i => decide (refRpl r i < 64)) &&
    zeroFrom r 28 31 &&
    (upFrom 0 4).all (fun j => decide (refSrcRank r j ≤ 65534) && zeroFrom r (36 + 16 * j) (39 + 16 * j) &&
      decide ((refViewPhase r j).natAbs ≤ 2 ^ 62)) &&
    aligned (refSlotBase r) 4096 && decide (refSlotBase r < cisBase) && aligned (refSlotStride r) 4096

/-- The control SRAM holds `n` bytes from `a`. -/
def inCtl (a n : Nat) : Bool := decide (ctlBase ≤ a) && decide (a + n ≤ ctlBase + 0x400000)

/-- The 8 coefficients of phase `ph` of the image at offset `o` of a coefficient image (R298). -/
def coefPhase (coef : List Byte) (o ph : Nat) : List Int := (upFrom 0 8).map (fun t => s16At coef (o + 16 * ph + 2 * t))
def allPhases : List (Nat × Nat) := (upFrom 0 64).map (fun p => (0, p)) ++ (upFrom 0 64).map (fun p => (1024, p))

/-- Every coefficient lies in its range (R161). -/
def coefRange (coef : List Byte) : Bool :=
  allPhases.all (fun p => (coefPhase coef p.1 p.2).all (fun x => decide (-512 ≤ x) && decide (x ≤ 511)))

/-- PXY (R161, R298): the ranges that stand alone. -/
def State.rangePxy (s : State) (r : List Byte) : Bool :=
  decide (pxyEn r ≤ 1) && decide (pxyCore r ≤ 1) && decide (pxyNetPort r ≤ 1) && decide (pxyExpSel r ≤ 1) && between 1 (pxyDecim r) 16 &&
    decide (pxyLutEn r ≤ 1) && decide (pxyYcc r ≤ 1) && decide (pxyProfile r ≤ 2) && decide (pxyTier r ≤ 1) &&
    between 30 (pxyLevel r) 186 && [32, 64].contains (pxyCtu r) && decide (pxyCbr r ≤ 1) && between 96 (pxyPt r) 127 &&
    aligned (pxyCropX r) 2 && aligned (pxyCropY r) 2 && aligned (pxyCropW r) 2 && aligned (pxyCropH r) 2 && decide (8 ≤ pxyCropW r) &&
    decide (8 ≤ pxyCropH r) && between 64 (pxyOutW r) 8192 && aligned (pxyOutW r) 8 && between 64 (pxyOutH r) 4320 &&
    aligned (pxyOutH r) 8 && between 1 (pxyIdrPeriod r) 3600 && between 1000000 (pxyBitRate r) (2 ^ 38) && aligned (pxyBitRate r) 64 &&
    between 65536 (pxyCpbSize r) (2 ^ 36) && aligned (pxyCpbSize r) 16 && decide (1 ≤ pxyInitDelay r) && between 576 (pxyMtu r) 9000 &&
    (decide (pxyRtcpInterval r = 0) || between 100 (pxyRtcpInterval r) 5000) && between 42 (pxyHdrLen r) 80 && zeroFrom r 83 83 &&
    zeroFrom r 102 103 && (upFrom 0 3).all (fun i => decide ((pxyMtxOff r i).natAbs ≤ 65535)) && zeroFrom r 116 119 &&
    inCtl (leAt r 120 8) 2048 && (inCtl (leAt r 128 8) 215622 || decide (leAt r 128 8 + 215622 ≤ s.window)) &&
    zeroFrom r (136 + pxyHdrLen r) 255

/-- A unicast MAC address, not all zero (R495). -/
def macOk (r : List Byte) (o : Nat) : Bool := decide (leAt r o 6 ≠ 0) && decide (leAt r o 1 % 2 = 0)

/-- NET (R495). -/
def rangeNet (r : List Byte) : Bool :=
  macOk r 16 && zeroFrom r 22 23 && macOk r 24 && zeroFrom r 30 31 && decide (leAt r 32 1 ≤ 2) && decide (leAt r 33 1 ≤ 2) &&
    decide (leAt r 34 1 ≤ 1) && decide (leAt r 35 1 ≤ 2) && decide (leAt r 36 1 ≤ 127) && zeroFrom r 37 39 && zeroFrom r 80 127

/-- KSL (R460). -/
def rangeKsl (r : List Byte) : Bool :=
  (upFrom 0 4).all (fun k =>
      (upFrom 0 4).all (fun v => between 4 (leAt r (16 + 8 * k + 2 * v) 2) 1016) &&
        decide (sumNat ((upFrom 0 4).map (fun v => leAt r (16 + 8 * k + 2 * v) 2)) ≤ 1024)) &&
    between 1 (leAt r 48 1) 4 && decide (1 ≤ leAt r 49 1) && between 10 (leAt r 50 2) 10000 && decide (leAt r 52 1 ≤ 2) &&
    zeroFrom r 53 55 && aligned (leAt r 56 8) 64 && inCtl (leAt r 56 8) 16384

/-- SLU (R391). -/
def rangeSlu (r : List Byte) : Bool :=
  (upFrom 0 6).all (fun p => (upFrom 0 8).all (fun v =>
      let o := 16 + 64 * p + 8 * v
      if v = 0 ∨ 6 ≤ v then zeroFrom r o (o + 7)
      else decide (1 ≤ leAt r o 1) && zeroFrom r (o + 1) (o + 1) && decide (1 ≤ leAt r (o + 2) 2))) &&
    zeroFrom r 400 447 &&
    (upFrom 0 64).all (fun n =>
      let o := 448 + 16 * n
      if 16 ≤ n ∧ n < 22 ∨ 26 ≤ n ∧ n < 32 then zeroFrom r o (o + 15)
      else decide (1 ≤ leAt r o 1) && (if n < 32 then zeroFrom r (o + 1) (o + 3) else decide (leAt r (o + 1) 1 ≤ 1)) &&
        decide (1 ≤ leAt r (o + 8) 2) && zeroFrom r (o + 10) (o + 15)) &&
    zeroFrom r 1472 1535

/-- CIS (R355, R356). -/
def rangeCis (r : List Byte) : Bool :=
  (upFrom 0 32).all (fun i => decide (leAt r (16 + i) 1 ≤ 3) || between 0x40 (leAt r (16 + i) 1) 0x7F) &&
    (upFrom 0 6).all (fun p => aligned (leAt r (48 + 24 * p) 8) 4096 && decide (leAt r (48 + 24 * p + 8) 4 ≤ 262144) &&
      zeroFrom r (48 + 24 * p + 20) (48 + 24 * p + 23)) &&
    zeroFrom r 960 1023

/-- MC (R338). -/
def rangeMc (r : List Byte) : Bool :=
  between 8 (leAt r 16 1) 16 && decide (leAt r 17 1 ≤ 2) && zeroFrom r 19 19 && decide (leAt r 20 2 ≤ 4000) && decide (10 ≤ leAt r 22 2) &&
    (upFrom 0 4).all (fun k => decide (50 ≤ leAt r (24 + 2 * k) 2)) && zeroFrom r 40 63

/-- The fields of unit `u`'s record are in range (R259, R293). -/
def State.inRange (s : State) (u : Nat) (x : SetupRecord) : Bool :=
  let r := x.bytes
  match u with
  | 0 => rangeSns r
  | 1 => rangeCode r
  | 2 => rangeLog r
  | 3 => rangeLedger r
  | 4 => rangeRef r
  | 9 => rangeNet r
  | 10 => rangeKsl r
  | 11 => rangeSlu r
  | 12 => rangeCis r
  | 13 => rangeMc r
  | _ => s.rangePxy r && coefRange x.coef

/-- The range check of a unit's record in a setup: each field alone (R259, R293). -/
def State.rangeUnit (s : State) (f : Setup) (u : Nat) : Nat := failIf (!((f u).map (s.inRange u)).getD false) stBadarg

end Sys2Proof.Machine
end

