-- ==== Sys2Proof/Machine/Admission.lean ====
section
/-! DEFINITION. The admission tests of ARM and COMMIT (R47, R51, R83, R96, R101, R119, R148, R162, R174, R338, R356, R476, R485, R547),
on the records that the setup names. -/

namespace Sys2Proof.Machine

/-! ### Areas (R547) -/

/-- An area: first byte and length. -/
abbrev Area := Nat × Nat

def overlap (a b : Area) : Bool := decide (a.1 < b.1 + b.2) && decide (b.1 < a.1 + a.2)
def hits (a : Area) (l : List Area) : Bool := l.any (overlap a)
/-- An area lies in the usable window (R322). -/
def State.inWindow (s : State) (a : Area) : Bool := decide (a.1 + a.2 ≤ s.window)

/-- The areas of the slots in effect (R547). -/
def State.slotAreas (s : State) : List Area := allSlots.filterMap (fun i => (s.slot i).base.map (fun b => (b, (s.slot i).size)))

/-- The areas of the slots kept HELD, and of those that ARM places (R547). -/
def State.heldAreas (s : State) : List Area :=
  (s.slotsWhere (fun x => decide (x.mark = .held))).filterMap (fun i => (s.slot i).base.map (fun b => (b, (s.slot i).size)))
def State.placedAreas (s : State) (f : Setup) : List Area :=
  (s.slotsWhere (fun x => decide (x.mark ≠ .held))).map (fun i =>
    (refSlotBase (f.bytes unitRef) + i.1 * refSlotStride (f.bytes unitRef), slotBytes (f.bytes unitCode)))

/-- The slot areas a test uses: those of ARM's placement, at any other time those in effect (R547). -/
def State.testSlots (s : State) (arm : Bool) (f : Setup) : List Area :=
  if arm then s.heldAreas ++ s.placedAreas f else s.slotAreas

/-- The command and completion rings of enabled pairs (R273). -/
def State.commandRings (s : State) : List Area :=
  [0, 1, 2, 3].flatMap (fun k : Fin 4 => if s.ringOn k then
      [((s.reg64 (rTabCmdBase k.1)).toNat, 64 * 2 ^ s.ringLog2 k), ((s.reg64 (rTabCplBase k.1)).toNat, 16 * 2 ^ s.ringLog2 k)]
    else [])

/-- The ingress ring of a setup (R474). -/
def Setup.ingress (f : Setup) : Area :=
  (leAt (f.bytes unitSns) 24 8, leAt (f.bytes unitSns) 32 1 * ringSlotBytes (f.bytes unitCode))

def Setup.arr (f : Setup) : Nat := logArrangement (f.bytes unitLog)
/-- The spill areas of a setup (R157, R158). -/
def Setup.spills (f : Setup) : List Area :=
  (arrLedgers f.arr).map (fun m => (ldgSpillBase (f.bytes unitLedger) m, ldgSpillLen (f.bytes unitLedger) m))
/-- The pool extensions of a CIS record (R355). -/
def cisExtension (r : List Byte) (p : Nat) : Area := (leAt r (48 + 24 * p) 8, leAt r (48 + 24 * p + 8) 4 * poolSize p)
def Setup.extensions (f : Setup) : List Area := ((upFrom 0 6).map (cisExtension (f.bytes unitCis))).filter (fun a => a.2 ≠ 0)
/-- The playback areas of running sessions (R187). -/
def State.playAreas (s : State) : List Area :=
  (upFrom 0 9).filterMap (fun k => (vgetN Session.atReset s.sessions k).params.map (fun p => (p.areaBase, p.areaLen)))

/-! ### Capacity and DRAM demand (R45-R47) -/

/-- Data rate of a rate code in MT/s (R320). -/
def rateMts (code : Nat) : Nat := nth 8533 [8533, 6400, 4266] code

def Setup.streamOn (f : Setup) (m : Nat) : Bool := pxyEn (f.bytes (unitPxy m)) = 1
def Setup.anyStream (f : Setup) : Bool := (upFrom 0 4).any f.streamOn

/-- The template's kinds and operands (R100). -/
def refTemplate (r : List Byte) : List (Nat × Nat) := (upFrom 0 4).map (fun i => (refRplKind r i, refRplOp r i))
/-- n_ref (R46). -/
def refDistinct (r : List Byte) : Nat := ((refTemplate r).filter (fun e => e.1 ≠ 0)).dedup.length

def State.testCapacity (s : State) (f : Setup) : Nat :=
  let c := f.bytes unitCode
  let r := f.bytes unitRef
  let a := codeWidth c * codeHeight c * codeExposures c * codeRateNum c
  let den := codeRateDen c
  let k := 8 * (3 + (if f.anyStream then 1 else 0) + refNSrc r) + 9 * refDistinct r
  firstFail [
    failIf (decide ((if codeProfile c = 1 then 12000000000 else 24000000000) * den < a)) stNoresource,
    failIf (decide (32 * 8 * den * s.nCh * 2 * rateMts (leAt (f.bytes unitMc) 17 1) * 1000000 < 45 * 2 * a * k)) stNoresource]

/-! ### Geometry and log (R51, R56, R83, R485) -/

/-- R485 for magazine `m` with the namespace as Identify answers. -/
def State.testMag (s : State) (g : List Byte) (m : Nat) (ns : NsInfo) : Nat :=
  firstFail [
    failIf (decide ((vgetN MagPort.atReset s.mags m).st ≠ .ready)) stNoresource,
    failIf (!ns.active) stBadarg,
    failIf (ns.hasMeta || ns.protect || decide (ns.lbaBytes ≠ logLbaBytes g m)) stBadarg,
    failIf ((upFrom 0 (logExtents g m)).any (fun j =>
      decide (ns.sizeLbas * ns.lbaBytes < (logExtent g m j).1 * logLbaBytes g m + (logExtent g m j).2 * 4096))) stBadarg]

/-- R51 for magazine `m`. -/
def extentsOk (g : List Byte) (m : Nat) : Bool :=
  [512, 4096].contains (logLbaBytes g m) && between 1 (logExtents g m) 256 &&
    (upFrom 0 (logExtents g m)).all (fun j => decide (1 ≤ (logExtent g m j).2) && aligned ((logExtent g m j).1 * logLbaBytes g m) 4096)

/-- A mirror LOG record must have like LBA sizes, extent counts and extent lengths for both magazines, a single one no extent of magazine 1
(R64, R295). -/
def logShape (g : List Byte) : Bool :=
  (decide (logArrangement g ≠ 0) || decide (logExtents g 1 = 0)) &&
    (decide (logArrangement g ≠ 1) || (decide (logLbaBytes g 0 = logLbaBytes g 1) && decide (logExtents g 0 = logExtents g 1) &&
      (upFrom 0 (logExtents g 0)).all (fun j => (logExtent g 0 j).2 = (logExtent g 1 j).2)))

def State.testLog (s : State) (f : Setup) (env : ArmEnv) : Nat :=
  let c := f.bytes unitCode
  let g := f.bytes unitLog
  firstFail ([
    failIf (!(arrMags f.arr).all (extentsOk g) || !logShape g) stBadarg,
    failIf (decide (codeWidth c % 16 ≠ 0) || decide (codeHeight c % 16 ≠ 0)) stBadarg,
    failIf (decide (codeRateNum c < logIndexInterval g * codeRateDen c)) stBadarg] ++
    (arrMags f.arr).map (fun m => s.testMag g m (if m = 0 then env.ns0 else env.ns1)))

/-! ### References (R96, R101, R119, R547) -/

def State.testRef (s : State) (f : Setup) : Nat :=
  let c := f.bytes unitCode
  let r := f.bytes unitRef
  let n := refNSrc r
  let t := refTemplate r
  let views := (t.filter (fun e => e.1 = 3)).map (·.2)
  let gain := leAt c 40 4
  firstFail [
    failIf (decide (refXexp r = 1) && (decide (codeExposures c = 1) || !between 0x1000 gain 0x400000)) stBadarg,
    failIf (decide (16 < 2 + refShortMax r + refLongMax r + refHeldMax r + 2 * n)) stNoresource,
    failIf (decide (codeScope c = 0) && t.any (fun e => decide (e.1 = 1) || decide (e.1 = 2))) stBadprog,
    failIf (decide (codeScope c ≠ 2) && (decide (views ≠ []) || decide (0 < n))) stBadprog,
    failIf (views.any (fun j => decide (n ≤ j))) stBadprog,
    failIf (decide (views.dedup.length ≠ views.length)) stBadprog,
    failIf ((upFrom 0 n).any (fun j => decide (refSrcDevice r j = s.deviceId))) stBadprog,
    failIf ((upFrom 0 n).any (fun j => decide (codeRank c ≤ refSrcRank r j)) || (decide (0 < n) && decide (codeRank c = 0)) ||
      (decide (codeScope c = 2) && decide (n = 0))) stBadprog,
    failIf (decide (refSlotStride r < slotBytes c)) stBadarg,
    failIf ((s.placedAreas f).any (fun a => !s.inWindow a || hits a s.heldAreas)) stBadarg]

/-! ### Proxy (R161, R162, R174) -/

/-- Levels of H.265 Tables A.8 and A.9 (log entry 29): general_level_idc, MaxLumaPs, MaxLumaSr, MaxCPB and MaxBR of the Main and the High
tier (both in units of 1,000 bits; 0 where the level has no High tier) and MaxSliceSegmentsPerPicture. -/
structure H265Level where
  idc : Nat
  lumaPs : Nat
  lumaSr : Nat
  cpbMain : Nat
  cpbHigh : Nat
  brMain : Nat
  brHigh : Nat
  slices : Nat
deriving DecidableEq, Repr

def h265Levels : List H265Level := [
  ⟨30, 36864, 552960, 350, 0, 128, 0, 16⟩,
  ⟨60, 122880, 3686400, 1500, 0, 1500, 0, 16⟩,
  ⟨63, 245760, 7372800, 3000, 0, 3000, 0, 20⟩,
  ⟨90, 552960, 16588800, 6000, 0, 6000, 0, 30⟩,
  ⟨93, 983040, 33177600, 10000, 0, 10000, 0, 40⟩,
  ⟨120, 2228224, 66846720, 12000, 30000, 12000, 30000, 75⟩,
  ⟨123, 2228224, 133693440, 20000, 50000, 20000, 50000, 75⟩,
  ⟨150, 8912896, 267386880, 25000, 100000, 25000, 100000, 200⟩,
  ⟨153, 8912896, 534773760, 40000, 160000, 40000, 160000, 200⟩,
  ⟨156, 8912896, 1069547520, 60000, 240000, 60000, 240000, 200⟩,
  ⟨180, 35651584, 1069547520, 60000, 240000, 60000, 240000, 600⟩,
  ⟨183, 35651584, 2139095040, 120000, 480000, 120000, 480000, 600⟩,
  ⟨186, 35651584, 4278190080, 240000, 800000, 240000, 800000, 600⟩]

/-- The stream keeps the limits of its level and tier (R162), in the section's own units of 1,000 bits. A general_level_idc of 30 to 186 that no
level of H.265 has is refused: the spec does not say (DESIGN CHOICE, log entry 94). -/
def levelOk (b c : List Byte) : Bool :=
  match h265Levels.find? (fun l => l.idc = pxyLevel b) with
  | none => false
  | some l =>
    let ps := pxyOutW b * pxyOutH b
    let br := if pxyTier b = 0 then l.brMain else l.brHigh
    let cpb := if pxyTier b = 0 then l.cpbMain else l.cpbHigh
    decide (ps ≤ l.lumaPs) && decide (ps * codeRateNum c ≤ l.lumaSr * (codeRateDen c * pxyDecim b)) &&
      decide (pxyBitRate b ≤ br * 1000) && decide (pxyCpbSize b ≤ cpb * 1000) && decide (pxyRows b ≤ l.slices) &&
      decide (pxyOutW b * pxyOutW b ≤ 8 * l.lumaPs) && decide (pxyOutH b * pxyOutH b ≤ 8 * l.lumaPs)

def sumInt (l : List Int) : Int := l.foldl (fun a x => a + x) 0

/-- The ranges of R161 that depend on another field. -/
def pxyDependent (b c : List Byte) : Bool :=
  let wp := codeWidth c / codePeriod c
  let hp := codeHeight c / codePeriod c
  let lo : Int := if pxyBits b = 8 then 0 else -12
  decide (pxyCropX b + 8 ≤ wp) && decide (pxyCropY b + 8 ≤ hp) && decide (pxyCropX b + pxyCropW b ≤ wp) &&
    decide (pxyCropY b + pxyCropH b ≤ hp) && decide (pxyOutW b ≤ pxyCropW b) && decide (pxyCropW b ≤ 8 * pxyOutW b) &&
    decide (pxyOutH b ≤ pxyCropH b) && decide (pxyCropH b ≤ 8 * pxyOutH b) && decide (lo ≤ pxyQpMin b) && decide (pxyQpMin b ≤ 51) &&
    decide (lo ≤ pxyQpMax b) && decide (pxyQpMax b ≤ 51) && (decide (pxyExpSel b = 0) || decide (codeExposures c = 2))

/-- Red, green and blue each have a mosaic position, or some position is clear (R162). -/
def coloursOk (c : List Byte) : Bool :=
  let n := codePeriod c * codePeriod c
  let has := fun v => (upFrom 0 n).any (fun i => decide (leAt c (48 + i) 1 = v))
  decide (codePeriod c = 1) || has 4 || (has 1 && has 2 && has 3)

/-- R174. -/
def rateTests (b c : List Byte) : Bool :=
  let num := codeRateNum c
  let den := codeRateDen c * pxyDecim b
  decide (4096 + 64 * pxyWCtu b ≤ pxyBitRate b * den / (num * pxyRows b)) && decide (ceilDiv (90000 * den) num + 90 ≤ pxyInitDelay b) &&
    decide (ceilDiv (pxyBitRate b * pxyInitDelay b) 90000 ≤ pxyCpbSize b)

/-- The tests of one enabled stream (R162). -/
def testStream (r : SetupRecord) (c : List Byte) : Nat :=
  let b := r.bytes
  firstFail [
    failIf (!pxyDependent b c) stBadarg,
    failIf (!allPhases.all (fun p => sumInt (coefPhase r.coef p.1 p.2) = 256)) stBadarg,
    failIf (!coloursOk c) stBadarg,
    failIf (decide (pxyOutH b < 2 * pxyCtu b)) stBadarg,
    failIf (!levelOk b c) stBadarg,
    failIf (!rateTests b c) stBadarg]

/-- The load of encoder core `k`, as a numerator over 720,720 × rate_den (R162). -/
def Setup.coreLoad (f : Setup) (k : Nat) : Nat :=
  sumNat ((upFrom 0 4).map (fun m =>
    let b := f.bytes (unitPxy m)
    if f.streamOn m ∧ pxyCore b = k then pxyOutW b * pxyOutH b * (720720 / pxyDecim b) * codeRateNum (f.bytes unitCode) else 0))

def testProxy (f : Setup) : Nat :=
  let c := f.bytes unitCode
  firstFail ((upFrom 0 4).map (fun m => if f.streamOn m then ((f (unitPxy m)).map (fun r => testStream r c)).getD 0 else 0) ++
    (upFrom 0 2).map (fun k => failIf (decide (2123366400 * 720720 * codeRateDen c < f.coreLoad k)) stNoresource))

/-! ### Magazine admission (R141, R148) -/

def State.testLedger (s : State) (arm : Bool) (f : Setup) (m : Nat) : Nat :=
  let c := f.bytes unitCode
  let l := f.bytes unitLedger
  let z := ledgerSizes c (f.bytes unitLog) l m
  let bd := if f.arr = 1 then Nat.min (ldgBDecl l 0) (ldgBDecl l 1) else ldgBDecl l m
  let gMax := maxNat z.g
  let spill : Area := (z.spillBase, z.spillLen)
  firstFail [
    failIf (!(between (4 * gMax) z.pendMax (ldgBDecl l m) && decide (ldgFloorShift l < codeDepth c) &&
      (decide (codeMode c ≠ 1) || (upFrom 0 16).all (fun i => decide (1 ≤ ldgETab l i))))) stBadarg,
    failIf (decide (bd ≤ z.dFull)) stNoresource,
    failIf (decide (z.dAdm < z.fMax)) stNoresource,
    failIf (decide (z.cap < z.fMax + (4 * gMax + z.z))) stNoresource,
    failIf (decide (z.spillLen < 2 * z.pMax) || !s.inWindow spill ||
      hits spill (s.testSlots arm f ++ f.ingress :: s.commandRings)) stBadprog]

def State.testMagazine (s : State) (arm : Bool) (f : Setup) : Nat := firstFail ((arrLedgers f.arr).map (s.testLedger arm f))

/-! ### The other refusals of the SNS, CIS and MC records (R338, R356, R476) -/

def State.testSns (s : State) (arm : Bool) (f : Setup) : Nat :=
  let r := f.bytes unitSns
  let lanes := sumNat ((upFrom 0 4).map (fun k => leAt r (17 + k) 1))
  let retired := popNat 52 (s.reg64 rSnsRetired).toNat
  firstFail [
    failIf (!s.inWindow f.ingress || hits f.ingress (s.testSlots arm f ++ s.commandRings ++ f.spills ++ s.playAreas ++ f.extensions)) stBadarg,
    failIf (decide (48 < lanes) || decide (52 < lanes + retired)) stNoresource]

/-- Owner `o` is assigned (R345). -/
def cisAssigned (r : List Byte) (o : Nat) : Bool := decide (o < 32) || decide (leAt r (16 + (o - 32)) 1 ≠ 0)
def cisMinOf (r : List Byte) (o p : Nat) : Nat := leAt r (192 + 12 * o + 2 * p) 2

def State.testCis (s : State) (arm : Bool) (f : Setup) : Nat :=
  let r := f.bytes unitCis
  let ext := cisExtension r
  let count := fun p => leAt r (48 + 24 * p + 8) 4
  let n := fun p => poolSram p + count p
  let pools := upFrom 0 6
  let owners := upFrom 0 64
  let bad := fun p => decide ((ext p).2 ≠ 0) && (!s.inWindow (ext p) ||
    hits (ext p) (s.testSlots arm f ++ f.ingress :: s.commandRings ++ f.spills ++ s.playAreas ++
      ((pools.filter (fun q => q ≠ p)).map ext).filter (fun a => a.2 ≠ 0)))
  let live := fun p => (s.poolBufs p).any (fun b => decide (poolSram p ≤ b.1))
  firstFail [
    failIf (owners.any (fun o => !cisAssigned r o && pools.any (fun p => decide (cisMinOf r o p ≠ 0))) || pools.any bad ||
      pools.any (fun p => decide (leAt r (48 + 24 * p + 12) 4 < leAt r (48 + 24 * p + 16) 4) ||
        decide (n p < leAt r (48 + 24 * p + 12) 4))) stBadarg,
    failIf (pools.any (fun p => live p &&
      (decide ((ext p).1 ≠ vgetN 0 s.cis.extBase p) || decide (count p < vgetN 0 s.cis.extCount p)))) stBusy,
    failIf (pools.any (fun p => decide (n p < sumNat (owners.map (fun o => cisMinOf r o p))))) stNoresource,
    failIf (pools.any (fun p => decide (n p < sumNat (owners.map (fun o => Nat.max (s.charged o p) (cisMinOf r o p)))))) stNoresource]

/-- GRAIN_LOG2 other than the grain in effect (R338). -/
def State.testMc (s : State) (f : Setup) : Nat :=
  let held := decide ((s.slotsWhere (fun x => decide (x.mark = .held))) ≠ [])
  let playing := (upFrom 0 9).any (fun k => (vgetN Session.atReset s.sessions k).params.isSome)
  let ext := (upFrom 0 6).any (fun p => decide (s.extCount p ≠ 0) || (s.poolBufs p).any (fun b => decide (poolSram p ≤ b.1)))
  failIf (decide (leAt (f.bytes unitMc) 16 1 ≠ s.mc.grainLog2) &&
    (held || playing || s.commandRings.any (fun a => decide (a.1 < s.window)) || ext)) stBusy

/-! ### All tests in their order (R259) -/

/-- The refusals of a unit's record that no test of R259 names: they depend on more than one field (log entry 30). -/
def State.otherTests (s : State) (arm : Bool) (f : Setup) (u : Nat) : Nat :=
  if u = 0 then s.testSns arm f else if u = 12 then s.testCis arm f else if u = 13 then s.testMc f else 0

/-- Units that are required at ARM (R289). -/
def requiredUnits (f : Setup) : List Nat :=
  let ref := f.bytes unitRef
  let net := f.anyStream
  let ksl := decide (0 < refNSrc ref) || decide (0 < refNDest ref)
  [0, 1, 2, 3, 4] ++ (upFrom 0 4).filterMap (fun m => if f.streamOn m then some (unitPxy m) else none) ++
    (if net then [9] else []) ++ (if ksl then [10] else []) ++ (if net || ksl then [11] else []) ++ [12, 13]

/-- ARM's steps 1 and 2 (R287): the status of the first failure, or OK; `ready` says which banks are ready. The ranges of all units come
first, then R259's five tests, then the refusals that the SNS, CIS and MC records add (log entry 30). -/
def State.admission (s : State) (f : Setup) (ready : Nat → Bool) (env : ArmEnv) : Nat :=
  firstFail ([failIf (!(requiredUnits f).all ready) stBadprog] ++
    (upFrom 0 14).map (fun u => if ready u then s.rangeUnit f u else 0) ++
    [s.testCapacity f, s.testLog f env, s.testRef f, testProxy f, s.testMagazine true f] ++
    [0, 12, 13].map (s.otherTests true f))

end Sys2Proof.Machine
end

