-- ==== Sys2Proof/Machine/DsnInt.lean ====
section
/-! DEFINITION. How a DSN core executes one instruction, and the integer, fixed-point, immediate and branch instructions
(R242-R247, R251, R271). -/

namespace Sys2Proof.Machine

/-- The core can execute: it runs, and logical core 0 does not stall on a full completion ring (R39, R263, R269, R429). -/
def State.executes (s : State) (c : Core) : Bool :=
  decide (s.coreRun c = .running) && !(decide (c = .tabor 0) && decide (s.stalled ≠ []))

/-- The exception that fetching at PC raises, if any (R242, R267, R272). -/
def State.fetchFault (s : State) (c : Core) : Option Nat :=
  let pc := (s.getPc c).toNat
  if pc % 4 ≠ 0 then some 1
  else match c with
    | .tabor _ =>
      if pc < ctlBase ∨ ctlBase + 0x400000 ≤ pc then some 2
      else if (verdict (s.ctlSram.syndrome ((pc - ctlBase) / 16))).bad then some 3
      else none
    | .bellhouse =>
      if 0x20000 ≤ pc then some 2
      else if (verdict (s.bh.mem.syndrome (pc / 16))).bad then some 3
      else none

/-- An uncorrectable word met by a fetch is counted at its site (R305). -/
def State.noteFetch (s : State) (c : Core) : State :=
  let pc := (s.getPc c).toNat
  match c with
  | .tabor _ => s.noteWords .ctl (pc - ctlBase) 4
  | .bellhouse => s.siteWords siteBh (s.bh.mem.verdicts pc 4)

/-- Run one instruction on core `c`: fetch exceptions first, then ILLEGAL unless `legal`, else its effect (R243, R267). -/
def State.runDsn (s : State) (c : Core) (legal : Bool) (effect : State → State) : State :=
  if !s.executes c then s
  else match s.fetchFault c with
    | some k => (if k = 3 then s.noteFetch c else s).exception c k 0
    | none => if legal then effect s else s.exception c 4 0

/-- Write FL's Z, S, C and O when `w` (R245). -/
def State.putFl (s : State) (c : Core) (w : Bool) (f : Flags) : State := if w then s.setFl c (putFlags (s.getFl c) f) else s

/-- An OPA or OPM operation on ra and rb (R245, R246). -/
def State.opA (s : State) (c : Core) (f : FmtA) (op : AluOp) : State :=
  let r := coreAlu c op (s.getD c f.ra) (s.getD c f.rb)
  ((s.putFl c f.fw r.2).setD c f.rd r.1).nextPc c

/-- Write rd and go on. -/
def State.putD (s : State) (c : Core) (rd : Fin 32) (v : DWord) : State := (s.setD c rd v).nextPc c


/-- ADD (R245). -/
def execAdd (c : Core) (f : FmtA) (s : State) : Host.Outcome State Fault Refusal :=
  .next (s.runDsn c (fmtAPlain f) (fun s => s.opA c f .add))

/-- SUB (R245). -/
def execSub (c : Core) (f : FmtA) (s : State) : Host.Outcome State Fault Refusal :=
  .next (s.runDsn c (fmtAPlain f) (fun s => s.opA c f .sub))

/-- AND (R245). -/
def execAnd (c : Core) (f : FmtA) (s : State) : Host.Outcome State Fault Refusal :=
  .next (s.runDsn c (fmtAPlain f) (fun s => s.opA c f .and))

/-- OR (R245). -/
def execOr (c : Core) (f : FmtA) (s : State) : Host.Outcome State Fault Refusal :=
  .next (s.runDsn c (fmtAPlain f) (fun s => s.opA c f .or))

/-- XOR (R245). -/
def execXor (c : Core) (f : FmtA) (s : State) : Host.Outcome State Fault Refusal :=
  .next (s.runDsn c (fmtAPlain f) (fun s => s.opA c f .xor))

/-- ANDN (R245). -/
def execAndn (c : Core) (f : FmtA) (s : State) : Host.Outcome State Fault Refusal :=
  .next (s.runDsn c (fmtAPlain f) (fun s => s.opA c f .andn))

/-- SLL (R245). -/
def execSll (c : Core) (f : FmtA) (s : State) : Host.Outcome State Fault Refusal :=
  .next (s.runDsn c (fmtAPlain f) (fun s => s.opA c f .sll))

/-- SRL (R245). -/
def execSrl (c : Core) (f : FmtA) (s : State) : Host.Outcome State Fault Refusal :=
  .next (s.runDsn c (fmtAPlain f) (fun s => s.opA c f .srl))

/-- SRA (R245). -/
def execSra (c : Core) (f : FmtA) (s : State) : Host.Outcome State Fault Refusal :=
  .next (s.runDsn c (fmtAPlain f) (fun s => s.opA c f .sra))

/-- ROR (R245). -/
def execRor (c : Core) (f : FmtA) (s : State) : Host.Outcome State Fault Refusal :=
  .next (s.runDsn c (fmtAPlain f) (fun s => s.opA c f .ror))

/-- MIN (R245). -/
def execMin (c : Core) (f : FmtA) (s : State) : Host.Outcome State Fault Refusal :=
  .next (s.runDsn c (fmtAPlain f) (fun s => s.opA c f .min))

/-- MAX (R245). -/
def execMax (c : Core) (f : FmtA) (s : State) : Host.Outcome State Fault Refusal :=
  .next (s.runDsn c (fmtAPlain f) (fun s => s.opA c f .max))

/-- MINU (R245). -/
def execMinu (c : Core) (f : FmtA) (s : State) : Host.Outcome State Fault Refusal :=
  .next (s.runDsn c (fmtAPlain f) (fun s => s.opA c f .minu))

/-- MAXU (R245). -/
def execMaxu (c : Core) (f : FmtA) (s : State) : Host.Outcome State Fault Refusal :=
  .next (s.runDsn c (fmtAPlain f) (fun s => s.opA c f .maxu))

/-- SLT (R245). -/
def execSlt (c : Core) (f : FmtA) (s : State) : Host.Outcome State Fault Refusal :=
  .next (s.runDsn c (fmtAPlain f) (fun s => s.opA c f .slt))

/-- SLTU (R245). -/
def execSltu (c : Core) (f : FmtA) (s : State) : Host.Outcome State Fault Refusal :=
  .next (s.runDsn c (fmtAPlain f) (fun s => s.opA c f .sltu))

/-- ADDSAT (R245). -/
def execAddsat (c : Core) (f : FmtA) (s : State) : Host.Outcome State Fault Refusal :=
  .next (s.runDsn c (fmtAPlain f) (fun s => s.opA c f .addsat))

/-- SUBSAT (R245). -/
def execSubsat (c : Core) (f : FmtA) (s : State) : Host.Outcome State Fault Refusal :=
  .next (s.runDsn c (fmtAPlain f) (fun s => s.opA c f .subsat))

/-- CLZ; rb must be 0 (R245). -/
def execClz (c : Core) (f : FmtA) (s : State) : Host.Outcome State Fault Refusal :=
  .next (s.runDsn c (fmtAPlain f && decide (f.rb = 0)) (fun s => s.opA c f .clz))

/-- POPC; rb must be 0 (R245). -/
def execPopc (c : Core) (f : FmtA) (s : State) : Host.Outcome State Fault Refusal :=
  .next (s.runDsn c (fmtAPlain f && decide (f.rb = 0)) (fun s => s.opA c f .popc))

/-- CMP: writes Z, S, C and O whatever FW is, and no register; rd must be 0 (R245). -/
def execCmp (c : Core) (f : FmtA) (s : State) : Host.Outcome State Fault Refusal :=
  .next (s.runDsn c (fmtAPlain f && decide (f.rd = 0)) (fun s =>
    (s.putFl c true (coreAlu c .sub (s.getD c f.ra) (s.getD c f.rb)).2).nextPc c))

/-- MUL (R246). -/
def execMul (c : Core) (f : FmtA) (s : State) : Host.Outcome State Fault Refusal :=
  .next (s.runDsn c (fmtAPlain f) (fun s => s.opA c f .mul))

/-- MULH (R246); illegal on Bellhouse (R271). -/
def execMulh (c : Core) (f : FmtA) (s : State) : Host.Outcome State Fault Refusal :=
  .next (s.runDsn c (fmtAPlain f && isTabor c) (fun s => s.opA c f .mulh))

/-- MULHU (R246). -/
def execMulhu (c : Core) (f : FmtA) (s : State) : Host.Outcome State Fault Refusal :=
  .next (s.runDsn c (fmtAPlain f) (fun s => s.opA c f .mulhu))

/-- DIVS (R246); illegal on Bellhouse (R271). -/
def execDivs (c : Core) (f : FmtA) (s : State) : Host.Outcome State Fault Refusal :=
  .next (s.runDsn c (fmtAPlain f && isTabor c) (fun s => s.opA c f .divs))

/-- DIVU (R246). -/
def execDivu (c : Core) (f : FmtA) (s : State) : Host.Outcome State Fault Refusal :=
  .next (s.runDsn c (fmtAPlain f) (fun s => s.opA c f .divu))

/-- REMS (R246); illegal on Bellhouse (R271). -/
def execRems (c : Core) (f : FmtA) (s : State) : Host.Outcome State Fault Refusal :=
  .next (s.runDsn c (fmtAPlain f && isTabor c) (fun s => s.opA c f .rems))

/-- REMU (R246). -/
def execRemu (c : Core) (f : FmtA) (s : State) : Host.Outcome State Fault Refusal :=
  .next (s.runDsn c (fmtAPlain f) (fun s => s.opA c f .remu))

/-- FXMUL with k = func − 0x1F (R246); illegal on Bellhouse (R271). -/
def execFxmul (c : Core) (f : FmtA) (func : Fin 32) (s : State) : Host.Outcome State Fault Refusal :=
  .next (s.runDsn c (fmtAPlain f && isTabor c) (fun s => s.opA c f (.fxmul (func.1 + 1))))

/-- ADDI (R247). -/
def execAddi (c : Core) (f : FmtI) (s : State) : Host.Outcome State Fault Refusal :=
  .next (s.runDsn c true (fun s => s.putD c f.rd (s.getD c f.ra + immS f)))

/-- ANDI (R247). -/
def execAndi (c : Core) (f : FmtI) (s : State) : Host.Outcome State Fault Refusal :=
  .next (s.runDsn c true (fun s => s.putD c f.rd (s.getD c f.ra &&& immZ f)))

/-- ORI (R247). -/
def execOri (c : Core) (f : FmtI) (s : State) : Host.Outcome State Fault Refusal :=
  .next (s.runDsn c true (fun s => s.putD c f.rd (s.getD c f.ra ||| immZ f)))

/-- XORI (R247). -/
def execXori (c : Core) (f : FmtI) (s : State) : Host.Outcome State Fault Refusal :=
  .next (s.runDsn c true (fun s => s.putD c f.rd (s.getD c f.ra ^^^ immZ f)))

/-- The shift that imm[7:6] selects (R247). -/
def shiOp (imm : Half) : AluOp :=
  match (imm.toNat / 64) % 4 with
  | 0 => .sll
  | 1 => .srl
  | 2 => .sra
  | _ => .ror

/-- SHI: imm[15:8] must be 0, on Bellhouse imm[5] too (R247, R271); FL is not written. -/
def execShi (c : Core) (f : FmtI) (s : State) : Host.Outcome State Fault Refusal :=
  .next (s.runDsn c (decide (f.imm.toNat < 256) && (isTabor c || !f.imm.getLsbD 5)) (fun s =>
    s.putD c f.rd (coreAlu c (shiOp f.imm) (s.getD c f.ra) (BitVec.ofNat 64 (f.imm.toNat % 64))).1))

/-- CMPI: rd must be 0 (R247). -/
def execCmpi (c : Core) (f : FmtI) (s : State) : Host.Outcome State Fault Refusal :=
  .next (s.runDsn c (decide (f.rd = 0)) (fun s => (s.putFl c true (coreAlu c .sub (s.getD c f.ra) (immS f)).2).nextPc c))

/-- CALLR: the target is formed before rd is written (R247). -/
def execCallr (c : Core) (f : FmtI) (s : State) : Host.Outcome State Fault Refusal :=
  .next (s.runDsn c true (fun s => (s.setD c f.rd (s.getPc c + 4)).setPc c (s.getD c f.ra + immS f)))

/-- LIZ (R247). -/
def execLiz (c : Core) (f : FmtU) (s : State) : Host.Outcome State Fault Refusal :=
  .next (s.runDsn c (fmtUPlain c f) (fun s => s.putD c f.rd (immU f)))

/-- LII (R247). -/
def execLii (c : Core) (f : FmtU) (s : State) : Host.Outcome State Fault Refusal :=
  .next (s.runDsn c (fmtUPlain c f) (fun s => s.putD c f.rd ((s.getD c f.rd &&& ~~~holeU f) ||| immU f)))

/-- LIN (R247). -/
def execLin (c : Core) (f : FmtU) (s : State) : Host.Outcome State Fault Refusal :=
  .next (s.runDsn c (fmtUPlain c f) (fun s => s.putD c f.rd (~~~immU f)))

/-- BCC (R251). -/
def execBcc (c : Core) (f : FmtB) (s : State) : Host.Outcome State Fault Refusal :=
  .next (s.runDsn c true (fun s => if condHolds (s.getFl c) f.cond then s.setPc c (s.branchTo c f.off) else s.nextPc c))

/-- CALLI (R251). -/
def execCalli (c : Core) (f : FmtJ) (s : State) : Host.Outcome State Fault Refusal :=
  .next (s.runDsn c true (fun s => (s.setD c f.rd (s.getPc c + 4)).setPc c (s.branchTo c f.off)))

end Sys2Proof.Machine
end

