-- ==== Sys2Proof/Machine/DsnMem.lean ====
section
/-! DEFINITION. The loads and stores of a DSN core (R242, R248-R250, R266, R272), the Tabor data caches (R253, R254) and the LOCK group
(R264). -/

namespace Sys2Proof.Machine

/-- What a load or store meets: its data, or the exception code it raises (R267). -/
inductive Access where
  | data (b : List Byte)
  | fault (code : Nat)
deriving DecidableEq, Repr

/-! ### The data cache (R253, R254) -/

def State.cacheLine (s : State) (k : Fin 4) (line : Nat) : Option CacheLine := (vget s.cores k).dcache.find? (fun l => l.line = line)
def State.dropLine (s : State) (k : Fin 4) (line : Nat) : State :=
  s.modCore k (fun x => { x with dcache := x.dcache.filter (fun l => l.line ≠ line) })
/-- Replace the line held at `line`. -/
def State.putLine (s : State) (k : Fin 4) (line : Nat) (f : CacheLine → CacheLine) : State :=
  s.modCore k (fun x => { x with dcache := x.dcache.map (fun l => if l.line = line then f l else l) })

/-- The words of a line that carry no trusted data (R304). -/
def CacheLine.badWords (l : CacheLine) : List Nat := (upFrom 0 4).filter (fun i => (verdict (l.mem.syndrome i)).bad)

/-- Write a dirty line back, poisoned words as they are (R304); the Cistern discards it when the core no longer holds the buffer (R352). -/
def State.writeBack (s : State) (k : Fin 4) (l : CacheLine) : State :=
  if l.dirty then
    let w := s.memWrite (.core k) (64 * l.line) (l.mem.read 0 64)
    let s := if w.2 then l.badWords.foldl (fun s i => s.poisonAt (64 * l.line + 16 * i) 16) w.1 else w.1
    s.putLine k l.line (fun y => { y with dirty := false })
  else s

/-- The line that leaves as another enters, if any: which one is not stated but for a full cache (R253, log entry 4). -/
def State.victim (s : State) (k : Fin 4) : Option CacheLine :=
  let held := (vget s.cores k).dcache
  held[Config.cacheVictim s.freeCount % (if held.length < 1024 then held.length + 1 else held.length)]?

/-- The bytes of a line as they enter a cache, the words `bad` of them poisoned (R304). -/
def lineStore (b : List Byte) (bad : List Nat) : Store := bad.foldl (fun m i => m.poison (16 * i)) (Store.empty.put 0 b)

/-- A new line enters the cache. -/
def State.fillLine (s : State) (k : Fin 4) (line : Nat) (b : List Byte) (bad : List Nat) : State :=
  let v := s.victim k
  let s := { s with freeCount := s.freeCount + 1 }
  let s := match v with
    | some l => (s.writeBack k l).dropLine k l.line
    | none => s
  s.modCore k (fun x => { x with dcache := { line := line, mem := lineStore b bad, dirty := false } :: x.dcache })

/-- The line of address `a` is brought into the cache unless it is held: false where the read is refused. -/
def State.fetchLine (s : State) (k : Fin 4) (a : Nat) : State × Bool :=
  match s.cacheLine k (a / 64) with
  | some _ => (s, true)
  | none =>
    let line := a / 64 * 64
    let r := s.memRead (.core k) line 64
    match r.2 with
    | .refused => (r.1, false)
    | .bad b => (r.1.fillLine k (a / 64) b (r.1.badWords line 64), true)
    | .ok b => (r.1.fillLine k (a / 64) b [], true)

/-- `n` bytes at offset `o` of a list. -/
def sliceAt (b : List Byte) (o n : Nat) : List Byte := (b.drop o).take n

/-- A load from a line the cache holds: words are corrected, and counted at site 1; a word that cannot be raises UNCORR (R250, R301, R305). -/
def State.hitRead (s : State) (k : Fin 4) (a n : Nat) : State × Access :=
  match s.cacheLine k (a / 64) with
  | some l =>
    let vs := l.mem.verdicts (a % 64) n
    (s.siteWords siteTabor vs, if vs.any (·.bad) then .fault 8 else .data (l.mem.read (a % 64) n))
  | none => (s, .fault 7)

/-- A cached load. -/
def State.cacheRead (s : State) (k : Fin 4) (a n : Nat) : State × Access :=
  let r := s.fetchLine k a
  if r.2 then r.1.hitRead k a n else (r.1.linkErr (s.link (.core k)), .fault 7)

/-- A cached store; a buffer that the core does not hold discards it (R352). A store to control SRAM takes the line from the other caches
(R253). -/
def State.cacheWrite (s : State) (k : Fin 4) (a : Nat) (b : List Byte) : State :=
  let r := s.fetchLine k a
  if !r.2 then s
  else
    let s := r.1.siteWords siteTabor ((partWords (a % 64) b.length).map (fun i =>
      verdict (((r.1.cacheLine k (a / 64)).map (fun l => l.mem.syndrome i)).getD 0)))
    let s := s.putLine k (a / 64) (fun l => { l with mem := l.mem.write (a % 64) b, dirty := true })
    (upFrom 0 4).foldl (fun s j =>
      if j = k.1 then s
      else s.modCore (fin 4 j) (fun x => { x with dcache := x.dcache.filter (fun l => !(decide (l.line = a / 64) && l.ctlWithin a 1)) })) s

/-! ### Waiting (R31, R382, R501) -/

/-- What a cached access waits for: the way to its line, unless the cache holds it, and to that of the line which leaves for it. -/
def State.lineNeeds (s : State) (k : Fin 4) (a : Nat) : List Nat :=
  if (s.cacheLine k (a / 64)).isSome then []
  else s.pathNeeds (.core k) a ++ (match s.victim k with
    | some l => if l.dirty then s.pathNeeds (.core k) (64 * l.line) else []
    | none => [])

/-- A region that the data caches hold (R253). -/
def Region.cached : Region → Bool
  | .dram _ => true
  | .cis _ => true
  | .ctl _ => true
  | _ => false

/-- The functions and the acceptance point that an access of a core to device address `a` waits for; none where it reaches no unit. -/
def State.coreNeeds (s : State) (c : Core) (a : Nat) : List Nat × Option Nat :=
  match c with
  | .tabor k =>
    if s.region a = .nowhere then ([], none)
    else if (s.region a).cached then (s.lineNeeds k a, none)
    else (s.pathNeeds (.core k) a, some (s.pointOf a))
  | .bellhouse => if s.region a = .nowhere then ([], none) else (s.pathNeeds .bellhouse a, some (s.pointOf a))

/-- Instruction `i` of core `c` does `f` once its access to device address `a` can be accepted; until then the core stalls. -/
def State.coreAccess (s : State) (c : Core) (a : Nat) (i : Instr) (f : State → State) : State :=
  let n := s.coreNeeds c a
  if s.mayEnter (coreIni c) n.1 n.2 then f s else s.hold (coreIni c) n.1 n.2 i

/-- A message of core `c` to the event controller (R379): class A through its access port. -/
def State.evcAccess (s : State) (c : Core) (i : Instr) (f : State → State) : State :=
  if s.mayEnter (coreIni c) [8, 9] (some 67) then f s else s.hold (coreIni c) [8, 9] (some 67) i

/-! ### Accesses of a Tabor core (R242, R249, R250, R266, R497, R507, R511) -/

/-- The memory protection map denies a P0 access of core `k` (R266, R507). -/
def State.p0Denied (s : State) (k : Fin 4) (a : Nat) (write : Bool) : Bool := !s.atP1 (.tabor k) && !s.mpmAllows false write a

/-- ALIGN: natural alignment, and 4 bytes only to the CSR space (R242, R249). -/
def State.misaligned (s : State) (a n : Nat) : Bool :=
  decide (a % n ≠ 0) || (match s.region a with
    | .csr _ => decide (n ≠ 4)
    | _ => false)

def State.taborRead (s : State) (k : Fin 4) (addr : DWord) (n : Nat) : State × Access :=
  let a := addr.toNat
  if s.misaligned a n then (s, .fault 6)
  else if 2 ^ 48 ≤ a then (s, .fault 7)
  else if s.p0Denied k a false then (s.mpmDeny false false (s.phys k).1 a, .fault 7)
  else
    match s.region a with
    | .dram _ => s.cacheRead k a n
    | .cis _ => s.cacheRead k a n
    | .ctl _ => s.cacheRead k a n
    | .nowhere => (s, .fault 7)
    | _ =>
      let x := s.readAt (.core k) a n
      match x.2 with
      | .ok b => (x.1, .data b)
      | .bad _ => (x.1, .fault 8)
      | .refused => (x.1, .fault 7)

def State.taborWrite (s : State) (k : Fin 4) (addr : DWord) (b : List Byte) : State × Option Nat :=
  let a := addr.toNat
  if s.misaligned a b.length then (s, some 6)
  else if 2 ^ 48 ≤ a then (s, some 7)
  else if s.p0Denied k a true then (s.mpmDeny false true (s.phys k).1 a, some 7)
  else
    match s.region a with
    | .dram _ => (s.cacheWrite k a b, none)
    | .cis _ => (s.cacheWrite k a b, none)
    | .ctl _ => (s.cacheWrite k a b, none)
    | .nowhere => (s, some 7)
    | .nvs _ => (s.linkErr (s.link (.core k)), some 7)
    | _ => ((s.writeAt (.core k) a b).1, none)

/-! ### Accesses of Bellhouse (R271, R272) -/

/-- The device address behind a Bellhouse address of its window (R272). -/
def State.bhDevice (s : State) (a : Nat) : Nat := s.bh.awin.toNat % 131072 * 2 ^ 31 + (a - 0x80000000)

/-- Bellhouse reads `n` bytes: local memory, whose lowest 32 KiB are the boot ROM (R430), a hole, or the device through AWIN. An error response other than for an address in no region
leaves zeros (R352). -/
def State.bhRead (s : State) (addr : DWord) (n : Nat) : State × Access :=
  let a := addr.toNat
  if a < 0x20000 then
    if a % n ≠ 0 then (s, .fault 6)
    else if a < 0x8000 then (s, .data ((upFrom a n).map Config.bootRom))
    else
      let vs := s.bh.mem.verdicts a n
      let t := s.siteWords siteBh vs
      if vs.any (·.bad) then (t, .fault 8) else (t, .data (s.bh.mem.read a n))
  else if a < 0x80000000 then (s, if a % n ≠ 0 then .fault 6 else .fault 7)
  else
    let d := s.bhDevice a
    if s.misaligned d n then (s, .fault 6)
    else if s.region d = .nowhere then (s.flumeError 5, .fault 7)
    else
      let x := (s.flumeAccept 5).readAt .bellhouse d n
      match x.2 with
      | .ok b => (x.1, .data b)
      | .bad _ => (x.1, .fault 8)
      | .refused => (x.1.linkErr 5, .data (List.replicate n 0))

/-- Bellhouse writes; a store to the boot ROM changes nothing (log entry 6). -/
def State.bhWrite (s : State) (addr : DWord) (b : List Byte) : State × Option Nat :=
  let a := addr.toNat
  let n := b.length
  if a < 0x20000 then
    if a % n ≠ 0 then (s, some 6)
    else if a < 0x8000 then (s, none)
    else
      let t := s.siteWords siteBh ((partWords a n).map (fun i => verdict (s.bh.mem.syndrome i)))
      (t.modBh (fun x => { x with mem := x.mem.write a b }), none)
  else if a < 0x80000000 then (s, some (if a % n ≠ 0 then 6 else 7))
  else
    let d := s.bhDevice a
    if s.misaligned d n then (s, some 6)
    else if s.region d = .nowhere then (s.flumeError 5, some 7)
    else
      let x := (s.flumeAccept 5).writeAt .bellhouse d b
      (if x.2 then x.1 else x.1.linkErr 5, none)

/-! ### Loads and stores (R248, R250) -/

def State.coreRead (s : State) (c : Core) (a : DWord) (n : Nat) : State × Access :=
  match c with
  | .tabor k => s.taborRead k a n
  | .bellhouse => s.bhRead a n

def State.coreWrite (s : State) (c : Core) (a : DWord) (b : List Byte) : State × Option Nat :=
  match c with
  | .tabor k => s.taborWrite k a b
  | .bellhouse => s.bhWrite a b

/-- The value a load of `n` bytes puts into rt (R248). -/
def loadValue (n : Nat) (signed : Bool) (b : List Byte) : DWord :=
  let v := leNat b
  if signed && decide (2 ^ (8 * n - 1) ≤ v) then BitVec.ofInt 64 ((v : Int) - 2 ^ (8 * n)) else BitVec.ofNat 64 v

/-- The device address that an access of `n` bytes at `a` goes to, where it meets no exception before it leaves the core (R242, R249, R266,
R272). -/
def State.devAddr (s : State) (c : Core) (a n : Nat) (write : Bool) : Option Nat :=
  match c with
  | .tabor k => if s.misaligned a n || decide (2 ^ 48 ≤ a) || s.p0Denied k a write then none else some a
  | .bellhouse => if a < 0x80000000 || s.misaligned (s.bhDevice a) n then none else some (s.bhDevice a)

/-- A load or store `i` of core `c` does `f`, or stalls the core on its way (R501). -/
def State.dataAccess (s : State) (c : Core) (a n : Nat) (write : Bool) (i : Instr) (f : State → State) : State :=
  match s.devAddr c a n write with
  | some d => s.coreAccess c d i f
  | none => f s

/-- A load of `n` bytes (R248-R250), which instruction `i` makes. -/
def State.load (s : State) (c : Core) (f : FmtM) (n : Nat) (signed : Bool) (i : Instr) : State :=
  let a := s.addrM c f
  s.dataAccess c a.toNat n false i (fun s =>
    let r := s.coreRead c a n
    match r.2 with
    | .data b => r.1.putD c f.rt (loadValue n signed b)
    | .fault k => r.1.exception c k a)

/-- A store of the low `n` bytes of rt (R248-R250), which instruction `i` makes. -/
def State.store' (s : State) (c : Core) (f : FmtM) (n : Nat) (i : Instr) : State :=
  let a := s.addrM c f
  s.dataAccess c a.toNat n true i (fun s =>
    let r := s.coreWrite c a (leBytes n (s.getD c f.rt).toNat)
    match r.2 with
    | none => r.1.nextPc c
    | some k => r.1.exception c k a)

/-- LDB (R248). -/
def execLdb (c : Core) (f : FmtM) (s : State) : Host.Outcome State Fault Refusal := .next (s.runDsn c true (fun s => s.load c f 1 false (.ldb c f)))
/-- LDBS (R248). -/
def execLdbs (c : Core) (f : FmtM) (s : State) : Host.Outcome State Fault Refusal := .next (s.runDsn c true (fun s => s.load c f 1 true (.ldbs c f)))
/-- LDH (R248). -/
def execLdh (c : Core) (f : FmtM) (s : State) : Host.Outcome State Fault Refusal := .next (s.runDsn c true (fun s => s.load c f 2 false (.ldh c f)))
/-- LDHS (R248). -/
def execLdhs (c : Core) (f : FmtM) (s : State) : Host.Outcome State Fault Refusal := .next (s.runDsn c true (fun s => s.load c f 2 true (.ldhs c f)))
/-- LDW (R248). -/
def execLdw (c : Core) (f : FmtM) (s : State) : Host.Outcome State Fault Refusal := .next (s.runDsn c true (fun s => s.load c f 4 false (.ldw c f)))
/-- LDWS (R248); illegal on Bellhouse (R271). -/
def execLdws (c : Core) (f : FmtM) (s : State) : Host.Outcome State Fault Refusal :=
  .next (s.runDsn c (isTabor c) (fun s => s.load c f 4 true (.ldws c f)))
/-- LDD (R248); illegal on Bellhouse (R271). -/
def execLdd (c : Core) (f : FmtM) (s : State) : Host.Outcome State Fault Refusal :=
  .next (s.runDsn c (isTabor c) (fun s => s.load c f 8 false (.ldd c f)))
/-- STB (R248). -/
def execStb (c : Core) (f : FmtM) (s : State) : Host.Outcome State Fault Refusal := .next (s.runDsn c true (fun s => s.store' c f 1 (.stb c f)))
/-- STH (R248). -/
def execSth (c : Core) (f : FmtM) (s : State) : Host.Outcome State Fault Refusal := .next (s.runDsn c true (fun s => s.store' c f 2 (.sth c f)))
/-- STW (R248). -/
def execStw (c : Core) (f : FmtM) (s : State) : Host.Outcome State Fault Refusal := .next (s.runDsn c true (fun s => s.store' c f 4 (.stw c f)))
/-- STD (R248); illegal on Bellhouse (R271). -/
def execStd (c : Core) (f : FmtM) (s : State) : Host.Outcome State Fault Refusal :=
  .next (s.runDsn c (isTabor c) (fun s => s.store' c f 8 (.std c f)))

/-! ### CACHE (R252, R254) -/

/-- A field of a format X word that an operation does not use is 0 (R252, R257, R262, R264). -/
def fmtXPlain (f : FmtX) (rd ra rb : Bool) (sub : Nat) : Bool :=
  (rd || decide (f.rd = 0)) && (ra || decide (f.ra = 0)) && (rb || decide (f.rb = 0)) && decide (f.sub.toNat = sub)

/-- A CACHE operation `i` on the line that holds address ra: a write-back of a dirty line stalls the core until its way is READY (R501);
Bellhouse has none (R271). -/
def State.cacheOp (s : State) (c : Core) (f : FmtX) (back drop : Bool) (i : Instr) : State :=
  match c with
  | .bellhouse => s
  | .tabor k =>
    let line := (s.getD c f.ra).toNat / 64
    let needs := match s.cacheLine k line with
      | some l => if back && l.dirty then s.pathNeeds (.core k) (64 * line) else []
      | none => []
    if !s.mayEnter (.core k) needs none then s.hold (.core k) needs none i
    else
      let s := match s.cacheLine k line with
        | some l => if back then s.writeBack k l else s
        | none => s
      (if drop then s.dropLine k line else s).nextPc c

/-- CACHE data write-back (R252). -/
def execCacheWriteBack (c : Core) (f : FmtX) (s : State) : Host.Outcome State Fault Refusal :=
  .next (s.runDsn c (isTabor c && fmtXPlain f false true false 0) (fun s => s.cacheOp c f true false (.cacheWriteBack c f)))
/-- CACHE data invalidate (R252). -/
def execCacheInvalidate (c : Core) (f : FmtX) (s : State) : Host.Outcome State Fault Refusal :=
  .next (s.runDsn c (isTabor c && fmtXPlain f false true false 1) (fun s => s.cacheOp c f false true (.cacheInvalidate c f)))
/-- CACHE data write-back and invalidate (R252). -/
def execCacheWriteBackInvalidate (c : Core) (f : FmtX) (s : State) : Host.Outcome State Fault Refusal :=
  .next (s.runDsn c (isTabor c && fmtXPlain f false true false 2) (fun s => s.cacheOp c f true true (.cacheWriteBackInvalidate c f)))
/-- CACHE instruction invalidate (R252): what is fetched later is a later command's, so only the pc moves. -/
def execCacheInstructionInvalidate (c : Core) (f : FmtX) (s : State) : Host.Outcome State Fault Refusal :=
  .next (s.runDsn c (isTabor c && fmtXPlain f false true false 3) (fun s => s.nextPc c))

/-! ### LOCK (R264) -/

/-- FL.ST ← status (R239). -/
def State.putStatus (s : State) (c : Core) (st : Nat) : State := s.setFl c (putSt (s.getFl c) (BitVec.ofNat 8 st))

/-- A LOCK operation `i` of core `k` on the word at ra: `op` gives, from the old value, what is written, if anything. The caches hold no copy of
the word during it (R253, R264). -/
def State.lockOp (s : State) (k : Fin 4) (f : FmtX) (op : DWord → Option DWord) (cas : Bool) (i : Instr) : State :=
  let c : Core := .tabor k
  let addr := s.getD c f.ra
  let a := addr.toNat
  if a % 8 ≠ 0 then s.exception c 6 addr
  else if a < ctlBase ∨ ctlBase + 0x400000 ≤ a then s.exception c 7 addr
  else if s.p0Denied k a false then (s.mpmDeny false false (s.phys k).1 a).exception c 7 addr
  else if s.p0Denied k a true then (s.mpmDeny false true (s.phys k).1 a).exception c 7 addr
  else if !s.mayEnter (.core k) (s.pathNeeds (.core k) a) (some (s.pointOf a)) then
    s.hold (.core k) (s.pathNeeds (.core k) a) (some (s.pointOf a)) i
  else
    let r := (s.ctlSync a 8 true).readStore .ctl (a - ctlBase) 8
    match r.2 with
    | .ok b =>
      let old : DWord := BitVec.ofNat 64 (leNat b)
      let new := op old
      let s := match new with
        | some v => r.1.writeStore .ctl (a - ctlBase) (leBytes 8 v.toNat)
        | none => r.1
      let s := if cas then
          let fl := s.getFl c
          s.setFl c (putFlags fl { z := new.isSome, s := flS fl, c := flC fl, o := flO fl })
        else s
      (s.putStatus c stOk).putD c f.rd old
    | _ => r.1.exception c 8 addr

/-- Runs on a Tabor core only (R271). -/
def State.onTabor (s : State) (c : Core) (legal : Bool) (effect : Fin 4 → State → State) : State :=
  match c with
  | .tabor k => s.runDsn c legal (effect k)
  | .bellhouse => s.runDsn c false (fun s => s)

/-- LCADD (R264). -/
def execLcadd (c : Core) (f : FmtX) (s : State) : Host.Outcome State Fault Refusal :=
  .next (s.onTabor c (fmtXPlain f true true true 0) (fun k s => s.lockOp k f (fun old => some (old + s.getD c f.rb)) false (.lcadd c f)))
/-- LCSWP (R264). -/
def execLcswp (c : Core) (f : FmtX) (s : State) : Host.Outcome State Fault Refusal :=
  .next (s.onTabor c (fmtXPlain f true true true 0) (fun k s => s.lockOp k f (fun _ => some (s.getD c f.rb)) false (.lcswp c f)))
/-- LCCAS (R264). -/
def execLccas (c : Core) (f : FmtX) (s : State) : Host.Outcome State Fault Refusal :=
  .next (s.onTabor c (fmtXPlain f true true true 0) (fun k s =>
    s.lockOp k f (fun old => if old = s.getD c f.rd then some (s.getD c f.rb) else none) true (.lccas c f)))

end Sys2Proof.Machine
end

