-- ==== Sys2Proof/Machine/DsnSys.lean ====
section
/-! DEFINITION. The fences, the system registers and the return from exception (R240, R252, R255, R266, R268, R271, R272). -/

namespace Sys2Proof.Machine

/-- System register `n` of core `c` (R240, R271, R272); a reserved number reads 0. -/
def State.sysRead (s : State) (c : Core) (n : Nat) : DWord :=
  match n with
  | 0 => match c with
    | .tabor k => BitVec.ofNat 64 (k.1 + 4 * (s.phys k).1)
    | .bellhouse => 0x1F
  | 1 => s.getStatus c
  | 2 => s.getXpc c
  | 3 => s.getXcause c
  | 4 => s.getXaddr c
  | 5 => s.getXvec c
  | 6 => match c with
    | .tabor k => BitVec.ofNat 64 (s.clk.tab - (vget s.cores k).cycleBase)
    | .bellhouse => BitVec.ofNat 64 (s.clk.tab % 2 ^ 32)
  | 7 => match c with
    | .tabor _ => BitVec.ofNat 64 s.clk.aon
    | .bellhouse => BitVec.ofNat 64 (s.clk.aon % 2 ^ 32)
  | 8 => s.getFl c
  | 9 => match c with
    | .tabor _ => 0
    | .bellhouse => s.bh.awin.setWidth 64
  | _ => 0

/-- Write system register `n` (R240, R271, R272): read-only and reserved numbers ignore it; on Bellhouse P and PP stay 1. -/
def State.sysWrite (s : State) (c : Core) (n : Nat) (v : DWord) : State :=
  match n with
  | 1 => match c with
    | .tabor _ => s.setStatus c (v &&& 7)
    | .bellhouse => s.setStatus c ((v &&& 2) ||| 5)
  | 2 => s.setXpc c v
  | 5 => s.setXvec c (v &&& ~~~(0xFFF : DWord))
  | 8 => s.setFl c (v &&& flMask)
  | 9 => match c with
    | .tabor _ => s
    | .bellhouse => s.modBh (fun x => { x with awin := v.setWidth 32 &&& 0x1FFFF })
  | _ => s

/-- The system registers that P0 reaches (R240). -/
def sysAtP0 (n : Nat) : Bool := n = 0 || n = 6 || n = 7 || n = 8

/-- Run at P1, or raise PRIV (R266). -/
def State.atPriv (s : State) (c : Core) (ok : Bool) (effect : State → State) : State :=
  if ok || s.atP1 c then effect s else s.exception c 5 0

/-- FENCE (R252, R255): every access of the model is performed before the next command, so only the pc moves. -/
def execFence (c : Core) (f : FmtX) (s : State) : Host.Outcome State Fault Refusal :=
  .next (s.runDsn c (fmtXPlain f false false false 0) (fun s => s.nextPc c))

/-- IFENCE (R252, R256): what is fetched later is a later command's, so only the pc moves. -/
def execIfence (c : Core) (f : FmtX) (s : State) : Host.Outcome State Fault Refusal :=
  .next (s.runDsn c (fmtXPlain f false false false 1) (fun s => s.nextPc c))

/-- MFSR (R240, R252, R266). -/
def execMfsr (c : Core) (f : FmtX) (s : State) : Host.Outcome State Fault Refusal :=
  .next (s.runDsn c (decide (f.ra = 0) && decide (f.rb = 0)) (fun s =>
    s.atPriv c (sysAtP0 f.sub.toNat) (fun s => s.putD c f.rd (s.sysRead c f.sub.toNat))))

/-- MTSR (R240, R252, R266). -/
def execMtsr (c : Core) (f : FmtX) (s : State) : Host.Outcome State Fault Refusal :=
  .next (s.runDsn c (decide (f.rd = 0) && decide (f.rb = 0)) (fun s =>
    s.atPriv c (sysAtP0 f.sub.toNat) (fun s => (s.sysWrite c f.sub.toNat (s.getD c f.ra)).nextPc c)))

/-- RFX (R252, R266, R268). -/
def execRfx (c : Core) (f : FmtX) (s : State) : Host.Outcome State Fault Refusal :=
  .next (s.runDsn c (fmtXPlain f false false false 0) (fun s => s.atPriv c false (fun s => s.returnFromException c)))

end Sys2Proof.Machine
end

