-- ==== Sys2Proof/Machine/DsnTake.lean ====
section
/-! DEFINITION. The TAKE group (R257-R261): setup records and their commit (R288-R293), ARM (R259, R286, R287), MARK (R260) and the
ledger read (R261). -/

namespace Sys2Proof.Machine

/-- A TAKE or EVT instruction's end: ST, rd and the next instruction (R257). -/
def State.retSt (s : State) (c : Core) (rd : Fin 32) (st : Nat) (v : DWord) : State := (s.putStatus c st).putD c rd v

/-- A refusal by a KEY_LOCK bit raises source 17 (R506). -/
def State.lockedSt (s : State) (st : Nat) : State := if st = stLocked then s.raise 17 else s

/-- Setup instructions are legal in LOADED, ARMED and ROLLING, and in IDLE while a program is in setup (R290, R291). -/
def State.setupLegal (s : State) : Bool :=
  match s.take.st with
  | .loaded => true
  | .armed => true
  | .rolling => true
  | .idle => s.take.setup.isSome
  | _ => false

/-! ### STREC (R288-R290, R298) -/

/-- Length of a unit's record (R294-R298, R338, R355, R391, R460, R476, R495); that of LOG follows its extents. -/
def recordLength (u : Nat) (r : List Byte) : Nat :=
  match u with
  | 0 => 64
  | 1 => 128
  | 2 => 64 + roundUp (16 * (logExtents r 0 + logExtents r 1)) 64
  | 3 => 192
  | 4 => 128
  | 9 => 128
  | 10 => 64
  | 11 => 1536
  | 12 => 1024
  | 13 => 64
  | _ => 256

/-- The header of a record image at control SRAM offset `o` is in order (R288, R290). -/
def recordFormed (h : List Byte) (o : Nat) : Bool :=
  let u := leAt h 0 1
  let n := leAt h 4 4
  decide (u < 14) && decide (leAt h 1 1 = 1) && zeroFrom h 2 3 && zeroFrom h 8 11 && decide (n % 64 = 0) && decide (o + n ≤ 0x400000) &&
    decide (n = recordLength u h)

/-- The crc of a record image (R288). -/
def recordCrc (r : List Byte) : Bool :=
  decide ((checkValue 0 0xFFFD (leAt r 0 1) (r.take 12 ++ r.drop 16)).toNat = leAt r 12 4)

/-- An image that a PXY record names (R298). -/
def namedImages (r : List Byte) : List Area :=
  if 5 ≤ leAt r 0 1 ∧ leAt r 0 1 < 9 then [(leAt r 120 8, 2048), (leAt r 128 8, 215622)] else []

/-- The record touches what KEY_LOCK CLOCK protects (R506). -/
def State.recordLocked (s : State) (r : List Byte) : Bool :=
  s.locked 4 && ((decide (leAt r 0 1 = 13) && decide (leAt r 17 1 ≠ s.mc.fsp.1)) ||
    (decide (leAt r 0 1 = 1) && decide ((codeProfile r = 1) ≠ (s.hdg.teEcon = true))))

/-- STREC (R290): the state after, the status and the unit number. A record image that a core's cache still holds is seen (R253, R255). -/
def State.strec (s : State) (addr : Nat) : State × Nat × Nat :=
  let s := s.ctlSync addr 0x400000 false
  let o := addr - ctlBase
  let h := s.peek addr 64
  let u := leAt h 0 1
  let n := leAt h 4 4
  if !s.setupLegal then (s, stState, 0)
  else if addr % 64 ≠ 0 ∨ addr < ctlBase ∨ ctlBase + 0x400000 ≤ addr ∨ !recordFormed h o then (s, stBadarg, 0)
  else
    let r := s.peek addr n
    let imgs := namedImages r
    let b := vgetN Bank.empty s.banks u
    let s := s.noteAreas ((addr, n) :: imgs)
    if s.peekBad addr n || imgs.any (fun a => s.peekBad a.1 a.2) then (s, stUncorrectable, 0)
    else if !recordCrc r then (s, stIntegrity, 0)
    else if b.ready ∨ b.retiring.isSome then (s, stBusy, 0)
    else if s.recordLocked r then (s, stLocked, 0)
    else
      let x : SetupRecord := match imgs with
        | [c, l] => { bytes := r, coef := s.peek c.1 c.2, lut := s.peek l.1 l.2 }
        | _ => { bytes := r, coef := [], lut := [] }
      ({ s with banks := vsetN s.banks u { b with shadow := some x } }, stOk, u)

/-- STREC (R257, R258, R290). -/
def execStrec (c : Core) (f : FmtX) (s : State) : Host.Outcome State Fault Refusal :=
  .next (s.onTabor c (fmtXPlain f true true false 0) (fun _ s =>
    let r := s.strec (s.getD c f.ra).toNat
    (r.1.lockedSt r.2.1).retSt c f.rd r.2.1 (BitVec.ofNat 64 r.2.2)))

/-! ### COMMIT (R291-R293) -/

/-- The setup with the shadow records of units `us` in place of the ready or active ones. -/
def State.setupWith (s : State) (us : List Nat) : Setup := fun k =>
  let b := vgetN Bank.empty s.banks k
  if us.contains k || b.ready then b.shadow else b.active

/-- The setup that ARM judges: ready shadow banks, else the active ones (R286). -/
def State.armSetup (s : State) : Setup := fun k =>
  let b := vgetN Bank.empty s.banks k
  if b.ready then b.shadow else b.active

/-- Bytes of unit `u`'s record that COMMIT may change while ARMED or ROLLING (R289); none for a unit marked No. -/
def commitFree (u i : Nat) : Bool :=
  (between 12 i 15) || match u with
  | 3 => between 114 i 131
  | 4 => between 24 i 27 || decide (i = 21) || between 96 i 111
  | 9 => true
  | 11 => true
  | u => between 5 u 8

/-- Two record images differ only where COMMIT may change them. -/
def onlyFree (u : Nat) (a b : List Byte) : Bool :=
  decide (a.length = b.length) && (upFrom 0 a.length).all (fun i => commitFree u i || decide (nth 0 a i = nth 0 b i))

/-- A unit may be committed while ARMED or ROLLING (R289). -/
def committable (u : Nat) : Bool := u = 3 || u = 4 || between 5 u 9 || u = 11

/-- COMMIT of unit `u` with the setup `f` breaks the table of R289 while ARMED or ROLLING (R291). -/
def State.commitBarred (s : State) (f : Setup) (u : Nat) : Bool :=
  !committable u || (decide (u = 3 ∨ u = 4) && !onlyFree u (s.active u) (f.bytes u))

/-- The range check and the admission test of a changed unit (R291, R293). -/
def State.commitTest (s : State) (f : Setup) (u : Nat) : Nat :=
  firstFail [
    s.rangeUnit f u,
    if u = 3 then s.testMagazine false f else if 5 ≤ u ∧ u < 9 then testProxy f else 0]

def unitsOf (mask : Nat) : List Nat := (upFrom 0 14).filter (natBit mask)

/-- COMMIT (R291): the state after and the status. -/
def State.commitMask (s : State) (mask : Nat) : State × Nat :=
  let us := unitsOf mask
  let f := s.setupWith us
  let live := decide (s.take.st = .armed) || decide (s.take.st = .rolling)
  let st := firstFail [
    failIf (!s.setupLegal) stState,
    failIf (decide (2 ^ 14 ≤ mask) || us.any (fun u => (vgetN Bank.empty s.banks u).shadow.isNone)) stBadarg,
    failIf (live && us.any (s.commitBarred f)) stState,
    if live then firstFail (us.map (s.commitTest f)) else 0]
  if st ≠ 0 then (s, st)
  else ({ s with banks := us.foldl (fun v u => vmodN v u (fun b => { b with ready := true })) s.banks }, 0)

/-- COMMIT (R257, R258, R291). -/
def execCommit (c : Core) (f : FmtX) (s : State) : Host.Outcome State Fault Refusal :=
  .next (s.onTabor c (fmtXPlain f true true false 0) (fun _ s =>
    let m := s.getD c f.ra
    let r := s.commitMask m.toNat
    r.1.retSt c f.rd r.2 (if r.2 = 0 then m else 0)))

/-! ### ARM (R259, R286, R287) -/

/-- A training sequence of every channel has committed without stated taps: the margins are free (log entry 7). -/
def State.freeMargins (s : State) : State :=
  { s with
    mc := { s.mc with
      chans := (upFrom 0 s.nCh).foldl (fun v c => vmodN v c (fun x =>
        if x.up then { x with margin := BitVec.ofNat 16 (Config.unstated 15 (32 * s.freeCount + c)) } else x)) s.mc.chans }
    freeCount := s.freeCount + 1 }

/-- The FSP change of ARM (R287, R331-R333), which replaces a request that waits (R332): an entry sequence where the FSP has no trained values. False where it fails. -/
def State.fspNow (s : State) (r : Nat) (passes : Bool) : State × Bool :=
  if r = s.mc.fsp.1 then (s, true)
  else
    let s := { s with mc := { s.mc with fspPend := none } }
    let p := fin 3 r
    if s.mc.trained.getLsbD r || passes then
      (({ s with mc := { s.mc with fsp := p, trained := s.mc.trained ||| BitVec.twoPow 3 r } }).freeMargins, true)
    else ((s.freeMargins.orReg rMcStat 0x20).raise 33, false)

/-- The TE clock change of ARM (R287, R417): the relock of a PLL that runs may fail. -/
def State.teClock (s : State) (econ locks : Bool) : State × Bool :=
  if econ = s.hdg.teEcon then (s, true)
  else if s.pllIs 2 .off || locks then (s.modHdg (fun h => { h with teEcon := econ }), true)
  else (s, false)

/-- The derived ledgers of a take (R142, R157, R158, R160), filled from ROLL on. Each ARM restarts L, P and res at 0: for a later take the
spec names no value but the registers' reset (DESIGN CHOICE, log entry 92). -/
def State.setLedgers (s : State) : State :=
  { s with ledgers := (upFrom 0 2).foldl (fun v m => vsetN v m
      { Ledger.atReset with
        sizes := if (arrLedgers s.arrangement).contains m then
            some (ledgerSizes (s.active unitCode) (s.active unitLog) (s.active unitLedger) m)
          else none }) s.ledgers }

/-- Step 4 of ARM (R287): the takeover of every ready bank and the move to ARMED, with what the units do at it (R105, R111, R163, R308,
R317, R484). -/
def State.armMove (s : State) : State :=
  let s := ((s.takeBanks.placeSlots).setLedgers).ckuArmed
  let s := { s with lateViews := [], wholeViews := [], logs := Vector.replicate 2 TakeLog.atReset, tileQueue := [] }
  let s := s.modSns (fun x => { x with delivered := 0 })
  let s := s.modTake (fun t => { t with
    deviceId := BitVec.ofNat 16 s.deviceId, nextPic := 0, startPtp := 0, lastRecorded := none, pics := [], lastPtp := 0, began := false,
    logFull := false, cutCmd := none, faultPending := none })
  s.takeMags.foldl (fun s m => s.dsmStart m) (s.moveTake .armed 0)

/-- ARM (R259, R287): the state after and the status. -/
def State.armTake (s : State) (env : ArmEnv) : State × Nat :=
  if s.take.st ≠ .loaded then (s, stState)
  else if s.swapping then (s, stBusy)
  else
    let f := s.armSetup
    let st := s.admission f (fun u => (vgetN Bank.empty s.banks u).ready) env
    if st ≠ 0 then (s, st)
    else
      let a := s.fspNow (leAt (f.bytes unitMc) 17 1) env.entryPasses
      if !a.2 then (a.1, stLink)
      else
        let b := a.1.teClock (codeProfile (f.bytes unitCode) = 1) env.tePllLocks
        if !b.2 then
          (if s.mc.fsp = b.1.mc.fsp then b.1 else ({ b.1 with mc := { b.1.mc with fsp := s.mc.fsp } }).freeMargins, stTimeout)
        else (b.1.armMove, stOk)

/-- ARM comes to its FSP change while a training sequence runs: the change is taken at the sequence's end (R287, R332, log entry 105). -/
def State.armWaits (s : State) (env : ArmEnv) : Bool :=
  let f := s.armSetup
  decide (s.take.st = .loaded) && !s.swapping && s.mc.training.isSome && decide (leAt (f.bytes unitMc) 17 1 ≠ s.mc.fsp.1) &&
    decide (s.admission f (fun u => (vgetN Bank.empty s.banks u).ready) env = 0)

/-- ARM's request replaces one that waits, and its deferral counts (R332). -/
def State.armDefer (s : State) : State := ({ s with mc := { s.mc with fspPend := none } }).bump rMcFspDefers 1

/-- ARM (R257, R259, R287). -/
def execArm (c : Core) (f : FmtX) (env : ArmEnv) (s : State) : Host.Outcome State Fault Refusal :=
  .next (s.onTabor c (fmtXPlain f true false false 0) (fun k s =>
    if s.armWaits env then s.armDefer.hold (.core k) [] none (.arm c f env)
    else
    let r := s.armTake env
    r.1.retSt c f.rd r.2 (BitVec.ofNat 64 r.2)))

/-! ### MARK and LEDG (R260, R261) -/

/-- MARK: a transition (R108-R110, R260). -/
def State.markInstr (s : State) (c : Core) (f : FmtX) : State :=
  let n := (s.getD c f.ra).toNat
  if 16 ≤ n then s.retSt c f.rd stBadarg 0
  else
    let r := s.mark (fin 16 n) (f.sub.toNat % 8)
    r.1.retSt c f.rd r.2 (if r.2 = stOk then r.1.slotDesc (fin 16 n) else 0)

/-- MARK (R260): target codes 6 and 7 and a bit of sub[6:3] are illegal. -/
def execMark (c : Core) (f : FmtX) (s : State) : Host.Outcome State Fault Refusal :=
  .next (s.onTabor c (decide (f.rb = 0) && decide (f.sub.toNat < 6)) (fun _ s => s.markInstr c f))

/-- MARK_QUERY (R112, R260): sub is 0x80. -/
def execMarkQuery (c : Core) (f : FmtX) (s : State) : Host.Outcome State Fault Refusal :=
  .next (s.onTabor c (fmtXPlain f true true false 0x80) (fun _ s =>
    let n := (s.getD c f.ra).toNat
    if 16 ≤ n then s.retSt c f.rd stBadarg 0 else s.retSt c f.rd stOk (s.slotDesc (fin 16 n))))

/-- The five values of ledger `m` (R160, R261). -/
def State.ledgerValues (s : State) (m : Nat) : List Nat :=
  let g := s.ledgerShown m
  [g.fill, g.pend, g.res, (g.sizes.map (·.cap)).getD 0, sumNat (g.spill.map (fun u => u.bytes.length))]

/-- The sub-operation of LEDG is listed: field code 0-4, sub[7:5] 0 (R257, R261). -/
def ledgLegal (f : FmtX) (snap : Bool) : Bool :=
  decide (f.ra = 0) && decide (f.rb = 0) && decide (f.sub.toNat < 32) && decide (f.sub.toNat % 8 ≤ 4) && f.sub.getLsbD 4 == snap

/-- LEDG from the latch (R261). -/
def execLedg (c : Core) (f : FmtX) (s : State) : Host.Outcome State Fault Refusal :=
  .next (s.onTabor c (ledgLegal f false) (fun k s => s.retSt c f.rd stOk (vgetN 0 (vget s.cores k).latch (f.sub.toNat % 8))))

/-- LEDG_SNAPSHOT (R261): the latch takes all five values of the ledger first. -/
def execLedgSnapshot (c : Core) (f : FmtX) (s : State) : Host.Outcome State Fault Refusal :=
  .next (s.onTabor c (ledgLegal f true) (fun k s =>
    let v := s.ledgerValues (if f.sub.getLsbD 3 then 1 else 0)
    let s := s.modCore k (fun x => { x with latch := (upFrom 0 5).foldl (fun w i => vsetN w i (BitVec.ofNat 64 (nth 0 v i))) x.latch })
    s.retSt c f.rd stOk (vgetN 0 (vget s.cores k).latch (f.sub.toNat % 8))))

end Sys2Proof.Machine
end

