-- ==== Sys2Proof/Machine/DsnEvt.lean ====
section
/-! DEFINITION. The EVT group (R262, R263), the firmware doorbells (R284, R285), and what a program's end leaves (R111, R281, R353, R374,
R391, R460). -/

namespace Sys2Proof.Machine

/-! ### The end of a setup and of a program -/

/-- Every setup bank is discarded (R281, R284): the units are as before their first takeover (R357, R391, R460). -/
def State.discardBanks (s : State) : State :=
  let t := ({ s with banks := Vector.replicate 14 Bank.empty }.sluTakeover).snsEnd.snsRelink
  if s.hasActive unitCis then t.cisNotices s else t

/-- The program ends: its cores are released, its channels stop and its buffers are freed (R281, R353, R374). -/
def State.endProgram (s : State) : State := s.stopProgram.stopProgramChannels.cisRelease

/-- Doorbell 529 of the program in setup (R284). -/
def State.setupDone (s : State) : State :=
  let p := s.take.setup
  ((s.modTake (fun t => { t with setup := none })).moveTake .loaded 0).postOwed p stOk 0

/-- Doorbell 530 of the program in setup (R284). -/
def State.setupFailed (s : State) : State :=
  let p := s.take.setup
  let s := (s.stopProgram.discardBanks).modTake (fun t => { t with setup := none })
  (s.moveTake .idle 0).postOwed p stBadprog 0

/-- The core is one of the program in setup. -/
def State.inSetup (s : State) : Core → Bool
  | .tabor k => s.take.setup.isSome && s.take.cores.getLsbD k.1
  | .bellhouse => false

/-- What the firmware does on a doorbell of the program (R284, R285). -/
def State.doorbell (s : State) (c : Core) (n : Nat) : State :=
  if !s.inSetup c then s
  else if n = 529 then s.setupDone
  else if n = 530 then s.setupFailed
  else s

/-! ### EVT (R262, R263) -/

/-- WAITE: timeout 0 is one attempt; otherwise the core waits until it claims (R263). -/
def State.waitEvent (s : State) (c : Core) (f : FmtX) : State :=
  let t := (s.getD c f.ra).toNat % 2 ^ 32
  let k := s.claimable (coreTarget c)
  if k ≠ 0 then (s.claimSource (coreTarget c) k).retSt c f.rd stOk (BitVec.ofNat 64 k)
  else if t = 0 then s.retSt c f.rd stOk 0
  else s.setRun c (.waiting f.rd (decide (t ≠ 2 ^ 32 - 1)))

/-- WAITE (R262, R263). -/
def execWaite (c : Core) (f : FmtX) (s : State) : Host.Outcome State Fault Refusal :=
  .next (s.runDsn c (fmtXPlain f true true false 0) (fun s => s.waitEvent c f))

/-- WAITE_TIMEOUT (R41, R263): the t-th always-on edge of a wait that has a timeout; a source claimable at it is claimed. -/
def execWaiteTimeout (c : Core) (s : State) : Host.Outcome State Fault Refusal :=
  .next (match s.coreRun c with
    | .waiting rd true =>
      let k := s.claimable (coreTarget c)
      if k ≠ 0 then (s.claimSource (coreTarget c) k).endWait c rd k 0 else s.endWait c rd 0 (BitVec.ofNat 8 stTimeout)
    | _ => s)

/-- DBELL (R262, R285): the doorbell is rung after the instruction is done. -/
def execDbell (c : Core) (f : FmtX) (s : State) : Host.Outcome State Fault Refusal :=
  .next (s.runDsn c (fmtXPlain f false true false 0) (fun s => s.evcAccess c (.dbell c f) (fun s =>
    let n := (s.getD c f.ra).toNat
    if 528 ≤ n ∧ n ≤ 1023 then (((s.putStatus c stOk).nextPc c).raise n).doorbell c n
    else (s.putStatus c stBadarg).nextPc c)))

/-- EVDONE (R262, R402). -/
def execEvdone (c : Core) (f : FmtX) (s : State) : Host.Outcome State Fault Refusal :=
  .next (s.runDsn c (fmtXPlain f false true false 0) (fun s => s.evcAccess c (.evdone c f) (fun s =>
    let n := (s.getD c f.ra).toNat
    if 1 ≤ n ∧ n ≤ 1023 then ((s.putStatus c stOk).nextPc c).complete (coreTarget c) n
    else (s.putStatus c stBadarg).nextPc c)))

end Sys2Proof.Machine
end

