-- ==== Sys2Proof/Machine/MemCtl.lean ====
section
/-! DEFINITION. The memory controller (R319-R336): request queues, the choice of the next command, accesses, refresh, training
sequences and FSP changes, and the scrubber. A command that a channel issues performs the whole access of its request: opening the
rows, moving the line and closing or keeping the rows (log entry 31). -/

namespace Sys2Proof.Machine

/-- Channel `c` serves traffic: installed, its half READY, no entry or switch sequence under way (R331). -/
def State.chanServes (s : State) (c : Nat) : Bool :=
  s.chanThere c && (if c < 16 then s.mc.readyA else s.mc.readyB) && s.mc.training.isNone

/-! ### Requests (R324-R326) -/

/-- Entries of class `k` in a queue. -/
def classCount (q : List DramReq) (k : Nat) : Nat := (q.filter (fun r => r.cls.1 = k)).length

/-- A queue takes one more request of class `k`: its reserved entries are not all in use, or a shared one is free (R324). -/
def queueRoom (q : List DramReq) (k : Nat) : Bool :=
  decide (classCount q k < 8) || decide (sumNat ((upFrom 0 4).map (fun j => classCount q j - 8)) < 32)

/-- The page-policy hint of a request (R326): its own, else the HINT_DEFAULT bit of its owner; true for CLOSE. -/
def State.closeHint (s : State) (i : Initiator) (hint : Option Bool) : Bool :=
  hint.getD (natBit (s.cfg unitMc 32 8) (ownOwner i).1)

/-- The queue of the channel of address `a` takes one more request of class `k` (R324). -/
def State.dramRoom (s : State) (a : Nat) (k : Nat) : Bool := queueRoom (s.chn (s.chanOf a)).queue k

/-- A request enters its channel's queue (R324). Outside the window there is no region (R322); a holder check that fails discards it (R352). -/
def State.dramAccept (s : State) (r : DramReq) : State :=
  if r.addr < s.window ∧ s.touchOk r.ini (.dram r.addr) then s.modChn (s.chanOf r.addr) (fun x => { x with queue := x.queue ++ [r] }) else s

/-- DRAM_REQUEST (R324): Flume holds it while the channel's half is not READY or its queue has no room. -/
def execDramRequest (ini : Initiator) (cls : Fin 4) (addr : BitVec 48) (write : Bool) (enables : BitVec 64) (bytes : List Byte)
    (hint : Option Bool) (s : State) : Host.Outcome State Fault Refusal :=
  let a := addr.toNat
  .next (if a < s.window ∧ !((s.pathNeeds ini a).all s.fnReady && s.dramRoom a cls.1) then
      s.hold ini (s.pathNeeds ini a) none (.dramRequest ini cls addr write enables bytes hint)
    else s.dramAccept { id := none, ini := ini, cls := cls, addr := a, write := write, enables := enables, bytes := bytes, bad := [],
                        close := s.closeHint ini hint, promoted := false })

/-! ### The choice of the next command (R325, R329, R330) -/

/-- Every row the request needs is open. -/
def State.rowsOpen (s : State) (c : Nat) (r : DramReq) : Bool :=
  (s.lineRows r.addr).all (fun p => vgetN none (s.chn c).rows p.1 = some p.2)

/-- Positions of a queue's requests that no earlier request of the same initiator to the same line holds back (R325). -/
def freeOf (q : List DramReq) : List Nat :=
  (upFrom 0 q.length).filter (fun i => match q.drop i with
    | r :: _ => !(q.take i).any (fun p => p.ini = r.ini && p.addr / 64 = r.addr / 64)
    | [] => false)

/-- The request of a channel that satisfies `p` and comes first: the oldest with its row open, else the oldest. -/
def State.pickBy (s : State) (c : Nat) (p : DramReq → Bool) (rowFirst : Bool) : Option Nat :=
  let q := (s.chn c).queue
  let mine := (freeOf q).filter (fun i => (q.drop i).head?.any p)
  let hit := mine.find? (fun i => rowFirst && (q.drop i).head?.any (s.rowsOpen c))
  hit.orElse (fun _ => mine.head?)

/-- The bank that an owed refresh goes to (R329): no open row, no queued request, refreshed longest ago. -/
def State.refreshBank (s : State) (c : Nat) : Option Nat :=
  let x := s.chn c
  ((upFrom 0 16).filter (fun b => decide (0 < vgetN 0 x.owed b) && (vgetN none x.rows b).isNone &&
    !x.queue.any (fun r => (s.lineRows r.addr).any (fun p => p.1 = b)))).foldl (fun best b => match best with
      | none => some b
      | some k => if vgetN 0 x.refreshed b < vgetN 0 x.refreshed k then some b else some k) none

/-- A refresh of bank `b` is issued. -/
def State.refresh (s : State) (c b : Nat) : State :=
  let t := s.mc.refreshClock + 1
  (s.modMc (fun m => { m with refreshClock := t })).modChn c (fun x =>
    { x with rows := vsetN x.rows b none, owed := vmodN x.owed b (· - 1), refreshed := vsetN x.refreshed b t })

/-- A bank that owes 8 refreshes: the forced refresh closes its row (R330). -/
def State.forceRefresh (s : State) (c b : Nat) : State :=
  if 8 ≤ vgetN 0 (s.chn c).owed b then (((s.refresh c b).bump (rMcChRefForced c) 1).orReg rMcStat 0x40).raise 35 else s

/-- What channel `c` does next (R325, R329): a forced refresh, the oldest promoted request, classes A to C, an owed refresh, class D. -/
def State.dramNext (s : State) (c : Nat) : State :=
  if !s.chanServes c then s
  else
    match (upFrom 0 16).find? (fun b => decide (8 ≤ vgetN 0 (s.chn c).owed b)) with
    | some b => s.forceRefresh c b
    | none =>
      let cls := fun (k : Nat) => s.pickBy c (fun r => r.cls.1 = k) true
      match (s.pickBy c (·.promoted) false).orElse (fun _ => (cls 0).orElse (fun _ => (cls 1).orElse (fun _ => cls 2))) with
      | some i => s.perform c i
      | none =>
        match s.refreshBank c with
        | some b => s.refresh c b
        | none => match cls 3 with
          | some i => s.perform c i
          | none => s

/-- DRAM_COMMAND (R325). -/
def execDramCommand (ch : Fin 32) (s : State) : Host.Outcome State Fault Refusal := .next (s.dramNext ch.1)

/-- A request that has waited AGE_LIMIT of its class is promoted, once (R325). -/
def State.promote (s : State) (c i : Nat) : State :=
  match (s.chn c).queue.drop i with
  | r :: _ =>
    if r.promoted then s
    else
      let s := s.modChn c (fun x => { x with queue := modNth (fun r => { r with promoted := true }) x.queue i })
      ((s.bump rMcAgePromo 1).orReg rMcStat 0x80).raise 36
  | [] => s

/-- AGE_PROMOTION (R325): the wait is the sender's. -/
def execAgePromotion (ch : Fin 32) (index : Nat) (s : State) : Host.Outcome State Fault Refusal := .next (s.promote ch.1 index)

/-- Channel `c` is trained and not in self-refresh, so that it owes refreshes and can be tracked. -/
def State.chanRuns (s : State) (c : Nat) : Bool := s.chanThere c && (s.chn c).up && !(s.chn c).selfRefresh

/-- REFRESH_OWED (R329). -/
def execRefreshOwed (ch : Fin 32) (bank : Fin 16) (s : State) : Host.Outcome State Fault Refusal :=
  .next (if s.chanRuns ch.1 then s.modChn ch.1 (fun x => { x with owed := vmodN x.owed bank.1 (· + 1) }) else s)

/-- FORCED_REFRESH (R330). -/
def execForcedRefresh (ch : Fin 32) (bank : Fin 16) (s : State) : Host.Outcome State Fault Refusal :=
  .next (if s.chanServes ch.1 then s.forceRefresh ch.1 bank.1 else s)

/-- MR4_READ (R329): the new rate. -/
def execMr4Read (ch : Fin 32) (rate : BitVec 5) (s : State) : Host.Outcome State Fault Refusal :=
  .next (if s.chanRuns ch.1 then s.modChn ch.1 (fun x => { x with mr4 := rate }) else s)

/-- A tracking operation between sequences (R331): no state of its own; an FSP request that waits is taken at its end (R332). -/
def State.track (s : State) (c : Nat) : State := if s.chanRuns c && s.mc.training.isNone then s.fspTake else s

/-- WCK_OSCILLATOR_READ (R331, R332). -/
def execWckOscillatorRead (ch : Fin 32) (s : State) : Host.Outcome State Fault Refusal := .next (s.track ch.1)

/-- ZQ_LATCH (R331, R332). -/
def execZqLatch (ch : Fin 32) (s : State) : Host.Outcome State Fault Refusal := .next (s.track ch.1)

/-- PAGE_IDLE_CLOSE (R326): the wait is the sender's. -/
def execPageIdleClose (ch : Fin 32) (bank : Fin 16) (s : State) : Host.Outcome State Fault Refusal :=
  .next (s.modChn ch.1 (fun x => { x with rows := vsetN x.rows bank.1 none }))

/-! ### Training (R331-R333, R336) -/

/-- Channel `c` commits: its margins, a threshold where one is below 8 taps (R340, R517). -/
def State.commitChan (s : State) (c : Nat) (r : ChanTrain) : State :=
  let s := s.modChn c (fun x => { x with up := true, selfRefresh := false, margin := r.writeTaps ++ r.readTaps })
  if r.readTaps.toNat < 8 ∨ r.writeTaps.toNat < 8 then s.threshold else s

/-- Channels from `a` on commit. -/
def State.commitChans (s : State) (a : Nat) (rs : List ChanTrain) : State :=
  ((upFrom a rs.length).zip rs).foldl (fun s p => s.commitChan p.1 p.2) s

/-- A half ends its boot sequence, or the switch sequence of its wake (R331, R333, R336). -/
def State.commitHalf (s : State) (h : Nat) (rs : List ChanTrain) : State :=
  let booted := if h = 0 then s.mc.bootedA else s.mc.bootedB
  if !booted && !rs.all (·.pass) then
    s.modMc (fun m => if h = 0 then { m with failedA := true } else { m with failedB := true })
  else
    let s := s.commitChans (16 * h) rs
    if booted then s
    else s.modMc (fun m =>
      let m := { m with trained := m.trained ||| 1, fsp := 0 }
      if h = 0 then { m with bootedA := true } else { m with bootedB := true })

/-- Every channel ends a sequence (R331, R333): an entry sequence that fails is followed by the switch back to the FSP in effect. -/
def State.commitAll (s : State) (t : Training) (rs : List ChanTrain) : State :=
  if t.entry && !rs.all (·.pass) then
    ((s.modMc (fun m => { m with training := some { entry := false, fsp := m.fsp } })).orReg rMcStat 0x20).raise 33
  else
    ((s.commitChans 0 rs).modMc (fun m =>
      { m with training := none, fsp := t.fsp, trained := m.trained ||| BitVec.twoPow 3 t.fsp.1 })).fspTake

/-- The last channel commits the last step (R331); one result for each channel that trains. -/
def State.trainCommit (s : State) (h : Nat) (rs : List ChanTrain) : State :=
  if s.halfTrains h then (if rs.length = 16 then s.commitHalf h rs else s)
  else match s.mc.training with
    | some t => if rs.length = s.nCh then s.commitAll t rs else s
    | none => s

/-- TRAINING_COMMIT (R331). -/
def execTrainingCommit (half : Bool) (results : List ChanTrain) (s : State) : Host.Outcome State Fault Refusal :=
  .next (s.trainCommit (if half then 1 else 0) results)

/-- An FSP request of the power policy (R332): taken at once, or it waits in the place of an earlier one and counts as a deferral. -/
def State.fspRequest (s : State) (f : Fin 3) : State :=
  if s.mc.training.isSome || !s.atBoundary || !s.mcReady then
    (s.modMc (fun m => { m with fspPend := some f })).bump rMcFspDefers 1
  else (s.modMc (fun m => { m with fspPend := none })).fspStart f

/-- FSP_CHANGE (R332). -/
def execFspChange (fsp : Fin 3) (s : State) : Host.Outcome State Fault Refusal := .next (s.fspRequest fsp)

/-! ### The scrubber (R334, R336) -/

/-- Device addresses of the code words of the group that begins at `a` (R321, R323): a grain of 256 B halves the group. -/
def State.groupWords (s : State) (a : Nat) : List Nat :=
  (upFrom 0 32).map (fun i =>
    if s.mc.grainLog2 = 8 ∧ 16 ≤ i then a + 256 * s.nCh + 16 * (i - 16) else a + 16 * i)

/-- The device address of the next group. -/
def State.nextGroup (s : State) (a : Nat) : Nat :=
  if s.mc.grainLog2 ≠ 8 then a + 512
  else if a / 256 % s.nCh + 1 = s.nCh then a + 256 * s.nCh + 256
  else a + 256

/-- A write to the word at `a` is accepted and not yet performed: the write-back is dropped (R334). -/
def State.writeWaits (s : State) (a : Nat) : Bool :=
  (s.chn (s.chanOf a)).queue.any (fun r => r.write && r.addr / 64 = a / 64 && (enabledBytes r (a % 64 / 16)) ≠ [])

/-- The word at `a` is written back: corrected, or poisoned where it is uncorrectable (R304, R334). -/
def scrubWord (m : Store) (a : Nat) : Store :=
  match verdict (m.syndrome (a / 16)) with
  | .dataBit _ => m.write a (m.read a 16)
  | .checkBit => m.setSyn (a / 16) 0
  | .uncorr => m.poison a
  | _ => m

/-- The scrubber reads one word and writes it back; it counts nothing in a segment not kept before the first full pass after wake. -/
def State.scrubOne (s : State) (a : Nat) : State :=
  let v := verdict (s.dram.syndrome (a / 16))
  let quiet := s.mc.scrubQuiet && !s.dramKept a
  let s := if v = .clean ∨ quiet then s else s.noteWords .dram a 16
  if s.writeWaits a then s else { s with dram := scrubWord s.dram a }

/-- One group is scrubbed and the pointer moves on; at the end of the window the pass ends (R334). -/
def State.scrub (s : State) : State :=
  if !(s.mcReady && s.mc.training.isNone) then s
  else
    let a := s.mc.scrubPtr
    let s := (s.groupWords a).foldl (fun s w => s.scrubOne w) s
    let n := s.nextGroup a
    if n < s.window then s.modMc (fun m => { m with scrubPtr := n })
    else (((s.modMc (fun m => { m with scrubPtr := 0, scrubQuiet := false })).modRas (fun r => { r with dramCorr := [] })).orReg
      rMcStat 0x100).raise 37

/-- SCRUB_STEP (R334). -/
def execScrubStep (s : State) : Host.Outcome State Fault Refusal := .next s.scrub

end Sys2Proof.Machine
end

