-- ==== Sys2Proof/Machine/Flume.lean ====
section
/-! DEFINITION. Flume (R376-R385): requests and responses as beats that cross the ingress edge router, the crossbar and the egress edge
router of two networks, their credits and arbitration, and what a request does as its target accepts it. The accesses of the other rows
complete within their row, under the same class A limits (log entry 88). -/

namespace Sys2Proof.Machine

/-! ### Places and credits (R377, R381) -/

/-- The edge router of link `l` (R377). -/
def edgeRouter (l : Fin 64) : Nat := Config.edgeOf l.1 % 8

/-- The output that a beat asks for where it is, distinct for each point: towards the crossbar, towards an edge router, towards a link. -/
def FlumeBeat.output (b : FlumeBeat) : Nat :=
  128 * b.stage.1 + (match b.stage with
    | 0 => edgeRouter b.src
    | 1 => edgeRouter b.dst
    | _ => b.dst.1)

/-- The input buffer that a beat lies in at point `st`: of its link at the ingress router, of the edge router that sent it at the crossbar, and
of the crossbar's link at the egress router. -/
def FlumeBeat.bufferAt (b : FlumeBeat) (st : Nat) : Nat :=
  match st with
  | 0 => b.src.1
  | 1 => edgeRouter b.src
  | _ => edgeRouter b.dst

/-- Beats reserved for each class in an input buffer (R381). -/
def reservedBeats (k : Nat) : Nat := nth 0 [32, 16, 16, 8] k

/-- The shared beats in use among beats of these classes (R381). -/
def sharedUsed (cs : List (Fin 4)) : Nat := sumNat ((upFrom 1 3).map (fun k => (cs.filter (fun c => c.1 = k)).length - reservedBeats k))

/-- An input buffer that holds beats of these classes has a credit of class `k`: a reserved one, or for B to D a shared one (R381). -/
def bufferRoom (cs : List (Fin 4)) (k : Fin 4) : Bool :=
  decide ((cs.filter (fun c => c = k)).length < reservedBeats k.1) || (decide (k ≠ 0) && decide (sharedUsed cs < 32))

/-- The classes of the beats that share the input buffer of `b` at point `st`. -/
def FlumeNet.classesAt (n : FlumeNet) (b : FlumeBeat) (st : Nat) : List (Fin 4) :=
  (n.beats.filter (fun x => decide (x.stage.1 = st) && decide (x.bufferAt st = b.bufferAt st))).map (·.cls)

/-- Requests of class `k` on the links to channel queue of `a`, not yet in the queue. -/
def State.landing (s : State) (a : Nat) : List FlumeBeat :=
  s.flume.req.beats.filter (fun x => decide (x.stage = 3) && decide (s.pointOf x.addr = s.pointOf a))

/-- A beat holds a credit at the next stage (R381): a router's input buffer, or at the egress router an entry of its target: of a memory channel
under R324; every other target has one, as no initiator holds two class A credits for it (R382) and no limit is stated for B to D. -/
def State.nextRoom (s : State) (n : FlumeNet) (isReq : Bool) (b : FlumeBeat) : Bool :=
  if b.stage.1 < 2 then bufferRoom (n.classesAt b (b.stage.1 + 1)) b.cls
  else if isReq then
    match s.region b.addr with
    | .dram a => queueRoom ((s.chn (s.chanOf a)).queue ++ (s.landing b.addr).map (fun x =>
        { id := none, ini := x.ini, cls := x.cls, addr := x.addr, write := x.write, enables := 0, bytes := [], bad := [], close := false,
          promoted := false })) b.cls.1
    | _ => true
  else true

/-! ### Arbitration (R383) -/

def outReset (_ : Nat) : FlumeOut := { aRun := 0, turn := 1, left := 4 }
/-- Weights of classes B, C and D (R383). -/
def classWeight (k : Nat) : Nat := nth 0 [0, 4, 2, 1] k
/-- The class after `k` in the round of B, C and D. -/
def nextClass (k : Fin 4) : Fin 4 := if k = 3 then 1 else if k = 0 then 1 else k + 1

/-- `a` arrived before `b`, or in the same cycle from a lower link (R383). -/
def FlumeBeat.before (a b : FlumeBeat) : Bool := decide (a.came < b.came) || (decide (a.came = b.came) && decide (a.src.1 < b.src.1))

/-- The first of some beats in order of arrival. -/
def earliest : List FlumeBeat → Option FlumeBeat
  | [] => none
  | [b] => some b
  | b :: bs => match earliest bs with
    | some x => some (if x.before b then x else b)
    | none => some b

/-- Weighted round robin among beats of classes B to D: the class whose turn it is, else the next with a beat; and the output after it. -/
def wrr (o : FlumeOut) (bs : List FlumeBeat) : Option FlumeBeat × FlumeOut :=
  let order := [o.turn, nextClass o.turn, nextClass (nextClass o.turn)]
  match order.find? (fun k => bs.any (fun b => b.cls = k)) with
  | none => (none, o)
  | some k =>
    let left := if k = o.turn ∧ o.left ≠ 0 then o.left - 1 else classWeight k.1 - 1
    (earliest (bs.filter (fun b => b.cls = k)),
      if left = 0 then { aRun := 0, turn := nextClass k, left := classWeight (nextClass k).1 } else { aRun := 0, turn := k, left := left })

/-- What an output chooses among the beats that ask for it (R383): class A first, in order of arrival, but not a sixteenth cycle running while
another class waits; and the output after it. -/
def arbitrate (o : FlumeOut) (bs : List FlumeBeat) : Option FlumeBeat × FlumeOut :=
  let a := bs.filter (fun b => b.cls = 0)
  let r := bs.filter (fun b => b.cls ≠ 0)
  if a = [] then wrr o r
  else if r = [] then (earliest a, { o with aRun := 0 })
  else if 15 ≤ o.aRun then wrr o r
  else (earliest a, { o with aRun := o.aRun + 1 })

/-- Beats that can be chosen now at a router: ready, and with a credit at the next stage. -/
def State.movable (s : State) (n : FlumeNet) (isReq : Bool) : List FlumeBeat :=
  n.beats.filter (fun b => decide (b.stage.1 < 3) && decide (b.ready ≤ s.clk.fab) && s.nextRoom n isReq b)

/-- The outputs that these beats ask for. -/
def outputsOf (bs : List FlumeBeat) : List Nat := bs.foldl (fun l b => if l = [] then [b.output] else if l.contains b.output then l else l ++ [b.output]) []

/-- Cycles from being chosen at a point to being ready at the next (R384). -/
def stageDelay (st : Nat) : Nat := nth 4 [4, 3, 4] st

/-- A chosen beat goes to the next stage. -/
def FlumeBeat.advance (b : FlumeBeat) (now : Nat) : FlumeBeat :=
  { b with stage := if b.stage = 0 then 1 else if b.stage = 1 then 2 else 3, came := now, ready := now + stageDelay b.stage.1 }

/-- One cycle of arbitration at every output of a network. -/
def State.arbitrateNet (s : State) (n : FlumeNet) (isReq : Bool) : FlumeNet :=
  match s.movable n isReq with
  | [] => n
  | [b] => { n with beats := n.beats.erase b ++ [b.advance s.clk.fab], outs := mapUpd outReset n.outs b.output (fun o => (arbitrate o [b]).2) }
  | bs => (outputsOf bs).foldl (fun m o =>
      let r := arbitrate (mapGet outReset n.outs o) (bs.filter (fun b => b.output = o))
      match r.1 with
      | some b => { m with beats := m.beats.erase b ++ [b.advance s.clk.fab], outs := mapSet outReset m.outs o r.2 }
      | none => m) n

/-! ### Entering (R31, R378, R380-R382) -/

/-- The interface takes a waiting request: class A under R31 and R382, any class with a credit of the router's input buffer (R381). -/
def State.reqEnters (s : State) (b : FlumeBeat) : Bool :=
  s.routerRefuses b.cls b.addr b.len ||
    ((decide (b.cls ≠ 0) || s.creditFree b.ini (s.pointOf b.addr)) && bufferRoom (s.flume.req.classesAt b 0) b.cls)

/-- A response waits only for the router's input buffer (R377). -/
def State.rspEnters (s : State) (b : FlumeBeat) : Bool := bufferRoom (s.flume.rsp.classesAt b 0) b.cls

/-- The waiting beats that are each first of their issuer and class. -/
def heads : List FlumeBeat → List FlumeBeat
  | [] => []
  | b :: bs => b :: (heads bs).filter (fun x => !(decide (x.ini = b.ini) && decide (x.cls = b.cls) && decide (x.src = b.src)))

/-- Links with waiting beats. -/
def linksOf (bs : List FlumeBeat) : List (Fin 64) := (bs.map (·.src)).eraseDups

/-- What is stored of a response that came back to link `l`. -/
def State.answered (s : State) (l : Fin 64) (id : Nat) (err : Bool) (b : List Byte) : State :=
  { s with flume := { s.flume with answers := mapSet (fun _ => (0, false, [])) s.flume.answers l.1 (id, err, b) } }

/-- Beat `b` is ready at the ingress router two cycles of its link and three of the router after it enters (R384). -/
def FlumeBeat.enter (b : FlumeBeat) (now : Nat) : FlumeBeat := { b with born := now, stage := 0, came := now, ready := now + 5 }

/-- A request enters: refused by the router with an error response (R378), or accepted from its link. -/
def State.reqEnter (s : State) (b : FlumeBeat) : State :=
  let f := s.flume
  if s.routerRefuses b.cls b.addr b.len then
    (({ s with flume := { f with req := { f.req with wait := f.req.wait.filter (fun x => x.id ≠ b.id) } } }.flumeError b.src).answered b.src b.id
      true (List.replicate (if b.write then 0 else b.len) 0))
  else
    let s := { s with flume := { f with req := { f.req with wait := f.req.wait.erase b, beats := f.req.beats ++ [b.enter s.clk.fab] } } }
    if b.first then s.flumeAccept b.src else s

/-- A response enters. -/
def State.rspEnter (s : State) (b : FlumeBeat) : State :=
  let f := s.flume
  { s with flume := { f with rsp := { f.rsp with wait := f.rsp.wait.erase b, beats := f.rsp.beats ++ [b.enter s.clk.fab] } } }

/-- One beat of each link enters in a cycle (R377). -/
def State.enterAll (s : State) (wait : List FlumeBeat) (ok : State → FlumeBeat → Bool) (go : State → FlumeBeat → State) : State :=
  (linksOf wait).foldl (fun s l => match (heads wait).find? (fun b => decide (b.src = l) && ok s b) with
    | some b => go s b
    | none => s) s

/-! ### Acceptance (R30, R31, R324, R385) -/

/-- The measured acceptance time of a class A request (R385): above 80 cycles A_SLOW with source 96. -/
def State.noteAccept (s : State) (b : FlumeBeat) : State :=
  if b.cls ≠ 0 then s
  else
    let t := s.clk.fab - b.born
    let f := s.flume
    let s := { s with flume := { f with aMax := Nat.max f.aMax t,
                                        aMaxLink := mapUpd natZero f.aMaxLink b.src.1 (fun v => Nat.max v t) } }
    if 80 < t then (s.orReg rFlmStat 1).raise 96 else s

/-- The byte enables of a beat on its line. -/
def FlumeBeat.enables (b : FlumeBeat) : BitVec 64 := BitVec.ofNat 64 ((2 ^ b.len - 1) * 2 ^ (b.addr % 64))

/-- The request that a memory channel queues for a beat. -/
def State.beatRequest (s : State) (b : FlumeBeat) : DramReq :=
  { id := some b.id, ini := b.ini, cls := b.cls, addr := b.addr, write := b.write, enables := b.enables,
    bytes := List.replicate (b.addr % 64) 0 ++ b.bytes ++ List.replicate (64 - b.addr % 64 - b.bytes.length) 0,
    bad := b.bad.map (fun a => a % 64 / 16), close := s.closeHint b.ini none, promoted := false }

/-- The error response of a target, as the model counts it at the requesting link (R385). -/
def State.targetError (s : State) (b : FlumeBeat) : State :=
  (s.linkErr b.src).flumeRespond b.id b.ini (s.targetLink b.addr) b.cls b.addr b.len b.write true (List.replicate (if b.write then 0 else b.len) 0) []

/-- The target accepts a beat: a memory channel queues it, any other target performs it and answers (R352, R378, R511). -/
def State.flumeLand (s : State) (b : FlumeBeat) : State :=
  let f := s.flume
  let s := { s with flume := { f with req := { f.req with beats := f.req.beats.erase b } } }.noteAccept b
  let back := fun (s : State) (d : List Byte) (bad : List Nat) =>
    s.flumeRespond b.id b.ini (s.targetLink b.addr) b.cls b.addr b.len b.write false d bad
  match s.region b.addr with
  | .dram _ =>
    if s.touchOk b.ini (.dram b.addr) then s.dramAccept (s.beatRequest b) else if b.write then back s [] [] else s.targetError b
  | r =>
    if b.write then
      let ok := s.touchOk b.ini r
      let x := s.writeAt b.ini b.addr b.bytes
      if x.2 then back (if ok then b.bad.foldl (fun s a => s.poisonAt a 16) x.1 else x.1) [] [] else x.1.targetError b
    else
      let bad := s.badWords b.addr b.len
      let x := s.readAt b.ini b.addr b.len
      match x.2 with
      | .ok d => back x.1 d []
      | .bad d => back x.1 d (bad.map (fun i => b.addr + 16 * i))
      | .refused => x.1.targetError b

/-- A beat on the link to its target can be accepted: it has come, and the functions that it needs are READY (R31, R501). -/
def State.lands (s : State) (b : FlumeBeat) : Bool :=
  decide (b.stage = 3) && decide (b.ready ≤ s.clk.fab) && (s.pathNeeds b.ini b.addr).all s.fnReady

/-- Requests that have come are accepted. -/
def State.landAll (s : State) : State :=
  (s.flume.req.beats.filter s.lands).foldl (fun s b => if s.flume.req.beats.contains b then s.flumeLand b else s) s

/-- Responses that have come are back at their link. -/
def State.returnAll (s : State) : State :=
  (s.flume.rsp.beats.filter (fun b => decide (b.stage = 3) && decide (b.ready ≤ s.clk.fab))).foldl (fun s b =>
    let f := s.flume
    { s with flume := { f with rsp := { f.rsp with beats := f.rsp.beats.erase b } } }.answered b.dst b.id b.err b.bytes) s

/-! ### A cycle -/

/-- Links with a beat of class B to D that waits for a credit (R385). -/
def State.creditWaits (s : State) (n : FlumeNet) (isReq : Bool) (ok : FlumeBeat → Bool) : List (Fin 64) :=
  linksOf ((heads n.wait).filter (fun b => decide (b.cls ≠ 0) && !ok b) ++
    n.beats.filter (fun b => decide (b.cls ≠ 0) && decide (b.stage.1 < 3) && decide (b.ready ≤ s.clk.fab) && !s.nextRoom n isReq b))

/-- One fabric cycle of both networks, while FLUME is READY: beats that have come are accepted, every output chooses, and one beat of each link
enters. -/
def State.flumeTick (s : State) : State :=
  if !s.fnReady 8 then s
  else
    let s := s.landAll.returnAll
    let s := (s.creditWaits s.flume.req true s.reqEnters ++ s.creditWaits s.flume.rsp false s.rspEnters).foldl (fun s l =>
      s.bump (rFlmLinkCreditWait l.1) 1) s
    let s := { s with flume := { s.flume with req := s.arbitrateNet s.flume.req true, rsp := s.arbitrateNet s.flume.rsp false } }
    (s.enterAll s.flume.req.wait State.reqEnters State.reqEnter).enterAll s.flume.rsp.wait State.rspEnters State.rspEnter

/-! ### The command -/

/-- The linePieces of `n` bytes at `a`, none across a 64-byte line; `fuel` of them (R377, R380). -/
def linePieces : Nat → Nat → Nat → List (Nat × Nat)
  | 0, _, _ => []
  | fuel + 1, a, n =>
    if n = 0 then []
    else
      let k := Nat.min n (64 - a % 64)
      (a, k) :: linePieces fuel (a + k) (n - k)

/-- The beats of a request of `len` bytes: one for each piece; of class A each is a request of its own (R380). -/
def State.flumeBeats (s : State) (i : Initiator) (cls : Fin 4) (a : Nat) (write : Bool) (len : Nat) (b : List Byte) (bad : List Nat) :
    List FlumeBeat :=
  let ps := linePieces (len / 64 + 2) a len
  (ps.zip (upFrom 0 ps.length)).map (fun p =>
    { id := s.flume.nextId + (if cls = 0 then p.2 else 0), first := decide (cls = 0) || decide (p.2 = 0), ini := i, src := s.link i,
      dst := s.targetLink p.1.1, cls := cls, addr := p.1.1, len := p.1.2, write := write,
      bytes := if write then (b.drop (p.1.1 - a)).take p.1.2 else [], bad := bad.filter (fun w => w / 64 = p.1.1 / 64), err := false,
      born := s.clk.fab, stage := 0, came := s.clk.fab, ready := s.clk.fab })

/-- FLUME_REQUEST (R31, R376-R383): the words of a write are corrected at the link's receiver, or go on poisoned (R301, R305); the beats wait at
the initiator's interface, which the coming cycles take them from. -/
def State.flumeRequest (s : State) (i : Initiator) (cls : Fin 4) (a : Nat) (write : Bool) (len : Nat) (words : List CodeWord) : State :=
  let rs := if write then words.map readCode else []
  let data := (rs.flatMap (fun r => wordBytes r.1)).drop (a % 16)
  let bad := ((rs.zip (upFrom 0 rs.length)).filter (fun r => r.1.2.bad)).map (fun r => a / 16 * 16 + 16 * r.2)
  let s := s.siteWords siteFlume (rs.map (·.2))
  let beats := s.flumeBeats i cls a write len (data.take len) bad
  { s with flume := { s.flume with nextId := s.flume.nextId + beats.length, req := { s.flume.req with wait := s.flume.req.wait ++ beats } } }

def execFlumeRequest (ini : Initiator) (cls : Fin 4) (addr : BitVec 48) (write : Bool) (data : FlumeData) (s : State) :
    Host.Outcome State Fault Refusal := .next (s.flumeRequest ini cls addr.toNat write data.len data.words)

end Sys2Proof.Machine
end

