-- ==== Sys2Proof/Machine/Kalsal.lean ====
section
/-! DEFINITION. Kalsal Link (R433-R458): receiving and sending flits, training, the packets that arrive for this device, EVT packets
of event targets 6-9 (R396, R448), device time over Kalsal (R450) and enumeration (R454-R456). -/

namespace Sys2Proof.Machine

/-! ### EVT packets out (R396, R447, R448) -/

/-- The port by which a packet for device `d` leaves: to its own ID, the host port, which leads to the host (R277, R452). -/
def State.evtPort (s : State) (d : Nat) : Option (Fin 4) := if d = s.deviceId then s.hostPort else s.routeFrom d none

/-- Requests that wait are accepted while fewer than A_OUT_MAX are outstanding (R448); one whose port is not ACTIVE is not sent, and its
claim is undone (R396, R548). -/
def State.kslPump (s : State) : Nat → State
  | 0 => s
  | n + 1 =>
    match s.ksl.wait with
    | [] => s
    | (p, t, k) :: rest =>
      if s.aOutMax ≤ s.ksl.out.length then s
      else
        let s := s.modKsl (fun x => { x with wait := rest })
        match (s.evtPort p.dst.toNat).filter s.portActive with
        | none => (s.unclaim t k).kslPump n
        | some j => ((s.modKsl (fun x => { x with out := x.out ++ [p.tag] })).kslQueueWith j 4 (some (t, k)) p).kslPump n

def State.kslPumpAll (s : State) : State := s.kslPump (s.ksl.wait.length + 1)

/-- KALSAL_CLAIM (R396): target 6 + t claims its source and sends it with its latest record to EVC_KDEST. -/
def State.kalsalClaim (s : State) (t : Fin 4) : State :=
  let tgt := fin 16 (6 + t.1)
  let dst := (s.reg (rEvcKdest t.1)).toNat % 65536
  let k := s.claimable tgt
  if k = 0 ∨ ((s.evtPort dst).filter s.portActive).isNone then s
  else
    let record := match (s.src k).record with
      | some r => r.image
      | none => List.replicate 16 0
    let p : Packet := { type := 4, rsp := false, bcast := false, host := false, dst := BitVec.ofNat 16 dst,
                        src := BitVec.ofNat 16 s.deviceId, hops := 0, status := 0, tag := s.ksl.nextTag,
                        fields := leBytes 2 k ++ [BitVec.ofNat 8 tgt.1] ++ List.replicate 13 0 ++ record, payload := [], bad := [] }
    ((s.claimSource tgt k).modKsl (fun x => { x with wait := x.wait ++ [(p, tgt, k)], nextTag := x.nextTag + 1 })).kslPumpAll

def execKalsalClaim (t : Fin 4) (s : State) : Host.Outcome State Fault Refusal := .next (s.kalsalClaim t)

/-! ### Flit headers (R438-R440) -/

/-- A plain CRC-32C (R306): no prefix. -/
def crcPlain (b : List Byte) : Word := crcBytes 0xFFFFFFFF b ^^^ 0xFFFFFFFF

/-- A word after correction (R438): corrected data with its check bits, or as carried where it cannot be corrected. -/
def mended (w : CodeWord) : CodeWord :=
  let r := readCode w
  if r.2.bad then w else { data := r.1, chk := codeChk r.1 }

def blankWord : CodeWord := { data := 0, chk := 0 }
/-- The 288 bytes of code words 0-15. -/
def flitBody (ws : List CodeWord) : List Byte :=
  ((ws ++ List.replicate 16 blankWord).take 16).flatMap (fun w => wordBytes w.data ++ leBytes 2 w.chk.toNat)

def headSound (f : Flit) : Bool := decide (f.hdr.length = 32) && decide ((crcPlain (f.hdr.take 24)).toNat = leAt f.hdr 24 4)
def bodySound (f : Flit) : Bool :=
  decide ((crcPlain (f.hdr.take 28 ++ flitBody (f.words.map mended))).toNat = leAt f.hdr 28 4)

/-- Sequence number `q` is at or before `a`, within the replay window. -/
def upTo (q a : Half) : Bool := decide ((a - q).toNat < 32768)

/-- An acknowledgement up to `a` empties the replay buffer so far, and completes the sources whose EVT it covers (R396, R439). -/
def State.kslAck (s : State) (k : Fin 4) (a : Half) : State :=
  let x := s.kslPort k
  let done := x.replay.filter (fun e => upTo e.1 a)
  let rest := x.replay.filter (fun e => !upTo e.1 a)
  let again := match x.resend with
    | some q => if upTo q a then rest.head?.map (·.1) else some q
    | none => none
  let s := s.modPort k (fun x => { x with replay := rest, resend := again })
  (done.filterMap (·.2.event)).foldl (fun s e => s.complete e.1 e.2) s

/-- Credits that the peer has freed since, modulo 256 (R438, R442). -/
def State.kslCredits (s : State) (k : Fin 4) (hdr : List Byte) : State :=
  (upFrom 0 4).foldl (fun s v => s.modPort k (fun x =>
    let old := vgetN 0 x.peerFreed v
    { x with peerFreed := vsetN x.peerFreed v (old + (leAt hdr (10 + v) 1 + 256 - old % 256) % 256) })) s

/-- What a sound header tells the transmitter: acknowledgement, credits, a NAK, a request to retrain (R438-R441). -/
def State.kslHeader (s : State) (k : Fin 4) (hdr : List Byte) : State :=
  let a := BitVec.ofNat 16 (leAt hdr 6 2)
  let s := (s.kslAck k a).kslCredits k hdr
  let s := if natBit (leAt hdr 8 1) 0 then s.modPort k (fun x => { x with resend := x.replay.head?.map (·.1) }) else s
  if natBit (leAt hdr 2 1) 2 then s.retrain k else s

/-! ### Arriving packets (R440-R445, R452) -/

/-- A word of a packet header with the hop count raised (R452). -/
def hopWords (ws : List CodeWord) : List CodeWord :=
  match ws with
  | w :: r =>
    let b := wordData w
    let g := goodWord (b.take 6 ++ [nth 0 b 6 + 1] ++ b.drop 7)
    (if (readCode w).2.bad then poisonWord g else g) :: r
  | [] => []

/-- A flit of a packet that crosses this device goes on by port `j` (R443, R452). -/
def State.kslPass (s : State) (k j : Fin 4) (held : Option (Fin 4)) (vc : Nat) (sop eop : Bool) (ws : List CodeWord) : State :=
  let f : TxFlit := { vc := vc, origin := k.1, held := held, sop := sop, eop := eop, words := if sop then hopWords ws else ws, event := none }
  s.modPort j (fun x => { x with txq := x.txq ++ [f] })

/-- A broadcast MSG goes out by every down port but the one it came by, and by the up port (R452, R548). -/
def State.kslFlood (s : State) (k : Fin 4) (vc : Nat) (ws : List CodeWord) : State :=
  (allPorts.filter (fun j => decide (j ≠ k) && (decide (s.kslDir j.1 = 1) || decide (s.upPort = some j)))).foldl (fun s j =>
    if s.portActive j then s.kslPass k j none vc true true ws else s.routeDrop) s

/-- A request: it is owed a response (R445). -/
def Packet.isRequest (p : Packet) : Bool := !p.rsp && (decide (p.type = 1) || decide (p.type = 2) || decide (p.type = 4))

/-- Where the packet that a SOP flit opens goes (R445, R452, R548). -/
def State.kslRouteIn (s : State) (k : Fin 4) (vc : Nat) (eop : Bool) (ws : List CodeWord) : State × RxRoute :=
  match packetOf ws with
  | none => (s.routeDrop, .nowhere)
  | some p =>
    if !p.formed vc (headLength ws) ∨ (s.portUnused k ∧ p.type ≠ 6 ∧ p.type ≠ 7) ∨ (p.bcast ∧ !eop) then (s.routeDrop, .nowhere)
    else if p.type = 6 ∨ p.type = 7 then (s, .here)
    else if p.bcast then (s.kslFlood k vc ws, .here)
    else if p.dst.toNat = s.deviceId then
      (if p.host ∧ p.rsp then (match s.hostPort.filter s.portActive with
        | some j => (s, .onward j)
        | none => (s.routeDrop, .nowhere))
      else (s, .here))
    else if s.hopLimit ≤ p.hops then
      (let s := s.routeDrop
       if p.isRequest then s.kslSend (p.answer s.deviceId stLoop [] []) else s, .nowhere)
    else match (s.routeFrom p.dst.toNat (some k)).filter s.portActive with
      | some j => (s, .onward j)
      | none => (s.routeDrop, .nowhere)

/-- A packet for this device is whole (R444, R445): it lands, or its length breaks the table. -/
def State.kslLand (s : State) (k : Fin 4) (ws : List CodeWord) : State :=
  let n := headLength ws
  match packetOf ws with
  | none => s.routeDrop
  | some p =>
    if ceilDiv (64 + n) 16 ≤ ws.length ∧ ws.length ≤ 16 * ceilDiv (64 + n) 256 then
      s.modPort k (fun x => { x with rxq := x.rxq ++ [(p, s.clk.ns)] })
    else s.routeDrop

/-- An accepted flit joins its packet (R442, R444, R452): for this device, on by another port, or nowhere. -/
def State.kslTake (s : State) (k : Fin 4) (vc : Nat) (sop eop : Bool) (ws : List CodeWord) : State :=
  let start := if sop then
      let r := s.kslRouteIn k vc eop ws
      (r.1, r.2, [])
    else match mapGet noPartial (s.kslPort k).partials vc with
      | some (r, acc) => (s, r, acc)
      | none => (s.routeDrop, .nowhere, [])
  let s := start.1
  let acc := start.2.2 ++ (if start.2.1 = .here then ws else [])
  let s := match start.2.1 with
    | .onward j => s.kslPass k j (some k) vc sop eop ws
    | .here => if eop then (s.freeFlit (some k) vc).kslLand k acc else s.freeFlit (some k) vc
    | .nowhere => s.freeFlit (some k) vc
  s.modPort k (fun x => { x with partials := mapSet noPartial x.partials vc (if eop then none else some (start.2.1, acc)) })

/-- Flit e is accepted (R440): e advances. -/
def State.kslAccept (s : State) (k : Fin 4) (hdr : List Byte) (ws : List CodeWord) : State :=
  let s := s.modPort k (fun x => { x with rxSeq := x.rxSeq + 1, faulty := 0, nak := false, awaited := false })
  s.kslTake k (leAt hdr 1 1 % 4) (natBit (leAt hdr 2 1) 0) (natBit (leAt hdr 2 1) 1) (ws.take (leAt hdr 3 1))

/-- A discarded flit (R440). -/
def State.kslDiscard (s : State) (k : Fin 4) : State := s.bump (rKslDiscards k.1) 1

/-- A flit that is neither accepted nor a duplicate (R440, R441): discarded with a NAK; the fourth faulty copy of e is accepted poisoned or
starts a retrain, with the link-error event. -/
def State.kslReject (s : State) (k : Fin 4) (f : Flit) (ws : List CodeWord) (uncorr : Bool) : State :=
  let x := s.kslPort k
  let mine := headSound f && decide (leAt f.hdr 4 2 = x.rxSeq.toNat)
  let copy := (mine && (!(bodySound f) || uncorr)) || !(headSound f)
  if copy ∧ 3 ≤ x.faulty then
    if mine && uncorr then
      let s := ((s.bump (rKslPoison k.1) 1).orReg (rKslPortStat k.1) 0x80).modPort k (fun x => { x with retrainReq := true })
      ((s.kslHeader k f.hdr).kslAccept k f.hdr (ws.map (fun w => if (readCode w).2 = .uncorr then poisonWord w else mended w))).raise (kslSource k 1)
    else (((s.kslDiscard k).modPort k (fun x => { x with faulty := 0, nak := true })).retrain k).raise (kslSource k 1)
  else (s.kslDiscard k).modPort k (fun x => { x with nak := true, faulty := if copy then x.faulty + 1 else x.faulty })

/-- KSL_FLIT_RECEIVE (R438-R442): words are corrected here, before they land or go on by another port (R301). -/
def State.flitReceive (s : State) (k : Fin 4) (f : Flit) : State :=
  if !s.portActive k then s
  else
    let ws := f.words.take 16
    let vs := ws.map (fun w => (readCode w).2)
    let s := s.siteWords siteKalsal vs
    let uncorr := vs.any (· = .uncorr)
    let sound := headSound f && bodySound f
    let e := (s.kslPort k).rxSeq
    let q := BitVec.ofNat 16 (leAt f.hdr 4 2)
    if leAt f.hdr 0 1 ≠ 1 then (if sound ∧ leAt f.hdr 0 1 = 0 then s.kslHeader k f.hdr else s.kslDiscard k)
    else if sound && !uncorr && decide (q = e) then (s.kslHeader k f.hdr).kslAccept k f.hdr (ws.map mended)
    else
      let s := if sound then s.kslHeader k f.hdr else s
      if 1 ≤ (e - q).toNat ∧ (e - q).toNat ≤ 512 then s.kslDiscard k else s.kslReject k f ws uncorr

def execKslFlitReceive (port : Fin 4) (flit : Flit) (s : State) : Host.Outcome State Fault Refusal := .next (s.flitReceive port flit)

/-- NAK_REPEAT (R440): e has not arrived 500 ns after the NAK. -/
def execNakRepeat (port : Fin 4) (s : State) : Host.Outcome State Fault Refusal :=
  .next (if s.portActive port && (s.kslPort port).awaited then s.modPort port (fun x => { x with nak := true }) else s)

/-! ### Sending (R434, R439, R442, R443) -/

/-- The 320 bytes of a marker: each lane sends 0xC3, its map position and 38 bytes of 0x3C; byte i goes on position i mod 8 (R434). -/
def markerBytes : List Byte :=
  (upFrom 0 320).map (fun i => if i < 8 then 0xC3 else if i < 16 then BitVec.ofNat 8 (i % 8) else 0x3C)

/-- A step of the scrambler x^31 + x^28 + 1 (R434): the bit that it gives, shifted in at the bottom (log entry 112). -/
def scrStep (x : BitVec 31) : BitVec 31 := polyStep 28 x

/-- The next byte of the scrambler, its first bit in bit 7, and the register after it. -/
def scrNext (x : BitVec 31) : Byte × BitVec 31 :=
  let y := scrStep (scrStep (scrStep (scrStep (scrStep (scrStep (scrStep (scrStep x)))))))
  (y.extractLsb' 0 8, y)

/-- The register of map position `l` after `n` scrambled bytes (R434). -/
def scrAfter (l : Nat) : Nat → BitVec 31
  | 0 => BitVec.ofNat 31 (0x7FFFFFFF ^^^ (l * 0x01010101))
  | n + 1 => (scrNext (scrAfter l n)).2

/-- Bytes XORed with the scrambler from register `x` on. -/
def scramble (x : BitVec 31) : List Byte → List Byte
  | [] => []
  | b :: bs => (b ^^^ (scrNext x).1) :: scramble (scrNext x).2 bs

/-- What map position `l` carries of the 320 bytes last put on the wire (R434): bytes l, l + 8, ...; a flit's are scrambled, a marker's are not. -/
def KslPort.lane (x : KslPort) (l : Nat) : List Byte :=
  let mine := (upFrom 0 40).map (fun i => nth 0 x.wire (8 * i + l))
  if x.wire.head? = some 0xC3 then mine else scramble (scrAfter l (x.scrambled - 40)) mine

/-- A byte as four PAM4 symbols, bits 7 and 6 first, Gray-coded (R434). -/
def pam4 (b : Byte) : List Int :=
  [3, 2, 1, 0].map (fun i => nth 0 [-3, -1, 3, 1] (b.toNat / 4 ^ i % 4))

/-- The wire bytes of a flit with the port's present acknowledgement and credits (R438, R439). -/
def KslPort.flitBytes (x : KslPort) (data : Bool) (seq : Half) (f : TxFlit) : List Byte :=
  let flags := (if f.sop then 1 else 0) + (if f.eop then 2 else 0) + (if x.retrainReq then 4 else 0)
  let h := [if data then 1 else 0, BitVec.ofNat 8 f.vc, BitVec.ofNat 8 flags, BitVec.ofNat 8 f.words.length] ++ leBytes 2 seq.toNat ++
    leBytes 2 (x.rxSeq - 1).toNat ++ [if x.nak then 1 else 0, 0] ++ (upFrom 0 4).map (fun v => BitVec.ofNat 8 (vgetN 0 x.freed v)) ++
    List.replicate 10 0
  let h := h ++ leBytes 4 (crcPlain h).toNat
  let body := flitBody f.words
  h ++ leBytes 4 (crcPlain (h ++ body)).toNat ++ body

/-- A flit goes on the wire: a NAK due has been sent and its flit is awaited; after RETRAIN_REQ the port retrains (R440, R441). -/
def State.kslWire (s : State) (k : Fin 4) (data : Bool) (seq : Half) (f : TxFlit) : State :=
  let req := (s.kslPort k).retrainReq
  let s := s.modPort k (fun x => { x with wire := x.flitBytes data seq f, scrambled := x.scrambled + 40, sinceMarker := x.sinceMarker + 1
                                          awaited := x.awaited || x.nak, nak := false, retrainReq := false })
  if req then s.retrain k else s

/-- The transmitter holds a credit of the VC, and the replay buffer has room (R439, R442). -/
def State.kslCredit (s : State) (k : Fin 4) (vc : Nat) : Bool :=
  let x := s.kslPort k
  decide (vgetN 0 x.sent vc < vgetN 0 x.peerFreed vc + s.kslCred k vc) && decide (x.replay.length < 512)

/-- Origins in their order: local, then the ports (R443). -/
def originAt (i : Nat) : Nat := if i = 0 then 4 else i - 1

/-- The flit that VC `vc` sends next: of the packet being sent, else of the origin whose turn it is (R443). -/
def KslPort.nextFlit (x : KslPort) (vc : Nat) : Option TxFlit :=
  match vgetN none x.txCur vc with
  | some o => x.txq.find? (fun f => decide (f.vc = vc) && decide (f.origin = o))
  | none =>
    let order := (rotate (vgetN 0 x.txTurn vc) (upFrom 0 5)).map originAt
    (order.find? (fun o => x.txq.any (fun f => decide (f.vc = vc) && decide (f.origin = o)))).bind (fun o =>
      x.txq.find? (fun f => decide (f.vc = vc) && decide (f.origin = o)))

/-- The list without its first member that equals `a`. -/
def eraseFirst (a : TxFlit) : List TxFlit → List TxFlit
  | [] => []
  | x :: r => if x = a then r else x :: eraseFirst a r

/-- TIME packets are stamped as their flit leaves: SYNC carries the time, DELAY_REQ's is kept (R450). -/
def State.timeStamp (s : State) (k : Fin 4) (f : TxFlit) : State × TxFlit :=
  let h := (f.words.take 4).flatMap wordData
  if f.vc ≠ 2 ∨ !f.sop ∨ leAt h 0 1 ≠ 6 then (s, f)
  else match leAt h 16 1 with
    | 0 =>
      let w := (wordData (nth blankWord f.words 1)).take 8 ++ leBytes 8 s.clk.ns.toNat
      (s, { f with words := f.words.take 1 ++ [goodWord w] ++ f.words.drop 2 })
    | 1 => (s.modPort k (fun x => { x with t3 := s.clk.ns }), f)
    | _ => (s, f)

/-- A data flit is sent and held for replay (R439, R442). -/
def State.kslData (s : State) (k : Fin 4) (f0 : TxFlit) : State :=
  let r := s.timeStamp k f0
  let f := r.2
  let x := s.kslPort k
  let o := if f.origin = 4 then 0 else f.origin + 1
  let s := r.1.modPort k (fun x => { x with
    txq := eraseFirst f0 x.txq, txSeq := x.txSeq + 1, replay := x.replay ++ [(x.txSeq, f)], sent := vmodN x.sent f.vc (· + 1)
    txCur := vsetN x.txCur f.vc (if f.eop then none else some f.origin)
    txTurn := if f.eop then vsetN x.txTurn f.vc ((o + 1) % 5) else x.txTurn
    rr := if f.vc = 2 then (if x.rr = 0 then 1 else if x.rr = 1 then 2 else 1) else if f.vc = 3 then 0 else x.rr })
  (s.freeFlit f.held f.vc).kslWire k true x.txSeq f

/-- The order of the VCs (R443): A-response, A-request, then B and C by weights 2 and 1. -/
def KslPort.vcOrder (x : KslPort) : List Nat := [1, 0] ++ (if x.rr < 2 then [2, 3] else [3, 2])

/-- KSL_FLIT_TRANSMIT (R443): the first that is ready of marker, replay, data by class, IDLE. -/
def State.flitTransmit (s : State) (k : Fin 4) : State :=
  let s := s.kslPumpAll
  let x := s.kslPort k
  if !s.portActive k then s
  else if 8192 ≤ x.sinceMarker then s.modPort k (fun x => { x with wire := markerBytes, sinceMarker := 0 })
  else match x.resend.bind (fun q => x.replay.find? (fun e => e.1 = q)) with
    | some (q, f) =>
      let next := (x.replay.find? (fun e => e.1 = q + 1)).map (·.1)
      ((s.modPort k (fun x => { x with resend := next })).bump (rKslRetries k.1) 1).kslWire k true q f
    | none => match x.vcOrder.find? (fun v => s.kslCredit k v && (x.nextFlit v).isSome) with
      | some v => match x.nextFlit v with
        | some f => s.kslData k f
        | none => s
      | none => s.kslWire k false 0 { vc := 0, origin := 4, held := none, sop := false, eop := false, words := [], event := none }

def execKslFlitTransmit (port : Fin 4) (s : State) : Host.Outcome State Fault Refusal := .next (s.flitTransmit port)

/-! ### Training (R435-R437) -/

/-- What Bellhouse makes of a lane's eye height (R515, R517). -/
def State.kslEye (s : State) (k : Fin 4) (eye : Byte) (lane : Nat) : State :=
  let s := if eye.toNat < 20 then s.threshold else s
  if eye.toNat < 12 then s.propose 4 (16 * k.1 + lane) 3 eye.toNat else s

/-- CONFIG completes (R435, R436): ACTIVE with the peer it reported, or DOWN with DELAY_FAIL. -/
def State.kslConfig (s : State) (k : Fin 4) (c : KslConfig) : State :=
  if 5000 < c.delayPs then (s.orReg (rKslPortStat k.1) 0x100).trainFail k
  else (s.modPort k (fun x => { x with retraining := false, scrambled := 0, peerAdapter := c.adapter, peerId := c.deviceId, peerPort := c.port })).setLink k .active

/-- KSL_TRAINING_STEP (R435). -/
def State.trainStep (s : State) (k : Fin 4) (eye : Byte) (lane : Fin 9) (c : KslConfig) : State :=
  match (s.kslPort k).st with
  | .detect => s.setLink k .equalize
  | .equalize => ((s.modPort k (fun x => { x with worstEye := eye, worstLane := lane })).setLink k .align).kslEye k eye lane.1
  | .align => s.setLink k .config
  | .config => s.kslConfig k c
  | _ => s

def execKslTrainingStep (port : Fin 4) (worstEye : Byte) (worstLane : Fin 9) (cfg : KslConfig) (s : State) :
    Host.Outcome State Fault Refusal := .next (s.trainStep port worstEye worstLane cfg)

/-- A training state is under way. -/
def KslPort.training (x : KslPort) : Bool := decide (x.st ≠ .down) && decide (x.st ≠ .active)

/-- KSL_TRAINING_TIMEOUT (R436, R515). -/
def State.trainTimeout (s : State) (k : Fin 4) (laneFailed : Bool) : State :=
  let x := s.kslPort k
  if !x.training then s
  else
    let s := if laneFailed then (s.orReg (rKslPortStat k.1) 0x20).propose 4 (16 * k.1 + x.worstLane.1) 5 1 else s
    s.trainFail k

def execKslTrainingTimeout (port : Fin 4) (laneFailed : Bool) (s : State) : Host.Outcome State Fault Refusal :=
  .next (s.trainTimeout port laneFailed)

/-- KSL_TRAINING_RETRY (R433, R436): a full training starts from DOWN, with the lane map as last rewritten, while the take lets it. -/
def execKslTrainingRetry (port : Fin 4) (s : State) : Host.Outcome State Fault Refusal :=
  .next (if (s.kslPort port).st = .down ∧ s.hdg.ready.getLsbD 19 ∧ !s.takeActive then
      (s.modPort port (fun x => { x.clear with laneMap := x.nextMap })).setLink port .detect
    else s)

/-- KSL_LINK_LOSS (R458). -/
def execKslLinkLoss (port : Fin 4) (s : State) : Host.Outcome State Fault Refusal := .next (s.linkDown port)

/-! ### Packets for this device (R446-R450) -/

/-- The oldest packet that arrived on port `k` for this device, when it is of the kind asked for. -/
def State.arrived (s : State) (k : Fin 4) (p : Packet → Bool) : Option (Packet × DWord) := (s.kslPort k).rxq.head?.filter (fun e => p e.1)
def State.dropArrived (s : State) (k : Fin 4) : State := s.modPort k (fun x => { x with rxq := x.rxq.drop 1 })

/-- Do `f` with the oldest packet of port `k` when it is of the kind asked for; the packet is taken. -/
def State.onArrived (s : State) (k : Fin 4) (p : Packet → Bool) (f : State → Packet → DWord → State) : State :=
  match s.arrived k p with
  | some e => f (s.dropArrived k) e.1 e.2
  | none => s

/-- The access a remote request asks for is one that reaches its target (R446, R499, R507, R508). -/
def State.remoteAllowed (s : State) (k : Fin 4) (write : Bool) (a n : Nat) : State × Bool :=
  let l := s.link (.kalsal k)
  if 64 < a % 64 + n then (s, false)
  else if !s.mpmAllows true write a then (s.mpmDeny true write l.1 a, false)
  else if s.routerRefuses 0 a n then (s.flumeError l, false)
  else (s.flumeAccept l, true)

/-- The remote request of type `t` that arrived first on port `k` is taken once its access can be accepted; until then it waits (R31, R501). -/
def State.onRequest (s : State) (k : Fin 4) (t : Nat) (c : Instr) (f : State → Packet → State) : State :=
  match s.arrived k (fun p => decide (p.type = t) && !p.rsp) with
  | some e => s.access (.kalsal k) (e.1.field 16 8) c (fun s => f (s.dropArrived k) e.1)
  | none => s

/-- MEM_RD (R446). -/
def State.remoteRead (s : State) (k : Fin 4) (p : Packet) : State :=
  let a := p.field 16 8
  let n := p.field 24 2
  let g := s.remoteAllowed k false a n
  let s := g.1
  if !g.2 then s.kslSend (p.answer s.deviceId stBadarg [] [])
  else
    let bad := s.badWords a n
    let r := s.readAt (.kalsal k) a n
    match r.2 with
    | .ok b => r.1.kslSend (p.answer s.deviceId stOk b [])
    | .bad b => r.1.kslSend (p.answer s.deviceId stUncorrectable b bad)
    | .refused => (r.1.linkErr (s.link (.kalsal k))).kslSend (p.answer s.deviceId stBadarg [] [])

def execMemRd (port : Fin 4) (s : State) : Host.Outcome State Fault Refusal :=
  .next (s.onRequest port 1 (.memRd port) (fun s p => s.remoteRead port p))

/-- Poisoned payload words leave the words they are written to poisoned (R304). -/
def State.poisonPayload (s : State) (a n : Nat) (bad : List Nat) : State :=
  bad.foldl (fun s i => s.poisonAt (a + 16 * i) (Nat.min 16 (n - 16 * i))) s

/-- MEM_WR (R446). -/
def State.remoteWrite (s : State) (k : Fin 4) (p : Packet) : State :=
  let a := p.field 16 8
  let n := p.payload.length
  let g := s.remoteAllowed k true a n
  let s := g.1
  if !g.2 then s.kslSend (p.answer s.deviceId stBadarg [] [])
  else
    let held := s.touchOk (.kalsal k) (s.region a)
    let r := s.writeAt (.kalsal k) a p.payload
    if r.2 then (if held then r.1.poisonPayload a n p.bad else r.1).kslSend (p.answer s.deviceId stOk [] [])
    else (r.1.linkErr (s.link (.kalsal k))).kslSend (p.answer s.deviceId stBadarg [] [])

def execMemWr (port : Fin 4) (s : State) : Host.Outcome State Fault Refusal :=
  .next (s.onRequest port 2 (.memWr port) (fun s p => s.remoteWrite port p))

/-- An arrival is written to the MSG ring with the port's arrival event, or is lost in a full ring (R447); whether it was written. -/
def State.msgRing (s : State) (k : Fin 4) (src : Half) (flow : Nat) (b : List Byte) (bad : List Nat) : State × Bool :=
  let prod := s.ksl.msgProd % 64
  let cons := (s.reg rKslMsgCons).toNat % 64
  if (prod + 1) % 64 = cons then ((s.orReg rKslStat 2).bump rKslMsgLost 1, false)
  else
    let a := s.msgBase + 256 * prod
    let head := leBytes 2 src.toNat ++ [BitVec.ofNat 8 flow, 0] ++ leBytes 2 b.length ++ List.replicate 10 0
    let s := ((s.poke a (head ++ b)).poisonPayload (a + 16) b.length bad).modKsl (fun x => { x with msgProd := (prod + 1) % 64 })
    (s.raise (kslSource k 3), true)

/-- MSG (R447). -/
def execMsg (port : Fin 4) (s : State) : Host.Outcome State Fault Refusal :=
  .next (s.onArrived port (fun p => decide (p.type = 3)) (fun s p _ => (s.msgRing port p.src (p.field 16 1) p.payload p.bad).1))

/-- EVT (R447): passed to the host, or written to the MSG ring with flow 0xFF and answered. -/
def State.evtArrive (s : State) (k : Fin 4) (p : Packet) : State :=
  match s.hostPort with
  | some j => if s.portActive j then s.kslQueue j k.1 p else s.routeDrop
  | none =>
    let r := s.msgRing k p.src 0xFF ((p.fields.drop 16).take 16) []
    if r.2 then r.1.kslSend (p.answer s.deviceId stOk [] []) else r.1

def execEvt (port : Fin 4) (s : State) : Host.Outcome State Fault Refusal :=
  .next (s.onArrived port (fun p => decide (p.type = 4) && !p.rsp) (fun s p _ => s.evtArrive port p))

/-- KSL_RESPONSE (R448, R457): of an outstanding request, or late. -/
def execKslResponse (port : Fin 4) (s : State) : Host.Outcome State Fault Refusal :=
  .next (s.onArrived port (fun p => p.rsp && (decide (p.type = 1) || decide (p.type = 2) || decide (p.type = 4))) (fun s p _ =>
    if s.ksl.out.contains p.tag then
      (s.modKsl (fun x => { x with out := x.out.filter (fun r => r ≠ p.tag) })).kslPumpAll
    else s.orReg rKslStat 8))

/-- REMOTE_REQUEST_TIMEOUT (R457): the request ends; its source waits for the acknowledgement or the discard (R396). -/
def execRemoteRequestTimeout (tag : Half) (s : State) : Host.Outcome State Fault Refusal :=
  .next (if s.ksl.out.contains tag then
      (((s.modKsl (fun x => { x with out := x.out.filter (fun r => r ≠ tag) })).orReg rKslStat 4).bump rKslRmtTimeouts 1).kslPumpAll
    else s)

/-! ### REF_TILE (R113, R449) -/

/-- The source that a REF_TILE comes from. -/
def State.refSource (s : State) (p : Packet) : Option (Fin 4) :=
  let r := s.active unitRef
  allPorts.find? (fun j => decide (j.1 < refNSrc r) && decide (refSrcDevice r j.1 = p.src.toNat))

/-- The slot of a peer picture. -/
def State.peerSlot (s : State) (j : Fin 4) (pic : Word) : Option (Fin 16) :=
  allSlots.find? (fun i => (s.slot i).peer && decide ((s.slot i).source = some j) && decide ((s.slot i).picture = pic))

/-- The geometry and payload of R113's third condition. -/
def State.refGeometry (s : State) (p : Packet) : Bool :=
  let c := s.active unitCode
  decide (p.field 32 2 = codeWidth c) && decide (p.field 34 2 = codeHeight c) && decide (p.field 36 1 = codeDepth c) &&
    decide (p.field 37 1 = codePeriod c) && decide (p.field 38 1 = codeExposures c) && decide (p.field 18 2 < tilesN c) &&
    decide (p.payload.length = 2 * tilePhotosites c (p.field 18 2))

/-- The picture of source `j` is abandoned (R113). -/
def State.refAbandoned (s : State) (j : Fin 4) (pic : Word) (ptp : DWord) : Bool := s.lateViews.contains (j, pic) || s.windowPassed j.1 ptp

/-- The tile check value of the carried samples (R113, R310). -/
def State.refCheck (s : State) (p : Packet) : Bool :=
  let c := s.active unitCode
  let t := p.field 18 2
  let v := playEnv c t [] (fun _ _ _ _ => 0)
  let planes := (upFrom 0 v.planes).map (v.planeOf (halves p.payload))
  decide (p.bad = []) && decide ((v.reconCheck p.src.toNat t (p.field 20 4) planes).toNat = p.field 40 4)

/-- A refused REF_TILE (R449). -/
def State.refRefuse (s : State) (k : Fin 4) (cause : Nat) : State :=
  (s.bump (rKslReftDiscards k.1) 1).setReg (rKslReftCause k.1) (BitVec.ofNat 32 cause)

/-- An accepted tile is written into slot `i`; the picture's last makes it VIEW_IN (R108, R449). -/
def State.refWrite (s : State) (k : Fin 4) (i : Fin 16) (p : Packet) : State :=
  let t := p.field 18 2
  let s := (s.writeSlotTile i t (halves p.payload)).modSlot i (fun x => { x with accepted := x.accepted ++ [t], port := k })
  if tilesN (s.active unitCode) ≤ (s.slot i).accepted.length then
    ({ s with wholeViews := s.wholeViews ++ ((s.slot i).source.map (fun j => (j, (s.slot i).picture))).toList }.modSlot i
      (fun x => { x with mark := .viewIn })).raise (kslSource k 2)
  else s

/-- REF_TILE (R113): the conditions in their order; a second copy of an accepted tile, of a picture whose slot has been MARKed too, is cause 6. -/
def State.refTile (s : State) (k : Fin 4) (p : Packet) : State :=
  let r := s.active unitRef
  let pic := BitVec.ofNat 32 (p.field 20 4)
  let ptp := BitVec.ofNat 64 (p.field 24 8)
  let t := p.field 18 2
  match s.refSource p with
  | none => s.refRefuse k 1
  | some j =>
    if p.field 16 2 ≠ refSrcRank r j.1 ∨ codeRank (s.active unitCode) ≤ p.field 16 2 then s.refRefuse k 2
    else if !s.refGeometry p then s.refRefuse k 3
    else if s.refAbandoned j pic ptp then s.refRefuse k 7
    else if !s.refCheck p then
      ({ s with freeCount := s.freeCount + 1 }.refRefuse k 4).raiseRec (kslSource k 2) (Config.unstated 18 s.freeCount) stIntegrity t pic.toNat
        (Config.unstated 19 s.freeCount)
    else match s.peerSlot j pic with
      | some i => if (s.slot i).mark = .viewIn ∨ (s.slot i).accepted.contains t then s.refRefuse k 6 else s.refWrite k i p
      | none =>
        if s.wholeViews.contains (j, pic) then s.refRefuse k 6 else
        let mine := (s.slotsWhere (fun x => x.peer && decide (x.source = some j))).length
        match (if mine < 2 then (s.slotsWhere (fun x => decide (x.mark = .unused))).head? else none) with
        | none => s.refRefuse k 5
        | some i => (s.modSlot i (fun x => { x with
            mark := .pendingIn, current := false, prevTake := false, device := p.src, picture := pic, source := some j, ptp := ptp
            accepted := [], sends := 0, final := false, port := k })).refWrite k i p

def execRefTile (port : Fin 4) (s : State) : Host.Outcome State Fault Refusal :=
  .next (s.onArrived port (fun p => decide (p.type = 5)) (fun s p _ => s.refTile port p))

/-! ### Device time (R450) -/

/-- A TIME packet for the neighbour on port `k`, offered to flow 18 + k. -/
def State.timeSend (s : State) (k : Fin 4) (sub : Nat) (seq : Half) (time : DWord) : State :=
  let p : Packet := { type := 6, rsp := false, bcast := false, host := false, dst := (s.kslPort k).peerId,
                      src := BitVec.ofNat 16 s.deviceId, hops := 0, status := 0, tag := 0,
                      fields := [BitVec.ofNat 8 sub, 0] ++ leBytes 2 seq.toNat ++ [0, 0, 0, 0] ++ leBytes 8 time.toNat, payload := [], bad := [] }
  s.sluOffer (18 + k.1) (plainPacket .time 64 (some p))

def isTime (sub : Nat) (p : Packet) : Bool := decide (p.type = 6) && decide (p.field 16 1 = sub)
def timeSeqOf (p : Packet) : Half := BitVec.ofNat 16 (p.field 18 2)
def timeOf (p : Packet) : DWord := BitVec.ofNat 64 (p.field 24 8)

/-- TIME_SYNC_SEND (R450): the master end of a tree link. -/
def execTimeSyncSend (port : Fin 4) (s : State) : Host.Outcome State Fault Refusal :=
  .next (if s.kslDir port.1 = 1 ∧ s.portActive port then
      (s.modPort port (fun x => { x with timeSeq := x.timeSeq + 1 })).timeSend port 0 ((s.kslPort port).timeSeq + 1) 0
    else s)

/-- SYNC (R450): the slave keeps t1 and t2 and answers with DELAY_REQ. -/
def execSync (port : Fin 4) (s : State) : Host.Outcome State Fault Refusal :=
  .next (s.onArrived port (isTime 0) (fun s p at0 =>
    if s.kslDir port.1 = 0 then
      (s.modPort port (fun x => { x with timeSeq := timeSeqOf p, t1 := timeOf p, t2 := at0 })).timeSend port 1 (timeSeqOf p) 0
    else s))

/-- DELAY_REQ (R450): the master answers with its time of arrival. -/
def execDelayReq (port : Fin 4) (s : State) : Host.Outcome State Fault Refusal :=
  .next (s.onArrived port (isTime 1) (fun s p at0 => if s.kslDir port.1 = 1 then s.timeSend port 2 (timeSeqOf p) at0 else s))

/-- DELAY_RESP (R450, R490): the slave gives its offset to the time base when the Kalsal up port is the source. -/
def execDelayResp (port : Fin 4) (s : State) : Host.Outcome State Fault Refusal :=
  .next (s.onArrived port (isTime 2) (fun s p _ =>
    let x := s.kslPort port
    if s.kslDir port.1 = 0 ∧ x.timeSeq = timeSeqOf p ∧ s.timeSource = 0 then
      s.timeOffset (((x.t2.toNat : Int) - x.t1.toNat) - ((timeOf p).toNat - (x.t3.toNat : Int))) false
    else s))

/-! ### Enumeration (R454-R456) -/

def isEnum (sub : Nat) (p : Packet) : Bool := decide (p.type = 7) && decide (p.field 16 1 = sub)

/-- ASSIGN (R454, R455): refused, or the device takes its ID and enumerates its subtree. -/
def State.assign (s : State) (k : Fin 4) (p : Packet) : State :=
  let epoch := BitVec.ofNat 16 (p.field 18 2)
  let refuse := fun (s : State) (status : Nat) => s.enumSend k 2 epoch.toNat 0 0 status
  if epoch = s.ksl.epoch then refuse (s.setDir k 3) stOk
  else if s.takeActive then refuse s stState
  else if s.locked 5 then refuse s stLocked
  else s.enumStart (some k) (p.field 20 2) epoch

def execAssign (port : Fin 4) (s : State) : Host.Outcome State Fault Refusal :=
  .next (s.onArrived port (isEnum 0) (fun s p _ => s.assign port p))

/-- An answer belongs to the enumeration in progress. -/
def State.enumMine (s : State) (p : Packet) : Bool := (s.ksl.enumr.map (fun e => decide (e.epoch.toNat = p.field 18 2))).getD false

/-- REPORT (R454). -/
def execReport (port : Fin 4) (s : State) : Host.Outcome State Fault Refusal :=
  .next (s.onArrived port (isEnum 1) (fun s p _ => if s.enumMine p then s.enumAnswer port (some (p.field 24 4)) p.status.toNat else s))

/-- REFUSE (R454, R455). -/
def execRefuse (port : Fin 4) (s : State) : Host.Outcome State Fault Refusal :=
  .next (s.onArrived port (isEnum 2) (fun s p _ => if s.enumMine p then s.enumAnswer port none p.status.toNat else s))

/-- ENUMERATE_TIMEOUT (R456): the command ends with TIMEOUT; the tables written stand. -/
def execEnumerateTimeout (s : State) : Host.Outcome State Fault Refusal :=
  .next (match s.ksl.enumCmd with
    | some c =>
      let found := (s.ksl.enumr.map (fun e => e.next - e.base)).getD 0
      (s.modKsl (fun x => { x with enumCmd := none, enumr := x.enumr.filter (fun e => e.parent.isSome) })).post c stTimeout true
        (BitVec.ofNat 64 found)
    | none => s)

end Sys2Proof.Machine
end

