-- ==== Sys2Proof/Machine/HostCmd.lean ====
section
/-! DEFINITION. The commands of the rings (R273-R300): taking a command, judging it (R278), and the twelve commands with the operations of
QUERY and MAINT. The firmware of logical core 0 carries them out (R277, R284). -/

namespace Sys2Proof.Machine

/-! ### Taking and judging a command (R277, R278) -/

/-- Logical core 0 runs, or waits for an event, and no completion waits for ring room (R39, R277, R521). -/
def State.firmwareFree (s : State) : Bool :=
  decide (s.stalled = []) && (match s.coreRun (.tabor 0) with
    | .running => true
    | .waiting _ _ => true
    | _ => false)

/-- Where the entry at the head of command ring `k` lies (R273, R275). -/
def State.headEntry (s : State) (k : Fin 4) : Nat := (s.reg64 (rTabCmdBase k.1)).toNat + 64 * (s.reg (rTabCmdHead k.1)).toNat

/-- Entry `e` of 64 bytes spells a command (R275): its opcode and tag, the fields of its body by offset in the entry, and whether every other byte is
0. -/
def entrySpells (h : CmdHead) (fields : List (Nat × List Byte)) (e : List Byte) : Bool :=
  let used := fun i => fields.any (fun f => decide (f.1 ≤ i) && decide (i < f.1 + f.2.length))
  let rest := (upFrom 0 64).all (fun i => decide (i = 0) || decide (i = 2) || decide (i = 3) || used i || decide (nth 0 e i = 0))
  decide (leAt e 0 1 = h.opcode.toNat) && decide (leAt e 2 2 = h.tag.toNat) && fields.all (fun f => (e.drop f.1).take f.2.length == f.2) &&
    (rest == h.reservedZero)

/-- The oldest visible command is of ring `h.ring` and its entry spells this one: it is taken, TAB_CMD_HEAD advances, and `f` carries it out (R273,
R275, R277). -/
def State.takeCommand (s : State) (h : CmdHead) (fields : List (Nat × List Byte)) (f : State → PendingCmd → State) : State :=
  if s.visible.head? = some h.ring ∧ s.ringOn h.ring ∧ s.firmwareFree then
    let r := s.readArea (s.headEntry h.ring) 64
    if !entrySpells h fields r.2.1 then s
    else
      let n := 2 ^ s.ringLog2 h.ring
      let head := (s.reg (rTabCmdHead h.ring.1)).toNat
      let s := { r.1 with visible := s.visible.drop 1 }.setReg (rTabCmdHead h.ring.1) (BitVec.ofNat 32 ((head + 1) % n))
      f s { ring := h.ring, gen := vget s.ringGen h.ring, tag := h.tag, opcode := h.opcode }
  else s

/-- R278 for the command of opcode `op` with these fields of its body: an unknown opcode or a reserved byte, a body field outside its range, the state
of R281, and then the command itself, after PENDING where it is marked P (R279). An entry with the opcode of another command is not this command. -/
def State.judge (s : State) (h : CmdHead) (op : Nat) (fields : List (Nat × List Byte)) (range : Bool) (legal : Bool) (pending : Bool)
    (f : State → PendingCmd → State) : State :=
  if h.opcode.toNat ≠ op ∧ 1 ≤ h.opcode.toNat ∧ h.opcode.toNat ≤ 12 then s
  else s.takeCommand h fields (fun s p =>
    if !h.reservedZero ∨ h.opcode.toNat ≠ op then s.post p stBadarg true 0
    else if !range then s.post p stBadarg true 0
    else if !legal then s.post p stState true 0
    else f (if pending then s.post p stPending false 0 else s) p)

/-- The take is in one of these states. -/
def State.takeIn (s : State) (l : List TakeState) : Bool := l.contains s.take.st

/-- `n` bytes at `a` lie wholly in DRAM or in control SRAM (R279). -/
def State.sourceOk (s : State) (a n : Nat) : Bool :=
  decide (a + n ≤ s.window) || (decide (ctlBase ≤ a) && decide (a + n ≤ ctlBase + 0x400000))

/-- The FINAL completion of a command that changes nothing else. -/
def State.done (s : State) (p : PendingCmd) (status value : Nat) : State := s.post p status true (BitVec.ofNat 64 value)

/-! ### LOAD_PROGRAM (R283, R284) -/

/-- The program area (R284). -/
def programArea : Nat := 0x020000100000

/-- What is wrong with a program image `b`, 0 for nothing: header, words, crc (R283, R284). `bad` says of its header and of all of it whether some
word is uncorrectable or poisoned. -/
def imageFault (b : List Byte) (bad : Bool × Bool) : Nat :=
  let n := b.length
  let cores := leAt b 6 1
  let entry := leAt b 12 4
  let head := decide (64 ≤ n) && decide (n ≤ 0x200000) && decide (leAt b 0 4 = 0x504E5344) && decide (leAt b 4 2 = 1) &&
    decide (cores % 2 = 0) && decide (cores ≠ 0) && decide (cores < 16) && decide (leAt b 7 1 = 0) && decide (leAt b 8 4 = n) &&
    decide (entry < n) && decide (entry % 4 = 0) && zeroFrom b 16 59
  if bad.1 then stUncorrectable
  else if !head then stBadprog
  else if bad.2 then stUncorrectable
  else if (checkValue 0 0xFFFC 0 (b.take 60 ++ b.drop 64)).toNat ≠ leAt b 60 4 then stIntegrity
  else 0

/-- A core of the mask enters the image at P0 with d0-d31 = 0 (R284); one in reset or halted does not run. -/
def State.enterImage (s : State) (k : Fin 4) (entry : Nat) : State :=
  match (vget s.cores k).run with
  | .inReset => s
  | .halted => s
  | _ => s.modCore k (fun x => { x with d := Vector.replicate 32 0, status := 0, pc := BitVec.ofNat 64 (programArea + entry), run := .running })

/-- The image is copied to the program area, as far as that reaches, a word that is uncorrectable or poisoned moved poisoned (R284, R304). -/
def State.copyImage (s : State) (a : Nat) (b : List Byte) : State :=
  let b := b.take 0x200000
  let bad := s.badWords a b.length
  bad.foldl (fun s i => s.poisonAt (programArea + 16 * i) 16) (s.poke programArea b)

/-- A sound image: in LOADED the old program ends first and its banks are discarded; the cores named enter the new one (R284). -/
def State.enterProgram (s : State) (p : PendingCmd) (b : List Byte) : State :=
  let s := if s.take.st = .loaded then s.endProgram.discardBanks else s
  let mask := leAt b 6 1
  let s := s.modTake (fun t => { t with setup := some p, cores := BitVec.ofNat 4 mask })
  (upFrom 1 3).foldl (fun s k => if natBit mask k then s.enterImage (fin 4 k) (leAt b 12 4) else s) s

/-- LOAD_PROGRAM's image (R284): copied first, judged then. -/
def State.loadImage (s : State) (p : PendingCmd) (a n : Nat) : State :=
  let head := (s.ctlSync a n false).peekBad a (Nat.min n 64)
  let r := s.readArea a n
  let s := r.1.copyImage a r.2.1
  let st := imageFault r.2.1 (head, r.2.2)
  if st ≠ 0 then s.done p st 0 else s.enterProgram p r.2.1

/-- LOAD_PROGRAM (R283, R284). -/
def execLoadProgram (h : CmdHead) (source : DWord) (length : Word) (s : State) : Host.Outcome State Fault Refusal :=
  .next (s.judge h 1 [(16, leBytes 8 source.toNat), (24, leBytes 4 length.toNat)] (s.sourceOk source.toNat length.toNat) (s.takeIn [.idle, .loaded]) true (fun s p =>
    if s.take.setup.isSome then s.done p stBusy 0 else s.loadImage p source.toNat length.toNat))

/-! ### ARM, ROLL, CUT, CLOSE, ABORT (R281) -/

/-- ARM (R286): core 0 executes the ARM instruction, and with it waits for the end of a training sequence (R287, R332, log entry 105). -/
def execArmCommand (h : CmdHead) (env : ArmEnv) (s : State) : Host.Outcome State Fault Refusal :=
  .next (if s.armWaits env && decide (s.visible.head? = some h.ring) && s.firmwareFree then s.armDefer.hold (.core 0) [] none (.armCommand h env)
    else s.judge h 2 [] true (s.takeIn [.loaded]) false (fun s p =>
    let r := s.armTake env
    r.1.done p r.2 0))

/-- ROLL acceptance (R65, R144, R150, R280): the logs open with their TAKE_HEADER, charged, and the opening clocks start. -/
def State.roll (s : State) : State :=
  let s := (s.modTake (fun t => { t with startPtp := s.clk.ns, nextPic := 0, began := false })).moveTake .rolling 0
  s.takeLedgers.foldl (fun s m =>
    let s := (s.magsOf m).foldl (fun s k => s.modLog k (fun g => { g with isOpen := true })) s
    let a0 := (s.log m).addr
    let s := s.addRecord m 1 s.headerBody false
    s.ledgerDo m (fun l => { l with fill := l.fill + ((s.log m).addr - a0), tLast := s.clk.fab })) s

/-- ROLL (R279, R281). -/
def execRoll (h : CmdHead) (s : State) : Host.Outcome State Fault Refusal :=
  .next (s.judge h 3 [] true (s.takeIn [.armed]) false (fun s p => s.roll.done p stOk s.clk.ns.toNat))

/-- CUT (R159, R281): its FINAL completion comes with the move to CLOSED. -/
def execCut (h : CmdHead) (s : State) : Host.Outcome State Fault Refusal :=
  .next (s.judge h 4 [] true (s.takeIn [.rolling]) true (fun s p =>
    ((s.modTake (fun t => { t with cutCmd := some p })).moveTake .cutting 0).checkCut))

/-- The take is closed (R111, R178, R281, R353, R374): the program, streams, slots, banks and magazine ports are let go. A LOAD_PROGRAM in setup
has no stated status (log entry 7). -/
def State.closeTake (s : State) : State :=
  let setup := s.take.setup
  let s := s.endProgram.stopStreams.closeSlots.discardBanks
  let s := ([0, 1] : List (Fin 2)).foldl (fun s m => (s.magReopen m).modMag m (fun x => { x with dsmTodo := [] })) s
  let s := (s.modTake (fun t => { t with setup := none })).moveTake .idle 0
  { s with freeCount := s.freeCount + 1 }.postOwed setup (freeStatus (Config.unstated 22 s.freeCount)) 0

/-- CLOSE (R281). -/
def execClose (h : CmdHead) (s : State) : Host.Outcome State Fault Refusal :=
  .next (s.judge h 5 [] true (s.takeIn [.loaded, .armed, .closed, .faulted]) false (fun s p => s.closeTake.done p stOk 0))

/-- ABORT (R86, R281). A CUT whose FINAL completion is owed has no stated status (log entry 7). -/
def State.abortTake (s : State) : State :=
  let c := s.take.cutCmd
  let s := ((s.stopTake 3 none).moveTake .closed 0).modTake (fun t => { t with cutCmd := none, faultPending := none })
  { s with freeCount := s.freeCount + 1 }.postOwed c (freeStatus (Config.unstated 21 s.freeCount)) s.lastValue

def execAbort (h : CmdHead) (s : State) : Host.Outcome State Fault Refusal :=
  .next (s.judge h 6 [] true (s.takeIn [.armed, .rolling, .cutting]) false (fun s p => s.abortTake.done p stOk 0))

/-! ### QUERY (R279) -/

/-- QUERY selector 0: the take state as TAB_TAKE_STATE holds it. -/
def execQueryTakeState (h : CmdHead) (s : State) : Host.Outcome State Fault Refusal :=
  .next (s.judge h 7 [(16, [0])] true true false (fun s p => s.done p stOk (takeCode s.take.st + 256 * s.take.cause.toNat)))

/-- QUERY selector 1: the slot descriptor (R112). -/
def execQuerySlot (h : CmdHead) (slot : Byte) (s : State) : Host.Outcome State Fault Refusal :=
  .next (s.judge h 7 [(16, [1, slot])] (decide (slot.toNat < 16)) true false (fun s p => s.post p stOk true (s.slotDesc (fin 16 slot.toNat))))

/-- QUERY selector 2: a ledger value (R261); any selector above 2 is out of range. -/
def execQueryLedger (h : CmdHead) (selector field ledger : Byte) (s : State) : Host.Outcome State Fault Refusal :=
  .next (if selector.toNat < 2 then s
    else s.judge h 7 [(16, [selector, field, ledger])] (decide (selector.toNat = 2) && decide (field.toNat ≤ 4) && decide (ledger.toNat ≤ 1)) true false (fun s p =>
      s.done p stOk (nth 0 (s.ledgerValues ledger.toNat) field.toNat)))

/-! ### PLAY and STOP_PLAY (R187, R188, R299) -/

/-- The fields of a parameter block (R299). -/
def playParams (b : List Byte) : PlayParams :=
  { kind := leAt b 1 1, outCount := leAt b 2 1, tileStatus := leAt b 3 1 = 1, mag := fin 2 (leAt b 4 1), reverse := leAt b 5 1 = 1
    follow := leAt b 6 1 = 1, core := fin 2 (leAt b 7 1), netPort := fin 2 (leAt b 8 1)
    cmpSlot := if leAt b 9 1 = 0xFF then none else some (fin 16 (leAt b 9 1))
    areaPics := leAt b 10 1, pt := leAt b 11 1, preroll := leAt b 14 2, outCtrl := leAt b 16 8, outBuf := leAt b 24 8
    reportBase := leAt b 32 8, logLba := leAt b 40 8, areaBase := leAt b 48 8, outStride := leAt b 56 4, reportCount := leAt b 60 4
    first := leAt b 64 4, last := leAt b 68 4, rateNum := leAt b 72 4, rateDen := leAt b 76 4, ssrc := BitVec.ofNat 32 (leAt b 80 4)
    jitter := leAt b 84 4, maxW := leAt b 88 2, maxH := leAt b 90 2, maxRate := leAt b 92 2, udpPort := leAt b 94 2, areaLen := leAt b 96 8
    nsid := BitVec.ofNat 32 (leAt b 104 4), lbaBytes := leAt b 108 2 }

/-- Ranges of R187 for kind 0 alone, and for kind 1 alone. -/
def playKindRanges (b : List Byte) (p : PlayParams) : Bool :=
  if p.kind = 0 then
    aligned p.reportBase 64 && between 16 p.reportCount 65536 && decide (leAt b 3 1 ≤ 1) && decide (leAt b 4 1 ≤ 1) &&
      between 1 p.nsid.toNat (2 ^ 32 - 2) && [512, 4096].contains p.lbaBytes && aligned p.areaBase 4096 && aligned p.areaLen 4096 &&
      between 2 p.areaPics 16
  else
    decide (leAt b 4 1 = 0) && decide (p.nsid = 0) && decide (p.lbaBytes = 0) && decide (p.logLba = 0) && decide (p.areaBase = 0) &&
      decide (p.areaLen = 0) && decide (p.areaPics = 0) && decide (leAt b 7 1 ≤ 1) && decide (leAt b 8 1 ≤ 1) && between 1 p.udpPort 65535

/-- Every field of the block is inside R187 and its reserved bytes are 0. -/
def playRanges (b : List Byte) (p : PlayParams) : Bool :=
  decide (leAt b 0 1 ≤ 8) && decide (p.kind = if leAt b 0 1 = 0 then 0 else 1) && aligned p.outCtrl 64 && aligned p.outBuf 4096 &&
    aligned p.outStride 4096 && between 2 p.outCount 16 && decide (p.first ≤ p.last) && decide (leAt b 5 1 ≤ 1) && decide (1 ≤ p.rateDen) &&
    decide (p.preroll ≤ 1024) && (decide (leAt b 9 1 < 16) || decide (leAt b 9 1 = 0xFF)) && decide (leAt b 6 1 ≤ 1) && between 96 p.pt 127 &&
    between 64 p.maxW 8192 && between 64 p.maxH 4320 && between 1 p.maxRate 600 && decide (p.jitter ≤ 90000) && decide (leAt b 12 1 = 0) &&
    decide (leAt b 13 1 = 0) && zeroFrom b 110 127 && playKindRanges b p

/-- The playback area, output buffers and report ring of a session (R187, R201). -/
def playOwnAreas (p : PlayParams) : List Area :=
  (p.outBuf, p.outCount * p.outStride) :: (if p.kind = 0 then [(p.areaBase, p.areaLen), (p.reportBase, 64 + 64 * p.reportCount)] else [])

/-- The areas that session `me`'s may not touch (R188). -/
def State.playForbidden (s : State) (me : Nat) : List Area :=
  let f : Setup := fun k => (vgetN Bank.empty s.banks k).active
  s.slotAreas ++ s.commandRings ++ [f.ingress] ++ f.spills ++
    ((upFrom 0 9).filter (fun k => k ≠ me)).flatMap (fun k => match (vgetN Session.atReset s.sessions k).params with
      | some q => playOwnAreas q
      | none => [])

def State.playAreasOk (s : State) (me : Nat) (p : PlayParams) : Bool :=
  s.inWindow (p.outCtrl, 64 + 32 * p.outCount) && (playOwnAreas p).all (fun a => s.inWindow a && !hits a (s.playForbidden me))

/-- The sessions of a decoder core other than `k`. -/
def State.coreSessions (s : State) (core : Fin 2) (k : Nat) : List PlayParams :=
  (upFrom 1 8).filterMap (fun j => if j = k then none else (vgetN Session.atReset s.sessions j).params.filter (fun q => q.core = core))

/-- R188. -/
def State.playRefusal (s : State) (b : List Byte) (p : PlayParams) : Nat :=
  let k := leAt b 0 1
  let others := s.coreSessions p.core k
  firstFail [
    failIf (!playRanges b p || !s.playAreasOk k p) stBadarg,
    failIf (vgetN Session.atReset s.sessions k).params.isSome stBusy,
    failIf ((p.cmpSlot.map (fun i => decide ((s.slot i).mark ≠ .held))).getD false) stState,
    failIf (p.kind = 1 && (decide (2123366400 < sumNat (others.map PlayParams.load) + p.load) || decide (4 ≤ others.length))) stNoresource]

/-- An accepted PLAY: the session runs, its indices count from 0, and its slot is in use (R193, R201, R206). -/
def State.playStart (s : State) (c : PendingCmd) (k : Fin 9) (p : PlayParams) : State :=
  let s := s.modSession k (fun _ => { Session.atReset with cmd := some c, params := some p, outAt := s.clk.fab })
  let s := match p.cmpSlot with
    | some i => s.modSlot i (fun y => { y with playing := true })
    | none => s
  let s := s.poke p.outCtrl (leBytes 4 0)
  if k = 0 then (s.poke p.reportBase (leBytes 4 0)).playBegin else s

/-- PLAY (R188, R279, R281): a refused PLAY posts its status alone. -/
def execPlay (h : CmdHead) (address : DWord) (s : State) : Host.Outcome State Fault Refusal :=
  .next (s.judge h 8 [(16, leBytes 8 address.toNat)] (s.sourceOk address.toNat 128) (!s.takeIn [.faulted]) false (fun s c =>
    let r := s.readArea address.toNat 128
    let p := playParams r.2.1
    let st := if r.2.2 then stUncorrectable else s.playRefusal r.2.1 p
    if st ≠ 0 then r.1.done c st 0 else (r.1.post c stPending false 0).playStart c (fin 9 (leAt r.2.1 0 1)) p))

/-- STOP_PLAY (R193, R207, R299): the session ends at its next picture boundary; the slot it compares is no longer BUSY. -/
def execStopPlay (h : CmdHead) (session : Byte) (s : State) : Host.Outcome State Fault Refusal :=
  .next (s.judge h 9 [(16, [session])] (decide (session.toNat ≤ 8))
    (!s.takeIn [.faulted] && (vgetN Session.atReset s.sessions session.toNat).params.isSome) false (fun s p =>
      ((s.modSession (fin 9 session.toNat) (fun x => { x with stopping := true })).letSlot (fin 9 session.toNat)).done p stOk 0))

/-! ### ENUMERATE, SET_TAG, MAINT (R300, R454, R512) -/

/-- ENUMERATE (R454-R456, R506): the device that takes it is the root. -/
def execEnumerate (h : CmdHead) (base epoch : Half) (s : State) : Host.Outcome State Fault Refusal :=
  .next (s.judge h 10 [(16, leBytes 2 base.toNat), (18, leBytes 2 epoch.toNat)] (decide (epoch ≠ 0) && decide (epoch ≠ s.ksl.epoch)) (s.takeIn [.idle, .loaded, .closed]) true (fun s p =>
    if s.locked 5 then (s.done p stLocked 0).raise 17
    else if s.ksl.enumCmd.isSome then s.done p stBusy 0
    else (s.modKsl (fun x => { x with enumCmd := some p })).enumStart none base.toNat epoch))

/-- SET_TAG puts the bytes in a Cistern buffer of owner 1 and makes the tag request of R512; its SEQ is not stated (log entry 7). -/
def State.setTag (s : State) (p : PendingCmd) (b : List Byte) (off : Nat) : State :=
  let n := b.length
  let seq : Byte := BitVec.ofNat 8 (Config.unstated 20 s.freeCount)
  let s := { s with freeCount := s.freeCount + 1 }.cisAlloc [{ ini := .core 0, owner := 1, cls := 0, size := BitVec.ofNat 32 (Nat.max n 1) }]
  let hnd := (s.page 1).result
  if hnd = 0xFFFFFFFF then s.done p stNoresource 0
  else
    let s := s.poke (s.bufAddr (hnd.toNat / 2 ^ 29) (hnd.toNat % 2 ^ 29)) b
    let busy := s.tagBusy
    let s := (s.setReg rTopTagHandle hnd).setReg rTopTagRange (BitVec.ofNat 32 (off % 4096 + 65536 * n))
    let s := if busy then s else { s with tagCmd := some (p, seq) }
    let s := (s.tagRequest (.core 0) seq).closeGate (s.link (.core 0))
    let st := (s.reg rTopTagStat).toNat / 256 % 256
    if st = stOk then s
    else
      let s := s.cisFree (.core 0) 1 hnd
      (if busy then s else { s with tagCmd := none }).done p st 0

/-- SET_TAG (R279, R281, R512). -/
def execSetTag (h : CmdHead) (source : DWord) (offset length : Half) (s : State) : Host.Outcome State Fault Refusal :=
  .next (s.judge h 11 [(16, leBytes 8 source.toNat), (24, leBytes 2 offset.toNat), (26, leBytes 2 length.toNat)] (s.sourceOk source.toNat length.toNat && decide (offset.toNat + length.toNat ≤ 4096)) true true (fun s p =>
    let r := s.readArea source.toNat length.toNat
    if r.2.2 then r.1.done p stUncorrectable 0 else r.1.setTag p r.2.1 offset.toNat))

/-- MAINT op 0-2 are legal outside ARMED, ROLLING and CUTTING (R281). -/
def State.maintLegal (s : State) : Bool := !s.takeActive

/-- MAINT op 0 (R223, R279, R300, R506): the image is read as the command is taken, and its load is requested of the engines. -/
def execMaintPatchLoad (h : CmdHead) (address : DWord) (length : Word) (s : State) : Host.Outcome State Fault Refusal :=
  .next (s.judge h 12 [(16, [0]), (24, leBytes 8 address.toNat), (32, leBytes 4 length.toNat)] (s.sourceOk address.toNat length.toNat) s.maintLegal true (fun s p =>
    if s.locked 1 then (s.done p stLocked 0).raise 17
    else
      let r := s.readArea address.toNat length.toNat
      { r.1 with maintQueue := r.1.maintQueue ++
        [{ kind := .patchLoad { cmd := some p, image := r.2.1, bad := r.2.2 }, abandoned := 0, guarded := false }] }))

/-- The entry of a proposal number that is PROPOSED (R520). -/
def State.proposedEntry (s : State) (number : Word) : Option Nat :=
  (s.entryOf number).filter (fun j => decide ((vgetN Proposal.empty s.ras.props j).st = .proposed))

/-- MAINT op 1 (R520, R521): the completion is posted before any execution begins. -/
def execMaintApprove (h : CmdHead) (number : Word) (s : State) : Host.Outcome State Fault Refusal :=
  .next (s.judge h 12 [(16, [1]), (24, leBytes 4 number.toNat)] true s.maintLegal true (fun s p => match s.proposedEntry number with
    | none => s.done p stBadarg 0
    | some j =>
      let q := vgetN Proposal.empty s.ras.props j
      if s.spareGone q.kind q.target.toNat then (s.moveProposal j .failed).done p stNoresource 0
      else ((s.moveProposal j .approved).done p stOk number.toNat).startExec))

/-- MAINT op 2 (R520). -/
def execMaintReject (h : CmdHead) (number : Word) (s : State) : Host.Outcome State Fault Refusal :=
  .next (s.judge h 12 [(16, [2]), (24, leBytes 4 number.toNat)] true s.maintLegal true (fun s p => match s.proposedEntry number with
    | none => s.done p stBadarg 0
    | some j => (s.moveProposal j .rejected).done p stOk number.toNat))

/-- MAINT op 3 (R300, R528); operations from 4 up are out of range. -/
def execMaintSpareStatus (h : CmdHead) (op : Byte) (s : State) : Host.Outcome State Fault Refusal :=
  .next (if op.toNat < 3 then s else s.judge h 12 [(16, [op])] (decide (op.toNat = 3)) true true (fun s p => s.done p stOk s.rasSpare))

end Sys2Proof.Machine
end

