-- ==== Sys2Proof/Machine/Spares.lean ====
section
/-! DEFINITION. Thermal warnings (R539), the VDD_CORE set point (R532), aging (R517) and the execution of proposals of kinds 2 to 6
(R515, R518, R521); kind 1 runs as a maintenance routine of an engine (R234). -/

namespace Sys2Proof.Machine

/-- THERMAL_TRIP (R539): low until a power-on reset. -/
def execThermalTrip (s : State) : Host.Outcome State Fault Refusal := .next { s with supply := { s.supply with thermTripN := false } }

/-- THERMAL_LIMIT (R406, R539): the line of level source 12 after its filter. -/
def execThermalLimit (asserted : Bool) (s : State) : Host.Outcome State Fault Refusal := .next (s.lineChange 12 asserted)

/-- A set point that the device sends (R532): 0.65-0.80 V in steps of 5 mV, at most 10 mV from the last. -/
def State.avsAllowed (s : State) (mv : Nat) : Bool :=
  decide (650 ≤ mv) && decide (mv ≤ 800) && decide (mv % 5 = 0) && decide (mv ≤ s.supply.vcore + 10) && decide (s.supply.vcore ≤ mv + 10)

/-- 50 µs have passed since the last command (R532). -/
def State.avsFree (s : State) : Bool :=
  match s.supply.avsAt with
  | some t => decide (t + 100000 ≤ s.clk.fab)
  | none => true

/-- An AVSBus Voltage command and its up to three repeats (R532): `acks` says which of them the regulator acknowledges. The device sends none
within 50 µs of the last. -/
def State.avs (s : State) (mv : Nat) (acks : List Bool) : State :=
  if !s.avsAllowed mv ∨ !s.avsFree then s
  else
    let s := { s with supply := { s.supply with avsAt := some s.clk.fab } }
    if (acks.take 4).any id then { s with supply := { s.supply with vcore := mv } } else s.threshold

/-- AVS_COMMAND (R532). -/
def execAvsCommand (setPoint : Nat) (acks : List Bool) (s : State) : Host.Outcome State Fault Refusal := .next (s.avs setPoint acks)

/-- An aging monitor reads a degradation in 0.01 % (R517, R528): source 13 as it passes 5.00 %; at 8.00 % AGED, or a kind 2 proposal. -/
def State.aged (s : State) (k : Nat) (v : Half) : State :=
  let old := (s.reg (rRasAge k)).toNat % 65536
  let crosses := fun (limit : Nat) => decide (old < limit) && decide (limit ≤ v.toNat)
  let s := s.setReg (rRasAge k) ((s.reg (rRasAge k) &&& 0x10000) ||| v.setWidth 32)
  let s := if crosses 500 then s.threshold else s
  if !crosses 800 then s
  else if k < 17 then s.orReg (rRasAge k) 0x10000
  else s.propose 2 (k - 17) 4 v.toNat

/-- AGING_MONITOR (R517). -/
def execAgingMonitor (k : Fin 22) (degradation : Half) (s : State) : Host.Outcome State Fault Refusal := .next (s.aged k.1 degradation)

/-! ### Executions (R515, R518, R521) -/

/-- The proposal that is executed next, when it is of kind `kind`: FAILED where its spare is gone, else what `run` does and whether
it succeeds; then the next one starts. -/
def State.execute (s : State) (kind : Nat) (run : State → Nat → Nat → State × Bool) : State :=
  match s.execOf kind with
  | none => s
  | some (j, p) =>
    if s.spareGone kind p.target.toNat then (s.moveProposal j .failed).startExec
    else
      let r := run s p.target.toNat p.info.toNat
      (r.1.moveProposal j (if r.2 then .done else .failed)).startExec

/-- The physical core that carries no logical core: the spare, while it is unused (R10, R515). -/
def State.spareCore (s : State) : Nat :=
  ((upFrom 0 5).find? (fun x => !(upFrom 0 4).any (fun k => (s.phys (fin 4 k)).1 = x))).getD 4

/-- The core map is rewritten while the logical core on physical core `target` is held in reset (R429, R515). -/
def State.swapCore (s : State) (target _info : Nat) : State × Bool :=
  match (upFrom 0 4).find? (fun k => decide ((s.phys (fin 4 k)).1 = target)) with
  | none => (s, false)
  | some k =>
    let spare := fin 5 s.spareCore
    let s := s.resetCore (fin 4 k)
    let s := { s with coreMap := vset s.coreMap (fin 4 k) spare }.modRas (fun r => { r with tabSpareUsed := true })
    (s.releaseCores, true)

/-- TABOR_SWAP_IN (R515). -/
def execTaborSwapIn (s : State) : Host.Outcome State Fault Refusal := .next (s.execute 2 (fun s t i => s.swapCore t i))

/-- A sensor lane is retired (R463, R515). -/
def State.retireLane (s : State) (target _info : Nat) : State × Bool :=
  ((s.setReg64 rSnsRetired (s.reg64 rSnsRetired ||| BitVec.twoPow 64 target)).modRas (fun r =>
    { r with lanesRetired := r.lanesRetired + 1 }), true)

/-- SENSOR_LANE_RETIRE (R463, R515). -/
def execSensorLaneRetire (s : State) : Host.Outcome State Fault Refusal := .next (s.execute 3 (fun s t i => s.retireLane t i))

/-- The lane map that uses the spare in place of lane `lane`: every lane but that one (R433). -/
def remapLane (lane : Nat) : BitVec 9 := ~~~(BitVec.twoPow 9 lane)

/-- A port's lane map is rewritten for its next full training (R433, R515). -/
def State.remap (s : State) (target _info : Nat) : State × Bool :=
  let k := target / 16
  let ports := vmodN s.ksl.ports k (fun x => { x with nextMap := remapLane (target % 16) })
  ({ s with ksl := { s.ksl with ports := ports } }.modRas (fun r => { r with kslSpareUsed := r.kslSpareUsed ||| BitVec.twoPow 4 k }), true)

/-- KSL_LANE_REMAP (R433, R515). -/
def execKslLaneRemap (s : State) : Host.Outcome State Fault Refusal := .next (s.execute 4 (fun s t i => s.remap t i))

/-- A repair entry is written to the repair table (R515); where the table lies is not stated, so no line of the window changes. -/
def State.repairSram (s : State) (_target _info : Nat) : State × Bool := (s.modRas (fun r => { r with sramFree := r.sramFree - 1 }), true)

/-- SRAM_REPAIR (R515). -/
def execSramRepair (s : State) : Host.Outcome State Fault Refusal := .next (s.execute 5 (fun s t i => s.repairSram t i))

/-- The code words of row `row` of bank `target` mod 16 that carry an error. -/
def State.rowErrors (s : State) (target row : Nat) : List Nat :=
  (s.dram.syn.map (·.1)).filter (fun i =>
    s.chanOf (16 * i) = target / 16 && bankOfPhys (s.physOf (16 * i)) = target % 16 && rowOfPhys (s.physOf (16 * i)) = row)

/-- The hard repair of a row (R337): its words come back corrected, the uncorrectable ones poisoned. -/
def State.repairRow (s : State) (target row : Nat) : State :=
  let s := (s.rowErrors target row).foldl (fun s i =>
    let s := s.noteWords .dram (16 * i) 16
    { s with dram := scrubWord s.dram (16 * i) }) s
  let s := s.modChn (target / 16) (fun x =>
    { x with rows := vsetN x.rows (target % 16) none, pprAvail := x.pprAvail &&& ~~~(BitVec.twoPow 16 (target % 16)) })
  (s.orReg rMcStat 0x200).raise 34

/-- POST_PACKAGE_REPAIR (R337, R515): `copyOk` false where the repair sequence fails. -/
def execPostPackageRepair (copyOk : Bool) (s : State) : Host.Outcome State Fault Refusal :=
  .next (s.execute 6 (fun s t i => if copyOk then (s.repairRow t i, true) else (s, false)))

end Sys2Proof.Machine
end

