-- ==== Sys2Proof/Machine/Tap.lean ====
section
/-! DEFINITION. The test access port (R545): IEEE 1149.1 controller, the six instructions, IDCODE, bypass and boundary-scan
registers. One TAP_CLOCK is a whole period of TCK: the rising edge moves the controller, captures and shifts; the falling edge
updates and drives TDO. -/

namespace Sys2Proof.Machine

/-- The next state of the controller. -/
def TapState.next (tms : Bool) : TapState → TapState
  | .testLogicReset => if tms then .testLogicReset else .runTestIdle
  | .runTestIdle => if tms then .selectDr else .runTestIdle
  | .selectDr => if tms then .selectIr else .captureDr
  | .captureDr => if tms then .exit1Dr else .shiftDr
  | .shiftDr => if tms then .exit1Dr else .shiftDr
  | .exit1Dr => if tms then .updateDr else .pauseDr
  | .pauseDr => if tms then .exit2Dr else .pauseDr
  | .exit2Dr => if tms then .updateDr else .shiftDr
  | .updateDr => if tms then .selectDr else .runTestIdle
  | .selectIr => if tms then .testLogicReset else .captureIr
  | .captureIr => if tms then .exit1Ir else .shiftIr
  | .shiftIr => if tms then .exit1Ir else .shiftIr
  | .exit1Ir => if tms then .updateIr else .pauseIr
  | .pauseIr => if tms then .exit2Ir else .pauseIr
  | .exit2Ir => if tms then .updateIr else .shiftIr
  | .updateIr => if tms then .selectDr else .runTestIdle

/-- The code of an instruction. -/
def TapInstr.code : TapInstr → BitVec 6
  | .extest => 0
  | .samplePreload => 2
  | .idcode => 3
  | .clamp => 4
  | .highz => 5
  | .bypass => 0x3F

/-- The instruction a code selects: BYPASS for every code that is not listed. -/
def tapInstr (c : BitVec 6) : TapInstr :=
  if c = 0 then .extest else if c = 2 then .samplePreload else if c = 3 then .idcode else if c = 4 then .clamp
  else if c = 5 then .highz else .bypass

/-- The IDCODE register: MAJOR, 0x7160, no manufacturer, 1. -/
def idCode : Word := (Config.siliconRev.extractLsb' 8 4) ++ (0x7160 : Half) ++ (0 : BitVec 11) ++ (1 : BitVec 1)

/-- What Capture-DR loads, the bit next to TDO first; `pins` holds what the boundary-scan cells see, from TDI to TDO. -/
def Tap.capture (t : Tap) (pins : List Bool) : List Bool :=
  match t.instr with
  | .extest => ((upFrom 0 scanCells).map (fun i => nth false pins i)).reverse
  | .samplePreload => ((upFrom 0 scanCells).map (fun i => nth false pins i)).reverse
  | .idcode => (upFrom 0 32).map (fun i => idCode.getLsbD i)
  | .clamp => [false]
  | .highz => [false]
  | .bypass => [false]

/-- The rising edge of TCK: what the present state does, then the next state. -/
def Tap.rise (t : Tap) (tms tdi : Bool) (pins : List Bool) : Tap :=
  let t := match t.st with
    | .captureDr => { t with dr := t.capture pins }
    | .shiftDr => { t with dr := t.dr.drop 1 ++ [tdi] }
    | .captureIr => { t with ir := 1 }
    | .shiftIr => { t with ir := (BitVec.ofBool tdi ++ t.ir).extractLsb' 1 6 }
    | _ => t
  { t with st := t.st.next tms }

/-- The falling edge of TCK: updates, and TDO in Shift-IR and Shift-DR only. -/
def Tap.fall (t : Tap) : Tap :=
  match t.st with
  | .testLogicReset => { t with instr := .idcode, tdo := none }
  | .updateIr => { t with instr := tapInstr t.ir, tdo := none }
  | .updateDr =>
    if t.instr = .extest ∨ t.instr = .samplePreload then { t with bsr := t.dr.reverse, tdo := none } else { t with tdo := none }
  | .shiftDr => { t with tdo := t.dr.head? }
  | .shiftIr => { t with tdo := some (t.ir.getLsbD 0) }
  | _ => { t with tdo := none }

/-- TAP_CLOCK (R545). -/
def execTapClock (tms tdi : Bool) (pins : List Bool) (s : State) : Host.Outcome State Fault Refusal :=
  .next { s with tap := (s.tap.rise tms tdi pins).fall }

/-- TRST_N low: Test-Logic-Reset at once. -/
def Tap.reset (t : Tap) : Tap := { t with st := .testLogicReset, instr := .idcode, tdo := none }

/-- TAP_RESET (R545). -/
def execTapReset (s : State) : Host.Outcome State Fault Refusal := .next { s with tap := s.tap.reset }

/-- An instruction has been scanned in and takes effect in Update-IR. -/
def Tap.load (t : Tap) (i : TapInstr) : Tap := { t with st := .updateIr, ir := i.code, instr := i, tdo := none }

/-- What a boundary-scan instruction makes of the balls: their functions, the levels of the update latches, or high impedance. -/
inductive BallDrive where
  | functional
  | scan (cells : List Bool)
  | highImpedance
deriving DecidableEq, Repr

/-- EXTEST, CLAMP and HIGHZ take the balls from their functions (R545). -/
def Tap.balls (t : Tap) : BallDrive :=
  match t.instr with
  | .extest => .scan t.bsr
  | .clamp => .scan t.bsr
  | .highz => .highImpedance
  | .samplePreload => .functional
  | .idcode => .functional
  | .bypass => .functional

/-- EXTEST (R545). -/
def execExtest (s : State) : Host.Outcome State Fault Refusal := .next { s with tap := s.tap.load .extest }
/-- SAMPLE_PRELOAD (R545). -/
def execSamplePreload (s : State) : Host.Outcome State Fault Refusal := .next { s with tap := s.tap.load .samplePreload }
/-- IDCODE (R545). -/
def execIdcode (s : State) : Host.Outcome State Fault Refusal := .next { s with tap := s.tap.load .idcode }
/-- CLAMP (R545). -/
def execClamp (s : State) : Host.Outcome State Fault Refusal := .next { s with tap := s.tap.load .clamp }
/-- HIGHZ (R545). -/
def execHighz (s : State) : Host.Outcome State Fault Refusal := .next { s with tap := s.tap.load .highz }
/-- BYPASS (R545). -/
def execBypass (s : State) : Host.Outcome State Fault Refusal := .next { s with tap := s.tap.load .bypass }

end Sys2Proof.Machine
end

