-- ==== Sys2Proof/Machine/Dispatch.lean ====
section
/-! DEFINITION. One arm per command: the direct call of its meaning, or its rejection by name. -/

namespace Sys2Proof.Machine

/-- The effect of a command on everything but the queue. -/
def exec (i : Instr) (s : State) : Host.Outcome State Fault Refusal :=
  match i with
  | .loadProgram h source length => Sys2Proof.Machine.execLoadProgram h source length s
  | .armCommand h env => Sys2Proof.Machine.execArmCommand h env s
  | .roll h => Sys2Proof.Machine.execRoll h s
  | .cut h => Sys2Proof.Machine.execCut h s
  | .close h => Sys2Proof.Machine.execClose h s
  | .abort h => Sys2Proof.Machine.execAbort h s
  | .queryTakeState h => Sys2Proof.Machine.execQueryTakeState h s
  | .querySlot h slot => Sys2Proof.Machine.execQuerySlot h slot s
  | .queryLedger h selector field ledger => Sys2Proof.Machine.execQueryLedger h selector field ledger s
  | .play h address => Sys2Proof.Machine.execPlay h address s
  | .stopPlay h session => Sys2Proof.Machine.execStopPlay h session s
  | .enumerate h base epoch => Sys2Proof.Machine.execEnumerate h base epoch s
  | .setTag h source offset length => Sys2Proof.Machine.execSetTag h source offset length s
  | .maintPatchLoad h address length => Sys2Proof.Machine.execMaintPatchLoad h address length s
  | .maintApprove h number => Sys2Proof.Machine.execMaintApprove h number s
  | .maintReject h number => Sys2Proof.Machine.execMaintReject h number s
  | .maintSpareStatus h op => Sys2Proof.Machine.execMaintSpareStatus h op s
  | .commandTailWrite ini ring value => Sys2Proof.Machine.execCommandTailWrite ini ring value s
  | .ringEnable ini ring value => Sys2Proof.Machine.execRingEnable ini ring value s
  | .ringDisable ini ring => Sys2Proof.Machine.execRingDisable ini ring s
  | .heartbeat ini k value => Sys2Proof.Machine.execHeartbeat ini k value s
  | .heartbeatLoss => Sys2Proof.Machine.execHeartbeatLoss s
  | .setupTimeout => Sys2Proof.Machine.execSetupTimeout s
  | .add c f => Sys2Proof.Machine.execAdd c f s
  | .sub c f => Sys2Proof.Machine.execSub c f s
  | .and c f => Sys2Proof.Machine.execAnd c f s
  | .or c f => Sys2Proof.Machine.execOr c f s
  | .xor c f => Sys2Proof.Machine.execXor c f s
  | .andn c f => Sys2Proof.Machine.execAndn c f s
  | .sll c f => Sys2Proof.Machine.execSll c f s
  | .srl c f => Sys2Proof.Machine.execSrl c f s
  | .sra c f => Sys2Proof.Machine.execSra c f s
  | .ror c f => Sys2Proof.Machine.execRor c f s
  | .min c f => Sys2Proof.Machine.execMin c f s
  | .max c f => Sys2Proof.Machine.execMax c f s
  | .minu c f => Sys2Proof.Machine.execMinu c f s
  | .maxu c f => Sys2Proof.Machine.execMaxu c f s
  | .slt c f => Sys2Proof.Machine.execSlt c f s
  | .sltu c f => Sys2Proof.Machine.execSltu c f s
  | .addsat c f => Sys2Proof.Machine.execAddsat c f s
  | .subsat c f => Sys2Proof.Machine.execSubsat c f s
  | .clz c f => Sys2Proof.Machine.execClz c f s
  | .popc c f => Sys2Proof.Machine.execPopc c f s
  | .cmp c f => Sys2Proof.Machine.execCmp c f s
  | .mul c f => Sys2Proof.Machine.execMul c f s
  | .mulh c f => Sys2Proof.Machine.execMulh c f s
  | .mulhu c f => Sys2Proof.Machine.execMulhu c f s
  | .divs c f => Sys2Proof.Machine.execDivs c f s
  | .divu c f => Sys2Proof.Machine.execDivu c f s
  | .rems c f => Sys2Proof.Machine.execRems c f s
  | .remu c f => Sys2Proof.Machine.execRemu c f s
  | .fxmul c f func => Sys2Proof.Machine.execFxmul c f func s
  | .addi c f => Sys2Proof.Machine.execAddi c f s
  | .andi c f => Sys2Proof.Machine.execAndi c f s
  | .ori c f => Sys2Proof.Machine.execOri c f s
  | .xori c f => Sys2Proof.Machine.execXori c f s
  | .shi c f => Sys2Proof.Machine.execShi c f s
  | .cmpi c f => Sys2Proof.Machine.execCmpi c f s
  | .callr c f => Sys2Proof.Machine.execCallr c f s
  | .liz c f => Sys2Proof.Machine.execLiz c f s
  | .lii c f => Sys2Proof.Machine.execLii c f s
  | .lin c f => Sys2Proof.Machine.execLin c f s
  | .ldb c f => Sys2Proof.Machine.execLdb c f s
  | .ldbs c f => Sys2Proof.Machine.execLdbs c f s
  | .ldh c f => Sys2Proof.Machine.execLdh c f s
  | .ldhs c f => Sys2Proof.Machine.execLdhs c f s
  | .ldw c f => Sys2Proof.Machine.execLdw c f s
  | .ldws c f => Sys2Proof.Machine.execLdws c f s
  | .ldd c f => Sys2Proof.Machine.execLdd c f s
  | .stb c f => Sys2Proof.Machine.execStb c f s
  | .sth c f => Sys2Proof.Machine.execSth c f s
  | .stw c f => Sys2Proof.Machine.execStw c f s
  | .std c f => Sys2Proof.Machine.execStd c f s
  | .bcc c f => Sys2Proof.Machine.execBcc c f s
  | .calli c f => Sys2Proof.Machine.execCalli c f s
  | .fence c f => Sys2Proof.Machine.execFence c f s
  | .ifence c f => Sys2Proof.Machine.execIfence c f s
  | .cacheWriteBack c f => Sys2Proof.Machine.execCacheWriteBack c f s
  | .cacheInvalidate c f => Sys2Proof.Machine.execCacheInvalidate c f s
  | .cacheWriteBackInvalidate c f => Sys2Proof.Machine.execCacheWriteBackInvalidate c f s
  | .cacheInstructionInvalidate c f => Sys2Proof.Machine.execCacheInstructionInvalidate c f s
  | .mfsr c f => Sys2Proof.Machine.execMfsr c f s
  | .mtsr c f => Sys2Proof.Machine.execMtsr c f s
  | .rfx c f => Sys2Proof.Machine.execRfx c f s
  | .strec c f => Sys2Proof.Machine.execStrec c f s
  | .commit c f => Sys2Proof.Machine.execCommit c f s
  | .arm c f env => Sys2Proof.Machine.execArm c f env s
  | .mark c f => Sys2Proof.Machine.execMark c f s
  | .markQuery c f => Sys2Proof.Machine.execMarkQuery c f s
  | .ledg c f => Sys2Proof.Machine.execLedg c f s
  | .ledgSnapshot c f => Sys2Proof.Machine.execLedgSnapshot c f s
  | .waite c f => Sys2Proof.Machine.execWaite c f s
  | .waiteTimeout c => Sys2Proof.Machine.execWaiteTimeout c s
  | .dbell c f => Sys2Proof.Machine.execDbell c f s
  | .evdone c f => Sys2Proof.Machine.execEvdone c f s
  | .lcadd c f => Sys2Proof.Machine.execLcadd c f s
  | .lcswp c f => Sys2Proof.Machine.execLcswp c f s
  | .lccas c f => Sys2Proof.Machine.execLccas c f s
  | .registerWrite ini addr value => Sys2Proof.Machine.execRegisterWrite ini addr value s
  | .readClear ini addr => Sys2Proof.Machine.execReadClear ini addr s
  | .pairLoRead ini addr => Sys2Proof.Machine.execPairLoRead ini addr s
  | .pairHiWrite ini addr value => Sys2Proof.Machine.execPairHiWrite ini addr value s
  | .keyGate ini value => Sys2Proof.Machine.execKeyGate ini value s
  | .keyLock ini value => Sys2Proof.Machine.execKeyLock ini value s
  | .topDebugWrite ini value => Sys2Proof.Machine.execTopDebugWrite ini value s
  | .debugHalt ini value => Sys2Proof.Machine.execDebugHalt ini value s
  | .debugRelease ini value => Sys2Proof.Machine.execDebugRelease ini value s
  | .topTagGo ini value => Sys2Proof.Machine.execTopTagGo ini value s
  | .topTagDone ini value => Sys2Proof.Machine.execTopTagDone ini value s
  | .nvsWrite handle offset length badReadBack => Sys2Proof.Machine.execNvsWrite handle offset length badReadBack s
  | .evcClaim ini t => Sys2Proof.Machine.execEvcClaim ini t s
  | .evcDone ini t value => Sys2Proof.Machine.execEvcDone ini t value s
  | .evcSrcCfgWrite ini n value => Sys2Proof.Machine.execEvcSrcCfgWrite ini n value s
  | .evcDisable ini value => Sys2Proof.Machine.execEvcDisable ini value s
  | .levelLineChange n change => Sys2Proof.Machine.execLevelLineChange n change s
  | .kalsalClaim t => Sys2Proof.Machine.execKalsalClaim t s
  | .ckuStart ini k => Sys2Proof.Machine.execCkuStart ini k s
  | .ckuSeed ini k value => Sys2Proof.Machine.execCkuSeed ini k value s
  | .ckuFeed ini k bytes => Sys2Proof.Machine.execCkuFeed ini k bytes s
  | .ckuSnoopReq ini k value => Sys2Proof.Machine.execCkuSnoopReq ini k value s
  | .ckuSnoopBeat k link dir beat => Sys2Proof.Machine.execCkuSnoopBeat k link dir beat s
  | .alloc reqs => Sys2Proof.Machine.execAlloc reqs s
  | .free ini owner handle => Sys2Proof.Machine.execFree ini owner handle s
  | .give ini owner handle target => Sys2Proof.Machine.execGive ini owner handle target s
  | .dmaChainStart c => Sys2Proof.Machine.execDmaChainStart c s
  | .dmaDescriptorFetch c => Sys2Proof.Machine.execDmaDescriptorFetch c s
  | .dmaBurst => Sys2Proof.Machine.execDmaBurst s
  | .dmaResponse c index error => Sys2Proof.Machine.execDmaResponse c index error s
  | .dmaTimeout c index => Sys2Proof.Machine.execDmaTimeout c index s
  | .flumeRequest ini cls addr write data => Sys2Proof.Machine.execFlumeRequest ini cls addr write data s
  | .dramRequest ini cls addr write enables bytes hint => Sys2Proof.Machine.execDramRequest ini cls addr write enables bytes hint s
  | .dramCommand ch => Sys2Proof.Machine.execDramCommand ch s
  | .agePromotion ch index => Sys2Proof.Machine.execAgePromotion ch index s
  | .refreshOwed ch bank => Sys2Proof.Machine.execRefreshOwed ch bank s
  | .forcedRefresh ch bank => Sys2Proof.Machine.execForcedRefresh ch bank s
  | .mr4Read ch rate => Sys2Proof.Machine.execMr4Read ch rate s
  | .wckOscillatorRead ch => Sys2Proof.Machine.execWckOscillatorRead ch s
  | .zqLatch ch => Sys2Proof.Machine.execZqLatch ch s
  | .pageIdleClose ch bank => Sys2Proof.Machine.execPageIdleClose ch bank s
  | .trainingCommit half results => Sys2Proof.Machine.execTrainingCommit half results s
  | .fspChange fsp => Sys2Proof.Machine.execFspChange fsp s
  | .scrubStep => Sys2Proof.Machine.execScrubStep s
  | .pictureStart p => Sys2Proof.Machine.execPictureStart p s
  | .line p => Sys2Proof.Machine.execLine p s
  | .pictureEnd p => Sys2Proof.Machine.execPictureEnd p s
  | .picTimeout => Sys2Proof.Machine.execPicTimeout s
  | .bankRetire u => Sys2Proof.Machine.execBankRetire u s
  | .sensorDownWait k => Sys2Proof.Machine.execSensorDownWait k s
  | .sensorEqualizeDone k worstEye worstLane => Sys2Proof.Machine.execSensorEqualizeDone k worstEye worstLane s
  | .sensorAlignDone k skew => Sys2Proof.Machine.execSensorAlignDone k skew s
  | .sensorTrainTimeout k => Sys2Proof.Machine.execSensorTrainTimeout k s
  | .sensorLinkLoss k => Sys2Proof.Machine.execSensorLinkLoss k s
  | .openPicture => Sys2Proof.Machine.execOpenPicture s
  | .dispatchBand => Sys2Proof.Machine.execDispatchBand s
  | .chargeBand m => Sys2Proof.Machine.execChargeBand m s
  | .closePicture => Sys2Proof.Machine.execClosePicture s
  | .spillDrain m => Sys2Proof.Machine.execSpillDrain m s
  | .writeSubmit m => Sys2Proof.Machine.execWriteSubmit m s
  | .flush m => Sys2Proof.Machine.execFlush m s
  | .datasetManagement m => Sys2Proof.Machine.execDatasetManagement m s
  | .nvmeCompletion m cid status data => Sys2Proof.Machine.execNvmeCompletion m cid status data s
  | .nvmeTimeout m cid => Sys2Proof.Machine.execNvmeTimeout m cid s
  | .magPresenceLost m => Sys2Proof.Machine.execMagPresenceLost m s
  | .magPresenceStable m => Sys2Proof.Machine.execMagPresenceStable m s
  | .magPowerGood m => Sys2Proof.Machine.execMagPowerGood m s
  | .magPowerTimeout m => Sys2Proof.Machine.execMagPowerTimeout m s
  | .magOvercurrent m => Sys2Proof.Machine.execMagOvercurrent m s
  | .magPerstRelease m => Sys2Proof.Machine.execMagPerstRelease m s
  | .magLinkUp m speed width nvmSet mpsMin mqes => Sys2Proof.Machine.execMagLinkUp m speed width nvmSet mpsMin mqes s
  | .magLinkTimeout m => Sys2Proof.Machine.execMagLinkTimeout m s
  | .magLinkLost m => Sys2Proof.Machine.execMagLinkLost m s
  | .magEject m => Sys2Proof.Machine.execMagEject m s
  | .magShutdownTimeout m => Sys2Proof.Machine.execMagShutdownTimeout m s
  | .tileDispatch => Sys2Proof.Machine.execTileDispatch s
  | .safePointRequest e steps => Sys2Proof.Machine.execSafePointRequest e steps s
  | .statisticsSnapshot cluster => Sys2Proof.Machine.execStatisticsSnapshot cluster s
  | .tileCommit e choice preferRaw => Sys2Proof.Machine.execTileCommit e choice preferRaw s
  | .teFault e u => Sys2Proof.Machine.execTeFault e u s
  | .patchLoadCommit e => Sys2Proof.Machine.execPatchLoadCommit e s
  | .spareSwapIn e => Sys2Proof.Machine.execSpareSwapIn e s
  | .controlStoreScrub cluster halves => Sys2Proof.Machine.execControlStoreScrub cluster halves s
  | .referenceSlotMove slot dest => Sys2Proof.Machine.execReferenceSlotMove slot dest s
  | .slotRelease => Sys2Proof.Machine.execSlotRelease s
  | .shortEviction => Sys2Proof.Machine.execShortEviction s
  | .viewSlotExpiry slot => Sys2Proof.Machine.execViewSlotExpiry slot s
  | .proxyRow m picture slice tail ctus => Sys2Proof.Machine.execProxyRow m picture slice tail ctus s
  | .rtcpSenderReport m => Sys2Proof.Machine.execRtcpSenderReport m s
  | .playbackTileDecode e => Sys2Proof.Machine.execPlaybackTileDecode e s
  | .pictureOutput sess => Sys2Proof.Machine.execPictureOutput sess s
  | .playProgress sess => Sys2Proof.Machine.execPlayProgress sess s
  | .accessUnitDecode sess au => Sys2Proof.Machine.execAccessUnitDecode sess au s
  | .jitterExpiry sess => Sys2Proof.Machine.execJitterExpiry sess s
  | .ethFrameReceive port frame => Sys2Proof.Machine.execEthFrameReceive port frame s
  | .ethLinkChange port up => Sys2Proof.Machine.execEthLinkChange port up s
  | .ptpSync m => Sys2Proof.Machine.execPtpSync m s
  | .ptpFollowUp m => Sys2Proof.Machine.execPtpFollowUp m s
  | .ptpDelayResp m => Sys2Proof.Machine.execPtpDelayResp m s
  | .ptpAnnounce m => Sys2Proof.Machine.execPtpAnnounce m s
  | .ptpDelayReq => Sys2Proof.Machine.execPtpDelayReq s
  | .announceReceiptTimeout => Sys2Proof.Machine.execAnnounceReceiptTimeout s
  | .sluicePick port => Sys2Proof.Machine.execSluicePick port s
  | .tokenAccrual => Sys2Proof.Machine.execTokenAccrual s
  | .kslFlitReceive port flit => Sys2Proof.Machine.execKslFlitReceive port flit s
  | .kslFlitTransmit port => Sys2Proof.Machine.execKslFlitTransmit port s
  | .nakRepeat port => Sys2Proof.Machine.execNakRepeat port s
  | .kslTrainingStep port worstEye worstLane cfg => Sys2Proof.Machine.execKslTrainingStep port worstEye worstLane cfg s
  | .kslTrainingTimeout port laneFailed => Sys2Proof.Machine.execKslTrainingTimeout port laneFailed s
  | .kslTrainingRetry port => Sys2Proof.Machine.execKslTrainingRetry port s
  | .kslLinkLoss port => Sys2Proof.Machine.execKslLinkLoss port s
  | .memRd port => Sys2Proof.Machine.execMemRd port s
  | .memWr port => Sys2Proof.Machine.execMemWr port s
  | .msg port => Sys2Proof.Machine.execMsg port s
  | .evt port => Sys2Proof.Machine.execEvt port s
  | .refTile port => Sys2Proof.Machine.execRefTile port s
  | .kslResponse port => Sys2Proof.Machine.execKslResponse port s
  | .remoteRequestTimeout tag => Sys2Proof.Machine.execRemoteRequestTimeout tag s
  | .sync port => Sys2Proof.Machine.execSync port s
  | .delayReq port => Sys2Proof.Machine.execDelayReq port s
  | .delayResp port => Sys2Proof.Machine.execDelayResp port s
  | .timeSyncSend port => Sys2Proof.Machine.execTimeSyncSend port s
  | .assign port => Sys2Proof.Machine.execAssign port s
  | .report port => Sys2Proof.Machine.execReport port s
  | .refuse port => Sys2Proof.Machine.execRefuse port s
  | .enumerateTimeout => Sys2Proof.Machine.execEnumerateTimeout s
  | .slotBoundary => Sys2Proof.Machine.execSlotBoundary s
  | .pllLocked p => Sys2Proof.Machine.execPllLocked p s
  | .pllLockTimeout p => Sys2Proof.Machine.execPllLockTimeout p s
  | .pllRestart p => Sys2Proof.Machine.execPllRestart p s
  | .functionReady f => Sys2Proof.Machine.execFunctionReady f s
  | .domainRequestWrite ini addr value => Sys2Proof.Machine.execDomainRequestWrite ini addr value s
  | .inrushWrite ini didt value => Sys2Proof.Machine.execInrushWrite ini didt value s
  | .coreRunWrite ini value => Sys2Proof.Machine.execCoreRunWrite ini value s
  | .sleepStandby ini => Sys2Proof.Machine.execSleepStandby ini s
  | .sleepOffWake ini => Sys2Proof.Machine.execSleepOffWake ini s
  | .wake => Sys2Proof.Machine.execWake s
  | .dramPwrOk => Sys2Proof.Machine.execDramPwrOk s
  | .watchdogKick ini value => Sys2Proof.Machine.execWatchdogKick ini value s
  | .watchdogExpiry => Sys2Proof.Machine.execWatchdogExpiry s
  | .powerOnReset ch32 den => Sys2Proof.Machine.execPowerOnReset ch32 den s
  | .deviceReset ch32 den => Sys2Proof.Machine.execDeviceReset ch32 den s
  | .softReset ini ch32 den => Sys2Proof.Machine.execSoftReset ini ch32 den s
  | .referenceLost => Sys2Proof.Machine.execReferenceLost s
  | .thermalTrip => Sys2Proof.Machine.execThermalTrip s
  | .thermalLimit asserted => Sys2Proof.Machine.execThermalLimit asserted s
  | .avsCommand setPoint acks => Sys2Proof.Machine.execAvsCommand setPoint acks s
  | .taborSwapIn => Sys2Proof.Machine.execTaborSwapIn s
  | .sensorLaneRetire => Sys2Proof.Machine.execSensorLaneRetire s
  | .kslLaneRemap => Sys2Proof.Machine.execKslLaneRemap s
  | .sramRepair => Sys2Proof.Machine.execSramRepair s
  | .postPackageRepair copyOk => Sys2Proof.Machine.execPostPackageRepair copyOk s
  | .tapReset => Sys2Proof.Machine.execTapReset s
  | .extest => Sys2Proof.Machine.execExtest s
  | .samplePreload => Sys2Proof.Machine.execSamplePreload s
  | .idcode => Sys2Proof.Machine.execIdcode s
  | .clamp => Sys2Proof.Machine.execClamp s
  | .highz => Sys2Proof.Machine.execHighz s
  | .bypass => Sys2Proof.Machine.execBypass s
  | .referenceReturn => Sys2Proof.Machine.execReferenceReturn s
  | .powerNotGood m => Sys2Proof.Machine.execPowerNotGood m s
  | .controllerReady m => Sys2Proof.Machine.execControllerReady m s
  | .controllerReadyTimeout m => Sys2Proof.Machine.execControllerReadyTimeout m s
  | .shutdownComplete m => Sys2Proof.Machine.execShutdownComplete m s
  | .inboundRequest m addr write => Sys2Proof.Machine.execInboundRequest m addr write s
  | .sensorPacketDiscarded p => Sys2Proof.Machine.execSensorPacketDiscarded p s
  | .agingMonitor k degradation => Sys2Proof.Machine.execAgingMonitor k degradation s
  | .maintenanceRoutineStart e => Sys2Proof.Machine.execMaintenanceRoutineStart e s
  | .tapClock tms tdi pins => Sys2Proof.Machine.execTapClock tms tdi pins s

end Sys2Proof.Machine
end

