-- ==== Sys2Proof/Machine/Tick.lean ====
section
/-! DEFINITION. One fabric cycle of 0.5 ns with no command (log entry 32): the clocks and the time base advance, check units absorb a byte,
engines count their routine cycles, the watchdog and the heartbeat watch expire, and an
uncorrectable word of a setup bank, slot descriptor or ledger is found (R282). -/

namespace Sys2Proof.Machine

/-- The time base after one cycle (R490): 0.5 ns x (1 + f), f in units of 2^-31, no adjustment while it runs free. -/
def State.tickTime (s : State) (c : Clocks) : Clocks :=
  let f : Int := if s.timeSource = 2 then 0 else c.freq
  let v : Int := (2 ^ 32 * c.ns.toNat + c.frac.toNat : Nat) + 2 ^ 31 + f
  { c with freq := f, ns := BitVec.ofInt 64 (v / 2 ^ 32), frac := BitVec.ofInt 32 v }

/-- The other clocks after one cycle (R27): 4 Tabor cycles in 5, and 16 always-on cycles in 15,625. -/
def Clocks.tick (c : Clocks) : Clocks :=
  let t := c.tabPhase + 4
  let a := c.aonPhase + 16
  let c := { c with fab := c.fab + 1, hb := c.hb + 1, tabPhase := t % 5, tab := c.tab + t / 5, aonPhase := a % 15625 }
  { c with aon := c.aon + a / 15625, wdog := c.wdog + a / 15625 }

/-- Tenths of a TE cycle in a fabric cycle (R27, R417). -/
def teStep (econ : Bool) : Nat := if econ then 3 else 6

/-- A running engine that is not held counts TE cycles (R226). -/
def Engine.tick (x : Engine) (n : Nat) : Engine := if x.run = .idle ∨ x.halted then x else { x with busy := x.busy + n }

/-- Every engine that runs counts `n` TE cycles; an engine that is not listed is idle. -/
def State.tickEngines (s : State) (n : Nat) : State :=
  if n = 0 then s else s.engines.foldl (fun s e => s.setEngine e.1 ((s.engine e.1).tick n)) s

/-- The watchdog has counted its period (R431). -/
def State.watchdogDue (s : State) : Bool :=
  decide (s.reg rHdgWdogPeriod ≠ 0) && decide ((s.reg rHdgWdogPeriod).toNat ≤ s.clk.wdog)

/-- 50 ms without a heartbeat of any core, whatever stopped them (R15). -/
def State.heartbeatDue (s : State) : Bool := decide (s.clk.hb = 100000000)

/-- One fabric cycle. -/
def State.tick (s : State) : State :=
  let p := s.clk.tePhase + teStep s.hdg.teEcon
  let c := { (s.tickTime s.clk).tick with tePhase := p % 10 }
  let s := { s.flumeTick with clk := c, cku := (upFrom 0 16).foldl (fun v k => vmodN v k Cku.tick) s.cku }.tickEngines (p / 10)
  if s.watchdogDue then s.watchdogExpires
  else if s.takeActive && s.setupBad then s.faultTake 4 stTimeout
  else if s.heartbeatDue then s.hbLoss
  else s

end Sys2Proof.Machine
end

