-- ==== Sys2Proof/Machine/Step.lean ====
section
/-! DEFINITION. One step of the block: the command at the front of the queue; when none waits, an access that was held and can now be accepted,
or else a fabric cycle (log entry 32). -/

namespace Sys2Proof.Machine

/-- A held command waits for more than its way: a GIVE for its unit or channel (R314, R361), a memory request for a queue entry (R324), a feed for
room (R316), an ARM for the end of a training sequence (R332). -/
def State.cmdWaits (s : State) : Instr → Bool
  | .give _ o h t => s.giveWaits o h t
  | .dramRequest _ cls a _ _ _ _ => !s.dramRoom a.toNat cls.1
  | .arm _ _ _ => s.mc.training.isSome
  | .armCommand _ _ => s.mc.training.isSome
  | .ckuFeed _ k _ => (s.ckuAt k).full
  | .ckuStart _ k => (s.ckuAt k).full
  | .ckuSeed _ k _ => (s.ckuAt k).full
  | _ => false

/-- The wait of a held command is over. -/
def State.canGo (s : State) (h : Held) : Bool := s.mayEnter h.ini h.needs h.point && !s.cmdWaits h.cmd

/-- The first held command whose wait is over, and the state in which it runs: its core goes on. -/
def State.released (s : State) : Option (Instr × State) :=
  match s.onHold.find? s.canGo with
  | some h => some (h.cmd, { s with onHold := s.onHold.erase h }.unstall h.ini)
  | none => none

/-- The command at the front runs on the state with the rest of the queue; without one, a held command whose wait is over, else a fabric
cycle passes. -/
def step (s : State) : Host.Outcome State Fault Refusal :=
  match s.pending with
  | [] => match s.released with
    | some r => exec r.1 r.2
    | none => .next s.tick
  | c :: rest => exec c { s with pending := rest }

/-- The command that a word spells is put at the front of the queue; nothing where the word spells none. -/
def State.withFetchWord (s : State) (nbits w : Nat) : State :=
  match decodeTableWord nbits w with
  | some c => { s with pending := c :: s.pending }
  | none => s

end Sys2Proof.Machine
end

