-- ==== Sys2Proof/Machine/Words.lean ====
section
/-! DEFINITION. The instruction words of the DSN cores (R242-R244): what the word at PC does. The commands of the DSN rows are such words, decoded. -/

namespace Sys2Proof.Machine

/-- The 4 bytes at PC of core `c`, as it would fetch them (R242, R272). -/
def State.wordAtPc (s : State) (c : Core) : BitVec 32 :=
  let pc := (s.getPc c).toNat
  match c with
  | .tabor _ => BitVec.ofNat 32 (leNat ((s.ctlSync pc 4 false).peek pc 4))
  | .bellhouse => BitVec.ofNat 32 (leNat (s.bh.mem.read pc 4))

/-- Core `c` executes the word `w`: the instruction it spells, or ILLEGAL where it spells none (R243). -/
def State.execWord (s : State) (c : Core) (env : ArmEnv) (w : BitVec 32) : Host.Outcome State Fault Refusal :=
  match decodeDsn c env w with
  | some i => exec i s
  | none => .next (s.runDsn c false (fun s => s))

/-- Core `c` executes the word at its PC. -/
def State.execAtPc (s : State) (c : Core) (env : ArmEnv) : Host.Outcome State Fault Refusal := s.execWord c env (s.wordAtPc c)

end Sys2Proof.Machine
end

