-- ==== Sys2Proof/Safety.lean ====
section
/-! DEFINITION. What counts as a sound state and a safe step of the block: the canonical form of its stores and of its other sparse parts,
and steps that go on. -/

namespace Sys2Proof.Machine

/-- The word-protected stores are in canonical form. -/
abbrev State.storesWf (s : State) : Prop := s.dram.wf ∧ s.cisSram.wf ∧ s.ctlSram.wf ∧ s.nvs.wf ∧ s.bh.mem.wf

/-- The registers, the pair latches and holds, the event sources, the engines, Sluice's buckets, the Cistern's buffers and pages, and the
wear counters are in canonical form. -/
abbrev State.mapsWf (s : State) : Prop :=
  mapWf regReset s.regs ∧ mapWf wordZero s.latches ∧ mapWf wordZero s.holds ∧ mapWf srcReset s.srcs ∧ mapWf engineReset s.engines ∧
    mapWf flowReset s.slu.flows ∧ mapWf serviceReset s.slu.services ∧ mapWf noBuf s.cis.bufs ∧ mapWf pageReset s.cis.pages ∧
    mapWf Config.nvsWear s.ras.wear

/-- The block's stores and the maps of `mapsWf` are in canonical form. -/
abbrev State.memWf (s : State) : Prop := s.storesWf ∧ s.mapsWf

/-- A step goes on. -/
def stepsOn (s : State) : Prop := ∃ t, step s = .next t

end Sys2Proof.Machine
end

