-- ==== Sys2Proof/Certificates/Slice0/Obligations.lean ====
section
/-! DEFINITION. The statements for the provers. A statement that gives a whole next state gives the frame with it: what is not named in it
is as before. -/

namespace Sys2Proof.Claims

open Sys2Proof Sys2Proof.Machine

/-- Core `c` executes the instruction at its PC: it runs, logical core 0 does not stall, and the fetch raises nothing. -/
abbrev Runs (s : State) (c : Core) : Prop := s.executes c = true ∧ s.fetchFault c = none

/-- A command's next state. -/
abbrev Gives (c : Instr) (s t : State) : Prop := exec c s = .next t

/-- What an OPA or OPM operation of a Tabor core leaves: rd, the flags with FW, and PC + 4; nothing else changes. -/
def alu64 (s : State) (k : Fin 4) (f : FmtA) (v : DWord) (c o : Bool) : State :=
  let core : Core := .tabor k
  let s := if f.fw then s.setFl core (putFlags (s.getFl core) { z := v = 0, s := v.msb, c := c, o := o }) else s
  (s.setD core f.rd v).nextPc core

/-- Bellhouse's form: 32-bit values. -/
def alu32 (s : State) (f : FmtA) (v : Word) (c o : Bool) : State :=
  let core : Core := .bellhouse
  let s := if f.fw then s.setFl core (putFlags (s.getFl core) { z := v = 0, s := v.msb, c := c, o := o }) else s
  (s.setD core f.rd (v.setWidth 64)).nextPc core

/-- A signed sum, difference or product does not fit `w` bits. -/
abbrev Leaves (w : Nat) (v : Int) : Bool := decide (v < -(2 ^ (w - 1)) ∨ 2 ^ (w - 1) ≤ v)

/-- An integer brought into the s64 range. -/
def sat64 (v : Int) : Int := if v < -(2 ^ 63) then -(2 ^ 63) else if 2 ^ 63 ≤ v then 2 ^ 63 - 1 else v

/-- A TAKE or EVT instruction of core `c` ends: ST, rd and the next instruction (R257). -/
def endX (s : State) (c : Core) (rd : Fin 32) (st : Nat) (v : DWord) : State :=
  ((s.setFl c (putSt (s.getFl c) (BitVec.ofNat 8 st))).setD c rd v).nextPc c

/-- R248: what a load of `n` bytes puts into rt. -/
def loaded (n : Nat) (signed : Bool) (b : List Byte) : DWord :=
  if signed then ((BitVec.ofNat (8 * n) (leNat b)).signExtend 64) else BitVec.ofNat 64 (leNat b)

/-- A register access of initiator `i` at CSR offset `off` is accepted at once: the functions on its way are READY and its interface takes it (R23,
R382). -/
abbrev Enters (s : State) (i : Initiator) (off : Nat) : Prop :=
  s.mayEnter i (s.pathNeeds i (csrBase + off)) (some (s.pointOf (csrBase + off))) = true

/-- No data cache holds control SRAM within `n` bytes at `a`. -/
abbrev Uncached (s : State) (a n : Nat) : Prop := ∀ (j : Fin 4) (l : CacheLine), l ∈ (vget s.cores j).dcache → l.ctlWithin a n = false

/-- The microword that engine `j` fetches next. -/
abbrev Fetched (s : State) (j : Nat) : BitVec 256 := s.microword (s.storeOf j) (s.fetchAddr (s.storeOf j) (s.engine j).seq.uaddr.toNat)

/-- Engine `j`, of a tile routine, fetches a sound microword without a reserved bit, nothing is latched for a safe point, and the word is no 65th since one. -/
abbrev Issues (s : State) (j : Nat) : Prop :=
  let x := s.engine j
  let a := s.fetchAddr (s.storeOf j) x.seq.uaddr.toNat
  a < 0x8400 ∧ s.storeVerdict (s.storeOf j) (2 * a) = .clean ∧ s.storeVerdict (s.storeOf j) (2 * a + 1) = .clean ∧
    mwReserved (Fetched s j) = false ∧ x.seq.maint = false ∧ x.latched = false ∧ (mwSafe (Fetched s j) = true ∨ x.seq.gap < 64)

/-- Every code word of the store is sound. -/
abbrev Sound (m : Store) : Prop := ∀ i, m.syndrome i = 0

/-- The banks of unit `u`. -/
def bankOf (s : State) (u : Nat) : Bank := vgetN Bank.empty s.banks u

/-- The command of opcode `op` with these fields is the oldest visible one, its ring is enabled, the firmware takes it, and the entry at the ring's
head, which no cache holds and reading counts nothing of, spells it (R275) with its reserved bytes 0. -/
abbrev Fronts (s : State) (h : CmdHead) (op : Nat) (fields : List (Nat × List Byte)) : Prop :=
  s.visible.head? = some h.ring ∧ s.ringOn h.ring = true ∧ s.firmwareFree = true ∧ h.reservedZero = true ∧ h.opcode.toNat = op ∧
    ∃ (b : List Byte) (bad : Bool), s.readArea (s.headEntry h.ring) 64 = (s, b, bad) ∧ entrySpells h fields b = true

/-- The command once taken. -/
def cmdOf (s : State) (h : CmdHead) : PendingCmd := { ring := h.ring, gen := vget s.ringGen h.ring, tag := h.tag, opcode := h.opcode }

/-- The entry is taken: TAB_CMD_HEAD advances modulo the ring's entries (R273, R277). -/
def took (s : State) (h : CmdHead) : State :=
  { s with visible := s.visible.drop 1 }.setReg (rTabCmdHead h.ring.1)
    (BitVec.ofNat 32 (((s.reg (rTabCmdHead h.ring.1)).toNat + 1) % 2 ^ s.ringLog2 h.ring))

end Sys2Proof.Claims

open Sys2Proof Sys2Proof.Machine Sys2Proof.Claims

/-! ### The block -/

/-- A step runs the command at the front of the queue on the state with the queue's rest. With an empty queue (the model's choice, log entry 32)
it runs the oldest held command whose wait is over, and where there is none a fabric cycle of 0.5 ns passes. -/
def Obligations.StepRunsFront : Prop :=
  (∀ (c : Instr) (rest : List Instr) (s : State), step { s with pending := c :: rest } = exec c { s with pending := rest }) ∧
  (∀ (s : State) (pre post : List Held) (h : Held), s.pending = [] → s.onHold = pre ++ h :: post → (∀ g ∈ pre, s.canGo g = false) →
     s.canGo h = true → step s = exec h.cmd ({ s with onHold := pre ++ post }.unstall h.ini)) ∧
  (∀ s : State, s.pending = [] → (∀ h ∈ s.onHold, s.canGo h = false) → step s = .next s.tick)

/-! ### Integer operations (R245-R247, R271) -/

/-- R245: the OPA operations of a Tabor core, a = ra and b = rb: sums, differences and logic; shifts by b[5:0], C the last bit shifted out and 0
for a shift by 0; minimum, maximum, comparisons, counts and CMP; a field that must be 0 and is not raises ILLEGAL. -/
def Obligations.OpaOperations : Prop :=
  (∀ (k : Fin 4) (f : FmtA) (s : State), Runs s (.tabor k) → f.rsv = 0 →
     let a := s.getD (.tabor k) f.ra
     let b := s.getD (.tabor k) f.rb
     Gives (.add (.tabor k) f) s (alu64 s k f (a + b) (decide (2 ^ 64 ≤ a.toNat + b.toNat)) (Leaves 64 (a.toInt + b.toInt))) ∧
     Gives (.sub (.tabor k) f) s (alu64 s k f (a - b) (decide (a.toNat < b.toNat)) (Leaves 64 (a.toInt - b.toInt))) ∧
     Gives (.and (.tabor k) f) s (alu64 s k f (a &&& b) false false) ∧
     Gives (.or (.tabor k) f) s (alu64 s k f (a ||| b) false false) ∧
     Gives (.xor (.tabor k) f) s (alu64 s k f (a ^^^ b) false false) ∧
     Gives (.andn (.tabor k) f) s (alu64 s k f (a &&& ~~~b) false false) ∧
     Gives (.addsat (.tabor k) f) s
       (alu64 s k f (BitVec.ofInt 64 (sat64 (a.toInt + b.toInt))) false (Leaves 64 (a.toInt + b.toInt))) ∧
     Gives (.subsat (.tabor k) f) s
       (alu64 s k f (BitVec.ofInt 64 (sat64 (a.toInt - b.toInt))) false (Leaves 64 (a.toInt - b.toInt)))) ∧
  (∀ (k : Fin 4) (f : FmtA) (s : State), Runs s (.tabor k) → f.rsv = 0 →
     let a := s.getD (.tabor k) f.ra
     let n := (s.getD (.tabor k) f.rb).toNat % 64
     Gives (.sll (.tabor k) f) s (alu64 s k f (a <<< n) (decide (n ≠ 0) && a.getLsbD (64 - n)) false) ∧
     Gives (.srl (.tabor k) f) s (alu64 s k f (a >>> n) (decide (n ≠ 0) && a.getLsbD (n - 1)) false) ∧
     Gives (.sra (.tabor k) f) s (alu64 s k f (a.sshiftRight n) (decide (n ≠ 0) && a.getLsbD (n - 1)) false) ∧
     Gives (.ror (.tabor k) f) s (alu64 s k f ((a >>> n) ||| (a <<< (64 - n))) false false)) ∧
  (∀ (k : Fin 4) (f : FmtA) (s : State), Runs s (.tabor k) → f.rsv = 0 →
     let a := s.getD (.tabor k) f.ra
     let b := s.getD (.tabor k) f.rb
     Gives (.min (.tabor k) f) s (alu64 s k f (if b.slt a then b else a) false false) ∧
     Gives (.max (.tabor k) f) s (alu64 s k f (if b.slt a then a else b) false false) ∧
     Gives (.minu (.tabor k) f) s (alu64 s k f (if b < a then b else a) false false) ∧
     Gives (.maxu (.tabor k) f) s (alu64 s k f (if b < a then a else b) false false) ∧
     Gives (.slt (.tabor k) f) s (alu64 s k f (if a.slt b then 1 else 0) false false) ∧
     Gives (.sltu (.tabor k) f) s (alu64 s k f (if a < b then 1 else 0) false false) ∧
     (f.rb ≠ 0 → Gives (.clz (.tabor k) f) s (s.exception (.tabor k) 4 0) ∧ Gives (.popc (.tabor k) f) s (s.exception (.tabor k) 4 0)) ∧
     (f.rd ≠ 0 → Gives (.cmp (.tabor k) f) s (s.exception (.tabor k) 4 0)) ∧
     (f.rb = 0 → Gives (.clz (.tabor k) f) s (alu64 s k f (BitVec.ofNat 64 (clzNat 64 a.toNat)) false false)) ∧
     (f.rb = 0 → Gives (.popc (.tabor k) f) s (alu64 s k f (BitVec.ofNat 64 (popNat 64 a.toNat)) false false)) ∧
     (f.rd = 0 → Gives (.cmp (.tabor k) f) s ((s.setFl (.tabor k) (putFlags (s.getFl (.tabor k))
       { z := a = b, s := (a - b).msb, c := decide (a.toNat < b.toNat), o := Leaves 64 (a.toInt - b.toInt) })).nextPc (.tabor k))))

/-- R246 on a Tabor core, the division corners among it. -/
def Obligations.OpmResults : Prop :=
  ∀ (k : Fin 4) (f : FmtA) (s : State), Runs s (.tabor k) → f.rsv = 0 →
    let a := s.getD (.tabor k) f.ra
    let b := s.getD (.tabor k) f.rb
    Gives (.mul (.tabor k) f) s (alu64 s k f (a * b) false (Leaves 64 (a.toInt * b.toInt))) ∧
    Gives (.mulh (.tabor k) f) s (alu64 s k f (BitVec.ofInt 64 (a.toInt * b.toInt / 2 ^ 64)) false false) ∧
    Gives (.mulhu (.tabor k) f) s (alu64 s k f (BitVec.ofNat 64 (a.toNat * b.toNat / 2 ^ 64)) false false) ∧
    (b = 0 → Gives (.divs (.tabor k) f) s (alu64 s k f 0 false true) ∧ Gives (.divu (.tabor k) f) s (alu64 s k f 0 false true) ∧
      Gives (.rems (.tabor k) f) s (alu64 s k f a false true) ∧ Gives (.remu (.tabor k) f) s (alu64 s k f a false true)) ∧
    (b ≠ 0 → Gives (.divu (.tabor k) f) s (alu64 s k f (a / b) false false) ∧ Gives (.remu (.tabor k) f) s (alu64 s k f (a % b) false false)) ∧
    (a.toInt = -(2 ^ 63) ∧ b.toInt = -1 → Gives (.divs (.tabor k) f) s (alu64 s k f a false true) ∧
      Gives (.rems (.tabor k) f) s (alu64 s k f 0 false true)) ∧
    (b ≠ 0 ∧ (a.toInt ≠ -(2 ^ 63) ∨ b.toInt ≠ -1) →
      Gives (.divs (.tabor k) f) s (alu64 s k f (BitVec.ofInt 64 (a.toInt.tdiv b.toInt)) false false) ∧
      Gives (.rems (.tabor k) f) s (alu64 s k f (BitVec.ofInt 64 (a.toInt.tmod b.toInt)) false false)) ∧
    (∀ func : Fin 32, let p := (a.toInt * b.toInt + 2 ^ func.1) / 2 ^ (func.1 + 1)
      Gives (.fxmul (.tabor k) f func) s (alu64 s k f (BitVec.ofInt 64 (sat64 p)) false (Leaves 64 p)))

/-- R247 on a Tabor core. -/
def Obligations.Immediates : Prop :=
  ∀ (k : Fin 4) (f : FmtI) (u : FmtU) (s : State), Runs s (.tabor k) →
    let c : Core := .tabor k
    let a := s.getD c f.ra
    let n := f.imm.toNat % 64
    let wide := (u.imm.setWidth 64) <<< (16 * u.q.1)
    let wrote := fun (rd : Fin 32) (v : DWord) => (s.setD c rd v).nextPc c
    Gives (.addi c f) s (wrote f.rd (a + f.imm.signExtend 64)) ∧
    Gives (.andi c f) s (wrote f.rd (a &&& f.imm.setWidth 64)) ∧
    Gives (.ori c f) s (wrote f.rd (a ||| f.imm.setWidth 64)) ∧
    Gives (.xori c f) s (wrote f.rd (a ^^^ f.imm.setWidth 64)) ∧
    (f.imm.toNat < 256 → Gives (.shi c f) s (wrote f.rd (match f.imm.toNat / 64 with
      | 0 => a <<< n
      | 1 => a >>> n
      | 2 => a.sshiftRight n
      | _ => (a >>> n) ||| (a <<< (64 - n))))) ∧
    (f.rd = 0 → Gives (.cmpi c f) s ((s.setFl c (putFlags (s.getFl c)
      { z := a = f.imm.signExtend 64, s := (a - f.imm.signExtend 64).msb, c := decide (a.toNat < (f.imm.signExtend 64).toNat),
        o := Leaves 64 (a.toInt - (f.imm.signExtend 64).toInt) })).nextPc c)) ∧
    (256 ≤ f.imm.toNat → Gives (.shi c f) s (s.exception c 4 0)) ∧ (f.rd ≠ 0 → Gives (.cmpi c f) s (s.exception c 4 0)) ∧
    Gives (.callr c f) s ((s.setD c f.rd (s.getPc c + 4)).setPc c (a + f.imm.signExtend 64)) ∧
    (u.rsv = 0 → Gives (.liz c u) s (wrote u.rd wide) ∧ Gives (.lin c u) s (wrote u.rd (~~~wide)) ∧
      Gives (.lii c u) s (wrote u.rd ((s.getD c u.rd &&& ~~~((0xFFFF : DWord) <<< (16 * u.q.1))) ||| wide)))

/-- R271: the OPA and OPM operations of Bellhouse on 32-bit values. -/
def Obligations.BellhouseOperations : Prop :=
  ∀ (f : FmtA) (s : State), Runs s .bellhouse → f.rsv = 0 →
    let a : Word := vget s.bh.d f.ra
    let b : Word := vget s.bh.d f.rb
    let n := b.toNat % 32
    Gives (.add .bellhouse f) s (alu32 s f (a + b) (decide (2 ^ 32 ≤ a.toNat + b.toNat)) (Leaves 32 (a.toInt + b.toInt))) ∧
    Gives (.sub .bellhouse f) s (alu32 s f (a - b) (decide (a.toNat < b.toNat)) (Leaves 32 (a.toInt - b.toInt))) ∧
    Gives (.sll .bellhouse f) s (alu32 s f (a <<< n) (decide (n ≠ 0) && a.getLsbD (32 - n)) false) ∧
    Gives (.sra .bellhouse f) s (alu32 s f (a.sshiftRight n) (decide (n ≠ 0) && a.getLsbD (n - 1)) false) ∧
    (f.rb = 0 → Gives (.clz .bellhouse f) s (alu32 s f (BitVec.ofNat 32 (clzNat 32 a.toNat)) false false)) ∧
    Gives (.mul .bellhouse f) s (alu32 s f (a * b) false (Leaves 32 (a.toInt * b.toInt))) ∧
    (b ≠ 0 → Gives (.divu .bellhouse f) s (alu32 s f (a / b) false false) ∧
      Gives (.remu .bellhouse f) s (alu32 s f (a % b) false false))

/-- R251: BCC by each condition, CALLI; the flags are read and nothing but PC and the link register changes. With the flags of CMP or CMPI (R245,
R247), the conditions compare as signed and as unsigned values. -/
def Obligations.Branches : Prop :=
  (∀ a b : DWord,
    let z : Bool := a = b
    let n := (a - b).msb
    let cy : Bool := a.toNat < b.toNat
    let v := Leaves 64 (a.toInt - b.toInt)
    (n != v) = a.slt b ∧ (n == v) = !a.slt b ∧ (z || (n != v)) = !b.slt a ∧ (!z && (n == v)) = b.slt a ∧
      cy = a.ult b ∧ (!cy) = !a.ult b ∧ (cy || z) = !b.ult a ∧ (!cy && !z) = b.ult a) ∧
  ∀ (c : Core) (f : FmtB) (j : FmtJ) (s : State), Runs s c →
    let fl := s.getFl c
    let z := fl.getLsbD 0
    let n := fl.getLsbD 1
    let cy := fl.getLsbD 2
    let v := fl.getLsbD 3
    let holds : Bool := nth false [true, z, !z, n != v, n == v, z || (n != v), !z && (n == v), cy, !cy, cy || z, !cy && !z, n, !n, v, !v,
      fl.extractLsb' 8 8 == 0] f.cond.1
    Gives (.bcc c f) s (s.setPc c (s.getPc c + (if holds then 4 * f.off.signExtend 64 else 4))) ∧
    Gives (.calli c j) s ((s.setD c j.rd (s.getPc c + 4)).setPc c (s.getPc c + 4 * j.off.signExtend 64))

/-- R243, R271: the instructions that Bellhouse lacks raise ILLEGAL there, and a reserved bit does on every core, as does a word that spells no instruction; a word that spells one is that one's command. -/
def Obligations.IllegalRaised : Prop :=
  ∀ (c : Core) (f : FmtA) (m : FmtM) (x : FmtX) (n : Fin 32) (env : ArmEnv) (w : BitVec 32) (s : State), Runs s c →
    (decodeDsn c env w = none → s.execWord c env w = .next (s.exception c 4 0)) ∧ (∀ i, decodeDsn c env w = some i → s.execWord c env w = exec i s) ∧
    (f.rsv ≠ 0 → Gives (.add c f) s (s.exception c 4 0) ∧ Gives (.mul c f) s (s.exception c 4 0) ∧ Gives (.cmp c f) s (s.exception c 4 0)) ∧
    (c = .bellhouse → ∀ i ∈ [Instr.mulh c f, .divs c f, .rems c f, .fxmul c f n, .ldd c m, .ldws c m, .std c m, .cacheWriteBack c x,
      .cacheInvalidate c x, .cacheWriteBackInvalidate c x, .cacheInstructionInvalidate c x, .strec c x, .commit c x, .mark c x, .markQuery c x,
      .ledg c x, .ledgSnapshot c x, .lcadd c x, .lcswp c x, .lccas c x], Gives i s (s.exception c 4 0))

/-- R268: entering an exception at P1 with XL clear is one step (P0 and XL set bring more, R268, R269). RFX at P1 is the reverse, PC from XPC, P
from PP, XL 0; at P0 it raises PRIV (R266). -/
def Obligations.ExceptionsAndReturn : Prop :=
  (∀ (c : Core) (code : Nat) (a : DWord) (s : State), code ≤ 8 → (s.getStatus c).getLsbD 1 = false → (s.getStatus c).getLsbD 0 = true →
     s.exception c code a =
       (((s.setXpc c (s.getPc c)).setCause c code a).setStatus c 7).setPc c
         ((s.getXvec c &&& ~~~(0xFFF : DWord)) + BitVec.ofNat 64 (64 * code))) ∧
  (∀ (c : Core) (x : FmtX) (s : State), Runs s c → x.rd = 0 → x.ra = 0 → x.rb = 0 → x.sub = 0 →
     (s.atP1 c = true → ∃ t, Gives (.rfx c x) s t ∧ t.getPc c = s.getXpc c ∧ (t.getStatus c).getLsbD 1 = false ∧
       (t.getStatus c).getLsbD 0 = (s.getStatus c).getLsbD 2 ∧ (∀ r, t.getD c r = s.getD c r) ∧ t.getXpc c = s.getXpc c ∧
       t.dram = s.dram ∧ t.ctlSram = s.ctlSram ∧ t.regs = s.regs ∧ t.take = s.take) ∧
     (s.atP1 c = false → Gives (.rfx c x) s (s.exception c 5 0)))

/-- R240, R252: the system registers by number. -/
def Obligations.SystemRegisters : Prop :=
  ∀ (k : Fin 4) (x : FmtX) (s : State), Runs s (.tabor k) → s.atP1 (.tabor k) = true → x.rb = 0 →
    let c : Core := .tabor k
    let n := x.sub.toNat
    let v := s.getD c x.ra
    (x.ra = 0 → Gives (.mfsr c x) s ((s.setD c x.rd (nth 0 [BitVec.ofNat 64 (k.1 + 4 * (s.phys k).1), s.getStatus c, s.getXpc c,
      s.getXcause c, s.getXaddr c, s.getXvec c, BitVec.ofNat 64 (s.clk.tab - (vget s.cores k).cycleBase), BitVec.ofNat 64 s.clk.aon,
      s.getFl c] n)).nextPc c)) ∧
    (x.rd = 0 → Gives (.mtsr c x) s ((if n = 1 then s.setStatus c (v &&& 7) else if n = 2 then s.setXpc c v
      else if n = 5 then s.setXvec c (v &&& ~~~(0xFFF : DWord)) else if n = 8 then s.setFl c (v &&& 0xFF0F) else s).nextPc c))

/-- R252, R254, R255, R256: the fences and an instruction invalidate only go on, and so does a write-back of a line that is clean or not held; a
dirty line of the DRAM window is written back where its way is READY, and an invalidate drops it, whatever it holds. -/
def Obligations.FencesAndCache : Prop :=
  ∀ (k : Fin 4) (x : FmtX) (s : State), Runs s (.tabor k) → x.rd = 0 → x.rb = 0 →
    let c : Core := .tabor k
    let line := (s.getD c x.ra).toNat / 64
    (x.ra = 0 → x.sub = 0 → Gives (.fence c x) s (s.nextPc c)) ∧
    (x.ra = 0 → x.sub = 1 → Gives (.ifence c x) s (s.nextPc c)) ∧
    (x.sub = 3 → Gives (.cacheInstructionInvalidate c x) s (s.nextPc c)) ∧
    (x.sub = 0 → (∀ l, s.cacheLine k line = some l → l.dirty = false) → Gives (.cacheWriteBack c x) s (s.nextPc c)) ∧
    (x.sub = 1 → ∃ t, Gives (.cacheInvalidate c x) s t ∧ t.cacheLine k line = none ∧ (∀ n, n ≠ line → t.cacheLine k n = s.cacheLine k n) ∧
      t.dram = s.dram ∧ t.cisSram = s.cisSram ∧ t.ctlSram = s.ctlSram ∧ t.getPc c = s.getPc c + 4) ∧
    (∀ l, s.cacheLine k line = some l → l.dirty = true → Sound l.mem → 64 * line + 64 ≤ s.window → (∀ i : Nat, s.extBuf i = none) →
      (s.pathNeeds (.core k) (64 * line)).all s.fnReady = true → (∀ (n : Nat) (q : DramReq), q ∈ (s.chn n).queue → q.ini ≠ .core k) →
      (x.sub = 0 → ∃ t, Gives (.cacheWriteBack c x) s t ∧ t.dram = s.dram.write (64 * line) (l.mem.read 0 64) ∧
        t.cacheLine k line = some { l with dirty := false } ∧ t.ctlSram = s.ctlSram ∧ t.regs = s.regs ∧ t.getPc c = s.getPc c + 4) ∧
      (x.sub = 2 → ∃ t, Gives (.cacheWriteBackInvalidate c x) s t ∧ t.dram = s.dram.write (64 * line) (l.mem.read 0 64) ∧
        t.cacheLine k line = none ∧ t.ctlSram = s.ctlSram ∧ t.regs = s.regs ∧ t.getPc c = s.getPc c + 4))

/-- R242, R248, R250, R253: loads and stores at P1. From a sound line that the data cache holds a load gives its bytes, extended, and changes nothing
else; a store changes the low bytes of the line, which is then dirty, and no memory. Where no cache holds the control SRAM line and the line that
leaves for it is not dirty, a load gives the SRAM's bytes and the line is held from then on with a store's bytes in it. R242, R249, R267: an address
that is not aligned to its size raises ALIGN, one in no region ACCESS, on a load and on a store alike, and no memory changes. -/
def Obligations.ControlSramAccess : Prop :=
  (∀ (k : Fin 4) (f : FmtM) (s : State) (l : CacheLine), Runs s (.tabor k) → s.atP1 (.tabor k) = true →
     let c : Core := .tabor k
     let a := (s.addrM c f).toNat
     (s.region a).cached = true → s.cacheLine k (a / 64) = some l → Sound l.mem →
     let got := fun (n : Nat) (g : Bool) => ((s.setD c f.rt (loaded n g (l.mem.read (a % 64) n))).nextPc c)
     let put := fun (i : Instr) (n : Nat) => ∃ t, Gives i s t ∧ t.getPc c = s.getPc c + 4 ∧
       t.cacheLine k (a / 64) = some { l with mem := l.mem.write (a % 64) (leBytes n (s.getD c f.rt).toNat), dirty := true } ∧
       (∀ m, m ≠ a / 64 → t.cacheLine k m = s.cacheLine k m) ∧
       t.dram = s.dram ∧ t.ctlSram = s.ctlSram ∧ t.cisSram = s.cisSram ∧ (∀ r, t.getD c r = s.getD c r) ∧ t.getFl c = s.getFl c ∧ t.regs = s.regs
     (Gives (.ldb c f) s (got 1 false) ∧ Gives (.ldbs c f) s (got 1 true) ∧ put (.stb c f) 1) ∧
     (a % 2 = 0 → Gives (.ldh c f) s (got 2 false) ∧ Gives (.ldhs c f) s (got 2 true) ∧ put (.sth c f) 2) ∧
     (a % 4 = 0 → Gives (.ldw c f) s (got 4 false) ∧ Gives (.ldws c f) s (got 4 true) ∧ put (.stw c f) 4) ∧
     (a % 8 = 0 → Gives (.ldd c f) s (got 8 false) ∧ put (.std c f) 8)) ∧
  (∀ (k : Fin 4) (f : FmtM) (s : State), Runs s (.tabor k) → s.atP1 (.tabor k) = true → s.fnReady 8 = true → s.fnReady 3 = true →
     Sound s.ctlSram → (∀ v, s.victim k = some v → v.dirty = false) →
     let c : Core := .tabor k
     let a := (s.addrM c f).toNat
     let o := a - ctlBase
     ctlBase ≤ a → a < ctlBase + 0x400000 → Uncached s (a / 64 * 64) 64 →
     let same := fun (t : State) => t.getPc c = s.getPc c + 4 ∧ t.dram = s.dram ∧ t.ctlSram = s.ctlSram ∧ t.cisSram = s.cisSram ∧
       t.getFl c = s.getFl c ∧ t.regs = s.regs
     let got := fun (i : Instr) (n : Nat) (g : Bool) => ∃ t, Gives i s t ∧ same t ∧ t.getD c f.rt = loaded n g (s.ctlSram.read o n) ∧
       (∀ r, r ≠ f.rt → t.getD c r = s.getD c r) ∧
       ∃ l, t.cacheLine k (a / 64) = some l ∧ l.dirty = false ∧ l.mem.read 0 64 = s.ctlSram.read (o / 64 * 64) 64
     let put := fun (i : Instr) (n : Nat) => ∃ t, Gives i s t ∧ same t ∧ (∀ r, t.getD c r = s.getD c r) ∧
       ∃ l, t.cacheLine k (a / 64) = some l ∧ l.dirty = true ∧ l.mem.read (a % 64) n = leBytes n (s.getD c f.rt).toNat ∧
         (∀ b, b < 64 → b < a % 64 ∨ a % 64 + n ≤ b → l.mem.readByte b = s.ctlSram.readByte (o / 64 * 64 + b))
     (got (.ldb c f) 1 false ∧ got (.ldbs c f) 1 true ∧ put (.stb c f) 1) ∧
     (a % 2 = 0 → got (.ldh c f) 2 false ∧ got (.ldhs c f) 2 true ∧ put (.sth c f) 2) ∧
     (a % 4 = 0 → got (.ldw c f) 4 false ∧ got (.ldws c f) 4 true ∧ put (.stw c f) 4) ∧
     (a % 8 = 0 → got (.ldd c f) 8 false ∧ put (.std c f) 8)) ∧
  (∀ (k : Fin 4) (f : FmtM) (s : State), Runs s (.tabor k) → s.atP1 (.tabor k) = true →
     let c : Core := .tabor k
     let a := s.addrM c f
     (a.toNat % 8 ≠ 0 → Gives (.ldd c f) s (s.exception c 6 a) ∧ Gives (.std c f) s (s.exception c 6 a)) ∧
     (a.toNat % 4 ≠ 0 → Gives (.ldw c f) s (s.exception c 6 a) ∧ Gives (.stw c f) s (s.exception c 6 a)) ∧
     (a.toNat % 8 = 0 → 2 ^ 48 ≤ a.toNat → Gives (.ldd c f) s (s.exception c 7 a) ∧ Gives (.std c f) s (s.exception c 7 a)))

/-- R264: a LOCK operation at P1 on an aligned sound word of control SRAM that no data cache holds, its way READY: old to rd, ST OK, and the word as
the operation says. -/
def Obligations.LockOperations : Prop :=
  ∀ (k : Fin 4) (x : FmtX) (s : State), Runs s (.tabor k) → s.atP1 (.tabor k) = true → s.ctlSram.wf → x.sub = 0 →
    s.mayEnter (.core k) [8, 3] (some 33) = true →
    let c : Core := .tabor k
    let a := (s.getD c x.ra).toNat
    let old : DWord := BitVec.ofNat 64 (leNat (s.ctlSram.read (a - ctlBase) 8))
    let word := fun (t : State) => (BitVec.ofNat 64 (leNat (t.ctlSram.read (a - ctlBase) 8)) : DWord)
    let done := fun (i : Instr) (new : DWord) => ∃ t, Gives i s t ∧ word t = new ∧ t.getD c x.rd = old ∧ t.getPc c = s.getPc c + 4 ∧
      (t.getFl c).extractLsb' 8 8 = 0 ∧ (t.getFl c).extractLsb' 1 3 = (s.getFl c).extractLsb' 1 3 ∧
      (∀ r, r ≠ x.rd → t.getD c r = s.getD c r) ∧
      (∀ b, b < a - ctlBase ∨ a - ctlBase + 8 ≤ b → t.ctlSram.readByte b = s.ctlSram.readByte b)
    a % 8 = 0 → ctlBase ≤ a → a + 8 ≤ ctlBase + 0x400000 → s.ctlSram.syndrome ((a - ctlBase) / 16) = 0 → Uncached s a 8 →
      done (.lcadd c x) (old + s.getD c x.rb) ∧ done (.lcswp c x) (s.getD c x.rb) ∧
      done (.lccas c x) (if old = s.getD c x.rd then s.getD c x.rb else old)

/-- R262, R263: WAITE claims what is claimable, returns 0 at timeout 0, waits otherwise and ends with TIMEOUT; doorbells and completions, which go
to the event controller's port (R379). -/
def Obligations.EventInstructions : Prop :=
  ∀ (c : Core) (x : FmtX) (s : State), x.rb = 0 → x.sub = 0 →
    let n := (s.getD c x.ra).toNat
    let k := s.claimable (coreTarget c)
    let ended := fun (s : State) (rd : Fin 32) (v st : Nat) =>
      ((s.setFl c (putSt (s.getFl c) (BitVec.ofNat 8 st))).setD c rd (BitVec.ofNat 64 v)).nextPc c
    let port := s.mayEnter (coreIni c) [8, 9] (some 67) = true
    (Runs s c → k ≠ 0 → Gives (.waite c x) s (ended (s.claimSource (coreTarget c) k) x.rd k 0)) ∧
    (Runs s c → k = 0 → n % 2 ^ 32 = 0 → Gives (.waite c x) s (ended s x.rd 0 0)) ∧
    (Runs s c → k = 0 → n % 2 ^ 32 ≠ 0 → Gives (.waite c x) s (s.setRun c (.waiting x.rd (decide (n % 2 ^ 32 ≠ 2 ^ 32 - 1))))) ∧
    (∀ rd, s.coreRun c = .waiting rd true → k = 0 → ∃ t, Gives (.waiteTimeout c) s t ∧ t.coreRun c = .running ∧ t.getD c rd = 0 ∧
      (t.getFl c).extractLsb' 8 8 = BitVec.ofNat 8 stTimeout ∧ t.getPc c = (s.nextPc c).getPc c) ∧
    (Runs s c → port → x.rd = 0 → n < 528 ∨ 1023 < n →
      Gives (.dbell c x) s ((s.setFl c (putSt (s.getFl c) (BitVec.ofNat 8 stBadarg))).nextPc c)) ∧
    (Runs s c → port → x.rd = 0 → 528 ≤ n → n ≤ 1023 → s.take.setup = none →
      Gives (.dbell c x) s (((s.setFl c (putSt (s.getFl c) 0)).nextPc c).raise n)) ∧
    (Runs s c → port → x.rd = 0 → 1 ≤ n → n ≤ 1023 →
      Gives (.evdone c x) s (((s.setFl c (putSt (s.getFl c) 0)).nextPc c).complete (coreTarget c) n)) ∧
    (Runs s c → ¬ port → x.rd = 0 →
      Gives (.dbell c x) s (s.hold (coreIni c) [8, 9] (some 67) (.dbell c x)) ∧
      Gives (.evdone c x) s (s.hold (coreIni c) [8, 9] (some 67) (.evdone c x)))

/-! ### The TAKE group (R257-R261, R286-R293) -/

/-- R288, R290, R291: STREC stores a well-formed, sound record as its unit's shadow bank and returns the unit; out of a setup state it
refuses with STATE. What a core's cache still holds of the image is seen first (R253). COMMIT while LOADED marks exactly the named banks ready. A PXY record names two more images, so its own clause. -/
def Obligations.SetupRecords : Prop :=
  ∀ (k : Fin 4) (x : FmtX) (s : State), Runs s (.tabor k) → x.rb = 0 → x.sub = 0 →
    let c : Core := .tabor k
    let a := (s.getD c x.ra).toNat
    let o := a - ctlBase
    let h := s.ctlSram.read o 64
    let u := leAt h 0 1
    let r := s.ctlSram.read o (leAt h 4 4)
    (s.setupLegal = false → Gives (.strec c x) s (endX (s.ctlSync a 0x400000 false) c x.rd stState 0)) ∧
    (Uncached s a 0x400000 → s.setupLegal = true → a % 64 = 0 → ctlBase ≤ a → a < ctlBase + 0x400000 → recordFormed h o = true → (∀ i, s.ctlSram.syndrome i = 0) →
      s.locked 4 = false → (bankOf s u).ready = false → (bankOf s u).retiring = none → recordCrc r = true →
      (¬ (5 ≤ u ∧ u < 9) → Gives (.strec c x) s (endX
        { s with banks := vsetN s.banks u { bankOf s u with shadow := some { bytes := r, coef := [], lut := [] } } } c x.rd stOk (BitVec.ofNat 64 u))) ∧
      (5 ≤ u ∧ u < 9 → (∀ i, s.dram.syndrome i = 0) → leAt r 120 8 + 2048 ≤ s.window → leAt r 128 8 + 215622 ≤ s.window →
        ∃ t, Gives (.strec c x) s t ∧ (bankOf t u).shadow.map (·.bytes) = some r ∧ t.getD c x.rd = BitVec.ofNat 64 u ∧
          (bankOf t u).ready = false)) ∧
    (s.take.st = .loaded → a < 2 ^ 14 → (∀ u < 14, natBit a u = true → (bankOf s u).shadow.isSome = true) →
      ∃ t, Gives (.commit c x) s t ∧ t.getD c x.rd = s.getD c x.ra ∧ (t.getFl c).extractLsb' 8 8 = 0 ∧ t.getPc c = s.getPc c + 4 ∧
        (∀ u < 14, bankOf t u = if natBit a u then { bankOf s u with ready := true } else bankOf s u) ∧ t.take = s.take ∧ t.dram = s.dram)

/-- R257, R259, R286, R287: ARM out of LOADED refuses with STATE and has no side effect; an ARM that every test passes, with no clock to change,
moves the take to ARMED, and every ready bank is active. The host's ARM command does the same. -/
def Obligations.ArmTakesOver : Prop :=
  ∀ (k : Fin 4) (x : FmtX) (env : ArmEnv) (s : State),
    let c : Core := .tabor k
    let passes := fun (s : State) => s.take.st = .loaded ∧ s.swapping = false ∧
      s.admission s.armSetup (fun u => (bankOf s u).ready) env = 0 ∧ leAt (s.armSetup.bytes unitMc) 17 1 = s.mc.fsp.1 ∧
      s.hdg.teEcon = decide (codeProfile (s.armSetup.bytes unitCode) = 1)
    let moved := fun (s t : State) => t.take.st = .armed ∧ t.take.pics = [] ∧
      (∀ u < 14, (bankOf t u).ready = false ∧ (bankOf t u).active = if (bankOf s u).ready then (bankOf s u).shadow else (bankOf s u).active)
    (Runs s c → x.ra = 0 → x.rb = 0 → x.sub = 0 →
      (s.take.st ≠ .loaded → Gives (.arm c x env) s (endX s c x.rd stState (BitVec.ofNat 64 stState))) ∧
      (passes s → ∃ t, Gives (.arm c x env) s t ∧ moved s t ∧ t.getD c x.rd = 0 ∧ (t.getFl c).extractLsb' 8 8 = 0)) ∧
    (∀ h : CmdHead, Fronts s h 2 [] →
      (s.take.st ≠ .loaded → Gives (.armCommand h env) s ((took s h).post (cmdOf s h) stState true 0)) ∧
      (passes (took s h) → ∃ t, Gives (.armCommand h env) s t ∧ moved s t))

/-- R108-R112, R260, R261: MARK_QUERY returns the descriptor and changes nothing; MARK releases a LONG slot and promotes a SHORT one below
LONG_MAX, and refuses an UNUSED one with STATE; LEDG reads the latch and LEDG_SNAPSHOT fills it first. -/
def Obligations.PoolAndLedgerInstructions : Prop :=
  ∀ (k : Fin 4) (x : FmtX) (i : Fin 16) (s : State), Runs s (.tabor k) → x.rb = 0 →
    let c : Core := .tabor k
    let n := (s.getD c x.ra).toNat
    let free := s.slot i
    let still := (s.slot i).current = false ∧ s.inList i = false ∧ (s.slot i).playing = false
    (x.sub = 0x80 → n = i.1 → Gives (.markQuery c x) s (endX s c x.rd stOk (s.slotDesc i))) ∧
    (x.sub = 0x80 → 16 ≤ n → Gives (.markQuery c x) s (endX s c x.rd stBadarg 0)) ∧
    (n = i.1 → still → free.mark = .long → x.sub = 0 →
      Gives (.mark c x) s (endX (s.modSlot i (fun y => { Slot.unused with base := y.base, size := y.size })) c x.rd stOk 0)) ∧
    (n = i.1 → still → free.mark = .short → x.sub = 2 → (s.slotsWhere Slot.isLong).length < refLongMax (s.active unitRef) →
      ∃ t, Gives (.mark c x) s t ∧ t.slot i = { free with mark := .long } ∧ (∀ j, j ≠ i → t.slot j = s.slot j) ∧
        t.getD c x.rd = t.slotDesc i ∧ (t.getFl c).extractLsb' 8 8 = 0) ∧
    (n = i.1 → free.mark = .unused → x.sub.toNat < 6 → Gives (.mark c x) s (endX s c x.rd stState 0)) ∧
    (∀ e : Fin 5, ∀ m : Fin 2, x.ra = 0 →
      (x.sub.toNat = e.1 + 8 * m.1 → Gives (.ledg c x) s (endX s c x.rd stOk (vget (vget s.cores k).latch e))) ∧
      (x.sub.toNat = e.1 + 8 * m.1 + 16 →
        let g := s.ledgerShown m.1
        let v : Vector DWord 5 := #v[BitVec.ofNat 64 g.fill, BitVec.ofNat 64 g.pend, BitVec.ofNat 64 g.res,
          BitVec.ofNat 64 ((g.sizes.map (·.cap)).getD 0), BitVec.ofNat 64 (sumNat (g.spill.map (fun u => u.bytes.length)))]
        Gives (.ledgSnapshot c x) s (endX (s.modCore k (fun y => { y with latch := v })) c x.rd stOk (vget v e))))

/-! ### Command and completion rings (R273-R284) -/

/-- R273, R276, R277: a completion of an enabled ring with room goes into its slot with the current phase bit, TAB_CPL_TAIL advances, the phase
turns at the end of the ring, and source 21 + k is raised (pending, or claimed at once by a waiting core); with the ring full it waits. -/
def Obligations.CompletionsWritten : Prop :=
  ∀ (s : State) (c : Completion), vget s.ringGen c.ring = c.gen → s.ringOn c.ring = true → s.stalled = [] →
    let k := c.ring.1
    let n := 2 ^ s.ringLog2 c.ring
    let tail := (s.reg (rTabCplTail k)).toNat % n
    let last : Bool := decide (tail + 1 = n)
    let a := (s.reg64 (rTabCplBase k)).toNat + 16 * tail
    ((s.reg (rTabCplTail k)).toNat + 1) % n ≠ (s.reg (rTabCplHead k)).toNat % n →
      (∃ t, s.postEntry c = t ∧ vget t.ringPhase c.ring = (vget s.ringPhase c.ring ^^ last) ∧ t.stalled = [] ∧ t.take = s.take ∧
        ((s.src (21 + k)).en = true → (s.src (21 + k)).st = .idle → (t.src (21 + k)).st = .pending ∨ (t.src (21 + k)).st = .active) ∧
        (s.ctlSram.wf → a % 16 = 0 → ctlBase ≤ a → a + 16 ≤ ctlBase + 0x400000 →
          t.ctlSram.read (a - ctlBase) 16 = c.image (vget s.ringPhase c.ring)) ∧
        (mapWf regReset s.regs → (t.reg (rTabCplTail k)).toNat = (tail + 1) % n)) ∧
    (((s.reg (rTabCplTail k)).toNat + 1) % n = (s.reg (rTabCplHead k)).toNat % n → s.postEntry c = { s with stalled := [c] })

/-- R278-R284, R300: QUERY answers the take state, a slot descriptor and a ledger value, and MAINT op 3 the spare status; out of range is BADARG.
LOAD_PROGRAM while no program is in setup copies the image to offset 0x100000 of control SRAM and judges it then: an unsound one completes with
its status, and of a sound one each running core of its mask enters it at P0. -/
def Obligations.HostCommands : Prop :=
  (∀ (h : CmdHead) (slot field ledger : Byte) (s : State),
     let p := cmdOf s h
     let t := took s h
     (Fronts s h 7 [(16, [0])] →
       Gives (.queryTakeState h) s (t.post p stOk true (BitVec.ofNat 64 (takeCode s.take.st + 256 * s.take.cause.toNat)))) ∧
     (Fronts s h 7 [(16, [1, slot])] →
       (∀ i : Fin 16, slot.toNat = i.1 → Gives (.querySlot h slot) s (t.post p stOk true (t.slotDesc i))) ∧
       (16 ≤ slot.toNat → Gives (.querySlot h slot) s (t.post p stBadarg true 0))) ∧
     (Fronts s h 7 [(16, [2, field, ledger])] →
       (field.toNat ≤ 4 → ledger.toNat ≤ 1 → Gives (.queryLedger h 2 field ledger) s
         (t.post p stOk true (BitVec.ofNat 64 (nth 0 (t.ledgerValues ledger.toNat) field.toNat)))) ∧
       (4 < field.toNat ∨ 1 < ledger.toNat → Gives (.queryLedger h 2 field ledger) s (t.post p stBadarg true 0))) ∧
     (Fronts s h 12 [(16, [3])] → Gives (.maintSpareStatus h 3) s
        ((t.post p stPending false 0).post p stOk true (BitVec.ofNat 64 (t.post p stPending false 0).rasSpare)))) ∧
  (∀ (h : CmdHead) (a : DWord) (n : Word) (s : State), Fronts s h 1 [(16, leBytes 8 a.toNat), (24, leBytes 4 n.toNat)] →
     let p := cmdOf s h
     let t0 := (took s h).post p stPending false 0
     let b := t0.peek a.toNat n.toNat
     (a.toNat + n.toNat ≤ s.window → s.take.st ≠ .idle → s.take.st ≠ .loaded →
       Gives (.loadProgram h a n) s ((took s h).post p stState true 0)) ∧
     (a.toNat + n.toNat ≤ s.window → s.take.st = .idle → s.take.setup = none → t0.readArea a.toNat n.toNat = (t0, b, false) →
       let st := imageFault b ((t0.ctlSync a.toNat n.toNat false).peekBad a.toNat (Nat.min n.toNat 64), false)
       (st ≠ 0 → Gives (.loadProgram h a n) s ((t0.copyImage a.toNat b).post p st true 0)) ∧
       (st = 0 → Uncached t0 programArea n.toNat → ∃ t, Gives (.loadProgram h a n) s t ∧ t.take.setup = some p ∧
         t.take.cores = BitVec.ofNat 4 (leAt b 6 1) ∧ t.ctlSram = t0.ctlSram.write 0x100000 b ∧
         (∀ k : Fin 4, natBit (leAt b 6 1) k.1 = true → s.coreRun (.tabor k) = .running →
           t.getPc (.tabor k) = BitVec.ofNat 64 (programArea + leAt b 12 4) ∧ t.getStatus (.tabor k) = 0 ∧
           (∀ r, t.getD (.tabor k) r = 0)))))

/-- R279, R281, R282: the take's commands and where it goes: ROLL from ARMED, CUT and ABORT and CLOSE, and STATE from any other state. -/
def Obligations.TakeMoves : Prop :=
  ∀ (h : CmdHead) (s : State),
    let p := cmdOf s h
    let refused := (took s h).post p stState true 0
    (Fronts s h 3 [] → s.take.st = .armed → ∃ t, Gives (.roll h) s t ∧ t.take.st = .rolling ∧ t.take.startPtp = s.clk.ns ∧ t.take.nextPic = 0) ∧
    (Fronts s h 3 [] → s.take.st ≠ .armed → Gives (.roll h) s refused) ∧
    (Fronts s h 4 [] → s.take.st = .rolling → s.take.pics ≠ [] → Gives (.cut h) s
      ((((took s h).post p stPending false 0).modTake (fun t => { t with st := .cutting, cause := 0, cutCmd := some p })).raise 528)) ∧
    (Fronts s h 4 [] → s.take.st ≠ .rolling → Gives (.cut h) s refused) ∧
    (Fronts s h 5 [] → s.takeIn [.loaded, .armed, .closed, .faulted] = true → ∃ t, Gives (.close h) s t ∧ t.take.st = .idle ∧
      t.take.setup = none ∧ (∀ i, (s.slot i).pinned = false → (t.slot i).mark = .unused)) ∧
    (Fronts s h 5 [] → s.takeIn [.idle, .rolling, .cutting] = true → Gives (.close h) s refused) ∧
    (Fronts s h 6 [] → s.takeIn [.armed, .rolling, .cutting] = true → ∃ t, Gives (.abort h) s t ∧ t.take.st = .closed ∧
      t.take.pics = [] ∧ t.take.cutCmd = none) ∧
    (Fronts s h 6 [] → s.takeIn [.idle, .loaded, .closed, .faulted] = true → Gives (.abort h) s refused)

/-- R187-R189, R193, R281: PLAY of a block that R188 accepts starts its session; STOP_PLAY stops a running one, which lets the slot it compares go
where no other session compares it, and refuses an idle one. -/
def Obligations.PlayCommands : Prop :=
  ∀ (h : CmdHead) (a : DWord) (k : Byte) (s : State),
    let p := cmdOf s h
    let t0 := took s h
    let b := t0.peek a.toNat 128
    let here := Fronts s h 8 [(16, leBytes 8 a.toNat)] ∧ s.sourceOk a.toNat 128 = true
    let x := vgetN Session.atReset s.sessions k.toNat
    (here → s.take.st ≠ .faulted → t0.readArea a.toNat 128 = (t0, b, false) → t0.playRefusal b (playParams b) = 0 →
      leAt b 0 1 = 0 → (s.mag (playParams b).mag).st = .ready → ∃ t, Gives (.play h a) s t ∧
        (t.session 0).params = some (playParams b) ∧ (t.session 0).cmd = some p ∧ (t.session 0).phase = .identify) ∧
    (here → s.take.st ≠ .faulted → t0.readArea a.toNat 128 = (t0, b, false) → t0.playRefusal b (playParams b) = 0 →
      leAt b 0 1 ≠ 0 → ∃ t, Gives (.play h a) s t ∧
        (vgetN Session.atReset t.sessions (leAt b 0 1)).params = some (playParams b) ∧
        (vgetN Session.atReset t.sessions (leAt b 0 1)).cmd = some p) ∧
    (here → s.take.st ≠ .faulted → t0.readArea a.toNat 128 = (t0, b, false) → t0.playRefusal b (playParams b) ≠ 0 →
      Gives (.play h a) s (t0.post p (t0.playRefusal b (playParams b)) true 0)) ∧
    (here → s.take.st = .faulted → Gives (.play h a) s (t0.post p stState true 0)) ∧
    (Fronts s h 9 [(16, [k])] → k.toNat ≤ 8 → s.take.st ≠ .faulted → x.params.isSome = true → ∃ t, Gives (.stopPlay h k) s t ∧
      vgetN Session.atReset t.sessions k.toNat = { x with stopping := true } ∧
      (∀ i, x.params.bind (·.cmpSlot) = some i →
        (∀ j, j ≠ k.toNat → (vgetN Session.atReset s.sessions j).params.bind (·.cmpSlot) ≠ some i) → (t.slot i).playing = false) ∧
      t.take = s.take ∧ t.dma = s.dma) ∧
    (Fronts s h 9 [(16, [k])] → k.toNat ≤ 8 → x.params = none → Gives (.stopPlay h k) s (t0.post p stState true 0))

/-- R300, R506, R512, R520, R454: ENUMERATE, SET_TAG and MAINT. -/
def Obligations.DeviceCommands : Prop :=
  ∀ (h : CmdHead) (a : DWord) (n : Word) (base epoch off len : Half) (j : Nat) (s : State),
    let p := cmdOf s h
    let t0 := (took s h).post p stPending false 0
    let prop := fun (s : State) => vgetN Proposal.empty s.ras.props j
    let number := fun (op : Byte) => [(16, [op]), (24, leBytes 4 n.toNat)]
    (Fronts s h 10 [(16, leBytes 2 base.toNat), (18, leBytes 2 epoch.toNat)] → epoch ≠ 0 → epoch ≠ s.ksl.epoch →
      s.takeIn [.idle, .loaded, .closed] = true →
      (t0.locked 5 = true → Gives (.enumerate h base epoch) s ((t0.post p stLocked true 0).raise 17)) ∧
      (t0.locked 5 = false → s.ksl.enumCmd = none → ∃ t, Gives (.enumerate h base epoch) s t ∧ t.ksl.epoch = epoch ∧
        ((∀ k, t0.portActive k = false) → t.ksl.enumCmd = none ∧ t.ksl.enumr = none))) ∧
    (Fronts s h 11 [(16, leBytes 8 a.toNat), (24, leBytes 2 off.toNat), (26, leBytes 2 len.toNat)] →
      s.sourceOk a.toNat len.toNat = true → off.toNat + len.toNat ≤ 4096 →
      let r := t0.readArea a.toNat len.toNat
      (r.2.2 = true → Gives (.setTag h a off len) s (r.1.post p stUncorrectable true 0)) ∧
      (let seq : Byte := BitVec.ofNat 8 (Config.unstated 20 r.1.freeCount)
       let t1 := { r.1 with freeCount := r.1.freeCount + 1 }.cisAlloc
         [{ ini := .core 0, owner := 1, cls := 0, size := BitVec.ofNat 32 (Nat.max len.toNat 1) }]
       let hnd := (t1.page 1).result
       r.2.2 = false → hnd ≠ 0xFFFFFFFF → t1.tagBusy = false → t1.locked 2 = false → 1 ≤ len.toNat →
         t1.giveCause 1 hnd 0 = 0 → mapWf regReset t1.regs → ∃ t, Gives (.setTag h a off len) s t ∧ t.tagCmd = some (p, seq) ∧
           t.tagBusy = true ∧ t.reg rTopTagHandle = hnd)) ∧
    (Fronts s h 12 [(16, [0]), (24, leBytes 8 a.toNat), (32, leBytes 4 n.toNat)] → s.sourceOk a.toNat n.toNat = true → s.takeActive = false →
      (t0.locked 1 = true → Gives (.maintPatchLoad h a n) s ((t0.post p stLocked true 0).raise 17)) ∧
      (t0.locked 1 = false →
        let r := t0.readArea a.toNat n.toNat
        Gives (.maintPatchLoad h a n) s { r.1 with maintQueue := t0.maintQueue ++
          [{ kind := .patchLoad { cmd := some p, image := r.2.1, bad := r.2.2 }, abandoned := 0, guarded := false }] })) ∧
    (s.takeActive = false → t0.proposedEntry n = none →
      (Fronts s h 12 (number 1) → Gives (.maintApprove h n) s (t0.post p stBadarg true 0)) ∧
      (Fronts s h 12 (number 2) → Gives (.maintReject h n) s (t0.post p stBadarg true 0))) ∧
    (s.takeActive = false → t0.proposedEntry n = some j → t0.ras.waiting = [] →
      (Fronts s h 12 (number 2) → ∃ t, Gives (.maintReject h n) s t ∧ (prop t).st = .rejected ∧ (prop t).number = n) ∧
      (Fronts s h 12 (number 1) → t0.spareGone (prop t0).kind (prop t0).target.toNat = false →
        ∃ t, Gives (.maintApprove h n) s t ∧ (prop t).st = .approved ∧ (prop t).number = n))

/-- R15, R273, R277, R282, R284: the ring registers, the heartbeat, what its loss and a setup that runs out of time do to the take. -/
def Obligations.RingsAndHeartbeat : Prop :=
  (∀ (ini : Initiator) (k : Fin 4) (v : Word) (s : State),
     let n := 2 ^ s.ringLog2 k
     let old := (s.reg (rTabCmdTail k.1)).toNat
     let new := v.toNat % 4096
     (Enters s ini (rTabHb k.1) → Gives (.heartbeat ini k v) s { s with clk := { s.clk with hb := 0 } }) ∧
     (Enters s ini (rTabCmdTail k.1) → s.ringOn k = true → Gives (.commandTailWrite ini k v) s
       { s.setReg (rTabCmdTail k.1) (BitVec.ofNat 32 new) with visible := s.visible ++ List.replicate ((new + n - old % n) % n) k }) ∧
     (Enters s ini (rTabCmdTail k.1) → s.ringOn k = false → Gives (.commandTailWrite ini k v) s (s.setReg (rTabCmdTail k.1) (BitVec.ofNat 32 new))) ∧
     (Enters s ini (rTabCmdSize k.1) → s.ringOn k = false → 4 ≤ v.toNat → v.toNat ≤ 12 → ∃ t, Gives (.ringEnable ini k v) s t ∧ t.ringLog2 k = v.toNat ∧
       vget t.ringPhase k = true ∧ (mapWf regReset s.regs → t.reg (rTabCmdHead k.1) = 0 ∧ t.reg (rTabCplTail k.1) = 0)) ∧
     (Enters s ini (rTabCmdSize k.1) → s.ringOn k = true → v.toNat % 16 ≠ 0 → Gives (.ringEnable ini k v) s s) ∧
     (Enters s ini (rTabCmdSize k.1) → s.ringOn k = true → mapWf regReset s.regs → ∃ t, Gives (.ringDisable ini k) s t ∧ t.ringLog2 k = 0 ∧ k ∉ t.visible)) ∧
  (∀ (s : State),
     (s.take.st = .idle ∨ s.take.st = .faulted → Gives .heartbeatLoss s (s.raise 10)) ∧
     (s.takeIn [.loaded, .armed, .closed] = true → ∃ t, Gives .heartbeatLoss s t ∧ t.take.st = .faulted ∧ t.take.cause = 1) ∧
     (s.take.st = .rolling → s.take.pics ≠ [] → ∃ t, Gives .heartbeatLoss s t ∧ t.take.st = .cutting ∧ t.take.faultPending = some 1) ∧
     (s.take.setup.isSome = true → s.take.st ≠ .faulted → ∃ t, Gives .setupTimeout s t ∧ t.take.st = .faulted ∧ t.take.cause = 5 ∧
       t.take.setup = none) ∧
     (s.take.setup = none → Gives .setupTimeout s s))

/-! ### The register interface (R5, R496-R514) -/

/-- R23, R29, R36, R382, R501: an access to a register whose way is not READY, or that its initiator's interface does not take yet, waits, and a core
that makes it stalls. R5, R43, R160, R185, R385, R499, R500: one that its way accepts: the write of a register of plain access codes, one of the
routes that the lock or the take refuses, the clear by a read, also of a count of Flume, and the two halves of a pair through the link's latch and
hold. -/
def Obligations.RegisterAccess : Prop :=
  (∀ (i : Initiator) (needs : List Nat) (p : Option Nat) (c : Instr) (s : State),
     (s.hold i needs p c).onHold = s.onHold ++ [⟨i, needs, p, c⟩] ∧ (s.hold i needs p c).regs = s.regs ∧
       (∀ k : Fin 4, i = .core k → s.coreRun (.tabor k) = .running → (s.hold i needs p c).coreRun (.tabor k) = .stalled) ∧
       (i = .bellhouse → s.coreRun .bellhouse = .running → (s.hold i needs p c).coreRun .bellhouse = .stalled)) ∧
  (∀ (ini : Initiator) (v : Word) (addr : BitVec 48) (k : Fin 4) (t : Fin 16) (n : Fin 1024) (b : Bool) (den : Fin 4) (s : State),
     let held := fun (off : Nat) (c : Instr) =>
       ¬ Enters s ini off → Gives c s (s.hold ini (s.pathNeeds ini (csrBase + off)) (some (s.pointOf (csrBase + off))) c)
     let off := addr.toNat - csrBase
     (csrBase ≤ addr.toNat → held off (.registerWrite ini addr v) ∧ held off (.readClear ini addr) ∧ held off (.pairLoRead ini addr) ∧
       held off (.pairHiWrite ini addr v) ∧ held off (.domainRequestWrite ini addr v)) ∧
     held (rTabCmdTail k.1) (.commandTailWrite ini k v) ∧ held (rTabCmdSize k.1) (.ringEnable ini k v) ∧
     held (rTabCmdSize k.1) (.ringDisable ini k) ∧ held (rTabHb k.1) (.heartbeat ini k v) ∧
     held rKeyGate (.keyGate ini v) ∧ held rKeyLock (.keyLock ini v) ∧ held rTopDebug (.topDebugWrite ini v) ∧
     held rTopDbgCtrl (.debugHalt ini v) ∧ held rTopDbgCtrl (.debugRelease ini v) ∧ held rTopTagGo (.topTagGo ini v) ∧
     held rTopTagDone (.topTagDone ini v) ∧ held (rEvcClaim t.1) (.evcClaim ini t) ∧ held (rEvcDone t.1) (.evcDone ini t v) ∧
     held (rEvcSrcCfg n.1) (.evcSrcCfgWrite ini n v) ∧ held rEvcCtrl (.evcDisable ini v) ∧
     held (if b then rHdgInrushDidt else rHdgInrushQ) (.inrushWrite ini b v) ∧ held rHdgCoreRun (.coreRunWrite ini v) ∧
     held rHdgSleep (.sleepStandby ini) ∧ held rHdgSleep (.sleepOffWake ini) ∧ held rHdgWdogKick (.watchdogKick ini v) ∧
     held rHdgReset (.softReset ini b den)) ∧
  (∀ (ini : Initiator) (addr : BitVec 48) (v : Word) (r : RegRow) (s : State),
     let off := addr.toNat - csrBase
     let b := off / 0x10000
     let l := s.link ini
     let s0 := s.flumeAccept l
     csrBase ≤ addr.toNat → addr.toNat < csrBase + 0x400000 → addr.toNat % 4 = 0 → regRowAt off = some r → 4 ≤ b → b ≠ 0x30 →
       s.absentReg off = false → Enters s ini off →
       (r.pair = 0 → b ≠ 0xF → b ≠ 0x31 →
         let written := s0.setReg off (((s0.reg off &&& ~~~(r.rw ||| r.rwl)) ||| (v &&& (r.rw ||| r.rwl))) &&& ~~~(v &&& r.w1c))
         (r.rwl = 0 → Gives (.registerWrite ini addr v) s written) ∧
         (r.rwl ≠ 0 → s.locked r.lock = true → Gives (.registerWrite ini addr v) s
           ((((s0.orReg rKeyStat 8).setReg64 rKeyLockRejAddr (BitVec.ofNat 64 addr.toNat)).bump rKeyLockRejCount 1).raise 17)) ∧
         (r.rwl ≠ 0 → s.locked r.lock = false → s.takeActive = true → Gives (.registerWrite ini addr v) s (s0.orReg rKslStat 0x10)) ∧
         (r.rwl ≠ 0 → s.locked r.lock = false → s.takeActive = false → Gives (.registerWrite ini addr v) s written)) ∧
       (r.pair = 0 → b ≠ 0xF → b ≠ 0x31 →
         let hidden := s.pxyHidden off || s.mirrorHidden off
         (hidden = true → Gives (.readClear ini addr) s s0) ∧
         (hidden = false → flmCount off = true → Gives (.readClear ini addr) s
           ({ s0 with flume := { s0.flume with readAt := mapSet natZero s.flume.readAt off s.clk.fab } }.setReg off 0)) ∧
         (hidden = false → flmCount off = false → r.rc ≠ 0 → Gives (.readClear ini addr) s (s0.setReg off 0)) ∧
         (hidden = false → flmCount off = false → r.rc = 0 → Gives (.readClear ini addr) s s0)) ∧
       (r.pair = 1 → Gives (.pairLoRead ini addr) s
         { s0 with latches := mapSet wordZero s.latches (pairKey l (off + 4)) ((s0.pairVal off).extractLsb' 32 32) }) ∧
       (r.pair = 1 → Gives (.registerWrite ini addr v) s { s0 with holds := mapSet wordZero s.holds (pairKey l off) v }) ∧
       (∀ lo, r.pair = 2 → regRowAt (off - 4) = some lo → Gives (.pairHiWrite ini addr v) s
         ((s0.putFields (off - 4) lo (mapGet wordZero s.holds (pairKey l (off - 4)))).putFields off r v)))

/-- R504-R506: an open key gate accepts one write and closes; without one the write is ignored; an initiator that is not privileged writes
nothing. R227, R514: with EN set, HALT halts an idle engine at once and latches on one that runs a tile routine; a second HALT is ignored with its
event bit; RELEASE lets every held engine go, but is ignored with a new ENGINE. -/
def Obligations.KeysAndHalts : Prop :=
  (∀ (ini : Initiator) (v : Word) (s : State), (∀ off ∈ [rKeyGate, rKeyLock, rTopDebug, rTopTagGo, rTopTagDone], Enters s ini off) →
     let l := (s.link ini).1
     let shut : BitVec 64 := s.gates &&& ~~~(BitVec.twoPow 64 l)
     (s.privileged ini = false →
       ∀ i ∈ [Instr.keyGate ini v, .keyLock ini v, .topDebugWrite ini v, .topTagGo ini v, .topTagDone ini v], Gives i s (s.orReg rKeyStat 0x10)) ∧
     (s.privileged ini = true →
       (v = 0xA7C3 → Gives (.keyGate ini v) s { s with gates := s.gates ||| BitVec.twoPow 64 l }) ∧
       (v ≠ 0xA7C3 → Gives (.keyGate ini v) s ((({ s with gates := shut }.orReg rKeyStat 2).bump rKeyBadCount 1).raise 16)) ∧
       (s.gates.getLsbD l = true → Gives (.keyLock ini v) s ({ s with gates := shut }.orReg rKeyLock (v &&& 0x3F))) ∧
       (s.gates.getLsbD l = true → v.getLsbD 0 = true → Gives (.topDebugWrite ini v) s ({ s with gates := shut }.setReg rTopDebug (v &&& 1))) ∧
       (s.gates.getLsbD l = false → ∀ i ∈ [Instr.keyLock ini v, .topDebugWrite ini v, .topTagGo ini v], Gives i s (s.orReg rKeyStat 4)))) ∧
  (∀ (ini : Initiator) (v : Word) (s : State), s.privileged ini = true → Enters s ini rTopDbgCtrl →
     let e := v.toNat % 512
     let now := s.debugBusy = false ∨ e = (s.reg rTopDbgCtrl).toNat % 512
     ((s.reg rTopDebug).getLsbD 0 = false → Gives (.debugHalt ini v) s s ∧ Gives (.debugRelease ini v) s s) ∧
     ((s.reg rTopDebug).getLsbD 0 = true → v.getLsbD 10 = false → s.debugBusy = false → e < 272 →
       (∀ k t, (s.engine e).run = .capture k t → ∃ u, Gives (.debugHalt ini v) s u ∧ (u.engine e).halt = true ∧
         (u.engine e).run = .capture k t) ∧
       ((s.engine e).run = .idle → ∃ u, Gives (.debugHalt ini v) s u ∧ (u.engine e).halted = true)) ∧
     ((s.reg rTopDebug).getLsbD 0 = true → v.getLsbD 10 = false → s.debugBusy = true → Gives (.debugHalt ini v) s (s.orReg rTopDbgStat 4)) ∧
     ((s.reg rTopDebug).getLsbD 0 = true → v.getLsbD 9 = false → ¬ now → Gives (.debugRelease ini v) s (s.orReg rTopDbgStat 4)) ∧
     ((s.reg rTopDebug).getLsbD 0 = true → v.getLsbD 9 = false → now → mapWf engineReset s.engines →
       ∃ u, Gives (.debugRelease ini v) s u ∧ (∀ j, (u.engine j).halt = false ∧ (u.engine j).halted = false) ∧ u.dram = s.dram))

/-- R505, R511, R512, R523: a tag request hands the buffer to owner 0 and rings doorbell 531, its outcome is reported by Bellhouse, and one NVS
line takes the bytes of a buffer that owner 0 holds. -/
def Obligations.TagAndNvs : Prop :=
  ∀ (ini : Initiator) (v h : Word) (off len : Nat) (x : Buffer) (s : State),
    let go := (s.closeGate (s.link ini)).setReg rTopTagGo ((v.setWidth 8).setWidth 32)
    let hnd := s.reg rTopTagHandle
    let range := (s.reg rTopTagRange).toNat
    let n := off / 64
    let w := s.ras.wearOf n + 1
    let src := s.bufAddr (h.toNat / 2 ^ 29) (h.toNat % 2 ^ 29)
    (Enters s ini rTopTagGo → s.privileged ini = true → s.gates.getLsbD (s.link ini).1 = true → s.tagBusy = false → go.giveCause (ownOwner ini) hnd 0 = 0 →
      range / 65536 % 8192 ≠ 0 → range % 4096 + range / 65536 % 8192 ≤ 4096 → s.locked 2 = false →
      Gives (.topTagGo ini v) s (((go.setHolder hnd 0).setReg rTopTagStat 1).raise 531)) ∧
    (Enters s .bellhouse rTopTagDone → s.tagCmd = none → Gives (.topTagDone .bellhouse v) s
      (((s.setReg rTopTagDone (BitVec.ofNat 32 (v.toNat % 65536))).clrReg rTopTagStat 1).raise 19)) ∧
    (s.buf h.toNat = some x → x.holder = 0 → 1 ≤ len → 0x1000 ≤ off → off % 64 + len ≤ 64 → off < 0x200000 → w < 90000000 →
      (s.readArea src len).1 = s → s.badSpans src len = [] → Sound s.nvs →
      Gives (.nvsWrite h off len []) s
        ({ s.modRas (fun r => r.setWear n w false) with nvs := s.nvs.write off (s.readArea src len).2.1 }.bump rNvsLineWrites 1)) ∧
    (s.buf h.toNat = none → Gives (.nvsWrite h off len []) s s)

/-! ### The event controller (R395-R408) -/

/-- R397-R403, R408: claims, completions, configuration, DISABLE, and the line of a level source, recognised on the FILTER-th sample of a value. -/
def Obligations.EventController : Prop :=
  ∀ (ini : Initiator) (t : Fin 16) (n : Fin 1024) (v : Word) (c : Core) (f : FmtX) (s : State), n ≠ 0 →
    let k := s.claimable t
    let x := s.src n.1
    let held := (x.st = .active ∨ x.st = .repend) ∧ x.target = t
    let ok := (s.setFl c (putSt (s.getFl c) 0)).nextPc c
    (Enters s ini (rEvcDone t.1) →
      (s.claimantOf ini t = true → t.1 ≤ 5 → v.toNat % 1024 = n.1 → ¬held → Gives (.evcDone ini t v) s (s.orReg rEvcStat 1)) ∧
      (s.claimantOf ini t = true → t.1 ≤ 5 → v.toNat % 1024 = n.1 → x.st = .active → x.target = t → isLevel n.1 = false →
        Gives (.evcDone ini t v) s (s.setSrc n.1 { x with st := .idle })) ∧
      (s.claimantOf ini t = true → t.1 ≤ 5 → v.toNat % 1024 = n.1 → x.st = .repend → x.target = t → x.en = true → isLevel n.1 = false →
        Gives (.evcDone ini t v) s (s.toPending n.1).deliver) ∧
      (t.1 ≤ 5 → s.claimantOf ini t = false → Gives (.evcDone ini t v) s (s.orReg rEvcStat 1))) ∧
    (Runs s c → s.mayEnter (coreIni c) [8, 9] (some 67) = true → f.rd = 0 → f.rb = 0 → f.sub = 0 → (s.getD c f.ra).toNat = n.1 →
      coreTarget c = t →
      (¬held → Gives (.evdone c f) s (ok.orReg rEvcStat 1)) ∧
      (x.st = .active → x.target = t → isLevel n.1 = false → Gives (.evdone c f) s (ok.setSrc n.1 { x with st := .idle }))) ∧
    (Enters s ini (rEvcClaim t.1) →
      (t.1 ≤ 5 → k ≠ 0 → Gives (.evcClaim ini t) s (s.claimSource t k)) ∧
      (5 < t.1 ∨ k = 0 → Gives (.evcClaim ini t) s s)) ∧
    (Enters s ini (rEvcSrcCfg n.1) → x.en = false → x.st = .idle → isLevel n.1 = false → Gives (.evcSrcCfgWrite ini n v) s (s.setSrc n.1
      { x with target := fin 16 (v.toNat % 16), filter := v.extractLsb' 4 8, pol := v.getLsbD 13, en := v.getLsbD 12 })) ∧
    (Enters s ini rEvcCtrl → Gives (.evcDisable ini v) s (s.setReg rEvcCtrl (v &&& 1)).deliver) ∧
    (∀ (line : Bool) (m : Nat), isLevel n.1 = true →
      (m < Nat.max 1 x.filter.toNat → Gives (.levelLineChange n ⟨line, m⟩) s s) ∧
      (Nat.max 1 x.filter.toNat ≤ m →
        (s.afterPol n.1 line = true → x.en = true → x.st = .idle →
          Gives (.levelLineChange n ⟨line, m⟩) s ((s.setSrc n.1 { x with raw := true }).toPending n.1).deliver) ∧
        (s.afterPol n.1 line = false → x.st = .pending →
          ∃ u, Gives (.levelLineChange n ⟨line, m⟩) s u ∧ (mapWf srcReset s.srcs → (u.src n.1).st = .idle))))

/-- R396: KALSAL_CLAIM claims the source of its target and gives its EVT packet to the port of EVC_KDEST; with that port not ACTIVE, or nothing to
claim, nothing happens. R113, R446-R449, R457, R501: the packets that arrived, a request of which waits for its way: a remote write of DRAM, a read's answer, messages, events, reference
tiles, and the responses and timeouts of its own requests. -/
def Obligations.KalsalPackets : Prop :=
  (∀ (t : Fin 4) (s : State),
     let tgt := fin 16 (6 + t.1)
     let dst := (s.reg (rEvcKdest t.1)).toNat % 65536
     let k := s.claimable tgt
     (k = 0 ∨ ((s.evtPort dst).filter s.portActive).isNone = true → Gives (.kalsalClaim t) s s) ∧
     (k ≠ 0 → ((s.evtPort dst).filter s.portActive).isSome = true → s.ksl.wait = [] → s.aOutMax ≤ s.ksl.out.length →
       ∃ u, Gives (.kalsalClaim t) s u ∧ u.ksl.wait.map (·.2) = [(tgt, k)] ∧ u.srcs = (s.claimSource tgt k).srcs) ∧
     (k ≠ 0 → ((s.evtPort dst).filter s.portActive).isSome = true → s.ksl.wait = [] → s.ksl.out.length < s.aOutMax →
       ∃ u, Gives (.kalsalClaim t) s u ∧ u.ksl.wait = [] ∧ u.ksl.out = s.ksl.out ++ [s.ksl.nextTag])) ∧
  (∀ (k : Fin 4) (p : Packet) (stamp : DWord) (rest : List (Packet × DWord)) (b : List Byte) (j : Fin 4) (i : Fin 16) (tag : Half) (s s1 s2 : State),
     let s0 := s.dropArrived k
     let a := p.field 16 8
     let t := p.field 18 2
     let reaches := s.mayEnter (.kalsal k) (s.pathNeeds (.kalsal k) a) (some (s.pointOf a)) = true
     ((s.kslPort k).rxq = [] → ∀ c ∈ [Instr.memRd k, .memWr k, .msg k, .evt k, .refTile k, .kslResponse k], Gives c s s) ∧
     ((s.kslPort k).rxq = (p, stamp) :: rest →
       (p.type = 1 → p.rsp = false → reaches → s0.remoteAllowed k false a (p.field 24 2) = (s1, true) →
         s1.readAt (.kalsal k) a (p.field 24 2) = (s2, .ok b) → Gives (.memRd k) s (s2.kslSend (p.answer s1.deviceId stOk b []))) ∧
       (p.type = 1 → p.rsp = false → reaches → 64 < a % 64 + p.field 24 2 → Gives (.memRd k) s (s0.kslSend (p.answer s.deviceId stBadarg [] []))) ∧
       (p.type = 1 → p.rsp = false → ¬ reaches → Gives (.memRd k) s
         (s.hold (.kalsal k) (s.pathNeeds (.kalsal k) a) (some (s.pointOf a)) (.memRd k))) ∧
       (p.type = 2 → p.rsp = false → ¬ reaches → Gives (.memWr k) s
         (s.hold (.kalsal k) (s.pathNeeds (.kalsal k) a) (some (s.pointOf a)) (.memWr k))) ∧
       (p.type = 2 → p.rsp = false → reaches → (∀ (n : Nat) (q : DramReq), q ∈ (s.chn n).queue → q.ini ≠ .kalsal k) → a % 64 + p.payload.length ≤ 64 → s.mpmAllows true true a = true → a < s.window →
         (∀ n : Nat, s.extBuf n = none) → p.bad = [] → ∃ u, Gives (.memWr k) s u ∧ u.dram = s.dram.write a p.payload ∧
           u.ctlSram = s.ctlSram ∧ u.take = s.take) ∧
       (p.type = 3 → ¬ (s.ksl.msgProd % 64 + 1) % 64 = (s.reg rKslMsgCons).toNat % 64 → ∃ u, Gives (.msg k) s u ∧
         u.ksl.msgProd = (s.ksl.msgProd % 64 + 1) % 64) ∧
       (p.type = 3 → (s.ksl.msgProd % 64 + 1) % 64 = (s.reg rKslMsgCons).toNat % 64 → Gives (.msg k) s
         ((s0.orReg rKslStat 2).bump rKslMsgLost 1)) ∧
       (p.type = 4 → p.rsp = false → s.hostPort = some j → s.portActive j = true → Gives (.evt k) s (s0.kslQueue j k.1 p)) ∧
       (p.type = 5 → s0.refSource p = none → Gives (.refTile k) s (s0.refRefuse k 1)) ∧
       (p.type = 5 → s0.refSource p = some j → p.field 16 2 = refSrcRank (s.active unitRef) j.1 → p.field 16 2 < codeRank (s.active unitCode) →
         s0.refGeometry p = true → s0.refAbandoned j (BitVec.ofNat 32 (p.field 20 4)) (BitVec.ofNat 64 (p.field 24 8)) = false →
         s0.refCheck p = true → s0.peerSlot j (BitVec.ofNat 32 (p.field 20 4)) = some i → (s.slot i).mark ≠ .viewIn →
         t ∉ (s.slot i).accepted → ∃ u, Gives (.refTile k) s u ∧ (u.slot i).accepted = (s.slot i).accepted ++ [t] ∧
           (u.slot i).port = k ∧ (∀ n, n ≠ i → u.slot n = s.slot n)) ∧
       (p.type = 1 ∨ p.type = 2 ∨ p.type = 4 → p.rsp = true → (p.tag ∈ s.ksl.out → s.ksl.wait = [] → ∃ u, Gives (.kslResponse k) s u ∧
         u.ksl.out = s.ksl.out.filter (fun r => r ≠ p.tag)) ∧ (p.tag ∉ s.ksl.out → Gives (.kslResponse k) s (s0.orReg rKslStat 8)))) ∧
     (tag ∈ s.ksl.out → s.ksl.wait = [] → Gives (.remoteRequestTimeout tag) s
       (((s.modKsl (fun x => { x with out := x.out.filter (fun r => r ≠ tag) })).orReg rKslStat 4).bump rKslRmtTimeouts 1)) ∧
     (tag ∉ s.ksl.out → Gives (.remoteRequestTimeout tag) s s))

/-! ### Check units (R314-R317) -/

/-- R314-R317: START, SEED and FEED by the owner, a feed that finds no room, a stranger's access, the snoop request, and a beat that the snoop
takes. -/
def Obligations.CheckUnits : Prop :=
  ∀ (ini : Initiator) (k : Fin 16) (v : Word) (b : List Byte) (beat : Beat) (s : State),
    let x := s.ckuAt k
    let own := s.ckuOwns ini k
    (s.mayEnter ini [8, 11] (some 32) = true →
      (own = true → x.queue = [] →
        Gives (.ckuStart ini k) s (s.modCku k (fun x => { x with
          crc := crcBytes 0xFFFFFFFF (leBytes 4 x.pfx.toNat ++ leBytes 4 x.pic.toNat), count := 0 })) ∧
        Gives (.ckuSeed ini k v) s (s.modCku k (fun x => { x with crc := v, count := 0 }))) ∧
      (own = true → x.act = false → b.length = 1 ∨ b.length = 2 ∨ b.length = 4 →
        (x.queue.length < 5 → x.queue = [] ∨ (∃ w ws, x.queue.head? = some (.bytes (w :: ws))) →
          Gives (.ckuFeed ini k b) s (s.modCku k (fun x => { x with queue := x.queue ++ [.bytes b] }))) ∧
        (5 ≤ x.queue.length → Gives (.ckuFeed ini k b) s (s.hold ini [8, 11] none (.ckuFeed ini k b)))) ∧
      (own = true → x.act = true → b.length = 4 → Gives (.ckuFeed ini k b) s (s.orReg (rCkuStat k.1) 4)) ∧
      (own = false → ∀ i ∈ [Instr.ckuStart ini k, .ckuSeed ini k v, .ckuSnoopReq ini k v], Gives i s (s.orReg (rCkuStat k.1) 0x10)) ∧
      (own = true → v.getLsbD 0 = true → s.takeActive = true →
        Gives (.ckuSnoopReq ini k v) s ((s.modCku k (fun x => { x with req := true })).orReg (rCkuStat k.1) 0x40)) ∧
      (own = true → v.getLsbD 0 = true → s.takeActive = false → x.req = false →
        Gives (.ckuSnoopReq ini k v) s (s.modCku k (fun x => { x with req := true, act := true })))) ∧
    (x.act = false → ∀ l d, Gives (.ckuSnoopBeat k l d beat) s s) ∧
    (∀ w : CodeWord, x.act = true → x.sel.getLsbD 9 = true → x.base = 0 → x.limit = BitVec.allOnes 64 → beat.words = [w] →
      beat.enables = BitVec.allOnes 64 → codeChk w.data = w.chk →
      Gives (.ckuSnoopBeat k (fin 64 (x.sel.toNat % 64)) (x.sel.getLsbD 6) beat) s (s.modCku k (fun x => x.takeBytes (wordBytes w.data))))

/-! ### The Cistern (R341-R361) -/

/-- R23, R344, R346-R350, R354: while FLUME and the Cistern are READY one ALLOC grants the lowest free buffer of the smallest pool that fits, or a
null handle (a reserved request that finds no free buffer gets one by the model's choice, log entry 109); FREE by the holder; a FREE by another is
refused with cause 2; GIVE passes a buffer to another owner. Until then they wait. -/
def Obligations.CisternBuffers : Prop :=
  ∀ (r : AllocReq) (p : Nat) (ini : Initiator) (o t : Fin 64) (h : Word) (x : Buffer) (s : State),
    let i := s.freeIndex p
    let serves := ([8, 13] : List Nat).all s.fnReady = true
    let reaches := serves ∧ (viaPage ini = true → s.mayEnter ini [8, 13] (some 32) = true)
    let least := s.cisMin r.owner.1 p
    (serves → i < 2 ^ 29 → poolFor r.size.toNat = some p → (viaPage r.ini = true → s.pageOk r.ini r.owner.1 = true) →
      ((s.charged r.owner.1 p < least ∧ i < s.poolN p) ∨ (least ≤ s.charged r.owner.1 p ∧ (s.cisBp p : Int) < s.shared p) →
        ∃ u, Gives (.alloc [r]) s u ∧ u.buf (bufKey p i) = some { holder := r.owner, charge := r.owner } ∧
          (viaPage r.ini = true → (u.page r.owner).result = handleOf p i ∧ (u.page r.owner).status = 0)) ∧
      ((s.charged r.owner.1 p < least ∧ s.poolN p ≤ i) ∨ (least ≤ s.charged r.owner.1 p ∧ s.shared p ≤ (s.cisBp p : Int)) →
        Gives (.alloc [r]) s ((s.bump (rCisPoolEmpty p) 1).pageResult r.ini r.owner (some 0xFFFFFFFF) stNoresource 0 true))) ∧
    (¬ serves → Gives (.alloc [r]) s (s.hold r.ini [8, 13] none (.alloc [r]))) ∧
    (reaches → (viaPage ini = true → s.pageOk ini o.1 = true) → s.handleOk h = true → isCkuHandle h = false → s.buf h.toNat = some x →
      (x.holder = o → Gives (.free ini o h) s ((s.setBuf h.toNat none).pageResult ini o none stOk 0 false)) ∧
      (x.holder ≠ o → Gives (.free ini o h) s ((s.cisReject h 2 o.1 x.holder.1).pageResult ini o none stState 2 false)) ∧
      (x.holder = o → t.1 < 8 → o ≠ t → s.giveChannel t = none →
        Gives (.give ini o h t) s ((s.pageResult ini o none stOk 0 false).setBuf h.toNat (some { x with holder := t })))) ∧
    (reaches → viaPage ini = true → s.pageOk ini o.1 = false → Gives (.free ini o h) s (s.pageDenied o (some h)) ∧
      Gives (.give ini o h t) s (s.pageDenied o (some h)))

/-! ### DMA and single accesses (R360-R378, R497) -/

/-- R361, R364-R367, R370-R373: a chain starts from its queue, its descriptor is fetched and checked, and a refused one ends the chain with cause
1; a burst moves its bytes; the last response ends the chain with its descriptor's tag; a request without an answer ends it with TIMEOUT; an
answer to nothing is late. R377-R385: the beat of a request within one line waits at its initiator's interface; the next cycle takes it into the
network or, in no region, answers it with an error; and a memory channel queues it as it lands. -/
def Obligations.DmaAndFlume : Prop :=
  (∀ (c : Fin 64) (h : Word) (giver owner : Fin 64) (rest : List (Word × Fin 64 × Fin 64)) (x : DmaChain) (b : List Byte) (s : State),
     let ch := s.chan c
     (ch.chain = none → ch.queue = (h, giver, owner) :: rest → ∃ t y, Gives (.dmaChainStart c) s t ∧ (t.chan c).queue = rest ∧
       (t.chan c).chain = some y ∧ y.handle = h ∧ y.giver = giver ∧ y.descAddr = s.bufAddr (h.toNat / 2 ^ 29) (h.toNat % 2 ^ 29) ∧ y.hops = 0 ∧
       y.desc = none ∧ t.dram = s.dram) ∧
     let s1 := s.modDma c (fun y => { y with nextReq := y.nextReq + 1 })
     (ch.chain = some x → x.desc = none → x.ending = none → x.reqs = [] → s1.memRead (.dma x.actOwner) x.descAddr 64 = (s1, .ok b) →
       (s.descRefused c (decide (x.hops = 0)) (dmaDesc b) = false → ∃ t y, Gives (.dmaDescriptorFetch c) s t ∧ (t.chan c).chain = some y ∧
         y.desc = some (dmaDesc b) ∧ y.hops = x.hops + 1 ∧ y.moved = 0 ∧ y.ending = none) ∧
       (s.descRefused c (decide (x.hops = 0)) (dmaDesc b) = true → ∃ t, Gives (.dmaDescriptorFetch c) s t ∧ (t.chan c).chain = none ∧
         (t.chan c).lastEnd = 1 ∧ (t.chan c).lastStatus = BitVec.ofNat 8 stBadarg)) ∧
     (ch.chain = some x → x.desc = none → x.ending = none → x.reqs = [] → ∃ t, Gives (.dmaTimeout c ch.nextReq) s t ∧ (t.chan c).chain = none ∧
       (t.chan c).lastEnd = 5 ∧ (t.chan c).lastStatus = BitVec.ofNat 8 stTimeout)) ∧
  (∀ (c : Fin 64) (x : DmaChain) (d : DmaDesc) (r : DmaRequest) (s : State),
     let n := Nat.min (256 - (d.dst + x.moved) % 256) (d.count - x.moved)
     ((s.chan c).chain = some x → x.desc = some d → s.dmaInFlight < 32 → s.dmaPick = some c → (∀ i, s.dram.syndrome i = 0) → s.dram.wf →
       (∀ i : Nat, s.extBuf i = none) → (∀ (m : Nat) (q : DramReq), q ∈ (s.chn m).queue → q.ini ≠ .dma x.actOwner) → (d.src + x.moved + n + 63) / 64 * 64 ≤ s.window → d.dst + x.moved + n ≤ s.window →
       ∃ t y, Gives .dmaBurst s t ∧ (t.chan c).chain = some y ∧ y.moved = x.moved + n ∧
         (∀ j < n, t.dram.readByte (d.dst + x.moved + j) = s.dram.readByte (d.src + x.moved + j)) ∧
         (∀ a, a < d.dst + x.moved ∨ d.dst + x.moved + n ≤ a → t.dram.readByte a = s.dram.readByte a)) ∧
     ((s.chan c).chain = some x → x.desc = some d → x.reqs = [r] → x.ending = none → r.refused = false → d.count ≤ x.moved → d.next = 0 →
       ∃ t, Gives (.dmaResponse c r.id false) s t ∧ (t.chan c).chain = none ∧ (t.chan c).lastEnd = 0 ∧ (t.chan c).lastStatus = 0 ∧
         (t.chan c).lastTag = d.tag ∧ (t.chan c).bytes = (s.chan c).bytes + BitVec.ofNat 64 r.bytes) ∧
     ((s.chan c).chain = some x → x.reqs = [r] → x.ending = none → ∃ t, Gives (.dmaTimeout c r.id) s t ∧ (t.chan c).chain = none ∧
       (t.chan c).lastEnd = 5 ∧ (t.chan c).lastStatus = BitVec.ofNat 8 stTimeout) ∧
     ((s.chan c).chain = none → ∀ i, Gives (.dmaResponse c i false) s (((s.bump (rDmaChLate c.1) 1).orReg rDmaStat 2).raise 71))) ∧
  (∀ (ini : Initiator) (cls : Fin 4) (addr : BitVec 48) (len : Nat) (words : List CodeWord) (s : State),
     let a := addr.toNat
     let beat := fun (write : Bool) (b : List Byte) => (⟨s.flume.nextId, true, ini, s.link ini, s.targetLink a, cls, a, len, write, b, [], false,
       s.clk.fab, 0, s.clk.fab, s.clk.fab⟩ : FlumeBeat)
     let waits := fun (b : FlumeBeat) =>
       { s with flume := { s.flume with nextId := s.flume.nextId + 1, req := { s.flume.req with wait := s.flume.req.wait ++ [b] } } }
     0 < len → a % 64 + len ≤ 64 →
       Gives (.flumeRequest ini cls addr false ⟨len, words⟩) s (waits (beat false [])) ∧
       (a % 16 = 0 → len = 16 * words.length → (∀ w ∈ words, codeChk w.data = w.chk) →
         Gives (.flumeRequest ini cls addr true ⟨len, words⟩) s (waits (beat true (words.flatMap (fun w => wordBytes w.data)))))) ∧
  (∀ (b : FlumeBeat) (f : Flume) (s : State), s.flume = f → s.fnReady 8 = true → f.rsp.wait = [] → f.rsp.beats = [] →
     (f.req.wait = [b] → f.req.beats = [] → s.region b.addr = .nowhere → s.flumeTick =
       ({ s with flume := { f with req := { f.req with wait := [] } } }.flumeError b.src).answered b.src b.id true
         (List.replicate (if b.write then 0 else b.len) 0)) ∧
     (f.req.wait = [b] → f.req.beats = [] → s.routerRefuses b.cls b.addr b.len = false → b.first = true →
       (b.cls = 0 → s.creditFree b.ini (s.pointOf b.addr) = true) → s.flumeTick =
         { s with flume := { f with req := { f.req with wait := [], beats := [b.enter s.clk.fab] } } }.flumeAccept b.src) ∧
     (f.req.wait = [] → f.req.beats = [b] → b.stage = 3 → b.ready ≤ s.clk.fab → (s.pathNeeds b.ini b.addr).all s.fnReady = true →
       b.addr < s.window → s.touchOk b.ini (.dram b.addr) = true →
         (s.flumeTick.chn (s.chanOf b.addr)).queue = (s.chn (s.chanOf b.addr)).queue ++ [s.beatRequest b] ∧
           s.flumeTick.flume.req.beats = [] ∧ s.flumeTick.dram = s.dram))

/-! ### The memory controller (R319-R340) -/

/-- R324-R330: a request enters its channel's queue while its class has room and waits otherwise; the channel's command performs the one request that waits, a whole
line written or a line read, and nothing else in DRAM changes (a command performs the whole access by the model's choice, log entry 31). Promotion
by age, owed and forced refreshes, the close of an idle row, and the reads of the tracking. -/
def Obligations.DramCommands : Prop :=
  (∀ (ini : Initiator) (cls : Fin 4) (addr : BitVec 48) (wr : Bool) (b : List Byte) (hint : Option Bool) (ch : Fin 32) (r : DramReq) (s : State),
     let c := s.chanOf addr.toNat
     let q := (s.chn c).queue
     let needs := s.pathNeeds ini addr.toNat
     let cmd := Instr.dramRequest ini cls addr wr (BitVec.allOnes 64) b hint
     let new : DramReq := { id := none, bad := [], ini := ini, cls := cls, addr := addr.toNat, write := wr, enables := BitVec.allOnes 64, bytes := b,
                            close := s.closeHint ini hint, promoted := false }
     let line := r.addr / 64 * 64
     (addr.toNat < s.window → s.touchOk ini (.dram addr.toNat) = true →
       (needs.all s.fnReady = true → queueRoom q cls.1 = true → Gives cmd s (s.modChn c (fun x => { x with queue := x.queue ++ [new] }))) ∧
       (needs.all s.fnReady = false ∨ queueRoom q cls.1 = false → Gives cmd s (s.hold ini needs none cmd))) ∧
     (s.chanServes ch.1 = true → (s.chn ch.1).queue = [r] → (∀ k < 16, vgetN 0 (s.chn ch.1).owed k = 0) → s.dram.wf →
       (r.write = true → r.enables = BitVec.allOnes 64 → r.bytes.length = 64 → (∀ w ∈ r.bad, w < 4) → ∃ t, Gives (.dramCommand ch) s t ∧ (t.chn ch.1).queue = [] ∧
         (∀ i < 64, t.dram.readByte (line + i) = nth 0 r.bytes i) ∧
         (∀ a, a < line ∨ line + 64 ≤ a → t.dram.readByte a = s.dram.readByte a)) ∧
       (r.write = false → ∃ t, Gives (.dramCommand ch) s t ∧ (t.chn ch.1).queue = [] ∧ t.dram = s.dram ∧
         (t.chn ch.1).lastRead = s.dram.read line 64)) ∧
     (s.chanServes ch.1 = false → Gives (.dramCommand ch) s s)) ∧
  (∀ (ch : Fin 32) (bank : Fin 16) (i : Nat) (r : DramReq) (rest : List DramReq) (rate : BitVec 5) (s : State),
     let x := s.chn ch.1
     (x.queue.drop i = r :: rest → r.promoted = false → Gives (.agePromotion ch i) s
       (((s.modChn ch.1 (fun x => { x with queue := modNth (fun r => { r with promoted := true }) x.queue i })).bump rMcAgePromo 1).orReg
         rMcStat 0x80 |>.raise 36)) ∧
     (s.chanRuns ch.1 = true →
       Gives (.refreshOwed ch bank) s (s.modChn ch.1 (fun x => { x with owed := vmodN x.owed bank.1 (· + 1) })) ∧
       Gives (.mr4Read ch rate) s (s.modChn ch.1 (fun x => { x with mr4 := rate })) ∧
       (s.mc.fspPend = none → Gives (.wckOscillatorRead ch) s s ∧ Gives (.zqLatch ch) s s)) ∧
     (s.chanRuns ch.1 = false → Gives (.refreshOwed ch bank) s s ∧ Gives (.mr4Read ch rate) s s ∧ Gives (.wckOscillatorRead ch) s s ∧
       Gives (.zqLatch ch) s s) ∧
     (s.chanServes ch.1 = true → 8 ≤ vgetN 0 x.owed bank.1 → ∃ t, Gives (.forcedRefresh ch bank) s t ∧
       vgetN 0 (t.chn ch.1).owed bank.1 = vgetN 0 x.owed bank.1 - 1 ∧ vgetN none (t.chn ch.1).rows bank.1 = none ∧ t.dram = s.dram) ∧
     (vgetN 0 x.owed bank.1 < 8 → Gives (.forcedRefresh ch bank) s s) ∧
     Gives (.pageIdleClose ch bank) s (s.modChn ch.1 (fun x => { x with rows := vsetN x.rows bank.1 none })))

/-- R331-R334: the boot sequence of a half, a sequence to another FSP and its failure, a request that must wait, and one step of the scrubber
over sound words. -/
def Obligations.DramSequences : Prop :=
  ∀ (rs : List ChanTrain) (t : Training) (f : Fin 3) (s : State),
    (s.halfTrains 0 = true → s.mc.bootedA = false → rs.length = 16 →
      (rs.all (·.pass) = true → ∃ u, Gives (.trainingCommit false rs) s u ∧ u.mc.bootedA = true ∧ u.mc.fsp = 0 ∧ u.mc.trained.getLsbD 0 = true ∧
        (∀ c < 16, (u.chn c).up = true ∧ (u.chn c).selfRefresh = false)) ∧
      (rs.all (·.pass) = false → Gives (.trainingCommit false rs) s (s.modMc (fun m => { m with failedA := true })))) ∧
    (s.halfTrains 0 = false → s.mc.training = some t → rs.length = s.nCh →
      (t.entry = true → rs.all (·.pass) = false → Gives (.trainingCommit false rs) s
        (((s.modMc (fun m => { m with training := some { entry := false, fsp := m.fsp } })).orReg rMcStat 0x20).raise 33)) ∧
      (rs.all (·.pass) = true → s.mc.fspPend = none → ∃ u, Gives (.trainingCommit false rs) s u ∧ u.mc.training = none ∧ u.mc.fsp = t.fsp ∧
        u.mc.trained.getLsbD t.fsp.1 = true)) ∧
    (s.mc.training = some t → Gives (.fspChange f) s ((s.modMc (fun m => { m with fspPend := some f })).bump rMcFspDefers 1)) ∧
    (s.mc.training = none → s.atBoundary = true → s.mcReady = true → f ≠ s.mc.fsp → Gives (.fspChange f) s
      (s.modMc (fun m => { m with fspPend := none, training := some { entry := !s.mc.trained.getLsbD f.1, fsp := f } }))) ∧
    (s.mcReady = true → s.mc.training = none → (∀ i, s.dram.syndrome i = 0) → s.nextGroup s.mc.scrubPtr < s.window →
      Gives .scrubStep s (s.modMc (fun m => { m with scrubPtr := s.nextGroup s.mc.scrubPtr }))) ∧
    (s.mcReady = true → s.mc.training = none → s.window ≤ s.nextGroup s.mc.scrubPtr → ∃ u, Gives .scrubStep s u ∧ u.mc.scrubPtr = 0 ∧
      u.mc.scrubQuiet = false ∧ u.ras.dramCorr = [])

/-! ### The sensor port (R463-R478) -/

/-- R469-R474, R477: a packet whose crc fails, or that is malformed, is discarded with its event whatever it announces, and a link that is not UP
takes nothing. PICTURE_START reserves the next ring slot; a LINE files its parcels, the first numbering the picture of a rolling take; PICTURE_END
of every enabled link ends the picture. -/
def Obligations.SensorPackets : Prop :=
  (∀ (p : SnsPacket) (s : State), ∀ i ∈ [Instr.pictureStart p, .line p, .pictureEnd p, .sensorPacketDiscarded p],
     ((s.snsLink p.link).st ≠ .up → Gives i s s) ∧
     ((s.snsLink p.link).st = .up → 2 ≤ p.n.toNat → crcOk p = false → Gives i s (((s.snsWords p).bump rSnsPktCrc 1).snsEvent 0)) ∧
     ((s.snsLink p.link).st = .up → p.n.toNat < 2 → Gives i s (s.snsEvent 1)) ∧
     ((s.snsLink p.link).st = .up → s.snsJudge p = some .duplicate → Gives i s ((s.snsWords p).snsEvent 2))) ∧
  (∀ (p : SnsPacket) (x : SnsPicture) (s : State), (s.snsLink p.link).st = .up → s.snsJudge p = none →
     let d := snsData p
     let c := s.active unitCode
     let parcels := (s.lineParcels p).map (·.2)
     let j := s.sns.nextSlot
     (pktType p = 1 → s.sns.pic = none → leAt d 16 2 = codeWidth c → leAt d 18 2 = codeHeight c → leAt d 20 1 = codeDepth c →
       leAt d 21 1 = codePeriod c → leAt d 22 1 = codeExposures c → s.ringBusy j = false → ∃ t y, Gives (.pictureStart p) s t ∧
         t.sns.pic = some y ∧ y.slot = some j ∧ y.countPic.toNat = pktCountPic p ∧ y.parcels = [] ∧
         t.sns.nextSlot = (j + 1) % Nat.max 1 s.ringPics) ∧
     (pktType p = 1 → s.sns.pic = none → leAt d 16 2 ≠ codeWidth c → ∃ t y, Gives (.pictureStart p) s t ∧ t.sns.pic = some y ∧ y.slot = none ∧
       t.sns.nextSlot = j) ∧
     (pktType p = 2 → s.sns.pic = some x → x.slot.isSome = true → x.parcels ≠ [] → ∃ t, Gives (.line p) s t ∧
       t.sns.pic = some { x with parcels := x.parcels ++ parcels } ∧ t.take = s.take) ∧
     (pktType p = 2 → s.sns.pic = some x → x.slot.isSome = true → x.parcels = [] → s.take.st = .rolling → (bankOf s 0).ready = false →
       ∃ t, Gives (.line p) s t ∧ t.sns.pic = some { x with
         number := BitVec.ofNat 32 s.take.nextPic, recorded := true, ptp := some s.clk.ns, parcels := parcels } ∧
         t.take.nextPic = s.take.nextPic + 1) ∧
     (pktType p = 3 → s.sns.pic = some x → (∃ k : Fin 4, s.snsEnabled k.1 = true ∧ k ≠ p.link ∧ k ∉ x.ends) → ∃ t, Gives (.pictureEnd p) s t ∧
       t.sns.pic = some { x with ends := x.ends ++ [p.link] }) ∧
     (pktType p = 3 → s.sns.pic = some x → (∀ k : Fin 4, s.snsEnabled k.1 = true → k = p.link ∨ k ∈ x.ends) → ∃ t, Gives (.pictureEnd p) s t ∧
       t.sns.pic = none))

/-- R463-R466, R472, R515: the steps of a sensor link's training, its failure and its loss; a picture that times out ends; a retired bank is
let go once no work of it is left (R292). -/
def Obligations.SensorLinks : Prop :=
  ∀ (k : Fin 4) (eye : Byte) (lane : Fin 52) (skew : BitVec 9) (u : Fin 14) (s : State),
    let x := s.snsLink k
    (x.st = .down → s.snsEnabled k.1 = true → (s.dom 7).st = .on → ∃ t, Gives (.sensorDownWait k) s t ∧ (t.snsLink k).st = .equalize ∧
      (t.snsLink k).first = s.snsLane k.1 0 ∧ (t.snsLink k).lanes = s.cfg unitSns (17 + k.1) 1) ∧
    (x.st = .equalize → ∃ t, Gives (.sensorEqualizeDone k eye lane) s t ∧ (t.snsLink k).st = .align ∧ (t.snsLink k).worstEye = eye ∧
      (t.snsLink k).worstLane = lane.1) ∧
    (x.st = .align → Gives (.sensorAlignDone k skew) s ((s.modLink k (fun x => { x with st := .up, skew := skew })).raise (128 + k.1))) ∧
    (x.st ≠ .align → Gives (.sensorAlignDone k skew) s s) ∧
    (x.st = .equalize ∨ x.st = .align → ∃ t, Gives (.sensorTrainTimeout k) s t ∧ (t.snsLink k).st = .down ∧ t.sns.pic = none) ∧
    (x.st = .up → ∃ t, Gives (.sensorLinkLoss k) s t ∧ (t.snsLink k).st = .down ∧ t.sns.pic = none) ∧
    (x.st ≠ .up → Gives (.sensorLinkLoss k) s s) ∧
    (s.sns.pic.isSome = true → ∃ t, Gives .picTimeout s t ∧ t.sns.pic = none ∧ t.sns.links = s.sns.links) ∧
    (s.sns.pic = none → Gives .picTimeout s s) ∧
    ((bankOf s u.1).retiring.isSome = true → s.oldWork u.1 = false → ∃ t, Gives (.bankRetire u) s t ∧
      bankOf t u.1 = { bankOf s u.1 with retiring := none } ∧ t.take = s.take)

/-! ### The ledger, the take log and the magazine ports (R140-R160, R479-R493) -/

/-- R144, R151, R155: an opening that fits credits the elapsed cycles, charges H and holds the rest of F_max; one that does not fit waits and
counts once; with the spill area near full the picture is dropped. -/
def Obligations.LedgerOpening : Prop :=
  ∀ (p : Picture) (s : State), s.nextToOpen = some p → s.take.st = .rolling →
    let m := s.ledgerOf p.number
    let l := s.ledger m
    let l2 := l.fill - l.credit s.clk.fab
    s.ledgerFree m = true → l.sizes.isSome = true → s.logRoom m = true → p.dropped = none →
      (s.dropTest m = false → l2 + l.pend + l.sz.fMax ≤ l.sz.cap → ∃ t, Gives .openPicture s t ∧ (t.ledger m).fill = l2 + l.sz.h ∧
        (t.ledger m).res = l.sz.fMax - l.sz.h ∧ (t.ledger m).pend = l.pend ∧ (t.ledger m).tLast = s.clk.fab ∧ t.take.lastPtp = p.ptp ∧
        t.take.pics.length = s.take.pics.length ∧ (∃ q ∈ t.take.pics, q.number = p.number ∧ q.opened = true)) ∧
      (s.dropTest m = false → l.sz.cap < l2 + l.pend + l.sz.fMax → l.waited = false →
        Gives .openPicture s ((s.modLedger m (fun l => { l with waited := true })).bump (rMagLdgOpenWaits m.1) 1)) ∧
      (s.dropTest m = false → l.sz.cap < l2 + l.pend + l.sz.fMax → l.waited = true → Gives .openPicture s s) ∧
      (s.dropTest m = true → l2 + l.pend + l.sz.z ≤ l.sz.cap → ∃ t, Gives .openPicture s t ∧ (t.ledger m).fill = l2 ∧
        (t.ledger m).res = l.sz.z ∧ (∃ q ∈ t.take.pics, q.number = p.number ∧ q.dropped = some 1))

/-- R144, R146, R152: a band's grant is G where it fits above the reserve and F, the floor, where it does not; its tiles join the queue; the
charge of a band releases its grant and adds its log bytes. -/
def Obligations.LedgerBands : Prop :=
  ∀ (p : Picture) (g : Grant) (m : Fin 2) (s : State),
    let c := s.active unitCode
    (s.nextToDispatch = some p → s.ledgerOf p.number = m → (s.ledger m).grants.length < 4 → s.tileReady p (p.nextBand * tilesX c) = true →
      let l := s.ledger m
      let f := nth 0 l.sz.f p.nextBand
      let gg := nth 0 l.sz.g p.nextBand
      let tiles := (bandTiles c p.nextBand).map (fun t => (p.number, t))
      let fits : Bool := decide (l.fill + l.pend + gg + (l.res - f) ≤ l.sz.cap)
      let amount := if codeMode c ≠ 2 ∧ fits then gg else f
      ∃ t, Gives .dispatchBand s t ∧ (t.ledger m).res = l.res - f ∧ (t.ledger m).pend = l.pend + amount ∧ (t.ledger m).fill = l.fill ∧
        t.tileQueue = s.tileQueue ++ tiles ∧ (t.ledger m).grants =
          l.grants ++ [{ picture := p.number, band := p.nextBand, amount := amount, floor := decide (codeMode c ≠ 2) && !fits }]) ∧
    (s.oldest m = some p → (s.ledger m).grants.find? (fun x : Grant => x.picture = p.number && x.band = p.charged.length) = some g →
      p.dropped = none → p.bandFinal c p.charged.length = true → ∃ t, Gives (.chargeBand m) s t ∧
        (t.ledger m).pend = (s.ledger m).pend - g.amount ∧ (t.ledger m).fill = (s.ledger m).fill + p.bandLog c p.charged.length ∧
        g ∉ (t.ledger m).grants) ∧
    (s.oldest m = none → Gives (.chargeBand m) s s)

/-- R144, R154, R279: the close of a picture in the ledger of a single or mirrored take, its record once every band is charged, and the drain
of the spill area. -/
def Obligations.LedgerCloses : Prop :=
  ∀ (p : Picture) (u : LogUnit) (s : State),
    let n := tilesY (s.active unitCode)
    let l := s.ledger 0
    let first := s.take.pics.find? (fun p : Picture => p.opened && !p.closing && decide (s.ledgerOf p.number = 0))
    (s.arrangement ≠ 2 → first = some p → s.oldest 0 = some p → p.dropped = none → p.nextBand = n → p.charged.length ≠ n →
      ∃ t, Gives .closePicture s t ∧ (t.ledger 0).res = 0 ∧ (t.ledger 0).pend = l.pend + l.sz.z ∧ (t.ledger 0).fill = l.fill) ∧
    (s.arrangement ≠ 2 → first = none → s.oldest 0 = some p → s.take.st = .rolling → p.closing = true → p.dropped = none →
      p.charged.length = n → ∃ t, Gives .closePicture s t ∧ t.take.lastRecorded = some p.number ∧
        (∀ q ∈ t.take.pics, q.number ≠ p.number)) ∧
    (s.arrangement = 0 → l.spill = u :: l.spill.drop 1 → u.given = false → s.ledgerPending 0 = 0 → ∃ t, Gives (.spillDrain 0) s t ∧
      (t.ledger 0).spill = l.spill.drop 1 ∧ (t.log 0).units = (s.log 0).units ++ [{ u with other := none }]) ∧
    (l.spill = [] → Gives (.spillDrain 0) s s)

/-- R25, R304, R483, R484, R486: the commands that a READY port submits: a unit that one Write holds, its bad words as zeros, a Flush once earlier Writes are done, up to 256
ranges of Dataset Management; a port that is not READY submits none. -/
def Obligations.LogSubmits : Prop :=
  ∀ (m : Fin 2) (u : LogUnit) (us : List LogUnit) (due : Nat) (dues : List Nat) (s : State),
    let x := s.mag m
    let g := s.active unitLog
    let lba := lbaOf g m.1 u.addr
    let per := Nat.max 1 (logLbaBytes g m.1)
    let cmd := fun (q : Nat) (op : Byte) (a nlb bytes : Nat) (why : NvmePurpose) =>
      ({ cid := x.nextCid, order := x.nextCid, queue := q, opcode := op, nsid := BitVec.ofNat 32 (logNsid g m.1), slba := a, nlb := nlb, bytes := bytes, tries := 0,
         purpose := why } : NvmeCmd)
    (x.st = .ready → (s.log m).units = u :: us → 0 < x.room x.nextQueue → 0 < u.bytes.length → u.bytes.length ≤ x.maxBytes →
      u.bytes.length ≤ extentLeft g m.1 (logExtents g m.1) 0 u.addr → x.undone lba (u.bytes.length / per) = false →
      ∃ t, Gives (.writeSubmit m) s t ∧ (t.log m).units = us ∧
        (t.mag m).cmds = x.cmds ++ [cmd x.nextQueue 1 lba (u.bytes.length / per - 1) u.bytes.length (.write { u with bytes := zeroWords u.bytes u.bad, bad := [] } true)] ∧
        (t.mag m).nextQueue = x.rotateQueue) ∧
    (x.st = .ready → x.flushDue = due :: dues → 0 < x.room 2 → x.cmds.any (fun c => c.isWrite && decide (c.order < due)) = false →
      ∃ t, Gives (.flush m) s t ∧ (t.mag m).flushDue = dues ∧ (t.mag m).cmds = x.cmds ++ [cmd 2 0 0 0 0 .flushCmd]) ∧
    (x.st = .ready → x.dsmTodo ≠ [] → 0 < x.room 2 → ∃ t, Gives (.datasetManagement m) s t ∧ (t.mag m).dsmTodo = x.dsmTodo.drop 256 ∧
      (t.mag m).cmds = x.cmds ++ [cmd 2 9 0 0 0 (.dsm (x.dsmTodo.take 256))]) ∧
    (x.st ≠ .ready → Gives (.writeSubmit m) s s ∧ Gives (.flush m) s s ∧ Gives (.datasetManagement m) s s)

/-- R487, R492: a Write that completes leaves the port and counts; one that fails is tried again up to three times, under a new identifier with a timer of its own (R41); a timeout fails the port and
loses its commands; a completion that names no command, and a request from the drive for no named page. -/
def Obligations.NvmeOutcomes : Prop :=
  ∀ (m : Fin 2) (c : NvmeCmd) (u : LogUnit) (last : Bool) (cid : Nat) (status : Half) (data : List Byte) (addr : BitVec 48) (s : State),
    let x := s.mag m
    let found := x.cmds.find? (fun y => y.cid = cid) = some c
    let quiet := (s.session 0).params = none
    (found → c.purpose = .write u last → nvmeCode status = 0 → quiet → s.take.st = .rolling → ∃ t,
      Gives (.nvmeCompletion m cid status data) s t ∧ (t.mag m).cmds = x.cmds.filter (fun y => y.cid ≠ cid) ∧ t.take.st = .rolling) ∧
    (found → c.purpose = .write u last → nvmeCode status ≠ 0 → nvmeDnr status = false → c.tries < 3 → x.st = .ready → quiet → ∃ t,
      Gives (.nvmeCompletion m cid status data) s t ∧ (t.mag m).st = .ready ∧
        (t.mag m).cmds = x.cmds.map (fun y => if y.cid = cid then { y with cid := x.nextCid, tries := y.tries + 1 } else y)) ∧
    (found → c.purpose = .write u last → x.st = .ready → ∃ t, Gives (.nvmeTimeout m cid) s t ∧ (t.mag m).st = .failed ∧ (t.mag m).cmds = []) ∧
    (x.cmds.find? (fun y => y.cid = cid) = none →
      Gives (.nvmeCompletion m cid status data) s s ∧ Gives (.nvmeTimeout m cid) s s) ∧
    Gives (.inboundRequest m addr true) s (s.orReg (rMagPortStat m.1) 0x20000) ∧
    (x.cmds = [] → Gives (.inboundRequest m addr false) s (s.orReg (rMagPortStat m.1) 0x20000))

/-- R480-R482, R487: the port states from a drive's presence to its link, with no other part of the block touched, and the ways a port leaves
service: no power, overcurrent, no link, the drive gone, the eject. -/
def Obligations.MagazinePorts : Prop :=
  (∀ (m : Fin 2) (speed : Fin 8) (width : Fin 9) (mps mqes : Nat) (s : State),
     let x := s.mag m
     (x.st = .absent → (s.dom 8).st = .on → Gives (.magPresenceStable m) s
       ((s.modMag m (fun p => { p with st := .powering, present := true, gate := true, eject := .none })).bump (rMagInsertions m.1) 1)) ∧
     (x.st ≠ .absent → Gives (.magPresenceStable m) s s) ∧
     (x.st = .powering → Gives (.magPowerGood m) s (s.modMag m (fun p => { p with st := .training, refclk := true }))) ∧
     (x.st ≠ .powering → Gives (.magPowerGood m) s s) ∧
     (x.st = .training → Gives (.magPerstRelease m) s (s.modMag m (fun p => { p with perstN := true }))) ∧
     (x.st = .training → x.perstN = true → mps ≤ 4096 → Gives (.magLinkUp m speed width true mps mqes) s
       (s.modMag m (fun p => { p with st := .init, speed := speed.1, width := width.1, mqes := mqes, initStep := 2 }))) ∧
     (x.st = .training → x.perstN = true → 4096 < mps → ∃ t, Gives (.magLinkUp m speed width true mps mqes) s t ∧ (t.mag m).st = .failed) ∧
     (x.st = .training → x.perstN = false → Gives (.magLinkUp m speed width true mps mqes) s s) ∧
     (x.st = .init → x.initStep = 2 → ∃ t, Gives (.controllerReady m) s t ∧ (t.mag m).initStep = 4 ∧
       (t.mag m).cmds.map (·.purpose) = x.cmds.map (·.purpose) ++ [.identify]) ∧
     (x.st = .init → x.initStep = 2 → ∃ t, Gives (.controllerReadyTimeout m) s t ∧ (t.mag m).st = .failed)) ∧
  (∀ (m : Fin 2) (s : State),
     let x := s.mag m
     let goes := fun (i : Instr) (st : MagState) => ∃ t, Gives i s t ∧ (t.mag m).st = st ∧ (t.mag m).cmds = []
     (x.st = .powering → goes (.magPowerTimeout m) .fault) ∧ (x.st ≠ .powering → Gives (.magPowerTimeout m) s s) ∧
     (x.gate = true → goes (.magOvercurrent m) .fault) ∧ (x.gate = false → Gives (.magOvercurrent m) s s ∧ Gives (.powerNotGood m) s s) ∧
     (x.gate = true → x.st ≠ .powering → goes (.powerNotGood m) .fault) ∧ (x.st = .powering → Gives (.powerNotGood m) s s) ∧
     (x.st = .training → x.perstN = true → goes (.magLinkTimeout m) .failed) ∧
     (x.st = .ready ∨ x.st = .init → goes (.magLinkLost m) .failed) ∧
     (x.st ≠ .absent → goes (.magPresenceLost m) .absent ∧ ∃ t, Gives (.magPresenceLost m) s t ∧ (t.mag m).present = false ∧
       (t.mag m).gate = false ∧ (t.mag m).perstN = false) ∧
     (x.st = .ready → x.eject = .none → s.usesMag m = false → 0 < x.ioq → ∃ t, Gives (.magEject m) s t ∧ (t.mag m).eject = .deleting ∧
       (t.mag m).cmds.map (·.purpose) = [.deleteQueues] ∧ (t.mag m).st = .ready) ∧
     (s.usesMag m = true → ∃ t, Gives (.magEject m) s t ∧ t.mags = s.mags) ∧
     (x.eject = .shutdown → ∀ i ∈ [Instr.shutdownComplete m, .magShutdownTimeout m], goes i .failed ∧ ∃ t, Gives i s t ∧ (t.mag m).eject = .done ∧
       (t.mag m).gate = false) ∧
     (x.eject ≠ .shutdown → Gives (.shutdownComplete m) s s ∧ Gives (.magShutdownTimeout m) s s))

/-! ### Tile engines, control stores and the reference pool (R100-R117, R209-R237) -/

/-- R214, R226, R231-R233, R237: TILE_DISPATCH gives the front tile to the next engine, which enters its capture routine; at a safe point with a
latched stop the routine ends, elsewhere nothing of it is taken; a snapshot clears the busy count; a commit hands the unit over and frees the
engine; a sequence fault takes the engine out of service, a parity error of a register is latched. -/
def Obligations.TileEngines : Prop :=
  ∀ (p : Picture) (k t : Nat) (e : Fin 272) (n : Fin 17) (q : List (Nat × Nat)) (m : MicroStep) (cs : List BlockChoice) (raw : Bool)
    (u : EngineUpset) (steps : List MicroStep) (s : State), mapWf engineReset s.engines →
    let x := s.engine e.1
    (s.tileQueue = [] → Gives .tileDispatch s s) ∧
    (s.tileQueue = (k, t) :: q → s.picOf k = some p → p.dropped = none → s.tileReady p t = true →
      (s.nextEngine = none → Gives .tileDispatch s s) ∧
      (s.nextEngine = some e.1 → x.run = .idle → x.halted = false → ∃ v, Gives .tileDispatch s v ∧ v.tileQueue = q ∧
        (v.engine e.1).run = .capture k t ∧ (v.engine e.1).seq = x.seq.enter 0 ∧ v.take = s.take ∧ v.dram = s.dram)) ∧
    (x.run = .idle → Gives (.safePointRequest e steps) s s ∧ Gives (.teFault e u) s s ∧ Gives (.tileCommit e cs raw) s s) ∧
    (x.run = .capture k t → x.halted = false → x.fault = none → x.preempt = none → x.snapshot = false → x.halt = false →
      (x.stop = false ∨ s.atSafePoint e.1 = false → Gives (.safePointRequest e []) s s) ∧
      (x.stop = true → s.atSafePoint e.1 = true → Gives (.safePointRequest e []) s (s.setEngine e.1 { x with stop := false, run := .idle }))) ∧
    ((∀ i < 16, (s.engine (16 * n.1 + i)).run = .idle) → mapWf regReset s.regs → ∃ v, Gives (.statisticsSnapshot n) s v ∧
      ∀ i < 16, (v.engine (16 * n.1 + i)).busy = 0 ∧
        v.reg (rTeSnapBusy n.1 i) = BitVec.ofNat 32 (s.engine (16 * n.1 + i)).busy) ∧
    (x.run = .capture k t → x.halted = false → x.stop = false → x.fault = none → s.picOf k = some p → p.dropped = none →
      (s.tileArrived p t true = false → Gives (.tileCommit e cs raw) s s) ∧
      (s.tileArrived p t true = true → ∃ v, Gives (.tileCommit e cs raw) s v ∧ (v.engine e.1).run = .idle ∧
        ∃ y ∈ v.take.pics, y.number = k ∧ y.units.map (·.tile) = p.units.map (·.tile) ++ [t])) ∧
    (x.run = .capture k t → x.halted = false → x.out = none → s.atBoundary = false →
      (Issues s e.1 → 9 ≤ mwSeq (Fetched s e.1) → ∃ v, Gives (.teFault e (.issue [m])) s v ∧ (v.engine e.1).out = some .seq ∧
        (v.engine e.1).run = .idle) ∧
      (x.fault = none → ∃ v, Gives (.teFault e .parity) s v ∧ (v.engine e.1).fault = some .register ∧ (v.engine e.1).run = .capture k t))

/-- R217-R221, R225, R231: SAFE_POINT_REQUEST and TE_FAULT issue the next microword of a tile routine by its SEQ code (CONT up to
the end of its page, JUMP, BRANCH, CALL, RETURN, LOOP, DISPATCH, a WAIT that holds, DONE) with its unit fields; a word with a reserved bit, an address that holds none, a full stack, an
empty one and the 65th word since a safe point are faults; an uncorrectable half takes its cluster out of service. -/
def Obligations.MicrowordIssue : Prop :=
  ∀ (k t : Nat) (e : Fin 272) (m : MicroStep) (upper : Bool) (bits : BitVec 144) (s : State), mapWf engineReset s.engines →
    let x := s.engine e.1
    let n := s.storeOf e.1
    let a := s.fetchAddr n x.seq.uaddr.toNat
    let w := Fetched s e.1
    let half := 2 * a + if upper then 1 else 0
    let q := { x.seq with gap := (if mwSafe w then 0 else x.seq.gap) + 1 }
    let goes := fun (r : Sequencer) => Gives (.safePointRequest e [m]) s
      (s.setEngine e.1 { x with seq := r.act w m, units := actUnits x.units w m none })
    let faults := fun (f : EngineFault) => ∃ v, Gives (.teFault e (.issue [m])) s v ∧ (v.engine e.1).out = some f ∧ (v.engine e.1).run = .idle
    let count := vgetN 0 x.seq.loops (mwLctr w)
    x.run = .capture k t → x.halted = false → x.out = none → x.seq.maint = false → s.atBoundary = false →
      (Issues s e.1 → mwEvt w = 0 → mwTmop w = 0 →
        (mwSeq w = 0 → a ≠ 0x7FFF → a ≠ 0x81FF → a ≠ 0x83FF → goes { q with uaddr := BitVec.ofNat 16 (a + 1) }) ∧
        (mwSeq w = 1 → goes { q with uaddr := mwNext w }) ∧
        (mwSeq w = 2 → (m.cond != mwPol w) = true → goes { q with uaddr := mwNext w }) ∧
        (mwSeq w = 3 → x.seq.stack.length < 8 → goes { q with uaddr := mwNext w, stack := BitVec.ofNat 16 (a + 1) :: x.seq.stack }) ∧
        (∀ r rest, mwSeq w = 4 → x.seq.stack = r :: rest → goes { q with uaddr := r, stack := rest }) ∧
        (mwSeq w = 5 → 1 < count → goes { q with uaddr := mwNext w, loops := vsetN x.seq.loops (mwLctr w) (count - 1) }) ∧
        (mwSeq w = 6 → goes { q with uaddr := mwNext w + x.seq.dispatch.setWidth 16 }) ∧
        (mwSeq w = 7 → (m.cond != mwPol w) = false → Gives (.safePointRequest e [m]) s (s.setEngine e.1 { x with seq := { x.seq with gap := 0 } })) ∧
        (mwSeq w = 8 → Gives (.safePointRequest e [m]) s s)) ∧
      (Issues s e.1 → (mwSeq w = 3 ∧ 8 ≤ x.seq.stack.length ∨ mwSeq w = 4 ∧ x.seq.stack = [] → faults .stack) ∧
        (mwSeq w = 0 → a = 0x7FFF ∨ a = 0x81FF ∨ a = 0x83FF → faults .region)) ∧
      (0x8400 ≤ a → faults .region) ∧
      (a < 0x8400 → (s.storeVerdict n (2 * a)) = .clean → (s.storeVerdict n (2 * a + 1)) = .clean →
        (mwReserved w = true → faults .reserved) ∧
        (mwReserved w = false → mwSafe w = false → 64 ≤ x.seq.gap → faults .safeGap)) ∧
      (a < 0x8400 → (verdict (((s.cluster n).store.upset half bits).syndrome half)).bad = true → n < 17 → ∃ v, Gives (.teFault e (.fetch upper bits)) s v ∧
        (v.cluster n).out = some (if a < 0x8000 then .uncorrRom else .uncorrRam) ∧ (v.engine e.1).run = .idle)

/-- R223, R224, R230, R234, R521: the maintenance routines of an engine and what their commits leave, a slot move's request and last chunk. R106,
R107, R113, R114: a current slot whose picture is final becomes SHORT, one that will not complete UNUSED; the oldest SHORT slot outside every list
gives way when there are more than SHORT_MAX; a peer slot expires with its window. -/
def Obligations.EnginesAndSlots : Prop :=
  (∀ (e : Fin 272) (r : MaintReq) (rest : List MaintReq) (w : PatchReq) (g : Bool) (a t h : Nat) (n : Fin 17) (i : Fin 16)
     (dest : BitVec 48) (s : State), mapWf engineReset s.engines →
     let x := s.engine e.1
     let y := s.slot i
     let spare := 16 * spareCluster (t / 16) + 15
     (s.engineUp e.1 = false → Gives (.maintenanceRoutineStart e) s s) ∧
     (s.engineUp e.1 = true → x.run = .idle → x.halted = false →
       (s.maintQueue = [] → Gives (.maintenanceRoutineStart e) s
         (s.setEngine e.1 { x with run := .maint { kind := .scrub, abandoned := 0, guarded := false }, seq := x.seq.enter 4 })) ∧
       (s.maintQueue = r :: rest → s.runnable e.1 r = true → Gives (.maintenanceRoutineStart e) s
         ({ s with maintQueue := rest }.setEngine e.1 { x with run := .maint { r with guarded := decide (8 ≤ r.abandoned) }, seq := x.seq.enter r.kind.routine }))) ∧
     (x.run = .maint { kind := .patchLoad w, abandoned := a, guarded := g } → s.takeActive = false → s.patchRefusal w = none →
       mapWf regReset s.regs → ∃ u, Gives (.patchLoadCommit e) s u ∧ (u.engine e.1).run = .idle ∧
         (∀ c < 17, (u.cluster c).page = ((s.cluster c).page ^^ natBit (leAt w.image 8 4) c)) ∧
         ∀ c < 17, natBit (leAt w.image 8 4) c = true → ∀ j < 64,
           u.reg (rTecMatch c j) = BitVec.ofNat 32 (leAt w.image (16 + 4 * j) 4) &&& 0x81FF7FFF) ∧
     (x.run = .idle → Gives (.patchLoadCommit e) s s ∧ Gives (.spareSwapIn e) s s) ∧
     (x.run = .maint { kind := .swapIn t, abandoned := a, guarded := g } → s.takeActive = false → t < 272 → t ≠ spare →
       (s.cluster (spareCluster (t / 16))).spareUsed = false → ∃ u, Gives (.spareSwapIn e) s u ∧ (u.engine t).retired = true ∧
         (u.engine t).logical = none ∧ (u.engine spare).logical = (s.engine t).logical ∧ (u.cluster (spareCluster (t / 16))).spareUsed = true) ∧
     (s.runner (fun c => decide (c = n.1)) .scrub = none → Gives (.controlStoreScrub n h) s s) ∧
     (s.runner (fun c => decide (c = n.1)) .scrub = some e.1 → ∃ u, Gives (.controlStoreScrub n h) s u ∧
       (u.cluster n.1).scrubPtr = ((s.cluster n.1).scrubPtr + h) % 0x10800 ∧ (u.engine e.1).run = .idle) ∧
     (y.move = none → y.base.isSome = true → Gives (.referenceSlotMove i dest) s
       { s.modSlot i (fun x => { x with move := some (0, dest.toNat) }) with
           maintQueue := s.maintQueue ++ [{ kind := .slotMove i, abandoned := 0, guarded := false }] }) ∧
     (y.move = some (a, t) → y.base.isSome = true → s.runner (fun _ => true) (.slotMove i) = some e.1 → y.size ≤ 65536 * a + 65536 →
       65536 * a ≤ y.size → ∃ u, Gives (.referenceSlotMove i dest) s u ∧ (u.slot i).base = some t ∧ (u.slot i).move = none ∧
         (u.slot i).mark = y.mark)) ∧
  (∀ (i : Fin 16) (j : Fin 4) (s : State),
     let most := refShortMax (s.active unitRef)
     let shorts := s.slotsWhere Slot.isShort
     (s.nextRelease = none → Gives .slotRelease s s) ∧
     (s.nextRelease = some i →
       ((s.slot i).final = true → shorts.length < most → Gives .slotRelease s
         (s.modSlot i (fun x => { x with mark := .short, current := false }))) ∧
       ((s.slot i).final = false → Gives .slotRelease s
         (s.modSlot i (fun x => { Slot.unused with base := x.base, size := x.size })))) ∧
     (shorts.length ≤ most → Gives .shortEviction s s) ∧
     (most < shorts.length → (s.slot i).mark = .short → s.inList i = false → ∃ v, (s.slot v).mark = .short ∧ s.inList v = false ∧
       (∀ k, (s.slot k).mark = .short → s.inList k = false → (s.slot v).picture ≤ (s.slot k).picture) ∧
       Gives .shortEviction s (s.modSlot v (fun x => { Slot.unused with base := x.base, size := x.size }))) ∧
     ((s.slot i).source = none → Gives (.viewSlotExpiry i) s s) ∧
     ((s.slot i).source = some j → s.windowPassed j.1 (s.slot i).ptp = false → Gives (.viewSlotExpiry i) s s) ∧
     ((s.slot i).source = some j → s.windowPassed j.1 (s.slot i).ptp = true → s.inList i = false →
       ((s.slot i).mark = .viewIn → Gives (.viewSlotExpiry i) s (s.modSlot i (fun x => { Slot.unused with base := x.base, size := x.size }))) ∧
       ((s.slot i).mark = .pendingIn → ∃ u, Gives (.viewSlotExpiry i) s u ∧ (u.slot i).mark = .unused ∧
         (∀ k, k ≠ i → u.slot k = s.slot k) ∧ u.dram = s.dram)))

/-! ### Proxy streams and decode sessions (R161-R208) -/

/-- R171-R178, R182: a row whose lines are there, or whose picture has ended, moves the stream on when no other row of its core goes before and its CTUs
are ones that the coding tools allow (R169); the last row of a picture ends it; a sender report, with both timestamps, joins its flow for the port above the stream's. -/
def Obligations.ProxyStreams : Prop :=
  ∀ (m : Fin 4) (p : StreamPic) (ps : List StreamPic) (r : SetupRecord) (h : PictureChoice) (v : SliceChoice) (tail : List Bool) (ctus : List CtuCode) (s : State),
    let x := s.stream m
    let b := s.active (unitPxy m.1)
    let row := Instr.proxyRow m h v tail ctus
    let f := s.flow (4 + m.1)
    let c := if x.row = 0 then s.active unitCode else x.code
    let set := if x.row = 0 then s.pxySet m p else x.set
    let there := p.ended || s.rowLines p r.bytes c x.row
    let ntp := ntpOf s.clk.ns s.ptp.utc
    let report := [0x80, 200, 0, 6] ++ beBytes 4 (pxySsrc b) ++ beBytes 8 ntp.toNat ++ beBytes 4 (rtpTime b s.clk.ns).toNat ++
      beBytes 4 x.pkts.toNat ++ beBytes 4 x.octets.toNat
    let frame := udpFrame b 1 report
    let packet : SluPacket :=
      { kind := .rtcp, bytes := frame.length, pkt := none, rtp := none, ntp := ntp, frame := frame, since := none }
    (x.pics = [] → (x.eob = false ∨ x.run = true) → Gives row s s) ∧
    (x.pics = p :: ps → set = some r → there = false → Gives row s s) ∧
    (x.pics = p :: ps → set = some r → there = true → s.rowFirst m (p, r, c) = false → Gives row s s) ∧
    (x.pics = p :: ps → set = some r → there = true → s.rowFirst m (p, r, c) = true → (∀ idr, rowLegal r.bytes v idr x.row ctus = true) →
      x.run = true → ∃ t, Gives row s t ∧
        (x.row + 1 < pxyRows r.bytes → (t.stream m).row = x.row + 1 ∧ (t.stream m).pics = p :: ps) ∧
        (pxyRows r.bytes ≤ x.row + 1 → (t.stream m).row = 0 ∧ (t.stream m).pics = ps) ∧ (∀ k, k ≠ m → t.stream k = s.stream k) ∧
        t.dram = s.dram ∧ t.take = s.take) ∧
    (x.run = true → pxyRtcpInterval b ≠ 0 → f.queue.length < 64 → Gives (.rtcpSenderReport m) s
      (s.setFlow (4 + m.1) { f with queue := f.queue ++ [packet] })) ∧
    (x.run = false ∨ pxyRtcpInterval b = 0 → Gives (.rtcpSenderReport m) s s)

/-- R50, R194, R195, R201-R207, R215: playback tiles on engines that capture leaves free, output of pictures, the end of a session that stops, progress,
and the access units of a return stream, from the jitter time's end to the decoded picture. -/
def Obligations.DecodeSessions : Prop :=
  ∀ (k : Fin 9) (e : Fin 272) (t n : Nat) (p : PlayParams) (t0 : PlayTake) (q : PlayPicture) (c : PendingCmd) (u : RxUnit)
    (rest : List RxUnit) (a : AccessUnit) (r : ReturnPicture) (rs : List ReturnPicture) (s : State), mapWf engineReset s.engines →
    let x := s.session k
    let y := s.session 0
    let g := s.engine e.1
    let pic : ReturnPicture := { timestamp := u.timestamp, ptp := u.ptp, concealed := decide (a.lost ≠ []), degraded := false, width := a.width,
                                 height := a.height, format := auFormat a, ctu := a.ctu, lost := a.lost }
    let passed : RxUnit := { u with gap := u.gapFrom x.passedSeq, fresh := false }
    (x.params = none → Gives (.pictureOutput k) s s ∧ Gives (.playProgress k) s s ∧ Gives (.accessUnitDecode k a) s s) ∧
    (g.run = .idle → s.engineUp e.1 = true → g.halted = false → s.captureWaits = false → y.phase = .decode → y.take = some t0 → y.pic = some q →
      y.stopping = false → s.nextPlayTile q t0 = some t → Gives (.playbackTileDecode e) s (s.setEngine e.1 { g with run := .decode t, seq := g.seq.enter 1 })) ∧
    (g.run = .idle → s.captureWaits = true → Gives (.playbackTileDecode e) s s) ∧
    (g.run = .decode t → g.halted = false → g.stop = false → g.fault = none → g.preempt = none → y.params = some p → y.phase = .decode →
      y.take = some t0 → y.pic = some q → q.status.length + 1 < tilesN t0.code → mapWf (fun _ => []) q.tiles →
      ∃ v z, Gives (.playbackTileDecode e) s v ∧ (v.engine e.1).run = .idle ∧ (v.session 0).pic = some z ∧
        mapGet (fun _ => []) z.tiles t = (y.decodeTile t0 q t).samples) ∧
    (x.params = some p →
      (x.stopping = true → ∃ v, Gives (.pictureOutput k) s v ∧ (v.session k).params = none) ∧
      (x.stopping = false → s.outputRoom k = false → Gives (.pictureOutput k) s s) ∧
      (x.stopping = false → s.outputRoom k = true → k ≠ 0 → x.ready = r :: rs → ∃ v, Gives (.pictureOutput k) s v ∧
        (v.session k).ready = rs ∧ (v.session k).produced = x.produced + 1) ∧
      (x.stopping = false → s.outputRoom k = true → k = 0 → x.phase = .output → x.take = some t0 → s.outputDue p t0 = true →
        p.follow = false → p.after x.next = some n → ∃ v, Gives (.pictureOutput k) s v ∧ (v.session 0).produced = x.produced + 1 ∧ (v.session 0).next = n) ∧
      (k ≠ 0 → p.rateNum * 65536 ≤ x.recent * 65536 * p.rateDen → x.cmd = some c → Gives (.playProgress k) s
        (((s.setReg (rPxyPlayRate k.1) (BitVec.ofNat 32 (x.recent * 65536))).modSession k (fun x => { x with recent := 0 })).post c stPending
          false (BitVec.ofNat 64 (x.recent * 65536)))) ∧
      (x.queue = u :: rest → x.ready = [] → u.irap = true → u.rasl = false →
        (auRejected p a = false → ∃ v, Gives (.accessUnitDecode k a) s v ∧
          (v.session k).queue = rest ∧ (v.session k).ready = [pic] ∧ (v.session k).untilIrap = false) ∧
        (auRejected p a = true → ∃ v, Gives (.accessUnitDecode k a) s v ∧ (v.session k).queue = rest ∧ (v.session k).ready = [] ∧
          (v.session k).untilIrap = true)) ∧
      (x.queue = u :: rest → x.ready = [] → u.irap = false → x.untilIrap = true → Gives (.accessUnitDecode k a) s
        ((s.modSession k (fun x => { x with queue := rest })).bump (rPxyPlayDiscards k.1) u.count))) ∧
    (x.opens = [] → Gives (.jitterExpiry k) s s) ∧
    (x.opens = [u] → x.queue.length < 8 → x.discarding = false → ∃ v, Gives (.jitterExpiry k) s v ∧ (v.session k).opens = [] ∧
      (v.session k).queue = x.queue ++ [passed]) ∧
    (x.opens = [u] → 8 ≤ x.queue.length → ∃ v, Gives (.jitterExpiry k) s v ∧ (v.session k).opens = [] ∧ (v.session k).queue = x.queue ∧
      (v.session k).discarding = true)

/-! ### Ethernet, PTP and Sluice (R386-R393, R488-R491) -/

/-- R488-R491: a change of a link and what becomes of a received frame (that a frame of a bad FCS counts in both counters is the model's reading,
log entry 35); the messages of the selected master, the offset ((t2 - t1) - (t4 - t3)) / 2, the step beyond 1 µs outside a take, the choice of a
master and its loss. -/
def Obligations.NetworkPorts : Prop :=
  (∀ (k : Fin 2) (up : Bool) (f : EthFrame) (is : List (Fin 9)) (r : RtpPacket) (m : Fin 4) (s : State),
     let frame := Instr.ethFrameReceive k f
     (vget s.ptp.linkUp k = up → Gives (.ethLinkChange k up) s s) ∧
     (vget s.ptp.linkUp k = !up → ∃ t, Gives (.ethLinkChange k up) s t ∧ t.ptp = { s.ptp with linkUp := vset s.ptp.linkUp k up } ∧
       t.take = s.take ∧ t.slu = s.slu) ∧
     (vget s.ptp.linkUp k = false → Gives frame s s) ∧
     (vget s.ptp.linkUp k = true →
       (f.fcsOk = false → Gives frame s ((s.bump (rNetFcsErr k.1) 1).bump (rNetRxDiscards k.1) 1)) ∧
       (f.fcsOk = true → f.pause = false → f.etherPtp = true → s.ethPtp k f = true → Gives frame s (s.bump (rNetRxFrames k.1) 1)) ∧
       (f.fcsOk = true → f.pause = false → f.etherPtp = false → f.fragment = false → f.ipSumOk = true → f.udpSumOk = true →
         s.ethPtp k f = false → f.toMac = true → f.toIp = true →
         (s.ethSessions k f.udpPort = is → is ≠ [] → f.rtp = some r → Gives frame s
           (is.foldl (fun s i => s.rtpReceive i r) (s.bump (rNetRxFrames k.1) 1))) ∧
         (s.ethSessions k f.udpPort = [] → f.rtcp = some m → Gives frame s
           ((s.bump (rPxyStrRtcpIn m.1) 1).bump (rNetRxDiscards k.1) 1))))) ∧
  (∀ (m : PtpMsg) (s : State),
     let p := s.ptp
     let two : Int := (p.t2 - p.t1) - (m.stamp - p.t3)
     let f := 16 + s.ptpPort
     (s.fromMaster m = false → Gives (.ptpSync m) s s ∧ Gives (.ptpFollowUp m) s s ∧ Gives (.ptpDelayResp m) s s) ∧
     (s.fromMaster m = true →
       (m.twoStep = false → Gives (.ptpSync m) s { s with ptp := { p with
         t1 := m.stamp, t2 := s.clk.ns.toNat, syncSeq := m.seqId, haveSync := true, awaitFollow := false } }) ∧
       (m.twoStep = true → Gives (.ptpSync m) s { s with ptp := { p with
         t2 := s.clk.ns.toNat, syncSeq := m.seqId, haveSync := false, awaitFollow := true } }) ∧
       (p.awaitFollow = true → m.seqId = p.syncSeq → Gives (.ptpFollowUp m) s
         { s with ptp := { p with t1 := m.stamp, haveSync := true, awaitFollow := false } }) ∧
       (p.reqOut = true → m.seqId = p.reqSeq → p.haveSync = true → two % 2 = 0 →
         (two.natAbs ≤ 2000 → ∃ t, Gives (.ptpDelayResp m) s t ∧ t.ptp.offset = BitVec.ofInt 32 (two / 2) ∧ t.ptp.interval = m.interval ∧
           t.clk.ns = s.clk.ns ∧ -214748 ≤ t.clk.freq ∧ t.clk.freq ≤ 214748 ∧ t.regs = s.regs) ∧
         (2000 < two.natAbs → s.takeActive = false → ∃ t, Gives (.ptpDelayResp m) s t ∧
           t.clk.ns = BitVec.ofInt 64 ((s.clk.ns.toNat : Int) - two / 2) ∧ t.ptp.locked = false))) ∧
     (s.ptpTaken m = true → m.best = true →
       (m.clockId = p.master → Gives (.ptpAnnounce m) s { s with ptp := { p with utc := m.utcOffset } }) ∧
       (m.clockId ≠ p.master → ∃ t, Gives (.ptpAnnounce m) s t ∧ t.ptp = { p with
         master := m.clockId, utc := m.utcOffset, haveSync := false, awaitFollow := false, reqOut := false })) ∧
     (m.best = false → Gives (.ptpAnnounce m) s s) ∧
     (s.timeSource = 1 → p.master ≠ 0 →
       (∃ t, Gives .ptpDelayReq s t ∧ t.ptp = { p with reqSeq := p.reqSeq + 1, reqOut := false } ∧
         (t.flow f).queue = (s.flow f).queue ++ [plainPacket .ptp (delayReqBytes (s.cfg unitNet 35 1)) none]) ∧
       (∃ t, Gives .announceReceiptTimeout s t ∧ t.ptp.master = 0 ∧ t.ptp.locked = false ∧ t.clk = s.clk)) ∧
     (s.timeSource ≠ 1 → Gives .ptpDelayReq s s ∧ Gives .announceReceiptTimeout s s))

/-- R388, R390: an eligible flow of service 0 goes first and loses its oldest packet alone; a port with nothing queued sends nothing; each
microsecond a bucket gains its rate up to its burst. -/
def Obligations.SluiceScheduling : Prop :=
  ∀ (p : Fin 6) (f : Nat) (k : SluPacket) (ks : List SluPacket) (s : State), mapWf flowReset s.slu.flows →
    ((rotate (vgetN 0 s.slu.ptr0 p.1) (s.flowsOf p.1 0)).find? s.flowEligible = some f → (s.flow f).queue = k :: ks → (s.flow f).moving = none →
      ∃ t, Gives (.sluicePick p) s t ∧ (t.flow f).queue = ks ∧ vgetN 0 t.slu.ptr0 p.1 = f + 1 ∧ ∀ g, g ≠ f → t.flow g = s.flow g) ∧
    ((∀ g < 64, (s.flow g).port = p.1 → (s.flow g).queue = []) → ∃ t, Gives (.sluicePick p) s t ∧ t.slu.flows = s.slu.flows ∧
      t.regs = s.regs ∧ t.ksl = s.ksl) ∧
    (∃ t, Gives .tokenAccrual s t ∧ ∀ g < 64, t.flow g = { s.flow g with tokens := (if s.flowRate g = 0 then s.flowBurst g * 1000000
      else Nat.min ((s.flow g).tokens + s.flowRate g) (s.flowBurst g * 1000000)) })

/-! ### Kalsal Link (R433-R458) -/

/-- R433-R442, R458: a flit in sequence is accepted, a duplicate and a faulty copy are not, and a faulty copy asks again; what a port sends; the
states of training, its failure and the loss of the link. -/
def Obligations.KalsalLink : Prop :=
  ∀ (k : Fin 4) (f : Flit) (v : Nat) (g : TxFlit) (eye : Byte) (lane : Fin 9) (cfg : KslConfig) (bad : Bool) (s : State),
    let x := s.kslPort k
    let data := leAt f.hdr 0 1 = 1
    let behind := (x.rxSeq - BitVec.ofNat 16 (leAt f.hdr 4 2)).toNat
    let idle : TxFlit := { vc := 0, origin := 4, held := none, sop := false, eop := false, words := [], event := none }
    let goes := fun (i : Instr) (st : KslState) => ∃ t, Gives i s t ∧ (t.kslPort k).st = st
    (s.portActive k = false → Gives (.kslFlitReceive k f) s s ∧ Gives (.nakRepeat k) s s ∧
      (s.ksl.wait = [] → Gives (.kslFlitTransmit k) s s)) ∧
    (s.portActive k = true → data → headSound f = true → bodySound f = true → (f.words.take 16).any (fun w => decide ((readCode w).2 = .uncorr)) = false →
      leAt f.hdr 4 2 = x.rxSeq.toNat → ∃ t, Gives (.kslFlitReceive k f) s t ∧ (t.kslPort k).rxSeq = x.rxSeq + 1 ∧ (t.kslPort k).nak = false ∧
        (t.kslPort k).faulty = 0) ∧
    (s.portActive k = true → data → 1 ≤ behind → behind ≤ 512 → ∃ t, Gives (.kslFlitReceive k f) s t ∧ (t.kslPort k).rxSeq = x.rxSeq ∧
      (t.kslPort k).rxq = x.rxq) ∧
    (s.portActive k = true → data → headSound f = false → behind = 0 → x.faulty < 3 → ∃ t, Gives (.kslFlitReceive k f) s t ∧
      (t.kslPort k).rxSeq = x.rxSeq ∧ (t.kslPort k).nak = true ∧ (t.kslPort k).faulty = x.faulty + 1) ∧
    (s.portActive k = true → x.awaited = true → Gives (.nakRepeat k) s (s.modPort k (fun x => { x with nak := true }))) ∧
    (s.portActive k = true → s.ksl.wait = [] →
      (8192 ≤ x.sinceMarker → Gives (.kslFlitTransmit k) s (s.modPort k (fun x => { x with wire := markerBytes, sinceMarker := 0 })) ∧
        ∀ l < 8, KslPort.lane { x with wire := markerBytes, sinceMarker := 0 } l = 0xC3 :: BitVec.ofNat 8 l :: List.replicate 38 0x3C) ∧
      (x.sinceMarker < 8192 → x.resend = none → x.vcOrder.find? (fun v => s.kslCredit k v && (x.nextFlit v).isSome) = none →
        ∃ t, Gives (.kslFlitTransmit k) s t ∧ (t.kslPort k).wire = x.flitBytes false 0 idle ∧ (t.kslPort k).txSeq = x.txSeq ∧
          (t.kslPort k).replay = x.replay) ∧
      (x.sinceMarker < 8192 → x.resend = none → x.vcOrder.find? (fun v => s.kslCredit k v && (x.nextFlit v).isSome) = some v →
        x.nextFlit v = some g → v ≠ 2 → ∃ t, Gives (.kslFlitTransmit k) s t ∧ (t.kslPort k).txSeq = x.txSeq + 1 ∧
          (t.kslPort k).replay = x.replay ++ [(x.txSeq, g)] ∧ vgetN 0 (t.kslPort k).sent v = vgetN 0 x.sent v + 1)) ∧
    (x.st = .detect → goes (.kslTrainingStep k eye lane cfg) .equalize) ∧ (x.st = .equalize → goes (.kslTrainingStep k eye lane cfg) .align) ∧
    (x.st = .align → goes (.kslTrainingStep k eye lane cfg) .config) ∧
    (x.st = .config → cfg.delayPs ≤ 5000 → goes (.kslTrainingStep k eye lane cfg) .active) ∧
    (x.st = .config → 5000 < cfg.delayPs → goes (.kslTrainingStep k eye lane cfg) .down) ∧
    (x.st = .active ∨ x.st = .down → Gives (.kslTrainingStep k eye lane cfg) s s ∧ Gives (.kslTrainingTimeout k bad) s s) ∧
    (x.st ≠ .active → x.st ≠ .down → goes (.kslTrainingTimeout k bad) .down) ∧
    (x.st = .down → s.hdg.ready.getLsbD 19 = true → s.takeActive = false → ∃ t, Gives (.kslTrainingRetry k) s t ∧
      (t.kslPort k).st = .detect ∧ (t.kslPort k).laneMap = x.nextMap) ∧
    (x.st ≠ .down → Gives (.kslTrainingRetry k) s s) ∧
    (x.st ≠ .down → ∃ t, Gives (.kslLinkLoss k) s t ∧ (t.kslPort k).st = .down ∧ (t.kslPort k).txq = [] ∧ (t.kslPort k).replay = []) ∧
    (x.st = .down → Gives (.kslLinkLoss k) s s)

/-- R450, R454-R456: device time over the links of the tree, the ID a device takes from ASSIGN, the answers of its neighbours, and an ENUMERATE
that runs out of time. -/
def Obligations.KalsalTimeAndIds : Prop :=
  ∀ (k : Fin 4) (p : Packet) (stamp : DWord) (rest : List (Packet × DWord)) (e : Enumeration) (c : PendingCmd) (s : State),
    mapWf regReset s.regs →
    let s0 := s.dropArrived k
    let x := s.kslPort k
    let epoch : Half := BitVec.ofNat 16 (p.field 18 2)
    let two : Int := ((x.t2.toNat : Int) - x.t1.toNat) - ((timeOf p).toNat - (x.t3.toNat : Int))
    (s.kslDir k.1 = 1 → s.portActive k = true → ∃ t, Gives (.timeSyncSend k) s t ∧ (t.kslPort k).timeSeq = x.timeSeq + 1 ∧
      (t.flow (18 + k.1)).queue.length = (s.flow (18 + k.1)).queue.length + 1) ∧
    (s.kslDir k.1 ≠ 1 ∨ s.portActive k = false → Gives (.timeSyncSend k) s s) ∧
    (x.rxq = [] → ∀ i ∈ [Instr.sync k, .delayReq k, .delayResp k, .assign k, .report k, .refuse k], Gives i s s) ∧
    (x.rxq = (p, stamp) :: rest →
      (isTime 0 p = true → s.kslDir k.1 = 0 → ∃ t, Gives (.sync k) s t ∧ (t.kslPort k).t1 = timeOf p ∧ (t.kslPort k).t2 = stamp ∧
        (t.kslPort k).timeSeq = timeSeqOf p ∧ (t.kslPort k).rxq = rest ∧
        (t.flow (18 + k.1)).queue.length = (s.flow (18 + k.1)).queue.length + 1) ∧
      (isTime 1 p = true → s.kslDir k.1 = 1 → Gives (.delayReq k) s (s0.timeSend k 2 (timeSeqOf p) stamp)) ∧
      (isTime 2 p = true → s.kslDir k.1 = 0 → x.timeSeq = timeSeqOf p → s.timeSource = 0 → two % 2 = 0 → two.natAbs ≤ 2000 →
        ∃ t, Gives (.delayResp k) s t ∧ t.ptp.offset = BitVec.ofInt 32 (two / 2) ∧ t.clk.ns = s.clk.ns ∧ (t.kslPort k).rxq = rest) ∧
      (isEnum 0 p = true → epoch ≠ s.ksl.epoch → s.takeActive = false → s.locked 5 = false → ∃ t, Gives (.assign k) s t ∧ t.ksl.epoch = epoch ∧
        (t.reg rKslDevId).toNat = p.field 20 2 ∧ (t.reg (rKslRtDir k.1)).toNat = 0) ∧
      (let refused := fun (t : State) => Gives (.assign k) s t ∧ t.reg rKslDevId = s.reg rKslDevId ∧ t.ksl.epoch = s.ksl.epoch ∧
         ∀ j : Fin 4, t.reg (rKslRtRange j.1) = s.reg (rKslRtRange j.1) ∧ (j ≠ k → t.reg (rKslRtDir j.1) = s.reg (rKslRtDir j.1))
       isEnum 0 p = true →
         (epoch = s.ksl.epoch → refused ((s0.setDir k 3).enumSend k 2 epoch.toNat 0 0 stOk)) ∧
         (epoch ≠ s.ksl.epoch → s.takeActive = true → refused (s0.enumSend k 2 epoch.toNat 0 0 stState)) ∧
         (epoch ≠ s.ksl.epoch → s.takeActive = false → s.locked 5 = true → refused (s0.enumSend k 2 epoch.toNat 0 0 stLocked))) ∧
      (s.ksl.enumr = some e → e.epoch.toNat = p.field 18 2 → e.waiting = some k → s.takeActive = false →
        (isEnum 1 p = true → ∃ t, Gives (.report k) s t ∧ (t.reg (rKslRtDir k.1)).toNat = 1) ∧
        (isEnum 2 p = true → ∃ t, Gives (.refuse k) s t ∧ (t.reg (rKslRtDir k.1)).toNat = 3))) ∧
    (s.ksl.enumCmd = none → Gives .enumerateTimeout s s) ∧
    (s.ksl.enumCmd = some c → ∃ t, Gives .enumerateTimeout s t ∧ t.ksl.enumCmd = none ∧ t.ksl.epoch = s.ksl.epoch)

/-! ### Supplies, clocks, resets, spares and the test port (R409-R431, R515-R545) -/

/-- R241, R415, R419-R423, R428, R429, R432: PLLs, READY bits, requests, the inrush limits, the cores' RUN bits and a core's reset; at a slot boundary an
open switch is OFF and a ramp has ended. -/
def Obligations.PowerSequence : Prop :=
  ∀ (q : Fin 9) (f : Fin 40) (d : Nat) (k : Fin 4) (ini : Initiator) (addr : BitVec 48) (didt : Bool) (v : Word) (s : State),
    let lim := if didt then rHdgInrushDidt else rHdgInrushQ
    let least := if didt then 4000 else 1400
    let x := s.dom (functionDom f.1)
    (s.pllIs q .starting = true →
      (s.hdg.refLost = false ∨ q = 8 → Gives (.pllLocked q) s (s.setPll q .locked)) ∧
      (s.hdg.refLost = true → q ≠ 8 → Gives (.pllLocked q) s s) ∧
      Gives (.pllLockTimeout q) s ((s.setPll q .failed).orReg rHdgStat 4)) ∧
    (s.pllIs q .starting = false → Gives (.pllLocked q) s s ∧ Gives (.pllLockTimeout q) s s) ∧
    (s.pllIs q .failed = true → Gives (.pllRestart q) s (s.setPll q .starting)) ∧
    (s.pllIs q .failed = false → Gives (.pllRestart q) s s) ∧
    (x.clock = true → x.st ≠ .sleeping → functionDom f.1 < 29 → f ≠ 0 → f.1 < 4 ∨ 8 ≤ f.1 → f ≠ 14 → f ≠ 15 →
      ∃ t, Gives (.functionReady f) s t ∧ t.hdg.ready.getLsbD f.1 = true ∧ t.dram = s.dram) ∧
    (x.clock = false → Gives (.functionReady f) s s) ∧
    (csrOff addr = rHdgReqBh → Enters s .bellhouse rHdgReqBh → Gives (.domainRequestWrite .bellhouse addr v) s (s.setReg rHdgReqBh (v &&& 0x1FFFFFFE))) ∧
    (csrOff addr = rHdgReqCore k.1 → Enters s (.core k) (rHdgReqCore k.1) → Gives (.domainRequestWrite (.core k) addr v) s (s.setReg (rHdgReqCore k.1) (v &&& 0x1FFFFFFE))) ∧
    (csrOff addr ≠ rHdgReqCore k.1 → s.mayEnter (.core k) (s.pathNeeds (.core k) addr.toNat) (some (s.pointOf addr.toNat)) = true → Gives (.domainRequestWrite (.core k) addr v) s s) ∧
    (s.locked 3 = false → Enters s .bellhouse lim → least ≤ v.toNat % 65536 → Gives (.inrushWrite .bellhouse didt v) s (s.setReg lim (BitVec.ofNat 32 (v.toNat % 65536)))) ∧
    (s.locked 3 = false → Enters s .bellhouse lim → v.toNat % 65536 < least → Gives (.inrushWrite .bellhouse didt v) s
      ((s.setReg lim (BitVec.ofNat 32 least)).orReg rHdgStat 0x10)) ∧
    (ini ≠ .bellhouse → (Enters s ini lim → Gives (.inrushWrite ini didt v) s s) ∧ (Enters s ini rHdgCoreRun → Gives (.coreRunWrite ini v) s s)) ∧
    (mapWf regReset s.regs → Enters s .bellhouse rHdgCoreRun → ∃ t, Gives (.coreRunWrite .bellhouse v) s t ∧ t.reg rHdgCoreRun = v &&& 0xF ∧
      (v.getLsbD k.1 = false → t.coreRun (.tabor k) = .inReset ∧ (∀ r, t.getD (.tabor k) r = 0) ∧ t.getFl (.tabor k) = 0 ∧
        t.getStatus (.tabor k) = 1 ∧ t.getPc (.tabor k) = 0x020000000000) ∧
      (v.getLsbD k.1 = true → s.hdg.ready.getLsbD 3 = true → s.coreRun (.tabor k) = .inReset → t.coreRun (.tabor k) = .running ∧
        t.getPc (.tabor k) = 0x020000000000)) ∧
    (1 ≤ d → d ≤ 28 →
      ((s.dom d).st = .sleeping → ∃ t, Gives .slotBoundary s t ∧ (t.dom d).st = .off) ∧
      ((s.dom d).st = .waking → ∃ t, Gives .slotBoundary s t ∧ (t.dom d).st = .waking ∧ (t.dom d).rampDone = true))

/-- R415, R425-R427, R431, R432, R532, R539: device sleep and its end, the kick of the watchdog, the reference, the thermal pins and the set point
of VDD_CORE. -/
def Obligations.SleepAndSupply : Prop :=
  ∀ (ini : Initiator) (v : Word) (hot : Bool) (mv : Nat) (acks : List Bool) (k : Fin 22) (deg : Half) (s : State),
    let old := (s.reg (rRasAge k.1)).toNat % 65536
    (allDoms.any s.requested = false → Enters s .bellhouse rHdgSleep → Gives (.sleepStandby .bellhouse) s (s.modHdg (fun h => { h with mode := 1, sleepBegun := false })) ∧
      Gives (.sleepOffWake .bellhouse) s (s.modHdg (fun h => { h with mode := 2, sleepBegun := false }))) ∧
    (allDoms.any s.requested = true → Enters s .bellhouse rHdgSleep → Gives (.sleepStandby .bellhouse) s (s.orReg rHdgStat 1) ∧
      Gives (.sleepOffWake .bellhouse) s (s.orReg rHdgStat 1)) ∧
    (ini ≠ .bellhouse → (Enters s ini rHdgSleep → Gives (.sleepStandby ini) s s ∧ Gives (.sleepOffWake ini) s s) ∧
      (Enters s ini rHdgWdogKick → Gives (.watchdogKick ini v) s s)) ∧
    (s.hdg.mode = 0 ∨ s.wakeHolds = false → Gives .wake s s) ∧
    (s.hdg.mode ≠ 0 → s.wakeHolds = true → s.hdg.sleepBegun = true → allDoms.all (fun d => decide ((s.dom d).st = .off)) = true →
      Gives .wake s (s.modHdg (fun h => { h with mode := 0, sleepBegun := false }))) ∧
    (s.hdg.mode ≠ 0 → s.wakeHolds = true → s.hdg.sleepBegun = false → Gives .wake s
      (((s.modHdg (fun h => { h with mode := 0, sleepBegun := false })).orReg rHdgStat 2).bump rHdgSleepAbandon 1)) ∧
    (s.hdg.pwrEn = true → Gives .dramPwrOk s (s.modHdg (fun h => { h with pwrOk := true }))) ∧
    (s.hdg.pwrEn = false → Gives .dramPwrOk s s) ∧
    (Enters s .bellhouse rHdgWdogKick → Gives (.watchdogKick .bellhouse v) s { s with clk := { s.clk with wdog := 0 } }) ∧
    Gives .referenceLost s (s.modHdg (fun h => { h with refLost := true })) ∧
    Gives .referenceReturn s (s.modHdg (fun h => { h with refLost := false })) ∧
    Gives .thermalTrip s { s with supply := { s.supply with thermTripN := false } } ∧
    (hot = true → (s.src 12).en = true → (s.src 12).st = .idle → Gives (.thermalLimit hot) s
      ((s.setSrc 12 { s.src 12 with raw := true }).toPending 12).deliver) ∧
    (hot = false → (s.src 12).st = .active → Gives (.thermalLimit hot) s (s.setSrc 12 { s.src 12 with raw := false })) ∧
    (s.avsFree = false → Gives (.avsCommand mv acks) s s) ∧
    (s.avsFree = true → 650 ≤ mv → mv ≤ 800 → mv % 5 = 0 → mv ≤ s.supply.vcore + 10 → s.supply.vcore ≤ mv + 10 →
      ((acks.take 4).any id = true → Gives (.avsCommand mv acks) s { s with supply := { s.supply with vcore := mv, avsAt := some s.clk.fab } }) ∧
      ((acks.take 4).any id = false → Gives (.avsCommand mv acks) s
        (({ s with supply := { s.supply with avsAt := some s.clk.fab } }.orReg rRasStat 4).raise 13))) ∧
    (deg.toNat < 500 → Gives (.agingMonitor k deg) s
      (s.setReg (rRasAge k.1) ((s.reg (rRasAge k.1) &&& 0x10000) ||| deg.setWidth 32))) ∧
    (k.1 < 17 → old < 800 → 800 ≤ deg.toNat → ∃ t, Gives (.agingMonitor k deg) s t ∧ (t.reg (rRasAge k.1)).getLsbD 16 = true)

/-- R430, R431, R504: what every reset of the device leaves: NVS and the queue of commands stand, what DRAM holds is open (R336), all else is as at reset, and HDG_RST_CAUSE says
why: it keeps its earlier bits but for a power-on reset. -/
def Obligations.Resets : Prop :=
  ∀ (ini : Initiator) (ch32 : Bool) (den : Fin 4) (s : State),
    let fresh := fun (t : State) => t.nvs = s.nvs ∧ t.pending = s.pending ∧ t.take = State.reset.take ∧ t.dram.bytes = [] ∧ t.dram.syn = [] ∧
      t.dram.loss.head?.map (·.whole) = some true ∧
      t.cores = State.reset.cores ∧ t.srcs = State.reset.srcs ∧ t.banks = State.reset.banks ∧ t.ksl = State.reset.ksl ∧ t.mc = State.reset.mc ∧
      t.ras.wear = s.ras.wear ∧ t.coreMap = State.reset.coreMap ∧ (∀ o, o ≠ rHdgRstCause → t.reg o = regReset o)
    let cause := fun (i : Instr) (bits : Word) => ∃ t, Gives i s t ∧ fresh t ∧ t.reg rHdgRstCause = bits
    let was := s.reg rHdgRstCause
    cause (.powerOnReset ch32 den) 1 ∧
    cause (.deviceReset ch32 den) (was ||| 2) ∧
    (s.reg rHdgWdogPeriod ≠ 0 → cause .watchdogExpiry (was ||| 8)) ∧
    (s.reg rHdgWdogPeriod = 0 → Gives .watchdogExpiry s s) ∧
    (s.gates.getLsbD 5 = true → Enters s .bellhouse rHdgReset → cause (.softReset .bellhouse ch32 den) (was ||| 4)) ∧
    (s.gates.getLsbD 5 = false → Enters s .bellhouse rHdgReset → Gives (.softReset .bellhouse ch32 den) s (s.orReg rKeyStat 4)) ∧
    (ini ≠ .bellhouse → Enters s ini rHdgReset → Gives (.softReset ini ch32 den) s s)

/-- R337, R433, R463, R515, R518, R521: the execution of a proposal of kinds 2 to 6 whose spare is there; none when no proposal of the kind is
next. -/
def Obligations.SparesExecuted : Prop :=
  ∀ (j : Nat) (p : Proposal) (k : Fin 4) (copyOk : Bool) (s : State), s.ras.waiting = [] → mapWf regReset s.regs →
    let n := p.target.toNat
    let st := fun (t : State) => (vgetN Proposal.empty t.ras.props j).st
    (s.execOf 2 = none → Gives .taborSwapIn s s) ∧ (s.execOf 3 = none → Gives .sensorLaneRetire s s) ∧
    (s.execOf 4 = none → Gives .kslLaneRemap s s) ∧ (s.execOf 5 = none → Gives .sramRepair s s) ∧
    (s.execOf 6 = none → Gives (.postPackageRepair copyOk) s s) ∧
    (s.execOf 2 = some (j, p) → s.spareGone 2 n = false → (∀ i : Fin 4, (s.phys i).1 = n ↔ i = k) → ∃ t, Gives .taborSwapIn s t ∧
      st t = .done ∧ t.ras.tabSpareUsed = true ∧ (t.phys k).1 = s.spareCore ∧ (∀ i, i ≠ k → t.phys i = s.phys i)) ∧
    (s.execOf 3 = some (j, p) → s.spareGone 3 n = false → n < 64 → ∃ t, Gives .sensorLaneRetire s t ∧ st t = .done ∧
      t.ras.lanesRetired = s.ras.lanesRetired + 1 ∧ (t.reg64 rSnsRetired).getLsbD n = true) ∧
    (s.execOf 4 = some (j, p) → s.spareGone 4 n = false → n / 16 = k.1 → ∃ t, Gives .kslLaneRemap s t ∧ st t = .done ∧
      (t.kslPort k).nextMap = ~~~(BitVec.twoPow 9 (n % 16)) ∧ (t.kslPort k).laneMap = (s.kslPort k).laneMap) ∧
    (s.execOf 5 = some (j, p) → s.spareGone 5 n = false → ∃ t, Gives .sramRepair s t ∧ st t = .done ∧
      t.ras.sramFree = s.ras.sramFree - 1 ∧ t.nvs = s.nvs) ∧
    (s.execOf 6 = some (j, p) → s.spareGone 6 n = false →
      (copyOk = false → ∃ t, Gives (.postPackageRepair copyOk) s t ∧ st t = .failed ∧ t.dram = s.dram) ∧
      (copyOk = true → s.rowErrors n p.info.toNat = [] → n / 16 < 32 → ∃ t, Gives (.postPackageRepair copyOk) s t ∧ st t = .done ∧
        t.dram = s.dram ∧ (t.chn (n / 16)).pprAvail.getLsbD (n % 16) = false))

/-- R545: TRST_N and five TCK periods with TMS high reach Test-Logic-Reset, where IDCODE is the instruction; the six instructions by their codes;
a shift, and the capture of IDCODE. -/
def Obligations.TestPort : Prop :=
  ∀ (tdi tms : Bool) (pins : List Bool) (s s1 s2 s3 s4 s5 : State),
    let x := s.tap
    let scan := fun (c : BitVec 6) (i : TapInstr) => { s with tap := { x with st := .updateIr, ir := c, instr := i, tdo := none } }
    let up := Instr.tapClock true tdi pins
    Gives .tapReset s { s with tap := { x with st := .testLogicReset, instr := .idcode, tdo := none } } ∧
    Gives .extest s (scan 0 .extest) ∧ Gives .samplePreload s (scan 2 .samplePreload) ∧ Gives .idcode s (scan 3 .idcode) ∧
    Gives .clamp s (scan 4 .clamp) ∧ Gives .highz s (scan 5 .highz) ∧ Gives .bypass s (scan 0x3F .bypass) ∧
    (Gives up s s1 → Gives up s1 s2 → Gives up s2 s3 → Gives up s3 s4 → Gives up s4 s5 → s5.tap.st = .testLogicReset ∧ s5.tap.instr = .idcode) ∧
    (x.st = .shiftDr → ∃ t, Gives (.tapClock tms tdi pins) s t ∧ t.tap.dr = x.dr.drop 1 ++ [tdi] ∧ t.tap.instr = x.instr ∧ t.tap.bsr = x.bsr) ∧
    (x.st = .captureDr → x.instr = .idcode → ∃ t, Gives (.tapClock false tdi pins) s t ∧ t.tap.st = .shiftDr ∧ t.tap.dr.length = 32 ∧
      t.tap.tdo = some true ∧ (t.tap.dr.drop 12).take 16 = (upFrom 0 16).map (fun i => (0x7160 : Half).getLsbD i))

/-! ### The whole block -/

/-- Every command answers a next state, with no condition on the state: nothing a sender can say stops the block. -/
def Obligations.CommandsComplete : Prop := ∀ (c : Instr) (s : State), ∃ t, Gives c s t

/-- R539: once THERM_TRIP_N is low, every step but a power-on reset leaves it low. What waits for its way is never a power-on reset, and stays so. -/
def Obligations.ThermTripHolds : Prop :=
  ∀ (s t : State), let quiet := fun (s : State) => ∀ h ∈ s.onHold, ∀ ch32 den, h.cmd ≠ .powerOnReset ch32 den
    s.supply.thermTripN = false → quiet s → (∀ ch32 den, s.pending.head? ≠ some (.powerOnReset ch32 den)) → step s = .next t →
      t.supply.thermTripN = false ∧ quiet t

/-- Every step keeps the canonical form of the stores, the registers, the sources, the engines and the other sparse parts: keys strictly rising, no
entry equal to what an unlisted key reads as. -/
def Obligations.StoresKeepForm : Prop := ∀ (s t : State), s.memWf → step s = .next t → t.memWf

/-- R408, R411, R430: what reset leaves, by the values that the spec states. -/
def Obligations.ResetState : Prop :=
  let s := State.reset
  s.memWf ∧ s.take.st = .idle ∧ s.pending = [] ∧ s.onHold = [] ∧ s.hdg.ready = 1 ∧ (s.dom 0).st = .on ∧ (∀ d, 1 ≤ d → d ≤ 28 → (s.dom d).st = .off) ∧
    (∀ k : Fin 4, s.coreRun (.tabor k) = .inReset) ∧ (∀ k : Nat, (s.src k).st = .idle ∧ (s.src k).en = false ∧ (s.src k).target = 5) ∧
    s.reg rKeyLock = 0 ∧ s.gates = 0 ∧ (∀ k : Fin 4, (s.kslPort k).st = .down) ∧ (∀ k : Fin 4, (s.snsLink k).st = .down) ∧
    (∀ m : Fin 2, (s.mag m).st = .absent) ∧ (∀ i : Fin 16, (s.slot i).mark = .unused) ∧ (∀ u < 14, bankOf s u = Bank.empty) ∧
    s.supply.thermTripN = true ∧ s.tap.st = .testLogicReset

/-! ### Codes (R9, R302, R303) -/

/-- R302, R303: a word with one flipped bit, of data or check bits, reads back corrected; with two flipped bits it is uncorrectable. -/
def Obligations.WordCode : Prop :=
  ∀ (d : BitVec 128) (i j : Fin 144),
    let clean : BitVec 144 := codeChk d ++ d
    let word := fun (w : BitVec 144) => ({ data := w.extractLsb' 0 128, chk := w.extractLsb' 128 16 } : CodeWord)
    readCode (word clean) = (d, .clean) ∧
    (readCode (word (clean ^^^ BitVec.twoPow 144 i.1))).1 = d ∧ (readCode (word (clean ^^^ BitVec.twoPow 144 i.1))).2.corrected = true ∧
    (i ≠ j → (readCode (word (clean ^^^ BitVec.twoPow 144 i.1 ^^^ BitVec.twoPow 144 j.1))).2 = .uncorr)

/-- R82, R122, R124, R126, R129: the reconstruction of a NEAR sample lies within E of the source, that of a FLOOR sample within 2^(s-1), exact for s =
0; the 4-point and the 4 x 4 transforms and the residual code are undone exactly. -/
def Obligations.CodingReversible : Prop :=
  (∀ (v : TileEnv) (pred x : Int), 0 ≤ pred → pred ≤ v.maxv → 0 ≤ x → x ≤ v.maxv →
    ((x - v.rebuild pred (quant v.e (x - pred))).natAbs ≤ v.e)) ∧
  (∀ (s x : Nat), (floorRec s (x / 2 ^ s) : Int) - x ≤ 2 ^ (s - 1) ∧ (x : Int) - floorRec s (x / 2 ^ s) ≤ 2 ^ (s - 1) ∧
    floorRec 0 (x / 2 ^ 0) = x) ∧
  (∀ a b c d : Int, unlift4 (lift4 [a, b, c, d]) = [a, b, c, d]) ∧
  (∀ a : List Int, a.length = 16 → unslift (slift a) = a) ∧
  (∀ q : Int, (zigzag q : Int) = (if 0 ≤ q then 2 * q else -2 * q - 1) ∧ unzigzag (zigzag q) = q) ∧
  (∀ m : Nat, unzigzag m = (if m % 2 = 1 then -(((m : Int) + 1) / 2) else (m : Int) / 2))
end

