-- ==== Sys2Proof/Laws/Map.lean ====
section
/-! SUPPORT. Reading and writing the sparse maps: a read after a write, the canonical form kept by every write, and reads of lists and
vectors after their updates. -/

namespace Sys2Proof.Machine

variable {α : Type} [DecidableEq α] {d : Nat → α}

omit [DecidableEq α] in
@[simp] theorem mapWf_nil : mapWf d ([] : SMap α) := ⟨List.Pairwise.nil, by simp⟩

omit [DecidableEq α] in
@[simp] theorem mapGet_nil (k : Nat) : mapGet d ([] : SMap α) k = d k := rfl

/-- Every key of `m` lies above `a`. -/
def mapAbove (a : Nat) (m : SMap α) : Prop := ∀ p ∈ m, a < p.1

omit [DecidableEq α] in
theorem mapGet_above {m : SMap α} {a k : Nat} (h : mapAbove a m) (hk : k ≤ a) : mapGet d m k = d k := by
  induction m with
  | nil => rfl
  | cons p m ih =>
    obtain ⟨b, w⟩ := p
    have hb : a < b := h (b, w) (by simp)
    have hm : mapAbove a m := fun q hq => h q (by simp [hq])
    simp only [mapGet, show ¬ b = k by omega, if_false, ih hm]

omit [DecidableEq α] in
theorem mapWf_cons {a : Nat} {v : α} {m : SMap α} : mapWf d ((a, v) :: m) ↔ mapAbove a m ∧ v ≠ d a ∧ mapWf d m := by
  simp only [mapWf, List.pairwise_cons, List.forall_mem_cons, mapAbove]
  exact ⟨fun ⟨⟨a, b⟩, c, e⟩ => ⟨a, c, b, e⟩, fun ⟨a, c, b, e⟩ => ⟨⟨a, b⟩, c, e⟩⟩

theorem mapAbove_mapSet {a k : Nat} {m : SMap α} {v : α} (h : mapAbove a m) (hk : a < k) : mapAbove a (mapSet d m k v) := by
  induction m with
  | nil => unfold mapSet; split <;> simp [mapAbove, hk]
  | cons p m ih =>
    obtain ⟨b, w⟩ := p
    have hb : a < b := h (b, w) (by simp)
    have hm : mapAbove a m := fun q hq => h q (by simp [hq])
    have cons : ∀ {c : Nat} {x : α} {l : SMap α}, a < c → mapAbove a l → mapAbove a ((c, x) :: l) := fun hc hl q hq => by
      rcases List.mem_cons.1 hq with rfl | hq
      · exact hc
      · exact hl q hq
    unfold mapSet
    split_ifs
    · exact h
    · exact cons hk h
    · exact hm
    · exact cons hk hm
    · exact cons hb (ih hm)

/-- A write keeps the canonical form. -/
theorem mapWf_mapSet {m : SMap α} (h : mapWf d m) (k : Nat) (v : α) : mapWf d (mapSet d m k v) := by
  induction m with
  | nil =>
    unfold mapSet; split
    · exact h
    · rename_i hv; exact mapWf_cons.2 ⟨by simp [mapAbove], hv, h⟩
  | cons p m ih =>
    obtain ⟨b, w⟩ := p
    obtain ⟨ha, hw, hm⟩ := mapWf_cons.1 h
    unfold mapSet
    split_ifs with h1 h2 h3 h4
    · exact h
    · refine mapWf_cons.2 ⟨?_, h2, h⟩
      intro q hq
      rcases List.mem_cons.1 hq with rfl | hq
      · exact h1
      · exact lt_trans h1 (ha q hq)
    · exact hm
    · subst h3; exact mapWf_cons.2 ⟨ha, h4, hm⟩
    · exact mapWf_cons.2 ⟨mapAbove_mapSet ha (by omega), hw, ih hm⟩

theorem mapWf_mapUpd {m : SMap α} (h : mapWf d m) (k : Nat) (f : α → α) : mapWf d (mapUpd d m k f) := mapWf_mapSet h k _

omit [DecidableEq α] in
/-- Entries dropped leave the canonical form. -/
theorem mapWf_mapKeep {m : SMap α} (h : mapWf d m) (p : Nat → Bool) : mapWf d (mapKeep p m) :=
  ⟨h.1.sublist List.filter_sublist, fun q hq => h.2 q (List.mem_filter.1 hq).1⟩

omit [DecidableEq α] in
theorem mapWf_filter {m : SMap α} (h : mapWf d m) (p : Nat × α → Bool) : mapWf d (m.filter p) :=
  ⟨h.1.sublist List.filter_sublist, fun q hq => h.2 q (List.mem_filter.1 hq).1⟩

/-- A read of the key written gives the value written. -/
theorem mapGet_mapSet_same {m : SMap α} (h : mapWf d m) (k : Nat) (v : α) : mapGet d (mapSet d m k v) k = v := by
  induction m with
  | nil => unfold mapSet; split <;> simp_all [mapGet]
  | cons p m ih =>
    obtain ⟨b, w⟩ := p
    obtain ⟨ha, hw, hm⟩ := mapWf_cons.1 h
    unfold mapSet
    split_ifs with h1 h2 h3 h4
    · rw [h2]; simp only [mapGet, show ¬ b = k by omega, if_false]; exact mapGet_above ha (by omega)
    · simp [mapGet]
    · rw [h4]; exact mapGet_above ha (by omega)
    · simp [mapGet]
    · simp only [mapGet, show ¬ b = k by omega, if_false]; exact ih hm

/-- A write leaves every other key as it reads. -/
theorem mapGet_mapSet_ne (m : SMap α) {j k : Nat} (hj : j ≠ k) (v : α) : mapGet d (mapSet d m k v) j = mapGet d m j := by
  induction m with
  | nil => unfold mapSet; split <;> simp [mapGet, Ne.symm hj]
  | cons p m ih =>
    obtain ⟨b, w⟩ := p
    unfold mapSet
    split_ifs with h1 h2 h3 h4
    · rfl
    · simp [mapGet, Ne.symm hj]
    · subst h3; simp [mapGet, Ne.symm hj]
    · subst h3; simp [mapGet, Ne.symm hj]
    · simp only [mapGet, ih]

/-- Read after write, whichever key: needs the canonical form only where the unlisted value is written. -/
theorem mapGet_mapSet {m : SMap α} (h : mapWf d m) (j k : Nat) (v : α) :
    mapGet d (mapSet d m k v) j = if j = k then v else mapGet d m j := by
  by_cases e : j = k
  · subst e; simp [mapGet_mapSet_same h]
  · simp [e, mapGet_mapSet_ne m e]

/-- A value other than the unlisted one reads back from any map. -/
theorem mapGet_mapSet_listed (m : SMap α) {k : Nat} {v : α} (hv : v ≠ d k) : mapGet d (mapSet d m k v) k = v := by
  induction m with
  | nil => simp [mapSet, hv, mapGet]
  | cons p m ih =>
    obtain ⟨b, w⟩ := p
    unfold mapSet
    simp only [hv, if_false]
    split_ifs with h1 h2
    · simp [mapGet]
    · simp [mapGet]
    · simp only [mapGet, show ¬ b = k by omega, if_false]; exact ih

theorem mapSet_mapGet_same {m : SMap α} (h : mapWf d m) (k : Nat) : mapSet d m k (mapGet d m k) = m := by
  induction m with
  | nil => simp [mapSet, mapGet]
  | cons p m ih =>
    obtain ⟨b, w⟩ := p
    obtain ⟨ha, hw, hm⟩ := mapWf_cons.1 h
    unfold mapSet
    by_cases h1 : k < b
    · have : mapGet d ((b, w) :: m) k = d k := by
        simp only [mapGet, show ¬ b = k by omega, if_false]; exact mapGet_above ha (by omega)
      simp [h1, this]
    · by_cases h2 : k = b
      · subst h2; simp [mapGet, hw]
      · simp only [h1, h2, if_false, mapGet, show ¬ b = k by omega]; rw [ih hm]

/-! ### Lists -/

theorem mem_upFrom {a n x : Nat} : x ∈ upFrom a n ↔ a ≤ x ∧ x < a + n := by
  induction n generalizing a with
  | zero => simp [upFrom]
  | succ n ih => simp only [upFrom, List.mem_cons, ih]; omega

@[simp] theorem length_upFrom (a n : Nat) : (upFrom a n).length = n := by
  induction n generalizing a with
  | zero => rfl
  | succ n ih => simp [upFrom, ih]

@[simp] theorem length_leBytes (n v : Nat) : (leBytes n v).length = n := by
  induction n generalizing v with
  | zero => rfl
  | succ n ih => simp [leBytes, ih]

/-- Little-endian bytes read back as the number, as far as they go. -/
theorem leNat_leBytes (n v : Nat) : leNat (leBytes n v) = v % 256 ^ n := by
  induction n generalizing v with
  | zero => simp [leBytes, leNat, Nat.mod_one]
  | succ n ih =>
    have h := Nat.mod_mul (x := v) (a := 256) (b := 256 ^ n)
    simp only [leBytes, leNat, ih, BitVec.toNat_ofNat, Nat.pow_succ']
    exact h.symm

theorem leNat_lt (b : List Byte) : leNat b < 256 ^ b.length := by
  induction b with
  | nil => simp [leNat]
  | cons x b ih =>
    have hx := x.isLt
    simp only [leNat, List.length_cons, pow_succ']
    omega

end Sys2Proof.Machine
end

