-- ==== Sys2Proof/Laws/State.lean ====
section
/-! SUPPORT. Each plain update of the state, field by field: what it writes, and that it leaves every other field as it is. No later proof
needs to unfold a record update. -/

namespace Sys2Proof.Machine

variable (s : State)

/-! `State.setReg` writes `regs`. -/

@[simp] theorem State.setReg_pending (off : Nat) (w : Word) : (s.setReg off w).pending = s.pending := rfl
@[simp] theorem State.setReg_freeCount (off : Nat) (w : Word) : (s.setReg off w).freeCount = s.freeCount := rfl
@[simp] theorem State.setReg_clk (off : Nat) (w : Word) : (s.setReg off w).clk = s.clk := rfl
@[simp] theorem State.setReg_regs (off : Nat) (w : Word) : (s.setReg off w).regs = mapSet regReset s.regs off w := rfl
@[simp] theorem State.setReg_latches (off : Nat) (w : Word) : (s.setReg off w).latches = s.latches := rfl
@[simp] theorem State.setReg_holds (off : Nat) (w : Word) : (s.setReg off w).holds = s.holds := rfl
@[simp] theorem State.setReg_gates (off : Nat) (w : Word) : (s.setReg off w).gates = s.gates := rfl
@[simp] theorem State.setReg_cores (off : Nat) (w : Word) : (s.setReg off w).cores = s.cores := rfl
@[simp] theorem State.setReg_coreMap (off : Nat) (w : Word) : (s.setReg off w).coreMap = s.coreMap := rfl
@[simp] theorem State.setReg_bh (off : Nat) (w : Word) : (s.setReg off w).bh = s.bh := rfl
@[simp] theorem State.setReg_dram (off : Nat) (w : Word) : (s.setReg off w).dram = s.dram := rfl
@[simp] theorem State.setReg_cisSram (off : Nat) (w : Word) : (s.setReg off w).cisSram = s.cisSram := rfl
@[simp] theorem State.setReg_ctlSram (off : Nat) (w : Word) : (s.setReg off w).ctlSram = s.ctlSram := rfl
@[simp] theorem State.setReg_nvs (off : Nat) (w : Word) : (s.setReg off w).nvs = s.nvs := rfl
@[simp] theorem State.setReg_take (off : Nat) (w : Word) : (s.setReg off w).take = s.take := rfl
@[simp] theorem State.setReg_banks (off : Nat) (w : Word) : (s.setReg off w).banks = s.banks := rfl
@[simp] theorem State.setReg_ringGen (off : Nat) (w : Word) : (s.setReg off w).ringGen = s.ringGen := rfl
@[simp] theorem State.setReg_ringPhase (off : Nat) (w : Word) : (s.setReg off w).ringPhase = s.ringPhase := rfl
@[simp] theorem State.setReg_visible (off : Nat) (w : Word) : (s.setReg off w).visible = s.visible := rfl
@[simp] theorem State.setReg_stalled (off : Nat) (w : Word) : (s.setReg off w).stalled = s.stalled := rfl
@[simp] theorem State.setReg_srcs (off : Nat) (w : Word) : (s.setReg off w).srcs = s.srcs := rfl
@[simp] theorem State.setReg_evcStamp (off : Nat) (w : Word) : (s.setReg off w).evcStamp = s.evcStamp := rfl
@[simp] theorem State.setReg_cku (off : Nat) (w : Word) : (s.setReg off w).cku = s.cku := rfl
@[simp] theorem State.setReg_cis (off : Nat) (w : Word) : (s.setReg off w).cis = s.cis := rfl
@[simp] theorem State.setReg_dma (off : Nat) (w : Word) : (s.setReg off w).dma = s.dma := rfl
@[simp] theorem State.setReg_dmaPtr (off : Nat) (w : Word) : (s.setReg off w).dmaPtr = s.dmaPtr := rfl
@[simp] theorem State.setReg_flume (off : Nat) (w : Word) : (s.setReg off w).flume = s.flume := rfl
@[simp] theorem State.setReg_onHold (off : Nat) (w : Word) : (s.setReg off w).onHold = s.onHold := rfl
@[simp] theorem State.setReg_mc (off : Nat) (w : Word) : (s.setReg off w).mc = s.mc := rfl
@[simp] theorem State.setReg_sns (off : Nat) (w : Word) : (s.setReg off w).sns = s.sns := rfl
@[simp] theorem State.setReg_ledgers (off : Nat) (w : Word) : (s.setReg off w).ledgers = s.ledgers := rfl
@[simp] theorem State.setReg_logs (off : Nat) (w : Word) : (s.setReg off w).logs = s.logs := rfl
@[simp] theorem State.setReg_mags (off : Nat) (w : Word) : (s.setReg off w).mags = s.mags := rfl
@[simp] theorem State.setReg_slots (off : Nat) (w : Word) : (s.setReg off w).slots = s.slots := rfl
@[simp] theorem State.setReg_lateViews (off : Nat) (w : Word) : (s.setReg off w).lateViews = s.lateViews := rfl
@[simp] theorem State.setReg_wholeViews (off : Nat) (w : Word) : (s.setReg off w).wholeViews = s.wholeViews := rfl
@[simp] theorem State.setReg_engines (off : Nat) (w : Word) : (s.setReg off w).engines = s.engines := rfl
@[simp] theorem State.setReg_clusters (off : Nat) (w : Word) : (s.setReg off w).clusters = s.clusters := rfl
@[simp] theorem State.setReg_tileQueue (off : Nat) (w : Word) : (s.setReg off w).tileQueue = s.tileQueue := rfl
@[simp] theorem State.setReg_lastEngine (off : Nat) (w : Word) : (s.setReg off w).lastEngine = s.lastEngine := rfl
@[simp] theorem State.setReg_maintQueue (off : Nat) (w : Word) : (s.setReg off w).maintQueue = s.maintQueue := rfl
@[simp] theorem State.setReg_streams (off : Nat) (w : Word) : (s.setReg off w).streams = s.streams := rfl
@[simp] theorem State.setReg_sessions (off : Nat) (w : Word) : (s.setReg off w).sessions = s.sessions := rfl
@[simp] theorem State.setReg_slu (off : Nat) (w : Word) : (s.setReg off w).slu = s.slu := rfl
@[simp] theorem State.setReg_ksl (off : Nat) (w : Word) : (s.setReg off w).ksl = s.ksl := rfl
@[simp] theorem State.setReg_ptp (off : Nat) (w : Word) : (s.setReg off w).ptp = s.ptp := rfl
@[simp] theorem State.setReg_hdg (off : Nat) (w : Word) : (s.setReg off w).hdg = s.hdg := rfl
@[simp] theorem State.setReg_ras (off : Nat) (w : Word) : (s.setReg off w).ras = s.ras := rfl
@[simp] theorem State.setReg_tap (off : Nat) (w : Word) : (s.setReg off w).tap = s.tap := rfl
@[simp] theorem State.setReg_supply (off : Nat) (w : Word) : (s.setReg off w).supply = s.supply := rfl
@[simp] theorem State.setReg_tagCmd (off : Nat) (w : Word) : (s.setReg off w).tagCmd = s.tagCmd := rfl

/-! `State.setSrc` writes `srcs`. -/

@[simp] theorem State.setSrc_pending (k : Nat) (x : Source) : (s.setSrc k x).pending = s.pending := rfl
@[simp] theorem State.setSrc_freeCount (k : Nat) (x : Source) : (s.setSrc k x).freeCount = s.freeCount := rfl
@[simp] theorem State.setSrc_clk (k : Nat) (x : Source) : (s.setSrc k x).clk = s.clk := rfl
@[simp] theorem State.setSrc_regs (k : Nat) (x : Source) : (s.setSrc k x).regs = s.regs := rfl
@[simp] theorem State.setSrc_latches (k : Nat) (x : Source) : (s.setSrc k x).latches = s.latches := rfl
@[simp] theorem State.setSrc_holds (k : Nat) (x : Source) : (s.setSrc k x).holds = s.holds := rfl
@[simp] theorem State.setSrc_gates (k : Nat) (x : Source) : (s.setSrc k x).gates = s.gates := rfl
@[simp] theorem State.setSrc_cores (k : Nat) (x : Source) : (s.setSrc k x).cores = s.cores := rfl
@[simp] theorem State.setSrc_coreMap (k : Nat) (x : Source) : (s.setSrc k x).coreMap = s.coreMap := rfl
@[simp] theorem State.setSrc_bh (k : Nat) (x : Source) : (s.setSrc k x).bh = s.bh := rfl
@[simp] theorem State.setSrc_dram (k : Nat) (x : Source) : (s.setSrc k x).dram = s.dram := rfl
@[simp] theorem State.setSrc_cisSram (k : Nat) (x : Source) : (s.setSrc k x).cisSram = s.cisSram := rfl
@[simp] theorem State.setSrc_ctlSram (k : Nat) (x : Source) : (s.setSrc k x).ctlSram = s.ctlSram := rfl
@[simp] theorem State.setSrc_nvs (k : Nat) (x : Source) : (s.setSrc k x).nvs = s.nvs := rfl
@[simp] theorem State.setSrc_take (k : Nat) (x : Source) : (s.setSrc k x).take = s.take := rfl
@[simp] theorem State.setSrc_banks (k : Nat) (x : Source) : (s.setSrc k x).banks = s.banks := rfl
@[simp] theorem State.setSrc_ringGen (k : Nat) (x : Source) : (s.setSrc k x).ringGen = s.ringGen := rfl
@[simp] theorem State.setSrc_ringPhase (k : Nat) (x : Source) : (s.setSrc k x).ringPhase = s.ringPhase := rfl
@[simp] theorem State.setSrc_visible (k : Nat) (x : Source) : (s.setSrc k x).visible = s.visible := rfl
@[simp] theorem State.setSrc_stalled (k : Nat) (x : Source) : (s.setSrc k x).stalled = s.stalled := rfl
@[simp] theorem State.setSrc_srcs (k : Nat) (x : Source) : (s.setSrc k x).srcs = mapSet srcReset s.srcs k x := rfl
@[simp] theorem State.setSrc_evcStamp (k : Nat) (x : Source) : (s.setSrc k x).evcStamp = s.evcStamp := rfl
@[simp] theorem State.setSrc_cku (k : Nat) (x : Source) : (s.setSrc k x).cku = s.cku := rfl
@[simp] theorem State.setSrc_cis (k : Nat) (x : Source) : (s.setSrc k x).cis = s.cis := rfl
@[simp] theorem State.setSrc_dma (k : Nat) (x : Source) : (s.setSrc k x).dma = s.dma := rfl
@[simp] theorem State.setSrc_dmaPtr (k : Nat) (x : Source) : (s.setSrc k x).dmaPtr = s.dmaPtr := rfl
@[simp] theorem State.setSrc_flume (k : Nat) (x : Source) : (s.setSrc k x).flume = s.flume := rfl
@[simp] theorem State.setSrc_onHold (k : Nat) (x : Source) : (s.setSrc k x).onHold = s.onHold := rfl
@[simp] theorem State.setSrc_mc (k : Nat) (x : Source) : (s.setSrc k x).mc = s.mc := rfl
@[simp] theorem State.setSrc_sns (k : Nat) (x : Source) : (s.setSrc k x).sns = s.sns := rfl
@[simp] theorem State.setSrc_ledgers (k : Nat) (x : Source) : (s.setSrc k x).ledgers = s.ledgers := rfl
@[simp] theorem State.setSrc_logs (k : Nat) (x : Source) : (s.setSrc k x).logs = s.logs := rfl
@[simp] theorem State.setSrc_mags (k : Nat) (x : Source) : (s.setSrc k x).mags = s.mags := rfl
@[simp] theorem State.setSrc_slots (k : Nat) (x : Source) : (s.setSrc k x).slots = s.slots := rfl
@[simp] theorem State.setSrc_lateViews (k : Nat) (x : Source) : (s.setSrc k x).lateViews = s.lateViews := rfl
@[simp] theorem State.setSrc_wholeViews (k : Nat) (x : Source) : (s.setSrc k x).wholeViews = s.wholeViews := rfl
@[simp] theorem State.setSrc_engines (k : Nat) (x : Source) : (s.setSrc k x).engines = s.engines := rfl
@[simp] theorem State.setSrc_clusters (k : Nat) (x : Source) : (s.setSrc k x).clusters = s.clusters := rfl
@[simp] theorem State.setSrc_tileQueue (k : Nat) (x : Source) : (s.setSrc k x).tileQueue = s.tileQueue := rfl
@[simp] theorem State.setSrc_lastEngine (k : Nat) (x : Source) : (s.setSrc k x).lastEngine = s.lastEngine := rfl
@[simp] theorem State.setSrc_maintQueue (k : Nat) (x : Source) : (s.setSrc k x).maintQueue = s.maintQueue := rfl
@[simp] theorem State.setSrc_streams (k : Nat) (x : Source) : (s.setSrc k x).streams = s.streams := rfl
@[simp] theorem State.setSrc_sessions (k : Nat) (x : Source) : (s.setSrc k x).sessions = s.sessions := rfl
@[simp] theorem State.setSrc_slu (k : Nat) (x : Source) : (s.setSrc k x).slu = s.slu := rfl
@[simp] theorem State.setSrc_ksl (k : Nat) (x : Source) : (s.setSrc k x).ksl = s.ksl := rfl
@[simp] theorem State.setSrc_ptp (k : Nat) (x : Source) : (s.setSrc k x).ptp = s.ptp := rfl
@[simp] theorem State.setSrc_hdg (k : Nat) (x : Source) : (s.setSrc k x).hdg = s.hdg := rfl
@[simp] theorem State.setSrc_ras (k : Nat) (x : Source) : (s.setSrc k x).ras = s.ras := rfl
@[simp] theorem State.setSrc_tap (k : Nat) (x : Source) : (s.setSrc k x).tap = s.tap := rfl
@[simp] theorem State.setSrc_supply (k : Nat) (x : Source) : (s.setSrc k x).supply = s.supply := rfl
@[simp] theorem State.setSrc_tagCmd (k : Nat) (x : Source) : (s.setSrc k x).tagCmd = s.tagCmd := rfl

/-! `State.setEngine` writes `engines`. -/

@[simp] theorem State.setEngine_pending (j : Nat) (x : Engine) : (s.setEngine j x).pending = s.pending := rfl
@[simp] theorem State.setEngine_freeCount (j : Nat) (x : Engine) : (s.setEngine j x).freeCount = s.freeCount := rfl
@[simp] theorem State.setEngine_clk (j : Nat) (x : Engine) : (s.setEngine j x).clk = s.clk := rfl
@[simp] theorem State.setEngine_regs (j : Nat) (x : Engine) : (s.setEngine j x).regs = s.regs := rfl
@[simp] theorem State.setEngine_latches (j : Nat) (x : Engine) : (s.setEngine j x).latches = s.latches := rfl
@[simp] theorem State.setEngine_holds (j : Nat) (x : Engine) : (s.setEngine j x).holds = s.holds := rfl
@[simp] theorem State.setEngine_gates (j : Nat) (x : Engine) : (s.setEngine j x).gates = s.gates := rfl
@[simp] theorem State.setEngine_cores (j : Nat) (x : Engine) : (s.setEngine j x).cores = s.cores := rfl
@[simp] theorem State.setEngine_coreMap (j : Nat) (x : Engine) : (s.setEngine j x).coreMap = s.coreMap := rfl
@[simp] theorem State.setEngine_bh (j : Nat) (x : Engine) : (s.setEngine j x).bh = s.bh := rfl
@[simp] theorem State.setEngine_dram (j : Nat) (x : Engine) : (s.setEngine j x).dram = s.dram := rfl
@[simp] theorem State.setEngine_cisSram (j : Nat) (x : Engine) : (s.setEngine j x).cisSram = s.cisSram := rfl
@[simp] theorem State.setEngine_ctlSram (j : Nat) (x : Engine) : (s.setEngine j x).ctlSram = s.ctlSram := rfl
@[simp] theorem State.setEngine_nvs (j : Nat) (x : Engine) : (s.setEngine j x).nvs = s.nvs := rfl
@[simp] theorem State.setEngine_take (j : Nat) (x : Engine) : (s.setEngine j x).take = s.take := rfl
@[simp] theorem State.setEngine_banks (j : Nat) (x : Engine) : (s.setEngine j x).banks = s.banks := rfl
@[simp] theorem State.setEngine_ringGen (j : Nat) (x : Engine) : (s.setEngine j x).ringGen = s.ringGen := rfl
@[simp] theorem State.setEngine_ringPhase (j : Nat) (x : Engine) : (s.setEngine j x).ringPhase = s.ringPhase := rfl
@[simp] theorem State.setEngine_visible (j : Nat) (x : Engine) : (s.setEngine j x).visible = s.visible := rfl
@[simp] theorem State.setEngine_stalled (j : Nat) (x : Engine) : (s.setEngine j x).stalled = s.stalled := rfl
@[simp] theorem State.setEngine_srcs (j : Nat) (x : Engine) : (s.setEngine j x).srcs = s.srcs := rfl
@[simp] theorem State.setEngine_evcStamp (j : Nat) (x : Engine) : (s.setEngine j x).evcStamp = s.evcStamp := rfl
@[simp] theorem State.setEngine_cku (j : Nat) (x : Engine) : (s.setEngine j x).cku = s.cku := rfl
@[simp] theorem State.setEngine_cis (j : Nat) (x : Engine) : (s.setEngine j x).cis = s.cis := rfl
@[simp] theorem State.setEngine_dma (j : Nat) (x : Engine) : (s.setEngine j x).dma = s.dma := rfl
@[simp] theorem State.setEngine_dmaPtr (j : Nat) (x : Engine) : (s.setEngine j x).dmaPtr = s.dmaPtr := rfl
@[simp] theorem State.setEngine_flume (j : Nat) (x : Engine) : (s.setEngine j x).flume = s.flume := rfl
@[simp] theorem State.setEngine_onHold (j : Nat) (x : Engine) : (s.setEngine j x).onHold = s.onHold := rfl
@[simp] theorem State.setEngine_mc (j : Nat) (x : Engine) : (s.setEngine j x).mc = s.mc := rfl
@[simp] theorem State.setEngine_sns (j : Nat) (x : Engine) : (s.setEngine j x).sns = s.sns := rfl
@[simp] theorem State.setEngine_ledgers (j : Nat) (x : Engine) : (s.setEngine j x).ledgers = s.ledgers := rfl
@[simp] theorem State.setEngine_logs (j : Nat) (x : Engine) : (s.setEngine j x).logs = s.logs := rfl
@[simp] theorem State.setEngine_mags (j : Nat) (x : Engine) : (s.setEngine j x).mags = s.mags := rfl
@[simp] theorem State.setEngine_slots (j : Nat) (x : Engine) : (s.setEngine j x).slots = s.slots := rfl
@[simp] theorem State.setEngine_lateViews (j : Nat) (x : Engine) : (s.setEngine j x).lateViews = s.lateViews := rfl
@[simp] theorem State.setEngine_wholeViews (j : Nat) (x : Engine) : (s.setEngine j x).wholeViews = s.wholeViews := rfl
@[simp] theorem State.setEngine_engines (j : Nat) (x : Engine) : (s.setEngine j x).engines = mapSet engineReset s.engines j x := rfl
@[simp] theorem State.setEngine_clusters (j : Nat) (x : Engine) : (s.setEngine j x).clusters = s.clusters := rfl
@[simp] theorem State.setEngine_tileQueue (j : Nat) (x : Engine) : (s.setEngine j x).tileQueue = s.tileQueue := rfl
@[simp] theorem State.setEngine_lastEngine (j : Nat) (x : Engine) : (s.setEngine j x).lastEngine = s.lastEngine := rfl
@[simp] theorem State.setEngine_maintQueue (j : Nat) (x : Engine) : (s.setEngine j x).maintQueue = s.maintQueue := rfl
@[simp] theorem State.setEngine_streams (j : Nat) (x : Engine) : (s.setEngine j x).streams = s.streams := rfl
@[simp] theorem State.setEngine_sessions (j : Nat) (x : Engine) : (s.setEngine j x).sessions = s.sessions := rfl
@[simp] theorem State.setEngine_slu (j : Nat) (x : Engine) : (s.setEngine j x).slu = s.slu := rfl
@[simp] theorem State.setEngine_ksl (j : Nat) (x : Engine) : (s.setEngine j x).ksl = s.ksl := rfl
@[simp] theorem State.setEngine_ptp (j : Nat) (x : Engine) : (s.setEngine j x).ptp = s.ptp := rfl
@[simp] theorem State.setEngine_hdg (j : Nat) (x : Engine) : (s.setEngine j x).hdg = s.hdg := rfl
@[simp] theorem State.setEngine_ras (j : Nat) (x : Engine) : (s.setEngine j x).ras = s.ras := rfl
@[simp] theorem State.setEngine_tap (j : Nat) (x : Engine) : (s.setEngine j x).tap = s.tap := rfl
@[simp] theorem State.setEngine_supply (j : Nat) (x : Engine) : (s.setEngine j x).supply = s.supply := rfl
@[simp] theorem State.setEngine_tagCmd (j : Nat) (x : Engine) : (s.setEngine j x).tagCmd = s.tagCmd := rfl

/-! `State.modCore` writes `cores`. -/

@[simp] theorem State.modCore_pending (k : Fin 4) (f : TaborCore → TaborCore) : (s.modCore k f).pending = s.pending := rfl
@[simp] theorem State.modCore_freeCount (k : Fin 4) (f : TaborCore → TaborCore) : (s.modCore k f).freeCount = s.freeCount := rfl
@[simp] theorem State.modCore_clk (k : Fin 4) (f : TaborCore → TaborCore) : (s.modCore k f).clk = s.clk := rfl
@[simp] theorem State.modCore_regs (k : Fin 4) (f : TaborCore → TaborCore) : (s.modCore k f).regs = s.regs := rfl
@[simp] theorem State.modCore_latches (k : Fin 4) (f : TaborCore → TaborCore) : (s.modCore k f).latches = s.latches := rfl
@[simp] theorem State.modCore_holds (k : Fin 4) (f : TaborCore → TaborCore) : (s.modCore k f).holds = s.holds := rfl
@[simp] theorem State.modCore_gates (k : Fin 4) (f : TaborCore → TaborCore) : (s.modCore k f).gates = s.gates := rfl
@[simp] theorem State.modCore_cores (k : Fin 4) (f : TaborCore → TaborCore) : (s.modCore k f).cores = vmod s.cores k f := rfl
@[simp] theorem State.modCore_coreMap (k : Fin 4) (f : TaborCore → TaborCore) : (s.modCore k f).coreMap = s.coreMap := rfl
@[simp] theorem State.modCore_bh (k : Fin 4) (f : TaborCore → TaborCore) : (s.modCore k f).bh = s.bh := rfl
@[simp] theorem State.modCore_dram (k : Fin 4) (f : TaborCore → TaborCore) : (s.modCore k f).dram = s.dram := rfl
@[simp] theorem State.modCore_cisSram (k : Fin 4) (f : TaborCore → TaborCore) : (s.modCore k f).cisSram = s.cisSram := rfl
@[simp] theorem State.modCore_ctlSram (k : Fin 4) (f : TaborCore → TaborCore) : (s.modCore k f).ctlSram = s.ctlSram := rfl
@[simp] theorem State.modCore_nvs (k : Fin 4) (f : TaborCore → TaborCore) : (s.modCore k f).nvs = s.nvs := rfl
@[simp] theorem State.modCore_take (k : Fin 4) (f : TaborCore → TaborCore) : (s.modCore k f).take = s.take := rfl
@[simp] theorem State.modCore_banks (k : Fin 4) (f : TaborCore → TaborCore) : (s.modCore k f).banks = s.banks := rfl
@[simp] theorem State.modCore_ringGen (k : Fin 4) (f : TaborCore → TaborCore) : (s.modCore k f).ringGen = s.ringGen := rfl
@[simp] theorem State.modCore_ringPhase (k : Fin 4) (f : TaborCore → TaborCore) : (s.modCore k f).ringPhase = s.ringPhase := rfl
@[simp] theorem State.modCore_visible (k : Fin 4) (f : TaborCore → TaborCore) : (s.modCore k f).visible = s.visible := rfl
@[simp] theorem State.modCore_stalled (k : Fin 4) (f : TaborCore → TaborCore) : (s.modCore k f).stalled = s.stalled := rfl
@[simp] theorem State.modCore_srcs (k : Fin 4) (f : TaborCore → TaborCore) : (s.modCore k f).srcs = s.srcs := rfl
@[simp] theorem State.modCore_evcStamp (k : Fin 4) (f : TaborCore → TaborCore) : (s.modCore k f).evcStamp = s.evcStamp := rfl
@[simp] theorem State.modCore_cku (k : Fin 4) (f : TaborCore → TaborCore) : (s.modCore k f).cku = s.cku := rfl
@[simp] theorem State.modCore_cis (k : Fin 4) (f : TaborCore → TaborCore) : (s.modCore k f).cis = s.cis := rfl
@[simp] theorem State.modCore_dma (k : Fin 4) (f : TaborCore → TaborCore) : (s.modCore k f).dma = s.dma := rfl
@[simp] theorem State.modCore_dmaPtr (k : Fin 4) (f : TaborCore → TaborCore) : (s.modCore k f).dmaPtr = s.dmaPtr := rfl
@[simp] theorem State.modCore_flume (k : Fin 4) (f : TaborCore → TaborCore) : (s.modCore k f).flume = s.flume := rfl
@[simp] theorem State.modCore_onHold (k : Fin 4) (f : TaborCore → TaborCore) : (s.modCore k f).onHold = s.onHold := rfl
@[simp] theorem State.modCore_mc (k : Fin 4) (f : TaborCore → TaborCore) : (s.modCore k f).mc = s.mc := rfl
@[simp] theorem State.modCore_sns (k : Fin 4) (f : TaborCore → TaborCore) : (s.modCore k f).sns = s.sns := rfl
@[simp] theorem State.modCore_ledgers (k : Fin 4) (f : TaborCore → TaborCore) : (s.modCore k f).ledgers = s.ledgers := rfl
@[simp] theorem State.modCore_logs (k : Fin 4) (f : TaborCore → TaborCore) : (s.modCore k f).logs = s.logs := rfl
@[simp] theorem State.modCore_mags (k : Fin 4) (f : TaborCore → TaborCore) : (s.modCore k f).mags = s.mags := rfl
@[simp] theorem State.modCore_slots (k : Fin 4) (f : TaborCore → TaborCore) : (s.modCore k f).slots = s.slots := rfl
@[simp] theorem State.modCore_lateViews (k : Fin 4) (f : TaborCore → TaborCore) : (s.modCore k f).lateViews = s.lateViews := rfl
@[simp] theorem State.modCore_wholeViews (k : Fin 4) (f : TaborCore → TaborCore) : (s.modCore k f).wholeViews = s.wholeViews := rfl
@[simp] theorem State.modCore_engines (k : Fin 4) (f : TaborCore → TaborCore) : (s.modCore k f).engines = s.engines := rfl
@[simp] theorem State.modCore_clusters (k : Fin 4) (f : TaborCore → TaborCore) : (s.modCore k f).clusters = s.clusters := rfl
@[simp] theorem State.modCore_tileQueue (k : Fin 4) (f : TaborCore → TaborCore) : (s.modCore k f).tileQueue = s.tileQueue := rfl
@[simp] theorem State.modCore_lastEngine (k : Fin 4) (f : TaborCore → TaborCore) : (s.modCore k f).lastEngine = s.lastEngine := rfl
@[simp] theorem State.modCore_maintQueue (k : Fin 4) (f : TaborCore → TaborCore) : (s.modCore k f).maintQueue = s.maintQueue := rfl
@[simp] theorem State.modCore_streams (k : Fin 4) (f : TaborCore → TaborCore) : (s.modCore k f).streams = s.streams := rfl
@[simp] theorem State.modCore_sessions (k : Fin 4) (f : TaborCore → TaborCore) : (s.modCore k f).sessions = s.sessions := rfl
@[simp] theorem State.modCore_slu (k : Fin 4) (f : TaborCore → TaborCore) : (s.modCore k f).slu = s.slu := rfl
@[simp] theorem State.modCore_ksl (k : Fin 4) (f : TaborCore → TaborCore) : (s.modCore k f).ksl = s.ksl := rfl
@[simp] theorem State.modCore_ptp (k : Fin 4) (f : TaborCore → TaborCore) : (s.modCore k f).ptp = s.ptp := rfl
@[simp] theorem State.modCore_hdg (k : Fin 4) (f : TaborCore → TaborCore) : (s.modCore k f).hdg = s.hdg := rfl
@[simp] theorem State.modCore_ras (k : Fin 4) (f : TaborCore → TaborCore) : (s.modCore k f).ras = s.ras := rfl
@[simp] theorem State.modCore_tap (k : Fin 4) (f : TaborCore → TaborCore) : (s.modCore k f).tap = s.tap := rfl
@[simp] theorem State.modCore_supply (k : Fin 4) (f : TaborCore → TaborCore) : (s.modCore k f).supply = s.supply := rfl
@[simp] theorem State.modCore_tagCmd (k : Fin 4) (f : TaborCore → TaborCore) : (s.modCore k f).tagCmd = s.tagCmd := rfl

/-! `State.modBh` writes `bh`. -/

@[simp] theorem State.modBh_pending (f : BellhouseCore → BellhouseCore) : (s.modBh f).pending = s.pending := rfl
@[simp] theorem State.modBh_freeCount (f : BellhouseCore → BellhouseCore) : (s.modBh f).freeCount = s.freeCount := rfl
@[simp] theorem State.modBh_clk (f : BellhouseCore → BellhouseCore) : (s.modBh f).clk = s.clk := rfl
@[simp] theorem State.modBh_regs (f : BellhouseCore → BellhouseCore) : (s.modBh f).regs = s.regs := rfl
@[simp] theorem State.modBh_latches (f : BellhouseCore → BellhouseCore) : (s.modBh f).latches = s.latches := rfl
@[simp] theorem State.modBh_holds (f : BellhouseCore → BellhouseCore) : (s.modBh f).holds = s.holds := rfl
@[simp] theorem State.modBh_gates (f : BellhouseCore → BellhouseCore) : (s.modBh f).gates = s.gates := rfl
@[simp] theorem State.modBh_cores (f : BellhouseCore → BellhouseCore) : (s.modBh f).cores = s.cores := rfl
@[simp] theorem State.modBh_coreMap (f : BellhouseCore → BellhouseCore) : (s.modBh f).coreMap = s.coreMap := rfl
@[simp] theorem State.modBh_bh (f : BellhouseCore → BellhouseCore) : (s.modBh f).bh = f s.bh := rfl
@[simp] theorem State.modBh_dram (f : BellhouseCore → BellhouseCore) : (s.modBh f).dram = s.dram := rfl
@[simp] theorem State.modBh_cisSram (f : BellhouseCore → BellhouseCore) : (s.modBh f).cisSram = s.cisSram := rfl
@[simp] theorem State.modBh_ctlSram (f : BellhouseCore → BellhouseCore) : (s.modBh f).ctlSram = s.ctlSram := rfl
@[simp] theorem State.modBh_nvs (f : BellhouseCore → BellhouseCore) : (s.modBh f).nvs = s.nvs := rfl
@[simp] theorem State.modBh_take (f : BellhouseCore → BellhouseCore) : (s.modBh f).take = s.take := rfl
@[simp] theorem State.modBh_banks (f : BellhouseCore → BellhouseCore) : (s.modBh f).banks = s.banks := rfl
@[simp] theorem State.modBh_ringGen (f : BellhouseCore → BellhouseCore) : (s.modBh f).ringGen = s.ringGen := rfl
@[simp] theorem State.modBh_ringPhase (f : BellhouseCore → BellhouseCore) : (s.modBh f).ringPhase = s.ringPhase := rfl
@[simp] theorem State.modBh_visible (f : BellhouseCore → BellhouseCore) : (s.modBh f).visible = s.visible := rfl
@[simp] theorem State.modBh_stalled (f : BellhouseCore → BellhouseCore) : (s.modBh f).stalled = s.stalled := rfl
@[simp] theorem State.modBh_srcs (f : BellhouseCore → BellhouseCore) : (s.modBh f).srcs = s.srcs := rfl
@[simp] theorem State.modBh_evcStamp (f : BellhouseCore → BellhouseCore) : (s.modBh f).evcStamp = s.evcStamp := rfl
@[simp] theorem State.modBh_cku (f : BellhouseCore → BellhouseCore) : (s.modBh f).cku = s.cku := rfl
@[simp] theorem State.modBh_cis (f : BellhouseCore → BellhouseCore) : (s.modBh f).cis = s.cis := rfl
@[simp] theorem State.modBh_dma (f : BellhouseCore → BellhouseCore) : (s.modBh f).dma = s.dma := rfl
@[simp] theorem State.modBh_dmaPtr (f : BellhouseCore → BellhouseCore) : (s.modBh f).dmaPtr = s.dmaPtr := rfl
@[simp] theorem State.modBh_flume (f : BellhouseCore → BellhouseCore) : (s.modBh f).flume = s.flume := rfl
@[simp] theorem State.modBh_onHold (f : BellhouseCore → BellhouseCore) : (s.modBh f).onHold = s.onHold := rfl
@[simp] theorem State.modBh_mc (f : BellhouseCore → BellhouseCore) : (s.modBh f).mc = s.mc := rfl
@[simp] theorem State.modBh_sns (f : BellhouseCore → BellhouseCore) : (s.modBh f).sns = s.sns := rfl
@[simp] theorem State.modBh_ledgers (f : BellhouseCore → BellhouseCore) : (s.modBh f).ledgers = s.ledgers := rfl
@[simp] theorem State.modBh_logs (f : BellhouseCore → BellhouseCore) : (s.modBh f).logs = s.logs := rfl
@[simp] theorem State.modBh_mags (f : BellhouseCore → BellhouseCore) : (s.modBh f).mags = s.mags := rfl
@[simp] theorem State.modBh_slots (f : BellhouseCore → BellhouseCore) : (s.modBh f).slots = s.slots := rfl
@[simp] theorem State.modBh_lateViews (f : BellhouseCore → BellhouseCore) : (s.modBh f).lateViews = s.lateViews := rfl
@[simp] theorem State.modBh_wholeViews (f : BellhouseCore → BellhouseCore) : (s.modBh f).wholeViews = s.wholeViews := rfl
@[simp] theorem State.modBh_engines (f : BellhouseCore → BellhouseCore) : (s.modBh f).engines = s.engines := rfl
@[simp] theorem State.modBh_clusters (f : BellhouseCore → BellhouseCore) : (s.modBh f).clusters = s.clusters := rfl
@[simp] theorem State.modBh_tileQueue (f : BellhouseCore → BellhouseCore) : (s.modBh f).tileQueue = s.tileQueue := rfl
@[simp] theorem State.modBh_lastEngine (f : BellhouseCore → BellhouseCore) : (s.modBh f).lastEngine = s.lastEngine := rfl
@[simp] theorem State.modBh_maintQueue (f : BellhouseCore → BellhouseCore) : (s.modBh f).maintQueue = s.maintQueue := rfl
@[simp] theorem State.modBh_streams (f : BellhouseCore → BellhouseCore) : (s.modBh f).streams = s.streams := rfl
@[simp] theorem State.modBh_sessions (f : BellhouseCore → BellhouseCore) : (s.modBh f).sessions = s.sessions := rfl
@[simp] theorem State.modBh_slu (f : BellhouseCore → BellhouseCore) : (s.modBh f).slu = s.slu := rfl
@[simp] theorem State.modBh_ksl (f : BellhouseCore → BellhouseCore) : (s.modBh f).ksl = s.ksl := rfl
@[simp] theorem State.modBh_ptp (f : BellhouseCore → BellhouseCore) : (s.modBh f).ptp = s.ptp := rfl
@[simp] theorem State.modBh_hdg (f : BellhouseCore → BellhouseCore) : (s.modBh f).hdg = s.hdg := rfl
@[simp] theorem State.modBh_ras (f : BellhouseCore → BellhouseCore) : (s.modBh f).ras = s.ras := rfl
@[simp] theorem State.modBh_tap (f : BellhouseCore → BellhouseCore) : (s.modBh f).tap = s.tap := rfl
@[simp] theorem State.modBh_supply (f : BellhouseCore → BellhouseCore) : (s.modBh f).supply = s.supply := rfl
@[simp] theorem State.modBh_tagCmd (f : BellhouseCore → BellhouseCore) : (s.modBh f).tagCmd = s.tagCmd := rfl

/-! `State.modTake` writes `take`. -/

@[simp] theorem State.modTake_pending (f : Take → Take) : (s.modTake f).pending = s.pending := rfl
@[simp] theorem State.modTake_freeCount (f : Take → Take) : (s.modTake f).freeCount = s.freeCount := rfl
@[simp] theorem State.modTake_clk (f : Take → Take) : (s.modTake f).clk = s.clk := rfl
@[simp] theorem State.modTake_regs (f : Take → Take) : (s.modTake f).regs = s.regs := rfl
@[simp] theorem State.modTake_latches (f : Take → Take) : (s.modTake f).latches = s.latches := rfl
@[simp] theorem State.modTake_holds (f : Take → Take) : (s.modTake f).holds = s.holds := rfl
@[simp] theorem State.modTake_gates (f : Take → Take) : (s.modTake f).gates = s.gates := rfl
@[simp] theorem State.modTake_cores (f : Take → Take) : (s.modTake f).cores = s.cores := rfl
@[simp] theorem State.modTake_coreMap (f : Take → Take) : (s.modTake f).coreMap = s.coreMap := rfl
@[simp] theorem State.modTake_bh (f : Take → Take) : (s.modTake f).bh = s.bh := rfl
@[simp] theorem State.modTake_dram (f : Take → Take) : (s.modTake f).dram = s.dram := rfl
@[simp] theorem State.modTake_cisSram (f : Take → Take) : (s.modTake f).cisSram = s.cisSram := rfl
@[simp] theorem State.modTake_ctlSram (f : Take → Take) : (s.modTake f).ctlSram = s.ctlSram := rfl
@[simp] theorem State.modTake_nvs (f : Take → Take) : (s.modTake f).nvs = s.nvs := rfl
@[simp] theorem State.modTake_take (f : Take → Take) : (s.modTake f).take = f s.take := rfl
@[simp] theorem State.modTake_banks (f : Take → Take) : (s.modTake f).banks = s.banks := rfl
@[simp] theorem State.modTake_ringGen (f : Take → Take) : (s.modTake f).ringGen = s.ringGen := rfl
@[simp] theorem State.modTake_ringPhase (f : Take → Take) : (s.modTake f).ringPhase = s.ringPhase := rfl
@[simp] theorem State.modTake_visible (f : Take → Take) : (s.modTake f).visible = s.visible := rfl
@[simp] theorem State.modTake_stalled (f : Take → Take) : (s.modTake f).stalled = s.stalled := rfl
@[simp] theorem State.modTake_srcs (f : Take → Take) : (s.modTake f).srcs = s.srcs := rfl
@[simp] theorem State.modTake_evcStamp (f : Take → Take) : (s.modTake f).evcStamp = s.evcStamp := rfl
@[simp] theorem State.modTake_cku (f : Take → Take) : (s.modTake f).cku = s.cku := rfl
@[simp] theorem State.modTake_cis (f : Take → Take) : (s.modTake f).cis = s.cis := rfl
@[simp] theorem State.modTake_dma (f : Take → Take) : (s.modTake f).dma = s.dma := rfl
@[simp] theorem State.modTake_dmaPtr (f : Take → Take) : (s.modTake f).dmaPtr = s.dmaPtr := rfl
@[simp] theorem State.modTake_flume (f : Take → Take) : (s.modTake f).flume = s.flume := rfl
@[simp] theorem State.modTake_onHold (f : Take → Take) : (s.modTake f).onHold = s.onHold := rfl
@[simp] theorem State.modTake_mc (f : Take → Take) : (s.modTake f).mc = s.mc := rfl
@[simp] theorem State.modTake_sns (f : Take → Take) : (s.modTake f).sns = s.sns := rfl
@[simp] theorem State.modTake_ledgers (f : Take → Take) : (s.modTake f).ledgers = s.ledgers := rfl
@[simp] theorem State.modTake_logs (f : Take → Take) : (s.modTake f).logs = s.logs := rfl
@[simp] theorem State.modTake_mags (f : Take → Take) : (s.modTake f).mags = s.mags := rfl
@[simp] theorem State.modTake_slots (f : Take → Take) : (s.modTake f).slots = s.slots := rfl
@[simp] theorem State.modTake_lateViews (f : Take → Take) : (s.modTake f).lateViews = s.lateViews := rfl
@[simp] theorem State.modTake_wholeViews (f : Take → Take) : (s.modTake f).wholeViews = s.wholeViews := rfl
@[simp] theorem State.modTake_engines (f : Take → Take) : (s.modTake f).engines = s.engines := rfl
@[simp] theorem State.modTake_clusters (f : Take → Take) : (s.modTake f).clusters = s.clusters := rfl
@[simp] theorem State.modTake_tileQueue (f : Take → Take) : (s.modTake f).tileQueue = s.tileQueue := rfl
@[simp] theorem State.modTake_lastEngine (f : Take → Take) : (s.modTake f).lastEngine = s.lastEngine := rfl
@[simp] theorem State.modTake_maintQueue (f : Take → Take) : (s.modTake f).maintQueue = s.maintQueue := rfl
@[simp] theorem State.modTake_streams (f : Take → Take) : (s.modTake f).streams = s.streams := rfl
@[simp] theorem State.modTake_sessions (f : Take → Take) : (s.modTake f).sessions = s.sessions := rfl
@[simp] theorem State.modTake_slu (f : Take → Take) : (s.modTake f).slu = s.slu := rfl
@[simp] theorem State.modTake_ksl (f : Take → Take) : (s.modTake f).ksl = s.ksl := rfl
@[simp] theorem State.modTake_ptp (f : Take → Take) : (s.modTake f).ptp = s.ptp := rfl
@[simp] theorem State.modTake_hdg (f : Take → Take) : (s.modTake f).hdg = s.hdg := rfl
@[simp] theorem State.modTake_ras (f : Take → Take) : (s.modTake f).ras = s.ras := rfl
@[simp] theorem State.modTake_tap (f : Take → Take) : (s.modTake f).tap = s.tap := rfl
@[simp] theorem State.modTake_supply (f : Take → Take) : (s.modTake f).supply = s.supply := rfl
@[simp] theorem State.modTake_tagCmd (f : Take → Take) : (s.modTake f).tagCmd = s.tagCmd := rfl

/-! `State.modSlot` writes `slots`. -/

@[simp] theorem State.modSlot_pending (i : Fin 16) (f : Slot → Slot) : (s.modSlot i f).pending = s.pending := rfl
@[simp] theorem State.modSlot_freeCount (i : Fin 16) (f : Slot → Slot) : (s.modSlot i f).freeCount = s.freeCount := rfl
@[simp] theorem State.modSlot_clk (i : Fin 16) (f : Slot → Slot) : (s.modSlot i f).clk = s.clk := rfl
@[simp] theorem State.modSlot_regs (i : Fin 16) (f : Slot → Slot) : (s.modSlot i f).regs = s.regs := rfl
@[simp] theorem State.modSlot_latches (i : Fin 16) (f : Slot → Slot) : (s.modSlot i f).latches = s.latches := rfl
@[simp] theorem State.modSlot_holds (i : Fin 16) (f : Slot → Slot) : (s.modSlot i f).holds = s.holds := rfl
@[simp] theorem State.modSlot_gates (i : Fin 16) (f : Slot → Slot) : (s.modSlot i f).gates = s.gates := rfl
@[simp] theorem State.modSlot_cores (i : Fin 16) (f : Slot → Slot) : (s.modSlot i f).cores = s.cores := rfl
@[simp] theorem State.modSlot_coreMap (i : Fin 16) (f : Slot → Slot) : (s.modSlot i f).coreMap = s.coreMap := rfl
@[simp] theorem State.modSlot_bh (i : Fin 16) (f : Slot → Slot) : (s.modSlot i f).bh = s.bh := rfl
@[simp] theorem State.modSlot_dram (i : Fin 16) (f : Slot → Slot) : (s.modSlot i f).dram = s.dram := rfl
@[simp] theorem State.modSlot_cisSram (i : Fin 16) (f : Slot → Slot) : (s.modSlot i f).cisSram = s.cisSram := rfl
@[simp] theorem State.modSlot_ctlSram (i : Fin 16) (f : Slot → Slot) : (s.modSlot i f).ctlSram = s.ctlSram := rfl
@[simp] theorem State.modSlot_nvs (i : Fin 16) (f : Slot → Slot) : (s.modSlot i f).nvs = s.nvs := rfl
@[simp] theorem State.modSlot_take (i : Fin 16) (f : Slot → Slot) : (s.modSlot i f).take = s.take := rfl
@[simp] theorem State.modSlot_banks (i : Fin 16) (f : Slot → Slot) : (s.modSlot i f).banks = s.banks := rfl
@[simp] theorem State.modSlot_ringGen (i : Fin 16) (f : Slot → Slot) : (s.modSlot i f).ringGen = s.ringGen := rfl
@[simp] theorem State.modSlot_ringPhase (i : Fin 16) (f : Slot → Slot) : (s.modSlot i f).ringPhase = s.ringPhase := rfl
@[simp] theorem State.modSlot_visible (i : Fin 16) (f : Slot → Slot) : (s.modSlot i f).visible = s.visible := rfl
@[simp] theorem State.modSlot_stalled (i : Fin 16) (f : Slot → Slot) : (s.modSlot i f).stalled = s.stalled := rfl
@[simp] theorem State.modSlot_srcs (i : Fin 16) (f : Slot → Slot) : (s.modSlot i f).srcs = s.srcs := rfl
@[simp] theorem State.modSlot_evcStamp (i : Fin 16) (f : Slot → Slot) : (s.modSlot i f).evcStamp = s.evcStamp := rfl
@[simp] theorem State.modSlot_cku (i : Fin 16) (f : Slot → Slot) : (s.modSlot i f).cku = s.cku := rfl
@[simp] theorem State.modSlot_cis (i : Fin 16) (f : Slot → Slot) : (s.modSlot i f).cis = s.cis := rfl
@[simp] theorem State.modSlot_dma (i : Fin 16) (f : Slot → Slot) : (s.modSlot i f).dma = s.dma := rfl
@[simp] theorem State.modSlot_dmaPtr (i : Fin 16) (f : Slot → Slot) : (s.modSlot i f).dmaPtr = s.dmaPtr := rfl
@[simp] theorem State.modSlot_flume (i : Fin 16) (f : Slot → Slot) : (s.modSlot i f).flume = s.flume := rfl
@[simp] theorem State.modSlot_onHold (i : Fin 16) (f : Slot → Slot) : (s.modSlot i f).onHold = s.onHold := rfl
@[simp] theorem State.modSlot_mc (i : Fin 16) (f : Slot → Slot) : (s.modSlot i f).mc = s.mc := rfl
@[simp] theorem State.modSlot_sns (i : Fin 16) (f : Slot → Slot) : (s.modSlot i f).sns = s.sns := rfl
@[simp] theorem State.modSlot_ledgers (i : Fin 16) (f : Slot → Slot) : (s.modSlot i f).ledgers = s.ledgers := rfl
@[simp] theorem State.modSlot_logs (i : Fin 16) (f : Slot → Slot) : (s.modSlot i f).logs = s.logs := rfl
@[simp] theorem State.modSlot_mags (i : Fin 16) (f : Slot → Slot) : (s.modSlot i f).mags = s.mags := rfl
@[simp] theorem State.modSlot_slots (i : Fin 16) (f : Slot → Slot) : (s.modSlot i f).slots = vmod s.slots i f := rfl
@[simp] theorem State.modSlot_lateViews (i : Fin 16) (f : Slot → Slot) : (s.modSlot i f).lateViews = s.lateViews := rfl
@[simp] theorem State.modSlot_wholeViews (i : Fin 16) (f : Slot → Slot) : (s.modSlot i f).wholeViews = s.wholeViews := rfl
@[simp] theorem State.modSlot_engines (i : Fin 16) (f : Slot → Slot) : (s.modSlot i f).engines = s.engines := rfl
@[simp] theorem State.modSlot_clusters (i : Fin 16) (f : Slot → Slot) : (s.modSlot i f).clusters = s.clusters := rfl
@[simp] theorem State.modSlot_tileQueue (i : Fin 16) (f : Slot → Slot) : (s.modSlot i f).tileQueue = s.tileQueue := rfl
@[simp] theorem State.modSlot_lastEngine (i : Fin 16) (f : Slot → Slot) : (s.modSlot i f).lastEngine = s.lastEngine := rfl
@[simp] theorem State.modSlot_maintQueue (i : Fin 16) (f : Slot → Slot) : (s.modSlot i f).maintQueue = s.maintQueue := rfl
@[simp] theorem State.modSlot_streams (i : Fin 16) (f : Slot → Slot) : (s.modSlot i f).streams = s.streams := rfl
@[simp] theorem State.modSlot_sessions (i : Fin 16) (f : Slot → Slot) : (s.modSlot i f).sessions = s.sessions := rfl
@[simp] theorem State.modSlot_slu (i : Fin 16) (f : Slot → Slot) : (s.modSlot i f).slu = s.slu := rfl
@[simp] theorem State.modSlot_ksl (i : Fin 16) (f : Slot → Slot) : (s.modSlot i f).ksl = s.ksl := rfl
@[simp] theorem State.modSlot_ptp (i : Fin 16) (f : Slot → Slot) : (s.modSlot i f).ptp = s.ptp := rfl
@[simp] theorem State.modSlot_hdg (i : Fin 16) (f : Slot → Slot) : (s.modSlot i f).hdg = s.hdg := rfl
@[simp] theorem State.modSlot_ras (i : Fin 16) (f : Slot → Slot) : (s.modSlot i f).ras = s.ras := rfl
@[simp] theorem State.modSlot_tap (i : Fin 16) (f : Slot → Slot) : (s.modSlot i f).tap = s.tap := rfl
@[simp] theorem State.modSlot_supply (i : Fin 16) (f : Slot → Slot) : (s.modSlot i f).supply = s.supply := rfl
@[simp] theorem State.modSlot_tagCmd (i : Fin 16) (f : Slot → Slot) : (s.modSlot i f).tagCmd = s.tagCmd := rfl

/-! `State.modHdg` writes `hdg`. -/

@[simp] theorem State.modHdg_pending (f : Headgate → Headgate) : (s.modHdg f).pending = s.pending := rfl
@[simp] theorem State.modHdg_freeCount (f : Headgate → Headgate) : (s.modHdg f).freeCount = s.freeCount := rfl
@[simp] theorem State.modHdg_clk (f : Headgate → Headgate) : (s.modHdg f).clk = s.clk := rfl
@[simp] theorem State.modHdg_regs (f : Headgate → Headgate) : (s.modHdg f).regs = s.regs := rfl
@[simp] theorem State.modHdg_latches (f : Headgate → Headgate) : (s.modHdg f).latches = s.latches := rfl
@[simp] theorem State.modHdg_holds (f : Headgate → Headgate) : (s.modHdg f).holds = s.holds := rfl
@[simp] theorem State.modHdg_gates (f : Headgate → Headgate) : (s.modHdg f).gates = s.gates := rfl
@[simp] theorem State.modHdg_cores (f : Headgate → Headgate) : (s.modHdg f).cores = s.cores := rfl
@[simp] theorem State.modHdg_coreMap (f : Headgate → Headgate) : (s.modHdg f).coreMap = s.coreMap := rfl
@[simp] theorem State.modHdg_bh (f : Headgate → Headgate) : (s.modHdg f).bh = s.bh := rfl
@[simp] theorem State.modHdg_dram (f : Headgate → Headgate) : (s.modHdg f).dram = s.dram := rfl
@[simp] theorem State.modHdg_cisSram (f : Headgate → Headgate) : (s.modHdg f).cisSram = s.cisSram := rfl
@[simp] theorem State.modHdg_ctlSram (f : Headgate → Headgate) : (s.modHdg f).ctlSram = s.ctlSram := rfl
@[simp] theorem State.modHdg_nvs (f : Headgate → Headgate) : (s.modHdg f).nvs = s.nvs := rfl
@[simp] theorem State.modHdg_take (f : Headgate → Headgate) : (s.modHdg f).take = s.take := rfl
@[simp] theorem State.modHdg_banks (f : Headgate → Headgate) : (s.modHdg f).banks = s.banks := rfl
@[simp] theorem State.modHdg_ringGen (f : Headgate → Headgate) : (s.modHdg f).ringGen = s.ringGen := rfl
@[simp] theorem State.modHdg_ringPhase (f : Headgate → Headgate) : (s.modHdg f).ringPhase = s.ringPhase := rfl
@[simp] theorem State.modHdg_visible (f : Headgate → Headgate) : (s.modHdg f).visible = s.visible := rfl
@[simp] theorem State.modHdg_stalled (f : Headgate → Headgate) : (s.modHdg f).stalled = s.stalled := rfl
@[simp] theorem State.modHdg_srcs (f : Headgate → Headgate) : (s.modHdg f).srcs = s.srcs := rfl
@[simp] theorem State.modHdg_evcStamp (f : Headgate → Headgate) : (s.modHdg f).evcStamp = s.evcStamp := rfl
@[simp] theorem State.modHdg_cku (f : Headgate → Headgate) : (s.modHdg f).cku = s.cku := rfl
@[simp] theorem State.modHdg_cis (f : Headgate → Headgate) : (s.modHdg f).cis = s.cis := rfl
@[simp] theorem State.modHdg_dma (f : Headgate → Headgate) : (s.modHdg f).dma = s.dma := rfl
@[simp] theorem State.modHdg_dmaPtr (f : Headgate → Headgate) : (s.modHdg f).dmaPtr = s.dmaPtr := rfl
@[simp] theorem State.modHdg_flume (f : Headgate → Headgate) : (s.modHdg f).flume = s.flume := rfl
@[simp] theorem State.modHdg_onHold (f : Headgate → Headgate) : (s.modHdg f).onHold = s.onHold := rfl
@[simp] theorem State.modHdg_mc (f : Headgate → Headgate) : (s.modHdg f).mc = s.mc := rfl
@[simp] theorem State.modHdg_sns (f : Headgate → Headgate) : (s.modHdg f).sns = s.sns := rfl
@[simp] theorem State.modHdg_ledgers (f : Headgate → Headgate) : (s.modHdg f).ledgers = s.ledgers := rfl
@[simp] theorem State.modHdg_logs (f : Headgate → Headgate) : (s.modHdg f).logs = s.logs := rfl
@[simp] theorem State.modHdg_mags (f : Headgate → Headgate) : (s.modHdg f).mags = s.mags := rfl
@[simp] theorem State.modHdg_slots (f : Headgate → Headgate) : (s.modHdg f).slots = s.slots := rfl
@[simp] theorem State.modHdg_lateViews (f : Headgate → Headgate) : (s.modHdg f).lateViews = s.lateViews := rfl
@[simp] theorem State.modHdg_wholeViews (f : Headgate → Headgate) : (s.modHdg f).wholeViews = s.wholeViews := rfl
@[simp] theorem State.modHdg_engines (f : Headgate → Headgate) : (s.modHdg f).engines = s.engines := rfl
@[simp] theorem State.modHdg_clusters (f : Headgate → Headgate) : (s.modHdg f).clusters = s.clusters := rfl
@[simp] theorem State.modHdg_tileQueue (f : Headgate → Headgate) : (s.modHdg f).tileQueue = s.tileQueue := rfl
@[simp] theorem State.modHdg_lastEngine (f : Headgate → Headgate) : (s.modHdg f).lastEngine = s.lastEngine := rfl
@[simp] theorem State.modHdg_maintQueue (f : Headgate → Headgate) : (s.modHdg f).maintQueue = s.maintQueue := rfl
@[simp] theorem State.modHdg_streams (f : Headgate → Headgate) : (s.modHdg f).streams = s.streams := rfl
@[simp] theorem State.modHdg_sessions (f : Headgate → Headgate) : (s.modHdg f).sessions = s.sessions := rfl
@[simp] theorem State.modHdg_slu (f : Headgate → Headgate) : (s.modHdg f).slu = s.slu := rfl
@[simp] theorem State.modHdg_ksl (f : Headgate → Headgate) : (s.modHdg f).ksl = s.ksl := rfl
@[simp] theorem State.modHdg_ptp (f : Headgate → Headgate) : (s.modHdg f).ptp = s.ptp := rfl
@[simp] theorem State.modHdg_hdg (f : Headgate → Headgate) : (s.modHdg f).hdg = f s.hdg := rfl
@[simp] theorem State.modHdg_ras (f : Headgate → Headgate) : (s.modHdg f).ras = s.ras := rfl
@[simp] theorem State.modHdg_tap (f : Headgate → Headgate) : (s.modHdg f).tap = s.tap := rfl
@[simp] theorem State.modHdg_supply (f : Headgate → Headgate) : (s.modHdg f).supply = s.supply := rfl
@[simp] theorem State.modHdg_tagCmd (f : Headgate → Headgate) : (s.modHdg f).tagCmd = s.tagCmd := rfl

/-! `State.modRas` writes `ras`. -/

@[simp] theorem State.modRas_pending (f : Ras → Ras) : (s.modRas f).pending = s.pending := rfl
@[simp] theorem State.modRas_freeCount (f : Ras → Ras) : (s.modRas f).freeCount = s.freeCount := rfl
@[simp] theorem State.modRas_clk (f : Ras → Ras) : (s.modRas f).clk = s.clk := rfl
@[simp] theorem State.modRas_regs (f : Ras → Ras) : (s.modRas f).regs = s.regs := rfl
@[simp] theorem State.modRas_latches (f : Ras → Ras) : (s.modRas f).latches = s.latches := rfl
@[simp] theorem State.modRas_holds (f : Ras → Ras) : (s.modRas f).holds = s.holds := rfl
@[simp] theorem State.modRas_gates (f : Ras → Ras) : (s.modRas f).gates = s.gates := rfl
@[simp] theorem State.modRas_cores (f : Ras → Ras) : (s.modRas f).cores = s.cores := rfl
@[simp] theorem State.modRas_coreMap (f : Ras → Ras) : (s.modRas f).coreMap = s.coreMap := rfl
@[simp] theorem State.modRas_bh (f : Ras → Ras) : (s.modRas f).bh = s.bh := rfl
@[simp] theorem State.modRas_dram (f : Ras → Ras) : (s.modRas f).dram = s.dram := rfl
@[simp] theorem State.modRas_cisSram (f : Ras → Ras) : (s.modRas f).cisSram = s.cisSram := rfl
@[simp] theorem State.modRas_ctlSram (f : Ras → Ras) : (s.modRas f).ctlSram = s.ctlSram := rfl
@[simp] theorem State.modRas_nvs (f : Ras → Ras) : (s.modRas f).nvs = s.nvs := rfl
@[simp] theorem State.modRas_take (f : Ras → Ras) : (s.modRas f).take = s.take := rfl
@[simp] theorem State.modRas_banks (f : Ras → Ras) : (s.modRas f).banks = s.banks := rfl
@[simp] theorem State.modRas_ringGen (f : Ras → Ras) : (s.modRas f).ringGen = s.ringGen := rfl
@[simp] theorem State.modRas_ringPhase (f : Ras → Ras) : (s.modRas f).ringPhase = s.ringPhase := rfl
@[simp] theorem State.modRas_visible (f : Ras → Ras) : (s.modRas f).visible = s.visible := rfl
@[simp] theorem State.modRas_stalled (f : Ras → Ras) : (s.modRas f).stalled = s.stalled := rfl
@[simp] theorem State.modRas_srcs (f : Ras → Ras) : (s.modRas f).srcs = s.srcs := rfl
@[simp] theorem State.modRas_evcStamp (f : Ras → Ras) : (s.modRas f).evcStamp = s.evcStamp := rfl
@[simp] theorem State.modRas_cku (f : Ras → Ras) : (s.modRas f).cku = s.cku := rfl
@[simp] theorem State.modRas_cis (f : Ras → Ras) : (s.modRas f).cis = s.cis := rfl
@[simp] theorem State.modRas_dma (f : Ras → Ras) : (s.modRas f).dma = s.dma := rfl
@[simp] theorem State.modRas_dmaPtr (f : Ras → Ras) : (s.modRas f).dmaPtr = s.dmaPtr := rfl
@[simp] theorem State.modRas_flume (f : Ras → Ras) : (s.modRas f).flume = s.flume := rfl
@[simp] theorem State.modRas_onHold (f : Ras → Ras) : (s.modRas f).onHold = s.onHold := rfl
@[simp] theorem State.modRas_mc (f : Ras → Ras) : (s.modRas f).mc = s.mc := rfl
@[simp] theorem State.modRas_sns (f : Ras → Ras) : (s.modRas f).sns = s.sns := rfl
@[simp] theorem State.modRas_ledgers (f : Ras → Ras) : (s.modRas f).ledgers = s.ledgers := rfl
@[simp] theorem State.modRas_logs (f : Ras → Ras) : (s.modRas f).logs = s.logs := rfl
@[simp] theorem State.modRas_mags (f : Ras → Ras) : (s.modRas f).mags = s.mags := rfl
@[simp] theorem State.modRas_slots (f : Ras → Ras) : (s.modRas f).slots = s.slots := rfl
@[simp] theorem State.modRas_lateViews (f : Ras → Ras) : (s.modRas f).lateViews = s.lateViews := rfl
@[simp] theorem State.modRas_wholeViews (f : Ras → Ras) : (s.modRas f).wholeViews = s.wholeViews := rfl
@[simp] theorem State.modRas_engines (f : Ras → Ras) : (s.modRas f).engines = s.engines := rfl
@[simp] theorem State.modRas_clusters (f : Ras → Ras) : (s.modRas f).clusters = s.clusters := rfl
@[simp] theorem State.modRas_tileQueue (f : Ras → Ras) : (s.modRas f).tileQueue = s.tileQueue := rfl
@[simp] theorem State.modRas_lastEngine (f : Ras → Ras) : (s.modRas f).lastEngine = s.lastEngine := rfl
@[simp] theorem State.modRas_maintQueue (f : Ras → Ras) : (s.modRas f).maintQueue = s.maintQueue := rfl
@[simp] theorem State.modRas_streams (f : Ras → Ras) : (s.modRas f).streams = s.streams := rfl
@[simp] theorem State.modRas_sessions (f : Ras → Ras) : (s.modRas f).sessions = s.sessions := rfl
@[simp] theorem State.modRas_slu (f : Ras → Ras) : (s.modRas f).slu = s.slu := rfl
@[simp] theorem State.modRas_ksl (f : Ras → Ras) : (s.modRas f).ksl = s.ksl := rfl
@[simp] theorem State.modRas_ptp (f : Ras → Ras) : (s.modRas f).ptp = s.ptp := rfl
@[simp] theorem State.modRas_hdg (f : Ras → Ras) : (s.modRas f).hdg = s.hdg := rfl
@[simp] theorem State.modRas_ras (f : Ras → Ras) : (s.modRas f).ras = f s.ras := rfl
@[simp] theorem State.modRas_tap (f : Ras → Ras) : (s.modRas f).tap = s.tap := rfl
@[simp] theorem State.modRas_supply (f : Ras → Ras) : (s.modRas f).supply = s.supply := rfl
@[simp] theorem State.modRas_tagCmd (f : Ras → Ras) : (s.modRas f).tagCmd = s.tagCmd := rfl

/-! `State.modMc` writes `mc`. -/

@[simp] theorem State.modMc_pending (f : MemCtl → MemCtl) : (s.modMc f).pending = s.pending := rfl
@[simp] theorem State.modMc_freeCount (f : MemCtl → MemCtl) : (s.modMc f).freeCount = s.freeCount := rfl
@[simp] theorem State.modMc_clk (f : MemCtl → MemCtl) : (s.modMc f).clk = s.clk := rfl
@[simp] theorem State.modMc_regs (f : MemCtl → MemCtl) : (s.modMc f).regs = s.regs := rfl
@[simp] theorem State.modMc_latches (f : MemCtl → MemCtl) : (s.modMc f).latches = s.latches := rfl
@[simp] theorem State.modMc_holds (f : MemCtl → MemCtl) : (s.modMc f).holds = s.holds := rfl
@[simp] theorem State.modMc_gates (f : MemCtl → MemCtl) : (s.modMc f).gates = s.gates := rfl
@[simp] theorem State.modMc_cores (f : MemCtl → MemCtl) : (s.modMc f).cores = s.cores := rfl
@[simp] theorem State.modMc_coreMap (f : MemCtl → MemCtl) : (s.modMc f).coreMap = s.coreMap := rfl
@[simp] theorem State.modMc_bh (f : MemCtl → MemCtl) : (s.modMc f).bh = s.bh := rfl
@[simp] theorem State.modMc_dram (f : MemCtl → MemCtl) : (s.modMc f).dram = s.dram := rfl
@[simp] theorem State.modMc_cisSram (f : MemCtl → MemCtl) : (s.modMc f).cisSram = s.cisSram := rfl
@[simp] theorem State.modMc_ctlSram (f : MemCtl → MemCtl) : (s.modMc f).ctlSram = s.ctlSram := rfl
@[simp] theorem State.modMc_nvs (f : MemCtl → MemCtl) : (s.modMc f).nvs = s.nvs := rfl
@[simp] theorem State.modMc_take (f : MemCtl → MemCtl) : (s.modMc f).take = s.take := rfl
@[simp] theorem State.modMc_banks (f : MemCtl → MemCtl) : (s.modMc f).banks = s.banks := rfl
@[simp] theorem State.modMc_ringGen (f : MemCtl → MemCtl) : (s.modMc f).ringGen = s.ringGen := rfl
@[simp] theorem State.modMc_ringPhase (f : MemCtl → MemCtl) : (s.modMc f).ringPhase = s.ringPhase := rfl
@[simp] theorem State.modMc_visible (f : MemCtl → MemCtl) : (s.modMc f).visible = s.visible := rfl
@[simp] theorem State.modMc_stalled (f : MemCtl → MemCtl) : (s.modMc f).stalled = s.stalled := rfl
@[simp] theorem State.modMc_srcs (f : MemCtl → MemCtl) : (s.modMc f).srcs = s.srcs := rfl
@[simp] theorem State.modMc_evcStamp (f : MemCtl → MemCtl) : (s.modMc f).evcStamp = s.evcStamp := rfl
@[simp] theorem State.modMc_cku (f : MemCtl → MemCtl) : (s.modMc f).cku = s.cku := rfl
@[simp] theorem State.modMc_cis (f : MemCtl → MemCtl) : (s.modMc f).cis = s.cis := rfl
@[simp] theorem State.modMc_dma (f : MemCtl → MemCtl) : (s.modMc f).dma = s.dma := rfl
@[simp] theorem State.modMc_dmaPtr (f : MemCtl → MemCtl) : (s.modMc f).dmaPtr = s.dmaPtr := rfl
@[simp] theorem State.modMc_flume (f : MemCtl → MemCtl) : (s.modMc f).flume = s.flume := rfl
@[simp] theorem State.modMc_onHold (f : MemCtl → MemCtl) : (s.modMc f).onHold = s.onHold := rfl
@[simp] theorem State.modMc_mc (f : MemCtl → MemCtl) : (s.modMc f).mc = f s.mc := rfl
@[simp] theorem State.modMc_sns (f : MemCtl → MemCtl) : (s.modMc f).sns = s.sns := rfl
@[simp] theorem State.modMc_ledgers (f : MemCtl → MemCtl) : (s.modMc f).ledgers = s.ledgers := rfl
@[simp] theorem State.modMc_logs (f : MemCtl → MemCtl) : (s.modMc f).logs = s.logs := rfl
@[simp] theorem State.modMc_mags (f : MemCtl → MemCtl) : (s.modMc f).mags = s.mags := rfl
@[simp] theorem State.modMc_slots (f : MemCtl → MemCtl) : (s.modMc f).slots = s.slots := rfl
@[simp] theorem State.modMc_lateViews (f : MemCtl → MemCtl) : (s.modMc f).lateViews = s.lateViews := rfl
@[simp] theorem State.modMc_wholeViews (f : MemCtl → MemCtl) : (s.modMc f).wholeViews = s.wholeViews := rfl
@[simp] theorem State.modMc_engines (f : MemCtl → MemCtl) : (s.modMc f).engines = s.engines := rfl
@[simp] theorem State.modMc_clusters (f : MemCtl → MemCtl) : (s.modMc f).clusters = s.clusters := rfl
@[simp] theorem State.modMc_tileQueue (f : MemCtl → MemCtl) : (s.modMc f).tileQueue = s.tileQueue := rfl
@[simp] theorem State.modMc_lastEngine (f : MemCtl → MemCtl) : (s.modMc f).lastEngine = s.lastEngine := rfl
@[simp] theorem State.modMc_maintQueue (f : MemCtl → MemCtl) : (s.modMc f).maintQueue = s.maintQueue := rfl
@[simp] theorem State.modMc_streams (f : MemCtl → MemCtl) : (s.modMc f).streams = s.streams := rfl
@[simp] theorem State.modMc_sessions (f : MemCtl → MemCtl) : (s.modMc f).sessions = s.sessions := rfl
@[simp] theorem State.modMc_slu (f : MemCtl → MemCtl) : (s.modMc f).slu = s.slu := rfl
@[simp] theorem State.modMc_ksl (f : MemCtl → MemCtl) : (s.modMc f).ksl = s.ksl := rfl
@[simp] theorem State.modMc_ptp (f : MemCtl → MemCtl) : (s.modMc f).ptp = s.ptp := rfl
@[simp] theorem State.modMc_hdg (f : MemCtl → MemCtl) : (s.modMc f).hdg = s.hdg := rfl
@[simp] theorem State.modMc_ras (f : MemCtl → MemCtl) : (s.modMc f).ras = s.ras := rfl
@[simp] theorem State.modMc_tap (f : MemCtl → MemCtl) : (s.modMc f).tap = s.tap := rfl
@[simp] theorem State.modMc_supply (f : MemCtl → MemCtl) : (s.modMc f).supply = s.supply := rfl
@[simp] theorem State.modMc_tagCmd (f : MemCtl → MemCtl) : (s.modMc f).tagCmd = s.tagCmd := rfl

/-! `State.modSns` writes `sns`. -/

@[simp] theorem State.modSns_pending (f : Sensor → Sensor) : (s.modSns f).pending = s.pending := rfl
@[simp] theorem State.modSns_freeCount (f : Sensor → Sensor) : (s.modSns f).freeCount = s.freeCount := rfl
@[simp] theorem State.modSns_clk (f : Sensor → Sensor) : (s.modSns f).clk = s.clk := rfl
@[simp] theorem State.modSns_regs (f : Sensor → Sensor) : (s.modSns f).regs = s.regs := rfl
@[simp] theorem State.modSns_latches (f : Sensor → Sensor) : (s.modSns f).latches = s.latches := rfl
@[simp] theorem State.modSns_holds (f : Sensor → Sensor) : (s.modSns f).holds = s.holds := rfl
@[simp] theorem State.modSns_gates (f : Sensor → Sensor) : (s.modSns f).gates = s.gates := rfl
@[simp] theorem State.modSns_cores (f : Sensor → Sensor) : (s.modSns f).cores = s.cores := rfl
@[simp] theorem State.modSns_coreMap (f : Sensor → Sensor) : (s.modSns f).coreMap = s.coreMap := rfl
@[simp] theorem State.modSns_bh (f : Sensor → Sensor) : (s.modSns f).bh = s.bh := rfl
@[simp] theorem State.modSns_dram (f : Sensor → Sensor) : (s.modSns f).dram = s.dram := rfl
@[simp] theorem State.modSns_cisSram (f : Sensor → Sensor) : (s.modSns f).cisSram = s.cisSram := rfl
@[simp] theorem State.modSns_ctlSram (f : Sensor → Sensor) : (s.modSns f).ctlSram = s.ctlSram := rfl
@[simp] theorem State.modSns_nvs (f : Sensor → Sensor) : (s.modSns f).nvs = s.nvs := rfl
@[simp] theorem State.modSns_take (f : Sensor → Sensor) : (s.modSns f).take = s.take := rfl
@[simp] theorem State.modSns_banks (f : Sensor → Sensor) : (s.modSns f).banks = s.banks := rfl
@[simp] theorem State.modSns_ringGen (f : Sensor → Sensor) : (s.modSns f).ringGen = s.ringGen := rfl
@[simp] theorem State.modSns_ringPhase (f : Sensor → Sensor) : (s.modSns f).ringPhase = s.ringPhase := rfl
@[simp] theorem State.modSns_visible (f : Sensor → Sensor) : (s.modSns f).visible = s.visible := rfl
@[simp] theorem State.modSns_stalled (f : Sensor → Sensor) : (s.modSns f).stalled = s.stalled := rfl
@[simp] theorem State.modSns_srcs (f : Sensor → Sensor) : (s.modSns f).srcs = s.srcs := rfl
@[simp] theorem State.modSns_evcStamp (f : Sensor → Sensor) : (s.modSns f).evcStamp = s.evcStamp := rfl
@[simp] theorem State.modSns_cku (f : Sensor → Sensor) : (s.modSns f).cku = s.cku := rfl
@[simp] theorem State.modSns_cis (f : Sensor → Sensor) : (s.modSns f).cis = s.cis := rfl
@[simp] theorem State.modSns_dma (f : Sensor → Sensor) : (s.modSns f).dma = s.dma := rfl
@[simp] theorem State.modSns_dmaPtr (f : Sensor → Sensor) : (s.modSns f).dmaPtr = s.dmaPtr := rfl
@[simp] theorem State.modSns_flume (f : Sensor → Sensor) : (s.modSns f).flume = s.flume := rfl
@[simp] theorem State.modSns_onHold (f : Sensor → Sensor) : (s.modSns f).onHold = s.onHold := rfl
@[simp] theorem State.modSns_mc (f : Sensor → Sensor) : (s.modSns f).mc = s.mc := rfl
@[simp] theorem State.modSns_sns (f : Sensor → Sensor) : (s.modSns f).sns = f s.sns := rfl
@[simp] theorem State.modSns_ledgers (f : Sensor → Sensor) : (s.modSns f).ledgers = s.ledgers := rfl
@[simp] theorem State.modSns_logs (f : Sensor → Sensor) : (s.modSns f).logs = s.logs := rfl
@[simp] theorem State.modSns_mags (f : Sensor → Sensor) : (s.modSns f).mags = s.mags := rfl
@[simp] theorem State.modSns_slots (f : Sensor → Sensor) : (s.modSns f).slots = s.slots := rfl
@[simp] theorem State.modSns_lateViews (f : Sensor → Sensor) : (s.modSns f).lateViews = s.lateViews := rfl
@[simp] theorem State.modSns_wholeViews (f : Sensor → Sensor) : (s.modSns f).wholeViews = s.wholeViews := rfl
@[simp] theorem State.modSns_engines (f : Sensor → Sensor) : (s.modSns f).engines = s.engines := rfl
@[simp] theorem State.modSns_clusters (f : Sensor → Sensor) : (s.modSns f).clusters = s.clusters := rfl
@[simp] theorem State.modSns_tileQueue (f : Sensor → Sensor) : (s.modSns f).tileQueue = s.tileQueue := rfl
@[simp] theorem State.modSns_lastEngine (f : Sensor → Sensor) : (s.modSns f).lastEngine = s.lastEngine := rfl
@[simp] theorem State.modSns_maintQueue (f : Sensor → Sensor) : (s.modSns f).maintQueue = s.maintQueue := rfl
@[simp] theorem State.modSns_streams (f : Sensor → Sensor) : (s.modSns f).streams = s.streams := rfl
@[simp] theorem State.modSns_sessions (f : Sensor → Sensor) : (s.modSns f).sessions = s.sessions := rfl
@[simp] theorem State.modSns_slu (f : Sensor → Sensor) : (s.modSns f).slu = s.slu := rfl
@[simp] theorem State.modSns_ksl (f : Sensor → Sensor) : (s.modSns f).ksl = s.ksl := rfl
@[simp] theorem State.modSns_ptp (f : Sensor → Sensor) : (s.modSns f).ptp = s.ptp := rfl
@[simp] theorem State.modSns_hdg (f : Sensor → Sensor) : (s.modSns f).hdg = s.hdg := rfl
@[simp] theorem State.modSns_ras (f : Sensor → Sensor) : (s.modSns f).ras = s.ras := rfl
@[simp] theorem State.modSns_tap (f : Sensor → Sensor) : (s.modSns f).tap = s.tap := rfl
@[simp] theorem State.modSns_supply (f : Sensor → Sensor) : (s.modSns f).supply = s.supply := rfl
@[simp] theorem State.modSns_tagCmd (f : Sensor → Sensor) : (s.modSns f).tagCmd = s.tagCmd := rfl

/-! `State.modKsl` writes `ksl`. -/

@[simp] theorem State.modKsl_pending (f : Kalsal → Kalsal) : (s.modKsl f).pending = s.pending := rfl
@[simp] theorem State.modKsl_freeCount (f : Kalsal → Kalsal) : (s.modKsl f).freeCount = s.freeCount := rfl
@[simp] theorem State.modKsl_clk (f : Kalsal → Kalsal) : (s.modKsl f).clk = s.clk := rfl
@[simp] theorem State.modKsl_regs (f : Kalsal → Kalsal) : (s.modKsl f).regs = s.regs := rfl
@[simp] theorem State.modKsl_latches (f : Kalsal → Kalsal) : (s.modKsl f).latches = s.latches := rfl
@[simp] theorem State.modKsl_holds (f : Kalsal → Kalsal) : (s.modKsl f).holds = s.holds := rfl
@[simp] theorem State.modKsl_gates (f : Kalsal → Kalsal) : (s.modKsl f).gates = s.gates := rfl
@[simp] theorem State.modKsl_cores (f : Kalsal → Kalsal) : (s.modKsl f).cores = s.cores := rfl
@[simp] theorem State.modKsl_coreMap (f : Kalsal → Kalsal) : (s.modKsl f).coreMap = s.coreMap := rfl
@[simp] theorem State.modKsl_bh (f : Kalsal → Kalsal) : (s.modKsl f).bh = s.bh := rfl
@[simp] theorem State.modKsl_dram (f : Kalsal → Kalsal) : (s.modKsl f).dram = s.dram := rfl
@[simp] theorem State.modKsl_cisSram (f : Kalsal → Kalsal) : (s.modKsl f).cisSram = s.cisSram := rfl
@[simp] theorem State.modKsl_ctlSram (f : Kalsal → Kalsal) : (s.modKsl f).ctlSram = s.ctlSram := rfl
@[simp] theorem State.modKsl_nvs (f : Kalsal → Kalsal) : (s.modKsl f).nvs = s.nvs := rfl
@[simp] theorem State.modKsl_take (f : Kalsal → Kalsal) : (s.modKsl f).take = s.take := rfl
@[simp] theorem State.modKsl_banks (f : Kalsal → Kalsal) : (s.modKsl f).banks = s.banks := rfl
@[simp] theorem State.modKsl_ringGen (f : Kalsal → Kalsal) : (s.modKsl f).ringGen = s.ringGen := rfl
@[simp] theorem State.modKsl_ringPhase (f : Kalsal → Kalsal) : (s.modKsl f).ringPhase = s.ringPhase := rfl
@[simp] theorem State.modKsl_visible (f : Kalsal → Kalsal) : (s.modKsl f).visible = s.visible := rfl
@[simp] theorem State.modKsl_stalled (f : Kalsal → Kalsal) : (s.modKsl f).stalled = s.stalled := rfl
@[simp] theorem State.modKsl_srcs (f : Kalsal → Kalsal) : (s.modKsl f).srcs = s.srcs := rfl
@[simp] theorem State.modKsl_evcStamp (f : Kalsal → Kalsal) : (s.modKsl f).evcStamp = s.evcStamp := rfl
@[simp] theorem State.modKsl_cku (f : Kalsal → Kalsal) : (s.modKsl f).cku = s.cku := rfl
@[simp] theorem State.modKsl_cis (f : Kalsal → Kalsal) : (s.modKsl f).cis = s.cis := rfl
@[simp] theorem State.modKsl_dma (f : Kalsal → Kalsal) : (s.modKsl f).dma = s.dma := rfl
@[simp] theorem State.modKsl_dmaPtr (f : Kalsal → Kalsal) : (s.modKsl f).dmaPtr = s.dmaPtr := rfl
@[simp] theorem State.modKsl_flume (f : Kalsal → Kalsal) : (s.modKsl f).flume = s.flume := rfl
@[simp] theorem State.modKsl_onHold (f : Kalsal → Kalsal) : (s.modKsl f).onHold = s.onHold := rfl
@[simp] theorem State.modKsl_mc (f : Kalsal → Kalsal) : (s.modKsl f).mc = s.mc := rfl
@[simp] theorem State.modKsl_sns (f : Kalsal → Kalsal) : (s.modKsl f).sns = s.sns := rfl
@[simp] theorem State.modKsl_ledgers (f : Kalsal → Kalsal) : (s.modKsl f).ledgers = s.ledgers := rfl
@[simp] theorem State.modKsl_logs (f : Kalsal → Kalsal) : (s.modKsl f).logs = s.logs := rfl
@[simp] theorem State.modKsl_mags (f : Kalsal → Kalsal) : (s.modKsl f).mags = s.mags := rfl
@[simp] theorem State.modKsl_slots (f : Kalsal → Kalsal) : (s.modKsl f).slots = s.slots := rfl
@[simp] theorem State.modKsl_lateViews (f : Kalsal → Kalsal) : (s.modKsl f).lateViews = s.lateViews := rfl
@[simp] theorem State.modKsl_wholeViews (f : Kalsal → Kalsal) : (s.modKsl f).wholeViews = s.wholeViews := rfl
@[simp] theorem State.modKsl_engines (f : Kalsal → Kalsal) : (s.modKsl f).engines = s.engines := rfl
@[simp] theorem State.modKsl_clusters (f : Kalsal → Kalsal) : (s.modKsl f).clusters = s.clusters := rfl
@[simp] theorem State.modKsl_tileQueue (f : Kalsal → Kalsal) : (s.modKsl f).tileQueue = s.tileQueue := rfl
@[simp] theorem State.modKsl_lastEngine (f : Kalsal → Kalsal) : (s.modKsl f).lastEngine = s.lastEngine := rfl
@[simp] theorem State.modKsl_maintQueue (f : Kalsal → Kalsal) : (s.modKsl f).maintQueue = s.maintQueue := rfl
@[simp] theorem State.modKsl_streams (f : Kalsal → Kalsal) : (s.modKsl f).streams = s.streams := rfl
@[simp] theorem State.modKsl_sessions (f : Kalsal → Kalsal) : (s.modKsl f).sessions = s.sessions := rfl
@[simp] theorem State.modKsl_slu (f : Kalsal → Kalsal) : (s.modKsl f).slu = s.slu := rfl
@[simp] theorem State.modKsl_ksl (f : Kalsal → Kalsal) : (s.modKsl f).ksl = f s.ksl := rfl
@[simp] theorem State.modKsl_ptp (f : Kalsal → Kalsal) : (s.modKsl f).ptp = s.ptp := rfl
@[simp] theorem State.modKsl_hdg (f : Kalsal → Kalsal) : (s.modKsl f).hdg = s.hdg := rfl
@[simp] theorem State.modKsl_ras (f : Kalsal → Kalsal) : (s.modKsl f).ras = s.ras := rfl
@[simp] theorem State.modKsl_tap (f : Kalsal → Kalsal) : (s.modKsl f).tap = s.tap := rfl
@[simp] theorem State.modKsl_supply (f : Kalsal → Kalsal) : (s.modKsl f).supply = s.supply := rfl
@[simp] theorem State.modKsl_tagCmd (f : Kalsal → Kalsal) : (s.modKsl f).tagCmd = s.tagCmd := rfl

/-! `State.modCluster` writes `clusters`. -/

@[simp] theorem State.modCluster_pending (n : Nat) (f : Cluster → Cluster) : (s.modCluster n f).pending = s.pending := rfl
@[simp] theorem State.modCluster_freeCount (n : Nat) (f : Cluster → Cluster) : (s.modCluster n f).freeCount = s.freeCount := rfl
@[simp] theorem State.modCluster_clk (n : Nat) (f : Cluster → Cluster) : (s.modCluster n f).clk = s.clk := rfl
@[simp] theorem State.modCluster_regs (n : Nat) (f : Cluster → Cluster) : (s.modCluster n f).regs = s.regs := rfl
@[simp] theorem State.modCluster_latches (n : Nat) (f : Cluster → Cluster) : (s.modCluster n f).latches = s.latches := rfl
@[simp] theorem State.modCluster_holds (n : Nat) (f : Cluster → Cluster) : (s.modCluster n f).holds = s.holds := rfl
@[simp] theorem State.modCluster_gates (n : Nat) (f : Cluster → Cluster) : (s.modCluster n f).gates = s.gates := rfl
@[simp] theorem State.modCluster_cores (n : Nat) (f : Cluster → Cluster) : (s.modCluster n f).cores = s.cores := rfl
@[simp] theorem State.modCluster_coreMap (n : Nat) (f : Cluster → Cluster) : (s.modCluster n f).coreMap = s.coreMap := rfl
@[simp] theorem State.modCluster_bh (n : Nat) (f : Cluster → Cluster) : (s.modCluster n f).bh = s.bh := rfl
@[simp] theorem State.modCluster_dram (n : Nat) (f : Cluster → Cluster) : (s.modCluster n f).dram = s.dram := rfl
@[simp] theorem State.modCluster_cisSram (n : Nat) (f : Cluster → Cluster) : (s.modCluster n f).cisSram = s.cisSram := rfl
@[simp] theorem State.modCluster_ctlSram (n : Nat) (f : Cluster → Cluster) : (s.modCluster n f).ctlSram = s.ctlSram := rfl
@[simp] theorem State.modCluster_nvs (n : Nat) (f : Cluster → Cluster) : (s.modCluster n f).nvs = s.nvs := rfl
@[simp] theorem State.modCluster_take (n : Nat) (f : Cluster → Cluster) : (s.modCluster n f).take = s.take := rfl
@[simp] theorem State.modCluster_banks (n : Nat) (f : Cluster → Cluster) : (s.modCluster n f).banks = s.banks := rfl
@[simp] theorem State.modCluster_ringGen (n : Nat) (f : Cluster → Cluster) : (s.modCluster n f).ringGen = s.ringGen := rfl
@[simp] theorem State.modCluster_ringPhase (n : Nat) (f : Cluster → Cluster) : (s.modCluster n f).ringPhase = s.ringPhase := rfl
@[simp] theorem State.modCluster_visible (n : Nat) (f : Cluster → Cluster) : (s.modCluster n f).visible = s.visible := rfl
@[simp] theorem State.modCluster_stalled (n : Nat) (f : Cluster → Cluster) : (s.modCluster n f).stalled = s.stalled := rfl
@[simp] theorem State.modCluster_srcs (n : Nat) (f : Cluster → Cluster) : (s.modCluster n f).srcs = s.srcs := rfl
@[simp] theorem State.modCluster_evcStamp (n : Nat) (f : Cluster → Cluster) : (s.modCluster n f).evcStamp = s.evcStamp := rfl
@[simp] theorem State.modCluster_cku (n : Nat) (f : Cluster → Cluster) : (s.modCluster n f).cku = s.cku := rfl
@[simp] theorem State.modCluster_cis (n : Nat) (f : Cluster → Cluster) : (s.modCluster n f).cis = s.cis := rfl
@[simp] theorem State.modCluster_dma (n : Nat) (f : Cluster → Cluster) : (s.modCluster n f).dma = s.dma := rfl
@[simp] theorem State.modCluster_dmaPtr (n : Nat) (f : Cluster → Cluster) : (s.modCluster n f).dmaPtr = s.dmaPtr := rfl
@[simp] theorem State.modCluster_flume (n : Nat) (f : Cluster → Cluster) : (s.modCluster n f).flume = s.flume := rfl
@[simp] theorem State.modCluster_onHold (n : Nat) (f : Cluster → Cluster) : (s.modCluster n f).onHold = s.onHold := rfl
@[simp] theorem State.modCluster_mc (n : Nat) (f : Cluster → Cluster) : (s.modCluster n f).mc = s.mc := rfl
@[simp] theorem State.modCluster_sns (n : Nat) (f : Cluster → Cluster) : (s.modCluster n f).sns = s.sns := rfl
@[simp] theorem State.modCluster_ledgers (n : Nat) (f : Cluster → Cluster) : (s.modCluster n f).ledgers = s.ledgers := rfl
@[simp] theorem State.modCluster_logs (n : Nat) (f : Cluster → Cluster) : (s.modCluster n f).logs = s.logs := rfl
@[simp] theorem State.modCluster_mags (n : Nat) (f : Cluster → Cluster) : (s.modCluster n f).mags = s.mags := rfl
@[simp] theorem State.modCluster_slots (n : Nat) (f : Cluster → Cluster) : (s.modCluster n f).slots = s.slots := rfl
@[simp] theorem State.modCluster_lateViews (n : Nat) (f : Cluster → Cluster) : (s.modCluster n f).lateViews = s.lateViews := rfl
@[simp] theorem State.modCluster_wholeViews (n : Nat) (f : Cluster → Cluster) : (s.modCluster n f).wholeViews = s.wholeViews := rfl
@[simp] theorem State.modCluster_engines (n : Nat) (f : Cluster → Cluster) : (s.modCluster n f).engines = s.engines := rfl
@[simp] theorem State.modCluster_clusters (n : Nat) (f : Cluster → Cluster) : (s.modCluster n f).clusters = vmodN s.clusters n f := rfl
@[simp] theorem State.modCluster_tileQueue (n : Nat) (f : Cluster → Cluster) : (s.modCluster n f).tileQueue = s.tileQueue := rfl
@[simp] theorem State.modCluster_lastEngine (n : Nat) (f : Cluster → Cluster) : (s.modCluster n f).lastEngine = s.lastEngine := rfl
@[simp] theorem State.modCluster_maintQueue (n : Nat) (f : Cluster → Cluster) : (s.modCluster n f).maintQueue = s.maintQueue := rfl
@[simp] theorem State.modCluster_streams (n : Nat) (f : Cluster → Cluster) : (s.modCluster n f).streams = s.streams := rfl
@[simp] theorem State.modCluster_sessions (n : Nat) (f : Cluster → Cluster) : (s.modCluster n f).sessions = s.sessions := rfl
@[simp] theorem State.modCluster_slu (n : Nat) (f : Cluster → Cluster) : (s.modCluster n f).slu = s.slu := rfl
@[simp] theorem State.modCluster_ksl (n : Nat) (f : Cluster → Cluster) : (s.modCluster n f).ksl = s.ksl := rfl
@[simp] theorem State.modCluster_ptp (n : Nat) (f : Cluster → Cluster) : (s.modCluster n f).ptp = s.ptp := rfl
@[simp] theorem State.modCluster_hdg (n : Nat) (f : Cluster → Cluster) : (s.modCluster n f).hdg = s.hdg := rfl
@[simp] theorem State.modCluster_ras (n : Nat) (f : Cluster → Cluster) : (s.modCluster n f).ras = s.ras := rfl
@[simp] theorem State.modCluster_tap (n : Nat) (f : Cluster → Cluster) : (s.modCluster n f).tap = s.tap := rfl
@[simp] theorem State.modCluster_supply (n : Nat) (f : Cluster → Cluster) : (s.modCluster n f).supply = s.supply := rfl
@[simp] theorem State.modCluster_tagCmd (n : Nat) (f : Cluster → Cluster) : (s.modCluster n f).tagCmd = s.tagCmd := rfl

/-! `State.modMag` writes `mags`. -/

@[simp] theorem State.modMag_pending (m : Fin 2) (f : MagPort → MagPort) : (s.modMag m f).pending = s.pending := rfl
@[simp] theorem State.modMag_freeCount (m : Fin 2) (f : MagPort → MagPort) : (s.modMag m f).freeCount = s.freeCount := rfl
@[simp] theorem State.modMag_clk (m : Fin 2) (f : MagPort → MagPort) : (s.modMag m f).clk = s.clk := rfl
@[simp] theorem State.modMag_regs (m : Fin 2) (f : MagPort → MagPort) : (s.modMag m f).regs = s.regs := rfl
@[simp] theorem State.modMag_latches (m : Fin 2) (f : MagPort → MagPort) : (s.modMag m f).latches = s.latches := rfl
@[simp] theorem State.modMag_holds (m : Fin 2) (f : MagPort → MagPort) : (s.modMag m f).holds = s.holds := rfl
@[simp] theorem State.modMag_gates (m : Fin 2) (f : MagPort → MagPort) : (s.modMag m f).gates = s.gates := rfl
@[simp] theorem State.modMag_cores (m : Fin 2) (f : MagPort → MagPort) : (s.modMag m f).cores = s.cores := rfl
@[simp] theorem State.modMag_coreMap (m : Fin 2) (f : MagPort → MagPort) : (s.modMag m f).coreMap = s.coreMap := rfl
@[simp] theorem State.modMag_bh (m : Fin 2) (f : MagPort → MagPort) : (s.modMag m f).bh = s.bh := rfl
@[simp] theorem State.modMag_dram (m : Fin 2) (f : MagPort → MagPort) : (s.modMag m f).dram = s.dram := rfl
@[simp] theorem State.modMag_cisSram (m : Fin 2) (f : MagPort → MagPort) : (s.modMag m f).cisSram = s.cisSram := rfl
@[simp] theorem State.modMag_ctlSram (m : Fin 2) (f : MagPort → MagPort) : (s.modMag m f).ctlSram = s.ctlSram := rfl
@[simp] theorem State.modMag_nvs (m : Fin 2) (f : MagPort → MagPort) : (s.modMag m f).nvs = s.nvs := rfl
@[simp] theorem State.modMag_take (m : Fin 2) (f : MagPort → MagPort) : (s.modMag m f).take = s.take := rfl
@[simp] theorem State.modMag_banks (m : Fin 2) (f : MagPort → MagPort) : (s.modMag m f).banks = s.banks := rfl
@[simp] theorem State.modMag_ringGen (m : Fin 2) (f : MagPort → MagPort) : (s.modMag m f).ringGen = s.ringGen := rfl
@[simp] theorem State.modMag_ringPhase (m : Fin 2) (f : MagPort → MagPort) : (s.modMag m f).ringPhase = s.ringPhase := rfl
@[simp] theorem State.modMag_visible (m : Fin 2) (f : MagPort → MagPort) : (s.modMag m f).visible = s.visible := rfl
@[simp] theorem State.modMag_stalled (m : Fin 2) (f : MagPort → MagPort) : (s.modMag m f).stalled = s.stalled := rfl
@[simp] theorem State.modMag_srcs (m : Fin 2) (f : MagPort → MagPort) : (s.modMag m f).srcs = s.srcs := rfl
@[simp] theorem State.modMag_evcStamp (m : Fin 2) (f : MagPort → MagPort) : (s.modMag m f).evcStamp = s.evcStamp := rfl
@[simp] theorem State.modMag_cku (m : Fin 2) (f : MagPort → MagPort) : (s.modMag m f).cku = s.cku := rfl
@[simp] theorem State.modMag_cis (m : Fin 2) (f : MagPort → MagPort) : (s.modMag m f).cis = s.cis := rfl
@[simp] theorem State.modMag_dma (m : Fin 2) (f : MagPort → MagPort) : (s.modMag m f).dma = s.dma := rfl
@[simp] theorem State.modMag_dmaPtr (m : Fin 2) (f : MagPort → MagPort) : (s.modMag m f).dmaPtr = s.dmaPtr := rfl
@[simp] theorem State.modMag_flume (m : Fin 2) (f : MagPort → MagPort) : (s.modMag m f).flume = s.flume := rfl
@[simp] theorem State.modMag_onHold (m : Fin 2) (f : MagPort → MagPort) : (s.modMag m f).onHold = s.onHold := rfl
@[simp] theorem State.modMag_mc (m : Fin 2) (f : MagPort → MagPort) : (s.modMag m f).mc = s.mc := rfl
@[simp] theorem State.modMag_sns (m : Fin 2) (f : MagPort → MagPort) : (s.modMag m f).sns = s.sns := rfl
@[simp] theorem State.modMag_ledgers (m : Fin 2) (f : MagPort → MagPort) : (s.modMag m f).ledgers = s.ledgers := rfl
@[simp] theorem State.modMag_logs (m : Fin 2) (f : MagPort → MagPort) : (s.modMag m f).logs = s.logs := rfl
@[simp] theorem State.modMag_mags (m : Fin 2) (f : MagPort → MagPort) : (s.modMag m f).mags = vmod s.mags m f := rfl
@[simp] theorem State.modMag_slots (m : Fin 2) (f : MagPort → MagPort) : (s.modMag m f).slots = s.slots := rfl
@[simp] theorem State.modMag_lateViews (m : Fin 2) (f : MagPort → MagPort) : (s.modMag m f).lateViews = s.lateViews := rfl
@[simp] theorem State.modMag_wholeViews (m : Fin 2) (f : MagPort → MagPort) : (s.modMag m f).wholeViews = s.wholeViews := rfl
@[simp] theorem State.modMag_engines (m : Fin 2) (f : MagPort → MagPort) : (s.modMag m f).engines = s.engines := rfl
@[simp] theorem State.modMag_clusters (m : Fin 2) (f : MagPort → MagPort) : (s.modMag m f).clusters = s.clusters := rfl
@[simp] theorem State.modMag_tileQueue (m : Fin 2) (f : MagPort → MagPort) : (s.modMag m f).tileQueue = s.tileQueue := rfl
@[simp] theorem State.modMag_lastEngine (m : Fin 2) (f : MagPort → MagPort) : (s.modMag m f).lastEngine = s.lastEngine := rfl
@[simp] theorem State.modMag_maintQueue (m : Fin 2) (f : MagPort → MagPort) : (s.modMag m f).maintQueue = s.maintQueue := rfl
@[simp] theorem State.modMag_streams (m : Fin 2) (f : MagPort → MagPort) : (s.modMag m f).streams = s.streams := rfl
@[simp] theorem State.modMag_sessions (m : Fin 2) (f : MagPort → MagPort) : (s.modMag m f).sessions = s.sessions := rfl
@[simp] theorem State.modMag_slu (m : Fin 2) (f : MagPort → MagPort) : (s.modMag m f).slu = s.slu := rfl
@[simp] theorem State.modMag_ksl (m : Fin 2) (f : MagPort → MagPort) : (s.modMag m f).ksl = s.ksl := rfl
@[simp] theorem State.modMag_ptp (m : Fin 2) (f : MagPort → MagPort) : (s.modMag m f).ptp = s.ptp := rfl
@[simp] theorem State.modMag_hdg (m : Fin 2) (f : MagPort → MagPort) : (s.modMag m f).hdg = s.hdg := rfl
@[simp] theorem State.modMag_ras (m : Fin 2) (f : MagPort → MagPort) : (s.modMag m f).ras = s.ras := rfl
@[simp] theorem State.modMag_tap (m : Fin 2) (f : MagPort → MagPort) : (s.modMag m f).tap = s.tap := rfl
@[simp] theorem State.modMag_supply (m : Fin 2) (f : MagPort → MagPort) : (s.modMag m f).supply = s.supply := rfl
@[simp] theorem State.modMag_tagCmd (m : Fin 2) (f : MagPort → MagPort) : (s.modMag m f).tagCmd = s.tagCmd := rfl

/-! `State.modLog` writes `logs`. -/

@[simp] theorem State.modLog_pending (m : Fin 2) (f : TakeLog → TakeLog) : (s.modLog m f).pending = s.pending := rfl
@[simp] theorem State.modLog_freeCount (m : Fin 2) (f : TakeLog → TakeLog) : (s.modLog m f).freeCount = s.freeCount := rfl
@[simp] theorem State.modLog_clk (m : Fin 2) (f : TakeLog → TakeLog) : (s.modLog m f).clk = s.clk := rfl
@[simp] theorem State.modLog_regs (m : Fin 2) (f : TakeLog → TakeLog) : (s.modLog m f).regs = s.regs := rfl
@[simp] theorem State.modLog_latches (m : Fin 2) (f : TakeLog → TakeLog) : (s.modLog m f).latches = s.latches := rfl
@[simp] theorem State.modLog_holds (m : Fin 2) (f : TakeLog → TakeLog) : (s.modLog m f).holds = s.holds := rfl
@[simp] theorem State.modLog_gates (m : Fin 2) (f : TakeLog → TakeLog) : (s.modLog m f).gates = s.gates := rfl
@[simp] theorem State.modLog_cores (m : Fin 2) (f : TakeLog → TakeLog) : (s.modLog m f).cores = s.cores := rfl
@[simp] theorem State.modLog_coreMap (m : Fin 2) (f : TakeLog → TakeLog) : (s.modLog m f).coreMap = s.coreMap := rfl
@[simp] theorem State.modLog_bh (m : Fin 2) (f : TakeLog → TakeLog) : (s.modLog m f).bh = s.bh := rfl
@[simp] theorem State.modLog_dram (m : Fin 2) (f : TakeLog → TakeLog) : (s.modLog m f).dram = s.dram := rfl
@[simp] theorem State.modLog_cisSram (m : Fin 2) (f : TakeLog → TakeLog) : (s.modLog m f).cisSram = s.cisSram := rfl
@[simp] theorem State.modLog_ctlSram (m : Fin 2) (f : TakeLog → TakeLog) : (s.modLog m f).ctlSram = s.ctlSram := rfl
@[simp] theorem State.modLog_nvs (m : Fin 2) (f : TakeLog → TakeLog) : (s.modLog m f).nvs = s.nvs := rfl
@[simp] theorem State.modLog_take (m : Fin 2) (f : TakeLog → TakeLog) : (s.modLog m f).take = s.take := rfl
@[simp] theorem State.modLog_banks (m : Fin 2) (f : TakeLog → TakeLog) : (s.modLog m f).banks = s.banks := rfl
@[simp] theorem State.modLog_ringGen (m : Fin 2) (f : TakeLog → TakeLog) : (s.modLog m f).ringGen = s.ringGen := rfl
@[simp] theorem State.modLog_ringPhase (m : Fin 2) (f : TakeLog → TakeLog) : (s.modLog m f).ringPhase = s.ringPhase := rfl
@[simp] theorem State.modLog_visible (m : Fin 2) (f : TakeLog → TakeLog) : (s.modLog m f).visible = s.visible := rfl
@[simp] theorem State.modLog_stalled (m : Fin 2) (f : TakeLog → TakeLog) : (s.modLog m f).stalled = s.stalled := rfl
@[simp] theorem State.modLog_srcs (m : Fin 2) (f : TakeLog → TakeLog) : (s.modLog m f).srcs = s.srcs := rfl
@[simp] theorem State.modLog_evcStamp (m : Fin 2) (f : TakeLog → TakeLog) : (s.modLog m f).evcStamp = s.evcStamp := rfl
@[simp] theorem State.modLog_cku (m : Fin 2) (f : TakeLog → TakeLog) : (s.modLog m f).cku = s.cku := rfl
@[simp] theorem State.modLog_cis (m : Fin 2) (f : TakeLog → TakeLog) : (s.modLog m f).cis = s.cis := rfl
@[simp] theorem State.modLog_dma (m : Fin 2) (f : TakeLog → TakeLog) : (s.modLog m f).dma = s.dma := rfl
@[simp] theorem State.modLog_dmaPtr (m : Fin 2) (f : TakeLog → TakeLog) : (s.modLog m f).dmaPtr = s.dmaPtr := rfl
@[simp] theorem State.modLog_flume (m : Fin 2) (f : TakeLog → TakeLog) : (s.modLog m f).flume = s.flume := rfl
@[simp] theorem State.modLog_onHold (m : Fin 2) (f : TakeLog → TakeLog) : (s.modLog m f).onHold = s.onHold := rfl
@[simp] theorem State.modLog_mc (m : Fin 2) (f : TakeLog → TakeLog) : (s.modLog m f).mc = s.mc := rfl
@[simp] theorem State.modLog_sns (m : Fin 2) (f : TakeLog → TakeLog) : (s.modLog m f).sns = s.sns := rfl
@[simp] theorem State.modLog_ledgers (m : Fin 2) (f : TakeLog → TakeLog) : (s.modLog m f).ledgers = s.ledgers := rfl
@[simp] theorem State.modLog_logs (m : Fin 2) (f : TakeLog → TakeLog) : (s.modLog m f).logs = vmod s.logs m f := rfl
@[simp] theorem State.modLog_mags (m : Fin 2) (f : TakeLog → TakeLog) : (s.modLog m f).mags = s.mags := rfl
@[simp] theorem State.modLog_slots (m : Fin 2) (f : TakeLog → TakeLog) : (s.modLog m f).slots = s.slots := rfl
@[simp] theorem State.modLog_lateViews (m : Fin 2) (f : TakeLog → TakeLog) : (s.modLog m f).lateViews = s.lateViews := rfl
@[simp] theorem State.modLog_wholeViews (m : Fin 2) (f : TakeLog → TakeLog) : (s.modLog m f).wholeViews = s.wholeViews := rfl
@[simp] theorem State.modLog_engines (m : Fin 2) (f : TakeLog → TakeLog) : (s.modLog m f).engines = s.engines := rfl
@[simp] theorem State.modLog_clusters (m : Fin 2) (f : TakeLog → TakeLog) : (s.modLog m f).clusters = s.clusters := rfl
@[simp] theorem State.modLog_tileQueue (m : Fin 2) (f : TakeLog → TakeLog) : (s.modLog m f).tileQueue = s.tileQueue := rfl
@[simp] theorem State.modLog_lastEngine (m : Fin 2) (f : TakeLog → TakeLog) : (s.modLog m f).lastEngine = s.lastEngine := rfl
@[simp] theorem State.modLog_maintQueue (m : Fin 2) (f : TakeLog → TakeLog) : (s.modLog m f).maintQueue = s.maintQueue := rfl
@[simp] theorem State.modLog_streams (m : Fin 2) (f : TakeLog → TakeLog) : (s.modLog m f).streams = s.streams := rfl
@[simp] theorem State.modLog_sessions (m : Fin 2) (f : TakeLog → TakeLog) : (s.modLog m f).sessions = s.sessions := rfl
@[simp] theorem State.modLog_slu (m : Fin 2) (f : TakeLog → TakeLog) : (s.modLog m f).slu = s.slu := rfl
@[simp] theorem State.modLog_ksl (m : Fin 2) (f : TakeLog → TakeLog) : (s.modLog m f).ksl = s.ksl := rfl
@[simp] theorem State.modLog_ptp (m : Fin 2) (f : TakeLog → TakeLog) : (s.modLog m f).ptp = s.ptp := rfl
@[simp] theorem State.modLog_hdg (m : Fin 2) (f : TakeLog → TakeLog) : (s.modLog m f).hdg = s.hdg := rfl
@[simp] theorem State.modLog_ras (m : Fin 2) (f : TakeLog → TakeLog) : (s.modLog m f).ras = s.ras := rfl
@[simp] theorem State.modLog_tap (m : Fin 2) (f : TakeLog → TakeLog) : (s.modLog m f).tap = s.tap := rfl
@[simp] theorem State.modLog_supply (m : Fin 2) (f : TakeLog → TakeLog) : (s.modLog m f).supply = s.supply := rfl
@[simp] theorem State.modLog_tagCmd (m : Fin 2) (f : TakeLog → TakeLog) : (s.modLog m f).tagCmd = s.tagCmd := rfl

/-! `State.modLedger` writes `ledgers`. -/

@[simp] theorem State.modLedger_pending (m : Fin 2) (f : Ledger → Ledger) : (s.modLedger m f).pending = s.pending := rfl
@[simp] theorem State.modLedger_freeCount (m : Fin 2) (f : Ledger → Ledger) : (s.modLedger m f).freeCount = s.freeCount := rfl
@[simp] theorem State.modLedger_clk (m : Fin 2) (f : Ledger → Ledger) : (s.modLedger m f).clk = s.clk := rfl
@[simp] theorem State.modLedger_regs (m : Fin 2) (f : Ledger → Ledger) : (s.modLedger m f).regs = s.regs := rfl
@[simp] theorem State.modLedger_latches (m : Fin 2) (f : Ledger → Ledger) : (s.modLedger m f).latches = s.latches := rfl
@[simp] theorem State.modLedger_holds (m : Fin 2) (f : Ledger → Ledger) : (s.modLedger m f).holds = s.holds := rfl
@[simp] theorem State.modLedger_gates (m : Fin 2) (f : Ledger → Ledger) : (s.modLedger m f).gates = s.gates := rfl
@[simp] theorem State.modLedger_cores (m : Fin 2) (f : Ledger → Ledger) : (s.modLedger m f).cores = s.cores := rfl
@[simp] theorem State.modLedger_coreMap (m : Fin 2) (f : Ledger → Ledger) : (s.modLedger m f).coreMap = s.coreMap := rfl
@[simp] theorem State.modLedger_bh (m : Fin 2) (f : Ledger → Ledger) : (s.modLedger m f).bh = s.bh := rfl
@[simp] theorem State.modLedger_dram (m : Fin 2) (f : Ledger → Ledger) : (s.modLedger m f).dram = s.dram := rfl
@[simp] theorem State.modLedger_cisSram (m : Fin 2) (f : Ledger → Ledger) : (s.modLedger m f).cisSram = s.cisSram := rfl
@[simp] theorem State.modLedger_ctlSram (m : Fin 2) (f : Ledger → Ledger) : (s.modLedger m f).ctlSram = s.ctlSram := rfl
@[simp] theorem State.modLedger_nvs (m : Fin 2) (f : Ledger → Ledger) : (s.modLedger m f).nvs = s.nvs := rfl
@[simp] theorem State.modLedger_take (m : Fin 2) (f : Ledger → Ledger) : (s.modLedger m f).take = s.take := rfl
@[simp] theorem State.modLedger_banks (m : Fin 2) (f : Ledger → Ledger) : (s.modLedger m f).banks = s.banks := rfl
@[simp] theorem State.modLedger_ringGen (m : Fin 2) (f : Ledger → Ledger) : (s.modLedger m f).ringGen = s.ringGen := rfl
@[simp] theorem State.modLedger_ringPhase (m : Fin 2) (f : Ledger → Ledger) : (s.modLedger m f).ringPhase = s.ringPhase := rfl
@[simp] theorem State.modLedger_visible (m : Fin 2) (f : Ledger → Ledger) : (s.modLedger m f).visible = s.visible := rfl
@[simp] theorem State.modLedger_stalled (m : Fin 2) (f : Ledger → Ledger) : (s.modLedger m f).stalled = s.stalled := rfl
@[simp] theorem State.modLedger_srcs (m : Fin 2) (f : Ledger → Ledger) : (s.modLedger m f).srcs = s.srcs := rfl
@[simp] theorem State.modLedger_evcStamp (m : Fin 2) (f : Ledger → Ledger) : (s.modLedger m f).evcStamp = s.evcStamp := rfl
@[simp] theorem State.modLedger_cku (m : Fin 2) (f : Ledger → Ledger) : (s.modLedger m f).cku = s.cku := rfl
@[simp] theorem State.modLedger_cis (m : Fin 2) (f : Ledger → Ledger) : (s.modLedger m f).cis = s.cis := rfl
@[simp] theorem State.modLedger_dma (m : Fin 2) (f : Ledger → Ledger) : (s.modLedger m f).dma = s.dma := rfl
@[simp] theorem State.modLedger_dmaPtr (m : Fin 2) (f : Ledger → Ledger) : (s.modLedger m f).dmaPtr = s.dmaPtr := rfl
@[simp] theorem State.modLedger_flume (m : Fin 2) (f : Ledger → Ledger) : (s.modLedger m f).flume = s.flume := rfl
@[simp] theorem State.modLedger_onHold (m : Fin 2) (f : Ledger → Ledger) : (s.modLedger m f).onHold = s.onHold := rfl
@[simp] theorem State.modLedger_mc (m : Fin 2) (f : Ledger → Ledger) : (s.modLedger m f).mc = s.mc := rfl
@[simp] theorem State.modLedger_sns (m : Fin 2) (f : Ledger → Ledger) : (s.modLedger m f).sns = s.sns := rfl
@[simp] theorem State.modLedger_ledgers (m : Fin 2) (f : Ledger → Ledger) : (s.modLedger m f).ledgers = vmod s.ledgers m f := rfl
@[simp] theorem State.modLedger_logs (m : Fin 2) (f : Ledger → Ledger) : (s.modLedger m f).logs = s.logs := rfl
@[simp] theorem State.modLedger_mags (m : Fin 2) (f : Ledger → Ledger) : (s.modLedger m f).mags = s.mags := rfl
@[simp] theorem State.modLedger_slots (m : Fin 2) (f : Ledger → Ledger) : (s.modLedger m f).slots = s.slots := rfl
@[simp] theorem State.modLedger_lateViews (m : Fin 2) (f : Ledger → Ledger) : (s.modLedger m f).lateViews = s.lateViews := rfl
@[simp] theorem State.modLedger_wholeViews (m : Fin 2) (f : Ledger → Ledger) : (s.modLedger m f).wholeViews = s.wholeViews := rfl
@[simp] theorem State.modLedger_engines (m : Fin 2) (f : Ledger → Ledger) : (s.modLedger m f).engines = s.engines := rfl
@[simp] theorem State.modLedger_clusters (m : Fin 2) (f : Ledger → Ledger) : (s.modLedger m f).clusters = s.clusters := rfl
@[simp] theorem State.modLedger_tileQueue (m : Fin 2) (f : Ledger → Ledger) : (s.modLedger m f).tileQueue = s.tileQueue := rfl
@[simp] theorem State.modLedger_lastEngine (m : Fin 2) (f : Ledger → Ledger) : (s.modLedger m f).lastEngine = s.lastEngine := rfl
@[simp] theorem State.modLedger_maintQueue (m : Fin 2) (f : Ledger → Ledger) : (s.modLedger m f).maintQueue = s.maintQueue := rfl
@[simp] theorem State.modLedger_streams (m : Fin 2) (f : Ledger → Ledger) : (s.modLedger m f).streams = s.streams := rfl
@[simp] theorem State.modLedger_sessions (m : Fin 2) (f : Ledger → Ledger) : (s.modLedger m f).sessions = s.sessions := rfl
@[simp] theorem State.modLedger_slu (m : Fin 2) (f : Ledger → Ledger) : (s.modLedger m f).slu = s.slu := rfl
@[simp] theorem State.modLedger_ksl (m : Fin 2) (f : Ledger → Ledger) : (s.modLedger m f).ksl = s.ksl := rfl
@[simp] theorem State.modLedger_ptp (m : Fin 2) (f : Ledger → Ledger) : (s.modLedger m f).ptp = s.ptp := rfl
@[simp] theorem State.modLedger_hdg (m : Fin 2) (f : Ledger → Ledger) : (s.modLedger m f).hdg = s.hdg := rfl
@[simp] theorem State.modLedger_ras (m : Fin 2) (f : Ledger → Ledger) : (s.modLedger m f).ras = s.ras := rfl
@[simp] theorem State.modLedger_tap (m : Fin 2) (f : Ledger → Ledger) : (s.modLedger m f).tap = s.tap := rfl
@[simp] theorem State.modLedger_supply (m : Fin 2) (f : Ledger → Ledger) : (s.modLedger m f).supply = s.supply := rfl
@[simp] theorem State.modLedger_tagCmd (m : Fin 2) (f : Ledger → Ledger) : (s.modLedger m f).tagCmd = s.tagCmd := rfl

/-! `State.modSession` writes `sessions`. -/

@[simp] theorem State.modSession_pending (k : Fin 9) (f : Session → Session) : (s.modSession k f).pending = s.pending := rfl
@[simp] theorem State.modSession_freeCount (k : Fin 9) (f : Session → Session) : (s.modSession k f).freeCount = s.freeCount := rfl
@[simp] theorem State.modSession_clk (k : Fin 9) (f : Session → Session) : (s.modSession k f).clk = s.clk := rfl
@[simp] theorem State.modSession_regs (k : Fin 9) (f : Session → Session) : (s.modSession k f).regs = s.regs := rfl
@[simp] theorem State.modSession_latches (k : Fin 9) (f : Session → Session) : (s.modSession k f).latches = s.latches := rfl
@[simp] theorem State.modSession_holds (k : Fin 9) (f : Session → Session) : (s.modSession k f).holds = s.holds := rfl
@[simp] theorem State.modSession_gates (k : Fin 9) (f : Session → Session) : (s.modSession k f).gates = s.gates := rfl
@[simp] theorem State.modSession_cores (k : Fin 9) (f : Session → Session) : (s.modSession k f).cores = s.cores := rfl
@[simp] theorem State.modSession_coreMap (k : Fin 9) (f : Session → Session) : (s.modSession k f).coreMap = s.coreMap := rfl
@[simp] theorem State.modSession_bh (k : Fin 9) (f : Session → Session) : (s.modSession k f).bh = s.bh := rfl
@[simp] theorem State.modSession_dram (k : Fin 9) (f : Session → Session) : (s.modSession k f).dram = s.dram := rfl
@[simp] theorem State.modSession_cisSram (k : Fin 9) (f : Session → Session) : (s.modSession k f).cisSram = s.cisSram := rfl
@[simp] theorem State.modSession_ctlSram (k : Fin 9) (f : Session → Session) : (s.modSession k f).ctlSram = s.ctlSram := rfl
@[simp] theorem State.modSession_nvs (k : Fin 9) (f : Session → Session) : (s.modSession k f).nvs = s.nvs := rfl
@[simp] theorem State.modSession_take (k : Fin 9) (f : Session → Session) : (s.modSession k f).take = s.take := rfl
@[simp] theorem State.modSession_banks (k : Fin 9) (f : Session → Session) : (s.modSession k f).banks = s.banks := rfl
@[simp] theorem State.modSession_ringGen (k : Fin 9) (f : Session → Session) : (s.modSession k f).ringGen = s.ringGen := rfl
@[simp] theorem State.modSession_ringPhase (k : Fin 9) (f : Session → Session) : (s.modSession k f).ringPhase = s.ringPhase := rfl
@[simp] theorem State.modSession_visible (k : Fin 9) (f : Session → Session) : (s.modSession k f).visible = s.visible := rfl
@[simp] theorem State.modSession_stalled (k : Fin 9) (f : Session → Session) : (s.modSession k f).stalled = s.stalled := rfl
@[simp] theorem State.modSession_srcs (k : Fin 9) (f : Session → Session) : (s.modSession k f).srcs = s.srcs := rfl
@[simp] theorem State.modSession_evcStamp (k : Fin 9) (f : Session → Session) : (s.modSession k f).evcStamp = s.evcStamp := rfl
@[simp] theorem State.modSession_cku (k : Fin 9) (f : Session → Session) : (s.modSession k f).cku = s.cku := rfl
@[simp] theorem State.modSession_cis (k : Fin 9) (f : Session → Session) : (s.modSession k f).cis = s.cis := rfl
@[simp] theorem State.modSession_dma (k : Fin 9) (f : Session → Session) : (s.modSession k f).dma = s.dma := rfl
@[simp] theorem State.modSession_dmaPtr (k : Fin 9) (f : Session → Session) : (s.modSession k f).dmaPtr = s.dmaPtr := rfl
@[simp] theorem State.modSession_flume (k : Fin 9) (f : Session → Session) : (s.modSession k f).flume = s.flume := rfl
@[simp] theorem State.modSession_onHold (k : Fin 9) (f : Session → Session) : (s.modSession k f).onHold = s.onHold := rfl
@[simp] theorem State.modSession_mc (k : Fin 9) (f : Session → Session) : (s.modSession k f).mc = s.mc := rfl
@[simp] theorem State.modSession_sns (k : Fin 9) (f : Session → Session) : (s.modSession k f).sns = s.sns := rfl
@[simp] theorem State.modSession_ledgers (k : Fin 9) (f : Session → Session) : (s.modSession k f).ledgers = s.ledgers := rfl
@[simp] theorem State.modSession_logs (k : Fin 9) (f : Session → Session) : (s.modSession k f).logs = s.logs := rfl
@[simp] theorem State.modSession_mags (k : Fin 9) (f : Session → Session) : (s.modSession k f).mags = s.mags := rfl
@[simp] theorem State.modSession_slots (k : Fin 9) (f : Session → Session) : (s.modSession k f).slots = s.slots := rfl
@[simp] theorem State.modSession_lateViews (k : Fin 9) (f : Session → Session) : (s.modSession k f).lateViews = s.lateViews := rfl
@[simp] theorem State.modSession_wholeViews (k : Fin 9) (f : Session → Session) : (s.modSession k f).wholeViews = s.wholeViews := rfl
@[simp] theorem State.modSession_engines (k : Fin 9) (f : Session → Session) : (s.modSession k f).engines = s.engines := rfl
@[simp] theorem State.modSession_clusters (k : Fin 9) (f : Session → Session) : (s.modSession k f).clusters = s.clusters := rfl
@[simp] theorem State.modSession_tileQueue (k : Fin 9) (f : Session → Session) : (s.modSession k f).tileQueue = s.tileQueue := rfl
@[simp] theorem State.modSession_lastEngine (k : Fin 9) (f : Session → Session) : (s.modSession k f).lastEngine = s.lastEngine := rfl
@[simp] theorem State.modSession_maintQueue (k : Fin 9) (f : Session → Session) : (s.modSession k f).maintQueue = s.maintQueue := rfl
@[simp] theorem State.modSession_streams (k : Fin 9) (f : Session → Session) : (s.modSession k f).streams = s.streams := rfl
@[simp] theorem State.modSession_sessions (k : Fin 9) (f : Session → Session) : (s.modSession k f).sessions = vmod s.sessions k f := rfl
@[simp] theorem State.modSession_slu (k : Fin 9) (f : Session → Session) : (s.modSession k f).slu = s.slu := rfl
@[simp] theorem State.modSession_ksl (k : Fin 9) (f : Session → Session) : (s.modSession k f).ksl = s.ksl := rfl
@[simp] theorem State.modSession_ptp (k : Fin 9) (f : Session → Session) : (s.modSession k f).ptp = s.ptp := rfl
@[simp] theorem State.modSession_hdg (k : Fin 9) (f : Session → Session) : (s.modSession k f).hdg = s.hdg := rfl
@[simp] theorem State.modSession_ras (k : Fin 9) (f : Session → Session) : (s.modSession k f).ras = s.ras := rfl
@[simp] theorem State.modSession_tap (k : Fin 9) (f : Session → Session) : (s.modSession k f).tap = s.tap := rfl
@[simp] theorem State.modSession_supply (k : Fin 9) (f : Session → Session) : (s.modSession k f).supply = s.supply := rfl
@[simp] theorem State.modSession_tagCmd (k : Fin 9) (f : Session → Session) : (s.modSession k f).tagCmd = s.tagCmd := rfl

/-! `State.modStream` writes `streams`. -/

@[simp] theorem State.modStream_pending (m : Fin 4) (f : Stream → Stream) : (s.modStream m f).pending = s.pending := rfl
@[simp] theorem State.modStream_freeCount (m : Fin 4) (f : Stream → Stream) : (s.modStream m f).freeCount = s.freeCount := rfl
@[simp] theorem State.modStream_clk (m : Fin 4) (f : Stream → Stream) : (s.modStream m f).clk = s.clk := rfl
@[simp] theorem State.modStream_regs (m : Fin 4) (f : Stream → Stream) : (s.modStream m f).regs = s.regs := rfl
@[simp] theorem State.modStream_latches (m : Fin 4) (f : Stream → Stream) : (s.modStream m f).latches = s.latches := rfl
@[simp] theorem State.modStream_holds (m : Fin 4) (f : Stream → Stream) : (s.modStream m f).holds = s.holds := rfl
@[simp] theorem State.modStream_gates (m : Fin 4) (f : Stream → Stream) : (s.modStream m f).gates = s.gates := rfl
@[simp] theorem State.modStream_cores (m : Fin 4) (f : Stream → Stream) : (s.modStream m f).cores = s.cores := rfl
@[simp] theorem State.modStream_coreMap (m : Fin 4) (f : Stream → Stream) : (s.modStream m f).coreMap = s.coreMap := rfl
@[simp] theorem State.modStream_bh (m : Fin 4) (f : Stream → Stream) : (s.modStream m f).bh = s.bh := rfl
@[simp] theorem State.modStream_dram (m : Fin 4) (f : Stream → Stream) : (s.modStream m f).dram = s.dram := rfl
@[simp] theorem State.modStream_cisSram (m : Fin 4) (f : Stream → Stream) : (s.modStream m f).cisSram = s.cisSram := rfl
@[simp] theorem State.modStream_ctlSram (m : Fin 4) (f : Stream → Stream) : (s.modStream m f).ctlSram = s.ctlSram := rfl
@[simp] theorem State.modStream_nvs (m : Fin 4) (f : Stream → Stream) : (s.modStream m f).nvs = s.nvs := rfl
@[simp] theorem State.modStream_take (m : Fin 4) (f : Stream → Stream) : (s.modStream m f).take = s.take := rfl
@[simp] theorem State.modStream_banks (m : Fin 4) (f : Stream → Stream) : (s.modStream m f).banks = s.banks := rfl
@[simp] theorem State.modStream_ringGen (m : Fin 4) (f : Stream → Stream) : (s.modStream m f).ringGen = s.ringGen := rfl
@[simp] theorem State.modStream_ringPhase (m : Fin 4) (f : Stream → Stream) : (s.modStream m f).ringPhase = s.ringPhase := rfl
@[simp] theorem State.modStream_visible (m : Fin 4) (f : Stream → Stream) : (s.modStream m f).visible = s.visible := rfl
@[simp] theorem State.modStream_stalled (m : Fin 4) (f : Stream → Stream) : (s.modStream m f).stalled = s.stalled := rfl
@[simp] theorem State.modStream_srcs (m : Fin 4) (f : Stream → Stream) : (s.modStream m f).srcs = s.srcs := rfl
@[simp] theorem State.modStream_evcStamp (m : Fin 4) (f : Stream → Stream) : (s.modStream m f).evcStamp = s.evcStamp := rfl
@[simp] theorem State.modStream_cku (m : Fin 4) (f : Stream → Stream) : (s.modStream m f).cku = s.cku := rfl
@[simp] theorem State.modStream_cis (m : Fin 4) (f : Stream → Stream) : (s.modStream m f).cis = s.cis := rfl
@[simp] theorem State.modStream_dma (m : Fin 4) (f : Stream → Stream) : (s.modStream m f).dma = s.dma := rfl
@[simp] theorem State.modStream_dmaPtr (m : Fin 4) (f : Stream → Stream) : (s.modStream m f).dmaPtr = s.dmaPtr := rfl
@[simp] theorem State.modStream_flume (m : Fin 4) (f : Stream → Stream) : (s.modStream m f).flume = s.flume := rfl
@[simp] theorem State.modStream_onHold (m : Fin 4) (f : Stream → Stream) : (s.modStream m f).onHold = s.onHold := rfl
@[simp] theorem State.modStream_mc (m : Fin 4) (f : Stream → Stream) : (s.modStream m f).mc = s.mc := rfl
@[simp] theorem State.modStream_sns (m : Fin 4) (f : Stream → Stream) : (s.modStream m f).sns = s.sns := rfl
@[simp] theorem State.modStream_ledgers (m : Fin 4) (f : Stream → Stream) : (s.modStream m f).ledgers = s.ledgers := rfl
@[simp] theorem State.modStream_logs (m : Fin 4) (f : Stream → Stream) : (s.modStream m f).logs = s.logs := rfl
@[simp] theorem State.modStream_mags (m : Fin 4) (f : Stream → Stream) : (s.modStream m f).mags = s.mags := rfl
@[simp] theorem State.modStream_slots (m : Fin 4) (f : Stream → Stream) : (s.modStream m f).slots = s.slots := rfl
@[simp] theorem State.modStream_lateViews (m : Fin 4) (f : Stream → Stream) : (s.modStream m f).lateViews = s.lateViews := rfl
@[simp] theorem State.modStream_wholeViews (m : Fin 4) (f : Stream → Stream) : (s.modStream m f).wholeViews = s.wholeViews := rfl
@[simp] theorem State.modStream_engines (m : Fin 4) (f : Stream → Stream) : (s.modStream m f).engines = s.engines := rfl
@[simp] theorem State.modStream_clusters (m : Fin 4) (f : Stream → Stream) : (s.modStream m f).clusters = s.clusters := rfl
@[simp] theorem State.modStream_tileQueue (m : Fin 4) (f : Stream → Stream) : (s.modStream m f).tileQueue = s.tileQueue := rfl
@[simp] theorem State.modStream_lastEngine (m : Fin 4) (f : Stream → Stream) : (s.modStream m f).lastEngine = s.lastEngine := rfl
@[simp] theorem State.modStream_maintQueue (m : Fin 4) (f : Stream → Stream) : (s.modStream m f).maintQueue = s.maintQueue := rfl
@[simp] theorem State.modStream_streams (m : Fin 4) (f : Stream → Stream) : (s.modStream m f).streams = vmod s.streams m f := rfl
@[simp] theorem State.modStream_sessions (m : Fin 4) (f : Stream → Stream) : (s.modStream m f).sessions = s.sessions := rfl
@[simp] theorem State.modStream_slu (m : Fin 4) (f : Stream → Stream) : (s.modStream m f).slu = s.slu := rfl
@[simp] theorem State.modStream_ksl (m : Fin 4) (f : Stream → Stream) : (s.modStream m f).ksl = s.ksl := rfl
@[simp] theorem State.modStream_ptp (m : Fin 4) (f : Stream → Stream) : (s.modStream m f).ptp = s.ptp := rfl
@[simp] theorem State.modStream_hdg (m : Fin 4) (f : Stream → Stream) : (s.modStream m f).hdg = s.hdg := rfl
@[simp] theorem State.modStream_ras (m : Fin 4) (f : Stream → Stream) : (s.modStream m f).ras = s.ras := rfl
@[simp] theorem State.modStream_tap (m : Fin 4) (f : Stream → Stream) : (s.modStream m f).tap = s.tap := rfl
@[simp] theorem State.modStream_supply (m : Fin 4) (f : Stream → Stream) : (s.modStream m f).supply = s.supply := rfl
@[simp] theorem State.modStream_tagCmd (m : Fin 4) (f : Stream → Stream) : (s.modStream m f).tagCmd = s.tagCmd := rfl

/-! `State.modDma` writes `dma`. -/

@[simp] theorem State.modDma_pending (c : Fin 64) (f : DmaChannel → DmaChannel) : (s.modDma c f).pending = s.pending := rfl
@[simp] theorem State.modDma_freeCount (c : Fin 64) (f : DmaChannel → DmaChannel) : (s.modDma c f).freeCount = s.freeCount := rfl
@[simp] theorem State.modDma_clk (c : Fin 64) (f : DmaChannel → DmaChannel) : (s.modDma c f).clk = s.clk := rfl
@[simp] theorem State.modDma_regs (c : Fin 64) (f : DmaChannel → DmaChannel) : (s.modDma c f).regs = s.regs := rfl
@[simp] theorem State.modDma_latches (c : Fin 64) (f : DmaChannel → DmaChannel) : (s.modDma c f).latches = s.latches := rfl
@[simp] theorem State.modDma_holds (c : Fin 64) (f : DmaChannel → DmaChannel) : (s.modDma c f).holds = s.holds := rfl
@[simp] theorem State.modDma_gates (c : Fin 64) (f : DmaChannel → DmaChannel) : (s.modDma c f).gates = s.gates := rfl
@[simp] theorem State.modDma_cores (c : Fin 64) (f : DmaChannel → DmaChannel) : (s.modDma c f).cores = s.cores := rfl
@[simp] theorem State.modDma_coreMap (c : Fin 64) (f : DmaChannel → DmaChannel) : (s.modDma c f).coreMap = s.coreMap := rfl
@[simp] theorem State.modDma_bh (c : Fin 64) (f : DmaChannel → DmaChannel) : (s.modDma c f).bh = s.bh := rfl
@[simp] theorem State.modDma_dram (c : Fin 64) (f : DmaChannel → DmaChannel) : (s.modDma c f).dram = s.dram := rfl
@[simp] theorem State.modDma_cisSram (c : Fin 64) (f : DmaChannel → DmaChannel) : (s.modDma c f).cisSram = s.cisSram := rfl
@[simp] theorem State.modDma_ctlSram (c : Fin 64) (f : DmaChannel → DmaChannel) : (s.modDma c f).ctlSram = s.ctlSram := rfl
@[simp] theorem State.modDma_nvs (c : Fin 64) (f : DmaChannel → DmaChannel) : (s.modDma c f).nvs = s.nvs := rfl
@[simp] theorem State.modDma_take (c : Fin 64) (f : DmaChannel → DmaChannel) : (s.modDma c f).take = s.take := rfl
@[simp] theorem State.modDma_banks (c : Fin 64) (f : DmaChannel → DmaChannel) : (s.modDma c f).banks = s.banks := rfl
@[simp] theorem State.modDma_ringGen (c : Fin 64) (f : DmaChannel → DmaChannel) : (s.modDma c f).ringGen = s.ringGen := rfl
@[simp] theorem State.modDma_ringPhase (c : Fin 64) (f : DmaChannel → DmaChannel) : (s.modDma c f).ringPhase = s.ringPhase := rfl
@[simp] theorem State.modDma_visible (c : Fin 64) (f : DmaChannel → DmaChannel) : (s.modDma c f).visible = s.visible := rfl
@[simp] theorem State.modDma_stalled (c : Fin 64) (f : DmaChannel → DmaChannel) : (s.modDma c f).stalled = s.stalled := rfl
@[simp] theorem State.modDma_srcs (c : Fin 64) (f : DmaChannel → DmaChannel) : (s.modDma c f).srcs = s.srcs := rfl
@[simp] theorem State.modDma_evcStamp (c : Fin 64) (f : DmaChannel → DmaChannel) : (s.modDma c f).evcStamp = s.evcStamp := rfl
@[simp] theorem State.modDma_cku (c : Fin 64) (f : DmaChannel → DmaChannel) : (s.modDma c f).cku = s.cku := rfl
@[simp] theorem State.modDma_cis (c : Fin 64) (f : DmaChannel → DmaChannel) : (s.modDma c f).cis = s.cis := rfl
@[simp] theorem State.modDma_dma (c : Fin 64) (f : DmaChannel → DmaChannel) : (s.modDma c f).dma = vmod s.dma c f := rfl
@[simp] theorem State.modDma_dmaPtr (c : Fin 64) (f : DmaChannel → DmaChannel) : (s.modDma c f).dmaPtr = s.dmaPtr := rfl
@[simp] theorem State.modDma_flume (c : Fin 64) (f : DmaChannel → DmaChannel) : (s.modDma c f).flume = s.flume := rfl
@[simp] theorem State.modDma_onHold (c : Fin 64) (f : DmaChannel → DmaChannel) : (s.modDma c f).onHold = s.onHold := rfl
@[simp] theorem State.modDma_mc (c : Fin 64) (f : DmaChannel → DmaChannel) : (s.modDma c f).mc = s.mc := rfl
@[simp] theorem State.modDma_sns (c : Fin 64) (f : DmaChannel → DmaChannel) : (s.modDma c f).sns = s.sns := rfl
@[simp] theorem State.modDma_ledgers (c : Fin 64) (f : DmaChannel → DmaChannel) : (s.modDma c f).ledgers = s.ledgers := rfl
@[simp] theorem State.modDma_logs (c : Fin 64) (f : DmaChannel → DmaChannel) : (s.modDma c f).logs = s.logs := rfl
@[simp] theorem State.modDma_mags (c : Fin 64) (f : DmaChannel → DmaChannel) : (s.modDma c f).mags = s.mags := rfl
@[simp] theorem State.modDma_slots (c : Fin 64) (f : DmaChannel → DmaChannel) : (s.modDma c f).slots = s.slots := rfl
@[simp] theorem State.modDma_lateViews (c : Fin 64) (f : DmaChannel → DmaChannel) : (s.modDma c f).lateViews = s.lateViews := rfl
@[simp] theorem State.modDma_wholeViews (c : Fin 64) (f : DmaChannel → DmaChannel) : (s.modDma c f).wholeViews = s.wholeViews := rfl
@[simp] theorem State.modDma_engines (c : Fin 64) (f : DmaChannel → DmaChannel) : (s.modDma c f).engines = s.engines := rfl
@[simp] theorem State.modDma_clusters (c : Fin 64) (f : DmaChannel → DmaChannel) : (s.modDma c f).clusters = s.clusters := rfl
@[simp] theorem State.modDma_tileQueue (c : Fin 64) (f : DmaChannel → DmaChannel) : (s.modDma c f).tileQueue = s.tileQueue := rfl
@[simp] theorem State.modDma_lastEngine (c : Fin 64) (f : DmaChannel → DmaChannel) : (s.modDma c f).lastEngine = s.lastEngine := rfl
@[simp] theorem State.modDma_maintQueue (c : Fin 64) (f : DmaChannel → DmaChannel) : (s.modDma c f).maintQueue = s.maintQueue := rfl
@[simp] theorem State.modDma_streams (c : Fin 64) (f : DmaChannel → DmaChannel) : (s.modDma c f).streams = s.streams := rfl
@[simp] theorem State.modDma_sessions (c : Fin 64) (f : DmaChannel → DmaChannel) : (s.modDma c f).sessions = s.sessions := rfl
@[simp] theorem State.modDma_slu (c : Fin 64) (f : DmaChannel → DmaChannel) : (s.modDma c f).slu = s.slu := rfl
@[simp] theorem State.modDma_ksl (c : Fin 64) (f : DmaChannel → DmaChannel) : (s.modDma c f).ksl = s.ksl := rfl
@[simp] theorem State.modDma_ptp (c : Fin 64) (f : DmaChannel → DmaChannel) : (s.modDma c f).ptp = s.ptp := rfl
@[simp] theorem State.modDma_hdg (c : Fin 64) (f : DmaChannel → DmaChannel) : (s.modDma c f).hdg = s.hdg := rfl
@[simp] theorem State.modDma_ras (c : Fin 64) (f : DmaChannel → DmaChannel) : (s.modDma c f).ras = s.ras := rfl
@[simp] theorem State.modDma_tap (c : Fin 64) (f : DmaChannel → DmaChannel) : (s.modDma c f).tap = s.tap := rfl
@[simp] theorem State.modDma_supply (c : Fin 64) (f : DmaChannel → DmaChannel) : (s.modDma c f).supply = s.supply := rfl
@[simp] theorem State.modDma_tagCmd (c : Fin 64) (f : DmaChannel → DmaChannel) : (s.modDma c f).tagCmd = s.tagCmd := rfl

/-! `State.modCku` writes `cku`. -/

@[simp] theorem State.modCku_pending (k : Fin 16) (f : Cku → Cku) : (s.modCku k f).pending = s.pending := rfl
@[simp] theorem State.modCku_freeCount (k : Fin 16) (f : Cku → Cku) : (s.modCku k f).freeCount = s.freeCount := rfl
@[simp] theorem State.modCku_clk (k : Fin 16) (f : Cku → Cku) : (s.modCku k f).clk = s.clk := rfl
@[simp] theorem State.modCku_regs (k : Fin 16) (f : Cku → Cku) : (s.modCku k f).regs = s.regs := rfl
@[simp] theorem State.modCku_latches (k : Fin 16) (f : Cku → Cku) : (s.modCku k f).latches = s.latches := rfl
@[simp] theorem State.modCku_holds (k : Fin 16) (f : Cku → Cku) : (s.modCku k f).holds = s.holds := rfl
@[simp] theorem State.modCku_gates (k : Fin 16) (f : Cku → Cku) : (s.modCku k f).gates = s.gates := rfl
@[simp] theorem State.modCku_cores (k : Fin 16) (f : Cku → Cku) : (s.modCku k f).cores = s.cores := rfl
@[simp] theorem State.modCku_coreMap (k : Fin 16) (f : Cku → Cku) : (s.modCku k f).coreMap = s.coreMap := rfl
@[simp] theorem State.modCku_bh (k : Fin 16) (f : Cku → Cku) : (s.modCku k f).bh = s.bh := rfl
@[simp] theorem State.modCku_dram (k : Fin 16) (f : Cku → Cku) : (s.modCku k f).dram = s.dram := rfl
@[simp] theorem State.modCku_cisSram (k : Fin 16) (f : Cku → Cku) : (s.modCku k f).cisSram = s.cisSram := rfl
@[simp] theorem State.modCku_ctlSram (k : Fin 16) (f : Cku → Cku) : (s.modCku k f).ctlSram = s.ctlSram := rfl
@[simp] theorem State.modCku_nvs (k : Fin 16) (f : Cku → Cku) : (s.modCku k f).nvs = s.nvs := rfl
@[simp] theorem State.modCku_take (k : Fin 16) (f : Cku → Cku) : (s.modCku k f).take = s.take := rfl
@[simp] theorem State.modCku_banks (k : Fin 16) (f : Cku → Cku) : (s.modCku k f).banks = s.banks := rfl
@[simp] theorem State.modCku_ringGen (k : Fin 16) (f : Cku → Cku) : (s.modCku k f).ringGen = s.ringGen := rfl
@[simp] theorem State.modCku_ringPhase (k : Fin 16) (f : Cku → Cku) : (s.modCku k f).ringPhase = s.ringPhase := rfl
@[simp] theorem State.modCku_visible (k : Fin 16) (f : Cku → Cku) : (s.modCku k f).visible = s.visible := rfl
@[simp] theorem State.modCku_stalled (k : Fin 16) (f : Cku → Cku) : (s.modCku k f).stalled = s.stalled := rfl
@[simp] theorem State.modCku_srcs (k : Fin 16) (f : Cku → Cku) : (s.modCku k f).srcs = s.srcs := rfl
@[simp] theorem State.modCku_evcStamp (k : Fin 16) (f : Cku → Cku) : (s.modCku k f).evcStamp = s.evcStamp := rfl
@[simp] theorem State.modCku_cku (k : Fin 16) (f : Cku → Cku) : (s.modCku k f).cku = vmod s.cku k f := rfl
@[simp] theorem State.modCku_cis (k : Fin 16) (f : Cku → Cku) : (s.modCku k f).cis = s.cis := rfl
@[simp] theorem State.modCku_dma (k : Fin 16) (f : Cku → Cku) : (s.modCku k f).dma = s.dma := rfl
@[simp] theorem State.modCku_dmaPtr (k : Fin 16) (f : Cku → Cku) : (s.modCku k f).dmaPtr = s.dmaPtr := rfl
@[simp] theorem State.modCku_flume (k : Fin 16) (f : Cku → Cku) : (s.modCku k f).flume = s.flume := rfl
@[simp] theorem State.modCku_onHold (k : Fin 16) (f : Cku → Cku) : (s.modCku k f).onHold = s.onHold := rfl
@[simp] theorem State.modCku_mc (k : Fin 16) (f : Cku → Cku) : (s.modCku k f).mc = s.mc := rfl
@[simp] theorem State.modCku_sns (k : Fin 16) (f : Cku → Cku) : (s.modCku k f).sns = s.sns := rfl
@[simp] theorem State.modCku_ledgers (k : Fin 16) (f : Cku → Cku) : (s.modCku k f).ledgers = s.ledgers := rfl
@[simp] theorem State.modCku_logs (k : Fin 16) (f : Cku → Cku) : (s.modCku k f).logs = s.logs := rfl
@[simp] theorem State.modCku_mags (k : Fin 16) (f : Cku → Cku) : (s.modCku k f).mags = s.mags := rfl
@[simp] theorem State.modCku_slots (k : Fin 16) (f : Cku → Cku) : (s.modCku k f).slots = s.slots := rfl
@[simp] theorem State.modCku_lateViews (k : Fin 16) (f : Cku → Cku) : (s.modCku k f).lateViews = s.lateViews := rfl
@[simp] theorem State.modCku_wholeViews (k : Fin 16) (f : Cku → Cku) : (s.modCku k f).wholeViews = s.wholeViews := rfl
@[simp] theorem State.modCku_engines (k : Fin 16) (f : Cku → Cku) : (s.modCku k f).engines = s.engines := rfl
@[simp] theorem State.modCku_clusters (k : Fin 16) (f : Cku → Cku) : (s.modCku k f).clusters = s.clusters := rfl
@[simp] theorem State.modCku_tileQueue (k : Fin 16) (f : Cku → Cku) : (s.modCku k f).tileQueue = s.tileQueue := rfl
@[simp] theorem State.modCku_lastEngine (k : Fin 16) (f : Cku → Cku) : (s.modCku k f).lastEngine = s.lastEngine := rfl
@[simp] theorem State.modCku_maintQueue (k : Fin 16) (f : Cku → Cku) : (s.modCku k f).maintQueue = s.maintQueue := rfl
@[simp] theorem State.modCku_streams (k : Fin 16) (f : Cku → Cku) : (s.modCku k f).streams = s.streams := rfl
@[simp] theorem State.modCku_sessions (k : Fin 16) (f : Cku → Cku) : (s.modCku k f).sessions = s.sessions := rfl
@[simp] theorem State.modCku_slu (k : Fin 16) (f : Cku → Cku) : (s.modCku k f).slu = s.slu := rfl
@[simp] theorem State.modCku_ksl (k : Fin 16) (f : Cku → Cku) : (s.modCku k f).ksl = s.ksl := rfl
@[simp] theorem State.modCku_ptp (k : Fin 16) (f : Cku → Cku) : (s.modCku k f).ptp = s.ptp := rfl
@[simp] theorem State.modCku_hdg (k : Fin 16) (f : Cku → Cku) : (s.modCku k f).hdg = s.hdg := rfl
@[simp] theorem State.modCku_ras (k : Fin 16) (f : Cku → Cku) : (s.modCku k f).ras = s.ras := rfl
@[simp] theorem State.modCku_tap (k : Fin 16) (f : Cku → Cku) : (s.modCku k f).tap = s.tap := rfl
@[simp] theorem State.modCku_supply (k : Fin 16) (f : Cku → Cku) : (s.modCku k f).supply = s.supply := rfl
@[simp] theorem State.modCku_tagCmd (k : Fin 16) (f : Cku → Cku) : (s.modCku k f).tagCmd = s.tagCmd := rfl

/-! `State.setBuf` writes `cis`. -/

@[simp] theorem State.setBuf_pending (h : Nat) (b : Option Buffer) : (s.setBuf h b).pending = s.pending := rfl
@[simp] theorem State.setBuf_freeCount (h : Nat) (b : Option Buffer) : (s.setBuf h b).freeCount = s.freeCount := rfl
@[simp] theorem State.setBuf_clk (h : Nat) (b : Option Buffer) : (s.setBuf h b).clk = s.clk := rfl
@[simp] theorem State.setBuf_regs (h : Nat) (b : Option Buffer) : (s.setBuf h b).regs = s.regs := rfl
@[simp] theorem State.setBuf_latches (h : Nat) (b : Option Buffer) : (s.setBuf h b).latches = s.latches := rfl
@[simp] theorem State.setBuf_holds (h : Nat) (b : Option Buffer) : (s.setBuf h b).holds = s.holds := rfl
@[simp] theorem State.setBuf_gates (h : Nat) (b : Option Buffer) : (s.setBuf h b).gates = s.gates := rfl
@[simp] theorem State.setBuf_cores (h : Nat) (b : Option Buffer) : (s.setBuf h b).cores = s.cores := rfl
@[simp] theorem State.setBuf_coreMap (h : Nat) (b : Option Buffer) : (s.setBuf h b).coreMap = s.coreMap := rfl
@[simp] theorem State.setBuf_bh (h : Nat) (b : Option Buffer) : (s.setBuf h b).bh = s.bh := rfl
@[simp] theorem State.setBuf_dram (h : Nat) (b : Option Buffer) : (s.setBuf h b).dram = s.dram := rfl
@[simp] theorem State.setBuf_cisSram (h : Nat) (b : Option Buffer) : (s.setBuf h b).cisSram = s.cisSram := rfl
@[simp] theorem State.setBuf_ctlSram (h : Nat) (b : Option Buffer) : (s.setBuf h b).ctlSram = s.ctlSram := rfl
@[simp] theorem State.setBuf_nvs (h : Nat) (b : Option Buffer) : (s.setBuf h b).nvs = s.nvs := rfl
@[simp] theorem State.setBuf_take (h : Nat) (b : Option Buffer) : (s.setBuf h b).take = s.take := rfl
@[simp] theorem State.setBuf_banks (h : Nat) (b : Option Buffer) : (s.setBuf h b).banks = s.banks := rfl
@[simp] theorem State.setBuf_ringGen (h : Nat) (b : Option Buffer) : (s.setBuf h b).ringGen = s.ringGen := rfl
@[simp] theorem State.setBuf_ringPhase (h : Nat) (b : Option Buffer) : (s.setBuf h b).ringPhase = s.ringPhase := rfl
@[simp] theorem State.setBuf_visible (h : Nat) (b : Option Buffer) : (s.setBuf h b).visible = s.visible := rfl
@[simp] theorem State.setBuf_stalled (h : Nat) (b : Option Buffer) : (s.setBuf h b).stalled = s.stalled := rfl
@[simp] theorem State.setBuf_srcs (h : Nat) (b : Option Buffer) : (s.setBuf h b).srcs = s.srcs := rfl
@[simp] theorem State.setBuf_evcStamp (h : Nat) (b : Option Buffer) : (s.setBuf h b).evcStamp = s.evcStamp := rfl
@[simp] theorem State.setBuf_cku (h : Nat) (b : Option Buffer) : (s.setBuf h b).cku = s.cku := rfl
@[simp] theorem State.setBuf_cis (h : Nat) (b : Option Buffer) : (s.setBuf h b).cis = { s.cis with bufs := mapSet noBuf s.cis.bufs h b } := rfl
@[simp] theorem State.setBuf_dma (h : Nat) (b : Option Buffer) : (s.setBuf h b).dma = s.dma := rfl
@[simp] theorem State.setBuf_dmaPtr (h : Nat) (b : Option Buffer) : (s.setBuf h b).dmaPtr = s.dmaPtr := rfl
@[simp] theorem State.setBuf_flume (h : Nat) (b : Option Buffer) : (s.setBuf h b).flume = s.flume := rfl
@[simp] theorem State.setBuf_onHold (h : Nat) (b : Option Buffer) : (s.setBuf h b).onHold = s.onHold := rfl
@[simp] theorem State.setBuf_mc (h : Nat) (b : Option Buffer) : (s.setBuf h b).mc = s.mc := rfl
@[simp] theorem State.setBuf_sns (h : Nat) (b : Option Buffer) : (s.setBuf h b).sns = s.sns := rfl
@[simp] theorem State.setBuf_ledgers (h : Nat) (b : Option Buffer) : (s.setBuf h b).ledgers = s.ledgers := rfl
@[simp] theorem State.setBuf_logs (h : Nat) (b : Option Buffer) : (s.setBuf h b).logs = s.logs := rfl
@[simp] theorem State.setBuf_mags (h : Nat) (b : Option Buffer) : (s.setBuf h b).mags = s.mags := rfl
@[simp] theorem State.setBuf_slots (h : Nat) (b : Option Buffer) : (s.setBuf h b).slots = s.slots := rfl
@[simp] theorem State.setBuf_lateViews (h : Nat) (b : Option Buffer) : (s.setBuf h b).lateViews = s.lateViews := rfl
@[simp] theorem State.setBuf_wholeViews (h : Nat) (b : Option Buffer) : (s.setBuf h b).wholeViews = s.wholeViews := rfl
@[simp] theorem State.setBuf_engines (h : Nat) (b : Option Buffer) : (s.setBuf h b).engines = s.engines := rfl
@[simp] theorem State.setBuf_clusters (h : Nat) (b : Option Buffer) : (s.setBuf h b).clusters = s.clusters := rfl
@[simp] theorem State.setBuf_tileQueue (h : Nat) (b : Option Buffer) : (s.setBuf h b).tileQueue = s.tileQueue := rfl
@[simp] theorem State.setBuf_lastEngine (h : Nat) (b : Option Buffer) : (s.setBuf h b).lastEngine = s.lastEngine := rfl
@[simp] theorem State.setBuf_maintQueue (h : Nat) (b : Option Buffer) : (s.setBuf h b).maintQueue = s.maintQueue := rfl
@[simp] theorem State.setBuf_streams (h : Nat) (b : Option Buffer) : (s.setBuf h b).streams = s.streams := rfl
@[simp] theorem State.setBuf_sessions (h : Nat) (b : Option Buffer) : (s.setBuf h b).sessions = s.sessions := rfl
@[simp] theorem State.setBuf_slu (h : Nat) (b : Option Buffer) : (s.setBuf h b).slu = s.slu := rfl
@[simp] theorem State.setBuf_ksl (h : Nat) (b : Option Buffer) : (s.setBuf h b).ksl = s.ksl := rfl
@[simp] theorem State.setBuf_ptp (h : Nat) (b : Option Buffer) : (s.setBuf h b).ptp = s.ptp := rfl
@[simp] theorem State.setBuf_hdg (h : Nat) (b : Option Buffer) : (s.setBuf h b).hdg = s.hdg := rfl
@[simp] theorem State.setBuf_ras (h : Nat) (b : Option Buffer) : (s.setBuf h b).ras = s.ras := rfl
@[simp] theorem State.setBuf_tap (h : Nat) (b : Option Buffer) : (s.setBuf h b).tap = s.tap := rfl
@[simp] theorem State.setBuf_supply (h : Nat) (b : Option Buffer) : (s.setBuf h b).supply = s.supply := rfl
@[simp] theorem State.setBuf_tagCmd (h : Nat) (b : Option Buffer) : (s.setBuf h b).tagCmd = s.tagCmd := rfl

/-! `State.setFlow` writes `slu`. -/

@[simp] theorem State.setFlow_pending (f : Nat) (x : Flow) : (s.setFlow f x).pending = s.pending := rfl
@[simp] theorem State.setFlow_freeCount (f : Nat) (x : Flow) : (s.setFlow f x).freeCount = s.freeCount := rfl
@[simp] theorem State.setFlow_clk (f : Nat) (x : Flow) : (s.setFlow f x).clk = s.clk := rfl
@[simp] theorem State.setFlow_regs (f : Nat) (x : Flow) : (s.setFlow f x).regs = s.regs := rfl
@[simp] theorem State.setFlow_latches (f : Nat) (x : Flow) : (s.setFlow f x).latches = s.latches := rfl
@[simp] theorem State.setFlow_holds (f : Nat) (x : Flow) : (s.setFlow f x).holds = s.holds := rfl
@[simp] theorem State.setFlow_gates (f : Nat) (x : Flow) : (s.setFlow f x).gates = s.gates := rfl
@[simp] theorem State.setFlow_cores (f : Nat) (x : Flow) : (s.setFlow f x).cores = s.cores := rfl
@[simp] theorem State.setFlow_coreMap (f : Nat) (x : Flow) : (s.setFlow f x).coreMap = s.coreMap := rfl
@[simp] theorem State.setFlow_bh (f : Nat) (x : Flow) : (s.setFlow f x).bh = s.bh := rfl
@[simp] theorem State.setFlow_dram (f : Nat) (x : Flow) : (s.setFlow f x).dram = s.dram := rfl
@[simp] theorem State.setFlow_cisSram (f : Nat) (x : Flow) : (s.setFlow f x).cisSram = s.cisSram := rfl
@[simp] theorem State.setFlow_ctlSram (f : Nat) (x : Flow) : (s.setFlow f x).ctlSram = s.ctlSram := rfl
@[simp] theorem State.setFlow_nvs (f : Nat) (x : Flow) : (s.setFlow f x).nvs = s.nvs := rfl
@[simp] theorem State.setFlow_take (f : Nat) (x : Flow) : (s.setFlow f x).take = s.take := rfl
@[simp] theorem State.setFlow_banks (f : Nat) (x : Flow) : (s.setFlow f x).banks = s.banks := rfl
@[simp] theorem State.setFlow_ringGen (f : Nat) (x : Flow) : (s.setFlow f x).ringGen = s.ringGen := rfl
@[simp] theorem State.setFlow_ringPhase (f : Nat) (x : Flow) : (s.setFlow f x).ringPhase = s.ringPhase := rfl
@[simp] theorem State.setFlow_visible (f : Nat) (x : Flow) : (s.setFlow f x).visible = s.visible := rfl
@[simp] theorem State.setFlow_stalled (f : Nat) (x : Flow) : (s.setFlow f x).stalled = s.stalled := rfl
@[simp] theorem State.setFlow_srcs (f : Nat) (x : Flow) : (s.setFlow f x).srcs = s.srcs := rfl
@[simp] theorem State.setFlow_evcStamp (f : Nat) (x : Flow) : (s.setFlow f x).evcStamp = s.evcStamp := rfl
@[simp] theorem State.setFlow_cku (f : Nat) (x : Flow) : (s.setFlow f x).cku = s.cku := rfl
@[simp] theorem State.setFlow_cis (f : Nat) (x : Flow) : (s.setFlow f x).cis = s.cis := rfl
@[simp] theorem State.setFlow_dma (f : Nat) (x : Flow) : (s.setFlow f x).dma = s.dma := rfl
@[simp] theorem State.setFlow_dmaPtr (f : Nat) (x : Flow) : (s.setFlow f x).dmaPtr = s.dmaPtr := rfl
@[simp] theorem State.setFlow_flume (f : Nat) (x : Flow) : (s.setFlow f x).flume = s.flume := rfl
@[simp] theorem State.setFlow_onHold (f : Nat) (x : Flow) : (s.setFlow f x).onHold = s.onHold := rfl
@[simp] theorem State.setFlow_mc (f : Nat) (x : Flow) : (s.setFlow f x).mc = s.mc := rfl
@[simp] theorem State.setFlow_sns (f : Nat) (x : Flow) : (s.setFlow f x).sns = s.sns := rfl
@[simp] theorem State.setFlow_ledgers (f : Nat) (x : Flow) : (s.setFlow f x).ledgers = s.ledgers := rfl
@[simp] theorem State.setFlow_logs (f : Nat) (x : Flow) : (s.setFlow f x).logs = s.logs := rfl
@[simp] theorem State.setFlow_mags (f : Nat) (x : Flow) : (s.setFlow f x).mags = s.mags := rfl
@[simp] theorem State.setFlow_slots (f : Nat) (x : Flow) : (s.setFlow f x).slots = s.slots := rfl
@[simp] theorem State.setFlow_lateViews (f : Nat) (x : Flow) : (s.setFlow f x).lateViews = s.lateViews := rfl
@[simp] theorem State.setFlow_wholeViews (f : Nat) (x : Flow) : (s.setFlow f x).wholeViews = s.wholeViews := rfl
@[simp] theorem State.setFlow_engines (f : Nat) (x : Flow) : (s.setFlow f x).engines = s.engines := rfl
@[simp] theorem State.setFlow_clusters (f : Nat) (x : Flow) : (s.setFlow f x).clusters = s.clusters := rfl
@[simp] theorem State.setFlow_tileQueue (f : Nat) (x : Flow) : (s.setFlow f x).tileQueue = s.tileQueue := rfl
@[simp] theorem State.setFlow_lastEngine (f : Nat) (x : Flow) : (s.setFlow f x).lastEngine = s.lastEngine := rfl
@[simp] theorem State.setFlow_maintQueue (f : Nat) (x : Flow) : (s.setFlow f x).maintQueue = s.maintQueue := rfl
@[simp] theorem State.setFlow_streams (f : Nat) (x : Flow) : (s.setFlow f x).streams = s.streams := rfl
@[simp] theorem State.setFlow_sessions (f : Nat) (x : Flow) : (s.setFlow f x).sessions = s.sessions := rfl
@[simp] theorem State.setFlow_slu (f : Nat) (x : Flow) : (s.setFlow f x).slu = { s.slu with flows := mapSet flowReset s.slu.flows f x } := rfl
@[simp] theorem State.setFlow_ksl (f : Nat) (x : Flow) : (s.setFlow f x).ksl = s.ksl := rfl
@[simp] theorem State.setFlow_ptp (f : Nat) (x : Flow) : (s.setFlow f x).ptp = s.ptp := rfl
@[simp] theorem State.setFlow_hdg (f : Nat) (x : Flow) : (s.setFlow f x).hdg = s.hdg := rfl
@[simp] theorem State.setFlow_ras (f : Nat) (x : Flow) : (s.setFlow f x).ras = s.ras := rfl
@[simp] theorem State.setFlow_tap (f : Nat) (x : Flow) : (s.setFlow f x).tap = s.tap := rfl
@[simp] theorem State.setFlow_supply (f : Nat) (x : Flow) : (s.setFlow f x).supply = s.supply := rfl
@[simp] theorem State.setFlow_tagCmd (f : Nat) (x : Flow) : (s.setFlow f x).tagCmd = s.tagCmd := rfl

/-! `State.setService` writes `slu`. -/

@[simp] theorem State.setService_pending (p v : Nat) (x : Service) : (s.setService p v x).pending = s.pending := rfl
@[simp] theorem State.setService_freeCount (p v : Nat) (x : Service) : (s.setService p v x).freeCount = s.freeCount := rfl
@[simp] theorem State.setService_clk (p v : Nat) (x : Service) : (s.setService p v x).clk = s.clk := rfl
@[simp] theorem State.setService_regs (p v : Nat) (x : Service) : (s.setService p v x).regs = s.regs := rfl
@[simp] theorem State.setService_latches (p v : Nat) (x : Service) : (s.setService p v x).latches = s.latches := rfl
@[simp] theorem State.setService_holds (p v : Nat) (x : Service) : (s.setService p v x).holds = s.holds := rfl
@[simp] theorem State.setService_gates (p v : Nat) (x : Service) : (s.setService p v x).gates = s.gates := rfl
@[simp] theorem State.setService_cores (p v : Nat) (x : Service) : (s.setService p v x).cores = s.cores := rfl
@[simp] theorem State.setService_coreMap (p v : Nat) (x : Service) : (s.setService p v x).coreMap = s.coreMap := rfl
@[simp] theorem State.setService_bh (p v : Nat) (x : Service) : (s.setService p v x).bh = s.bh := rfl
@[simp] theorem State.setService_dram (p v : Nat) (x : Service) : (s.setService p v x).dram = s.dram := rfl
@[simp] theorem State.setService_cisSram (p v : Nat) (x : Service) : (s.setService p v x).cisSram = s.cisSram := rfl
@[simp] theorem State.setService_ctlSram (p v : Nat) (x : Service) : (s.setService p v x).ctlSram = s.ctlSram := rfl
@[simp] theorem State.setService_nvs (p v : Nat) (x : Service) : (s.setService p v x).nvs = s.nvs := rfl
@[simp] theorem State.setService_take (p v : Nat) (x : Service) : (s.setService p v x).take = s.take := rfl
@[simp] theorem State.setService_banks (p v : Nat) (x : Service) : (s.setService p v x).banks = s.banks := rfl
@[simp] theorem State.setService_ringGen (p v : Nat) (x : Service) : (s.setService p v x).ringGen = s.ringGen := rfl
@[simp] theorem State.setService_ringPhase (p v : Nat) (x : Service) : (s.setService p v x).ringPhase = s.ringPhase := rfl
@[simp] theorem State.setService_visible (p v : Nat) (x : Service) : (s.setService p v x).visible = s.visible := rfl
@[simp] theorem State.setService_stalled (p v : Nat) (x : Service) : (s.setService p v x).stalled = s.stalled := rfl
@[simp] theorem State.setService_srcs (p v : Nat) (x : Service) : (s.setService p v x).srcs = s.srcs := rfl
@[simp] theorem State.setService_evcStamp (p v : Nat) (x : Service) : (s.setService p v x).evcStamp = s.evcStamp := rfl
@[simp] theorem State.setService_cku (p v : Nat) (x : Service) : (s.setService p v x).cku = s.cku := rfl
@[simp] theorem State.setService_cis (p v : Nat) (x : Service) : (s.setService p v x).cis = s.cis := rfl
@[simp] theorem State.setService_dma (p v : Nat) (x : Service) : (s.setService p v x).dma = s.dma := rfl
@[simp] theorem State.setService_dmaPtr (p v : Nat) (x : Service) : (s.setService p v x).dmaPtr = s.dmaPtr := rfl
@[simp] theorem State.setService_flume (p v : Nat) (x : Service) : (s.setService p v x).flume = s.flume := rfl
@[simp] theorem State.setService_onHold (p v : Nat) (x : Service) : (s.setService p v x).onHold = s.onHold := rfl
@[simp] theorem State.setService_mc (p v : Nat) (x : Service) : (s.setService p v x).mc = s.mc := rfl
@[simp] theorem State.setService_sns (p v : Nat) (x : Service) : (s.setService p v x).sns = s.sns := rfl
@[simp] theorem State.setService_ledgers (p v : Nat) (x : Service) : (s.setService p v x).ledgers = s.ledgers := rfl
@[simp] theorem State.setService_logs (p v : Nat) (x : Service) : (s.setService p v x).logs = s.logs := rfl
@[simp] theorem State.setService_mags (p v : Nat) (x : Service) : (s.setService p v x).mags = s.mags := rfl
@[simp] theorem State.setService_slots (p v : Nat) (x : Service) : (s.setService p v x).slots = s.slots := rfl
@[simp] theorem State.setService_lateViews (p v : Nat) (x : Service) : (s.setService p v x).lateViews = s.lateViews := rfl
@[simp] theorem State.setService_wholeViews (p v : Nat) (x : Service) : (s.setService p v x).wholeViews = s.wholeViews := rfl
@[simp] theorem State.setService_engines (p v : Nat) (x : Service) : (s.setService p v x).engines = s.engines := rfl
@[simp] theorem State.setService_clusters (p v : Nat) (x : Service) : (s.setService p v x).clusters = s.clusters := rfl
@[simp] theorem State.setService_tileQueue (p v : Nat) (x : Service) : (s.setService p v x).tileQueue = s.tileQueue := rfl
@[simp] theorem State.setService_lastEngine (p v : Nat) (x : Service) : (s.setService p v x).lastEngine = s.lastEngine := rfl
@[simp] theorem State.setService_maintQueue (p v : Nat) (x : Service) : (s.setService p v x).maintQueue = s.maintQueue := rfl
@[simp] theorem State.setService_streams (p v : Nat) (x : Service) : (s.setService p v x).streams = s.streams := rfl
@[simp] theorem State.setService_sessions (p v : Nat) (x : Service) : (s.setService p v x).sessions = s.sessions := rfl
@[simp] theorem State.setService_slu (p v : Nat) (x : Service) : (s.setService p v x).slu = { s.slu with services := mapSet serviceReset s.slu.services (8 * p + v) x } := rfl
@[simp] theorem State.setService_ksl (p v : Nat) (x : Service) : (s.setService p v x).ksl = s.ksl := rfl
@[simp] theorem State.setService_ptp (p v : Nat) (x : Service) : (s.setService p v x).ptp = s.ptp := rfl
@[simp] theorem State.setService_hdg (p v : Nat) (x : Service) : (s.setService p v x).hdg = s.hdg := rfl
@[simp] theorem State.setService_ras (p v : Nat) (x : Service) : (s.setService p v x).ras = s.ras := rfl
@[simp] theorem State.setService_tap (p v : Nat) (x : Service) : (s.setService p v x).tap = s.tap := rfl
@[simp] theorem State.setService_supply (p v : Nat) (x : Service) : (s.setService p v x).supply = s.supply := rfl
@[simp] theorem State.setService_tagCmd (p v : Nat) (x : Service) : (s.setService p v x).tagCmd = s.tagCmd := rfl

/-! `State.closeGate` writes `gates`. -/

@[simp] theorem State.closeGate_pending (l : Fin 64) : (s.closeGate l).pending = s.pending := rfl
@[simp] theorem State.closeGate_freeCount (l : Fin 64) : (s.closeGate l).freeCount = s.freeCount := rfl
@[simp] theorem State.closeGate_clk (l : Fin 64) : (s.closeGate l).clk = s.clk := rfl
@[simp] theorem State.closeGate_regs (l : Fin 64) : (s.closeGate l).regs = s.regs := rfl
@[simp] theorem State.closeGate_latches (l : Fin 64) : (s.closeGate l).latches = s.latches := rfl
@[simp] theorem State.closeGate_holds (l : Fin 64) : (s.closeGate l).holds = s.holds := rfl
@[simp] theorem State.closeGate_gates (l : Fin 64) : (s.closeGate l).gates = s.gates &&& ~~~(BitVec.twoPow 64 l.1) := rfl
@[simp] theorem State.closeGate_cores (l : Fin 64) : (s.closeGate l).cores = s.cores := rfl
@[simp] theorem State.closeGate_coreMap (l : Fin 64) : (s.closeGate l).coreMap = s.coreMap := rfl
@[simp] theorem State.closeGate_bh (l : Fin 64) : (s.closeGate l).bh = s.bh := rfl
@[simp] theorem State.closeGate_dram (l : Fin 64) : (s.closeGate l).dram = s.dram := rfl
@[simp] theorem State.closeGate_cisSram (l : Fin 64) : (s.closeGate l).cisSram = s.cisSram := rfl
@[simp] theorem State.closeGate_ctlSram (l : Fin 64) : (s.closeGate l).ctlSram = s.ctlSram := rfl
@[simp] theorem State.closeGate_nvs (l : Fin 64) : (s.closeGate l).nvs = s.nvs := rfl
@[simp] theorem State.closeGate_take (l : Fin 64) : (s.closeGate l).take = s.take := rfl
@[simp] theorem State.closeGate_banks (l : Fin 64) : (s.closeGate l).banks = s.banks := rfl
@[simp] theorem State.closeGate_ringGen (l : Fin 64) : (s.closeGate l).ringGen = s.ringGen := rfl
@[simp] theorem State.closeGate_ringPhase (l : Fin 64) : (s.closeGate l).ringPhase = s.ringPhase := rfl
@[simp] theorem State.closeGate_visible (l : Fin 64) : (s.closeGate l).visible = s.visible := rfl
@[simp] theorem State.closeGate_stalled (l : Fin 64) : (s.closeGate l).stalled = s.stalled := rfl
@[simp] theorem State.closeGate_srcs (l : Fin 64) : (s.closeGate l).srcs = s.srcs := rfl
@[simp] theorem State.closeGate_evcStamp (l : Fin 64) : (s.closeGate l).evcStamp = s.evcStamp := rfl
@[simp] theorem State.closeGate_cku (l : Fin 64) : (s.closeGate l).cku = s.cku := rfl
@[simp] theorem State.closeGate_cis (l : Fin 64) : (s.closeGate l).cis = s.cis := rfl
@[simp] theorem State.closeGate_dma (l : Fin 64) : (s.closeGate l).dma = s.dma := rfl
@[simp] theorem State.closeGate_dmaPtr (l : Fin 64) : (s.closeGate l).dmaPtr = s.dmaPtr := rfl
@[simp] theorem State.closeGate_flume (l : Fin 64) : (s.closeGate l).flume = s.flume := rfl
@[simp] theorem State.closeGate_onHold (l : Fin 64) : (s.closeGate l).onHold = s.onHold := rfl
@[simp] theorem State.closeGate_mc (l : Fin 64) : (s.closeGate l).mc = s.mc := rfl
@[simp] theorem State.closeGate_sns (l : Fin 64) : (s.closeGate l).sns = s.sns := rfl
@[simp] theorem State.closeGate_ledgers (l : Fin 64) : (s.closeGate l).ledgers = s.ledgers := rfl
@[simp] theorem State.closeGate_logs (l : Fin 64) : (s.closeGate l).logs = s.logs := rfl
@[simp] theorem State.closeGate_mags (l : Fin 64) : (s.closeGate l).mags = s.mags := rfl
@[simp] theorem State.closeGate_slots (l : Fin 64) : (s.closeGate l).slots = s.slots := rfl
@[simp] theorem State.closeGate_lateViews (l : Fin 64) : (s.closeGate l).lateViews = s.lateViews := rfl
@[simp] theorem State.closeGate_wholeViews (l : Fin 64) : (s.closeGate l).wholeViews = s.wholeViews := rfl
@[simp] theorem State.closeGate_engines (l : Fin 64) : (s.closeGate l).engines = s.engines := rfl
@[simp] theorem State.closeGate_clusters (l : Fin 64) : (s.closeGate l).clusters = s.clusters := rfl
@[simp] theorem State.closeGate_tileQueue (l : Fin 64) : (s.closeGate l).tileQueue = s.tileQueue := rfl
@[simp] theorem State.closeGate_lastEngine (l : Fin 64) : (s.closeGate l).lastEngine = s.lastEngine := rfl
@[simp] theorem State.closeGate_maintQueue (l : Fin 64) : (s.closeGate l).maintQueue = s.maintQueue := rfl
@[simp] theorem State.closeGate_streams (l : Fin 64) : (s.closeGate l).streams = s.streams := rfl
@[simp] theorem State.closeGate_sessions (l : Fin 64) : (s.closeGate l).sessions = s.sessions := rfl
@[simp] theorem State.closeGate_slu (l : Fin 64) : (s.closeGate l).slu = s.slu := rfl
@[simp] theorem State.closeGate_ksl (l : Fin 64) : (s.closeGate l).ksl = s.ksl := rfl
@[simp] theorem State.closeGate_ptp (l : Fin 64) : (s.closeGate l).ptp = s.ptp := rfl
@[simp] theorem State.closeGate_hdg (l : Fin 64) : (s.closeGate l).hdg = s.hdg := rfl
@[simp] theorem State.closeGate_ras (l : Fin 64) : (s.closeGate l).ras = s.ras := rfl
@[simp] theorem State.closeGate_tap (l : Fin 64) : (s.closeGate l).tap = s.tap := rfl
@[simp] theorem State.closeGate_supply (l : Fin 64) : (s.closeGate l).supply = s.supply := rfl
@[simp] theorem State.closeGate_tagCmd (l : Fin 64) : (s.closeGate l).tagCmd = s.tagCmd := rfl

end Sys2Proof.Machine
end

