-- ==== Sys2Proof/Laws/Ops.lean ====
section
/-! SUPPORT. The shared operations, once each: reads after writes of registers, sources, engines, buffers and vectors, the protected stores,
and the canonical form that each operation keeps. -/

namespace Sys2Proof.Machine

variable {α : Type} {n : Nat}

/-! ### Vectors -/

@[simp] theorem vget_vset_same (v : Vector α n) (i : Fin n) (x : α) : vget (vset v i x) i = x := by
  simp only [vget, vset, Vector.get_eq_getElem, Vector.getElem_set_self]

theorem vget_vset_ne (v : Vector α n) {i j : Fin n} (h : j ≠ i) (x : α) : vget (vset v i x) j = vget v j := by
  have : i.1 ≠ j.1 := fun e => h (Fin.ext e.symm)
  simp only [vget, vset, Vector.get_eq_getElem, Vector.getElem_set_ne _ _ this]

theorem vget_vset (v : Vector α n) (i j : Fin n) (x : α) : vget (vset v i x) j = if j = i then x else vget v j := by
  by_cases h : j = i
  · subst h; simp
  · simp [h, vget_vset_ne v h]

@[simp] theorem vget_vmod_same (v : Vector α n) (i : Fin n) (f : α → α) : vget (vmod v i f) i = f (vget v i) := by
  simp [vmod]

theorem vget_vmod_ne (v : Vector α n) {i j : Fin n} (h : j ≠ i) (f : α → α) : vget (vmod v i f) j = vget v j := by
  simp [vmod, vget_vset_ne v h]

theorem vgetN_lt (d : α) (v : Vector α n) {i : Nat} (h : i < n) : vgetN d v i = vget v ⟨i, h⟩ := by simp [vgetN, h]

theorem vgetN_vsetN_same (d : α) (v : Vector α n) {i : Nat} (h : i < n) (x : α) : vgetN d (vsetN v i x) i = x := by
  simp [vgetN, vsetN, h]

theorem vgetN_vsetN_ne (d : α) (v : Vector α n) {i j : Nat} (h : j ≠ i) (x : α) : vgetN d (vsetN v i x) j = vgetN d v j := by
  unfold vgetN vsetN
  split_ifs with hj hi
  · exact vget_vset_ne v (fun e => h (congrArg Fin.val e)) x
  · rfl
  · rfl

@[simp] theorem vget_replicate (x : α) (i : Fin n) : vget (Vector.replicate n x) i = x := by
  simp [vget, Vector.get]

/-! ### Registers, sources, engines, flows and buffers -/

theorem State.reg_setReg {s : State} (h : mapWf regReset s.regs) (o p : Nat) (w : Word) :
    (s.setReg o w).reg p = if p = o then w else s.reg p := mapGet_mapSet h p o w

theorem State.reg_setReg_ne (s : State) {o p : Nat} (h : p ≠ o) (w : Word) : (s.setReg o w).reg p = s.reg p := mapGet_mapSet_ne _ h w

theorem State.src_setSrc {s : State} (h : mapWf srcReset s.srcs) (j k : Nat) (x : Source) :
    (s.setSrc k x).src j = if j = k then x else s.src j := mapGet_mapSet h j k x

theorem State.src_setSrc_ne (s : State) {j k : Nat} (h : j ≠ k) (x : Source) : (s.setSrc k x).src j = s.src j := mapGet_mapSet_ne _ h x

theorem State.engine_setEngine {s : State} (h : mapWf engineReset s.engines) (j k : Nat) (x : Engine) :
    (s.setEngine k x).engine j = if j = k then x else s.engine j := mapGet_mapSet h j k x

theorem State.engine_setEngine_ne (s : State) {j k : Nat} (h : j ≠ k) (x : Engine) : (s.setEngine k x).engine j = s.engine j :=
  mapGet_mapSet_ne _ h x

theorem State.flow_setFlow {s : State} (h : mapWf flowReset s.slu.flows) (j k : Nat) (x : Flow) :
    (s.setFlow k x).flow j = if j = k then x else s.flow j := mapGet_mapSet h j k x

theorem State.flow_setFlow_ne (s : State) {j k : Nat} (h : j ≠ k) (x : Flow) : (s.setFlow k x).flow j = s.flow j := mapGet_mapSet_ne _ h x

theorem State.buf_setBuf {s : State} (h : mapWf noBuf s.cis.bufs) (j k : Nat) (b : Option Buffer) :
    (s.setBuf k b).buf j = if j = k then b else s.buf j := mapGet_mapSet h j k b

theorem State.buf_setBuf_ne (s : State) {j k : Nat} (h : j ≠ k) (b : Option Buffer) : (s.setBuf k b).buf j = s.buf j := mapGet_mapSet_ne _ h b

/-! ### The protected stores -/

theorem Store.empty_wf : Store.empty.wf := ⟨mapWf_nil, mapWf_nil⟩

theorem Store.setSyn_wf {m : Store} (h : m.wf) (i : Nat) (v : Half) : (m.setSyn i v).wf := ⟨h.1, mapWf_mapSet h.2 i v⟩

theorem Store.put_wf {m : Store} (h : m.wf) (a : Nat) (b : List Byte) : (m.put a b).wf := by
  induction b generalizing m a with
  | nil => exact h
  | cons x b ih => exact ih (m := { m with bytes := mapSet (byteReset m.loss) m.bytes a x }) ⟨mapWf_mapSet h.1 a x, h.2⟩ (a + 1)

theorem Store.rewrite_wf {m : Store} (h : m.wf) (a k i : Nat) : (m.rewrite a k i).wf := by
  unfold Store.rewrite
  split
  · exact setSyn_wf h i 0
  · split
    · exact h
    · exact setSyn_wf h i 0
    · exact setSyn_wf (put_wf h _ _) i 0
    · exact h
    · exact setSyn_wf h i 0xFFFF

theorem foldl_keeps {β γ : Type} (P : γ → Prop) (f : γ → β → γ) (hf : ∀ c b, P c → P (f c b)) (l : List β) (c : γ) (h : P c) :
    P (l.foldl f c) := by
  induction l generalizing c with
  | nil => exact h
  | cons b l ih => exact ih _ (hf c b h)

/-- A write keeps the canonical form of a store. -/
theorem Store.write_wf {m : Store} (h : m.wf) (a : Nat) (b : List Byte) : (m.write a b).wf :=
  put_wf (foldl_keeps Store.wf _ (fun _ i hm => rewrite_wf hm a b.length i) _ m h) a b

theorem Store.poison_wf {m : Store} (h : m.wf) (a : Nat) : (m.poison a).wf := setSyn_wf h _ _

theorem scrubWord_wf {m : Store} (h : m.wf) (a : Nat) : (scrubWord m a).wf := by
  unfold scrubWord
  split
  · exact Store.write_wf h _ _
  · exact Store.setSyn_wf h _ _
  · exact Store.poison_wf h _
  · exact h

@[simp] theorem Store.put_loss (m : Store) (a : Nat) (b : List Byte) : (m.put a b).loss = m.loss := by
  induction b generalizing m a with
  | nil => rfl
  | cons x b ih => exact ih _ _

@[simp] theorem Store.put_syn (m : Store) (a : Nat) (b : List Byte) : (m.put a b).syn = m.syn := by
  induction b generalizing m a with
  | nil => rfl
  | cons x b ih => exact ih _ _

/-- Raw bytes put from `a` up. -/
theorem Store.byte_put {m : Store} (h : m.wf) (a : Nat) (b : List Byte) (k : Nat) :
    (m.put a b).byte k = if a ≤ k ∧ k < a + b.length then nth 0 b (k - a) else m.byte k := by
  induction b generalizing m a with
  | nil => simp [Store.put]
  | cons x b ih =>
    have hw : ({ m with bytes := mapSet (byteReset m.loss) m.bytes a x } : Store).wf := ⟨mapWf_mapSet h.1 a x, h.2⟩
    rw [Store.put, ih hw]
    have hb : ({ m with bytes := mapSet (byteReset m.loss) m.bytes a x } : Store).byte k = if k = a then x else m.byte k := mapGet_mapSet h.1 k a x
    rw [hb]
    simp only [List.length_cons]
    by_cases h1 : k = a
    · subst h1; simp [nth]
    · by_cases h2 : a ≤ k
      · obtain ⟨j, rfl⟩ : ∃ j, k = a + 1 + j := ⟨k - a - 1, by omega⟩
        have e1 : a + 1 + j - (a + 1) = j := by omega
        have e2 : a + 1 + j - a = j + 1 := by omega
        simp only [e1, e2, nth, h1, if_false]
        by_cases h3 : j < b.length
        · simp [show a + 1 + j < a + 1 + b.length by omega, show a + 1 + j < a + (b.length + 1) by omega, show a ≤ a + 1 + j by omega]
        · simp [show ¬ a + 1 + j < a + 1 + b.length by omega, show ¬ a + 1 + j < a + (b.length + 1) by omega]
      · simp [h1, h2, show ¬ a + 1 ≤ k by omega]

theorem Store.syndrome_setSyn {m : Store} (h : m.wf) (i j : Nat) (v : Half) :
    (m.setSyn i v).syndrome j = if j = i then v else m.syndrome j := mapGet_mapSet h.2 j i v

@[simp] theorem Store.syndrome_put (m : Store) (a : Nat) (b : List Byte) (i : Nat) : (m.put a b).syndrome i = m.syndrome i := by
  simp [Store.syndrome]

@[simp] theorem Store.byte_setSyn (m : Store) (i : Nat) (v : Half) (a : Nat) : (m.setSyn i v).byte a = m.byte a := rfl

/-- In a word without an error the reader sees the stored byte. -/
theorem Store.readByte_clean {m : Store} {a : Nat} (h : m.syndrome (a / 16) = 0) : m.readByte a = m.byte a := by
  simp [Store.readByte, h, verdict]

/-! ### The canonical form, kept -/

theorem State.setReg_memWf {s : State} (h : s.memWf) (o : Nat) (w : Word) : (s.setReg o w).memWf :=
  ⟨h.1, mapWf_mapSet h.2.1 o w, h.2.2⟩

theorem State.orReg_memWf {s : State} (h : s.memWf) (o : Nat) (m : Word) : (s.orReg o m).memWf := setReg_memWf h _ _

theorem State.clrReg_memWf {s : State} (h : s.memWf) (o : Nat) (m : Word) : (s.clrReg o m).memWf := setReg_memWf h _ _

theorem State.bump_memWf {s : State} (h : s.memWf) (o k : Nat) : (s.bump o k).memWf := setReg_memWf h _ _

theorem State.setReg64_memWf {s : State} (h : s.memWf) (o : Nat) (v : DWord) : (s.setReg64 o v).memWf := setReg_memWf (setReg_memWf h _ _) _ _

theorem State.setSrc_memWf {s : State} (h : s.memWf) (k : Nat) (x : Source) : (s.setSrc k x).memWf := by
  obtain ⟨h0, a, b, c, d, e⟩ := h
  exact ⟨h0, a, b, c, mapWf_mapSet d k x, e⟩

theorem State.setEngine_memWf {s : State} (h : s.memWf) (j : Nat) (x : Engine) : (s.setEngine j x).memWf := by
  obtain ⟨h0, a, b, c, d, e, f⟩ := h
  exact ⟨h0, a, b, c, d, mapWf_mapSet e j x, f⟩

theorem State.setFlow_memWf {s : State} (h : s.memWf) (f : Nat) (x : Flow) : (s.setFlow f x).memWf := by
  obtain ⟨h0, a, b, c, d, e, g, r⟩ := h
  exact ⟨h0, a, b, c, d, e, mapWf_mapSet g f x, r⟩

theorem State.setService_memWf {s : State} (h : s.memWf) (p v : Nat) (x : Service) : (s.setService p v x).memWf := by
  obtain ⟨h0, a, b, c, d, e, g, i, r⟩ := h
  exact ⟨h0, a, b, c, d, e, g, mapWf_mapSet i _ x, r⟩

theorem State.setBuf_memWf {s : State} (h : s.memWf) (k : Nat) (x : Option Buffer) : (s.setBuf k x).memWf := by
  obtain ⟨h0, a, b, c, d, e, g, i, j, r⟩ := h
  exact ⟨h0, a, b, c, d, e, g, i, mapWf_mapSet j k x, r⟩

theorem State.setStore_memWf {s : State} (h : s.memWf) (id : StoreId) {m : Store} (hm : m.wf) : (s.setStore id m).memWf := by
  obtain ⟨⟨a, b, c, d, e⟩, h2⟩ := h
  cases id
  · exact ⟨⟨hm, b, c, d, e⟩, h2⟩
  · exact ⟨⟨a, hm, c, d, e⟩, h2⟩
  · exact ⟨⟨a, b, hm, d, e⟩, h2⟩
  · exact ⟨⟨a, b, c, hm, e⟩, h2⟩

theorem State.store_wf {s : State} (h : s.memWf) (id : StoreId) : (s.store id).wf := by
  obtain ⟨⟨a, b, c, d, e⟩, h2⟩ := h
  cases id <;> assumption

theorem State.modCore_memWf {s : State} (h : s.memWf) (k : Fin 4) (f : TaborCore → TaborCore) : (s.modCore k f).memWf := h

/-- A cache line's bytes written to control SRAM keep its canonical form. -/
theorem CacheLine.toCtl_wf {m : Store} (h : m.wf) (l : CacheLine) : (l.toCtl m).wf :=
  foldl_keeps Store.wf _ (fun _ _ hm => Store.poison_wf hm _) _ _ (Store.write_wf h _ _)

theorem State.ctlSync_memWf {s : State} (h : s.memWf) (a n : Nat) (drop : Bool) : (s.ctlSync a n drop).memWf := by
  unfold State.ctlSync
  extract_lets lines s1 keep
  split
  · exact h
  · have h1 : s1.memWf := setStore_memWf h .ctl (foldl_keeps Store.wf _ (fun _ l hm => CacheLine.toCtl_wf hm l) _ _ h.1.2.2.1)
    exact foldl_keeps State.memWf _ (fun _ k hs => modCore_memWf hs _ _) _ _ h1

theorem State.modRas_memWf {s : State} (h : s.memWf) (f : Ras → Ras) (hf : (f s.ras).wear = s.ras.wear) : (s.modRas f).memWf := by
  obtain ⟨h0, a, b, c, d, e, g, i, j, k, l⟩ := h
  exact ⟨h0, a, b, c, d, e, g, i, j, k, by simpa [hf] using l⟩

@[simp] theorem State.reset_regs : State.reset.regs = [] := rfl
@[simp] theorem State.reset_srcs : State.reset.srcs = [] := rfl
@[simp] theorem State.reset_engines : State.reset.engines = [] := rfl
@[simp] theorem State.reset_flows : State.reset.slu.flows = [] := rfl
@[simp] theorem State.reset_services : State.reset.slu.services = [] := rfl
@[simp] theorem State.reset_bufs : State.reset.cis.bufs = [] := rfl
@[simp] theorem State.reset_pages : State.reset.cis.pages = [] := rfl
@[simp] theorem State.reset_wear : State.reset.ras.wear = [] := rfl

theorem State.reset_storesWf : State.reset.storesWf := by decide

/-- The state after reset is in canonical form. -/
theorem State.reset_mapsWf : State.reset.mapsWf :=
  ⟨by rw [reset_regs]; exact mapWf_nil, by exact mapWf_nil, by exact mapWf_nil, by rw [reset_srcs]; exact mapWf_nil,
    by rw [reset_engines]; exact mapWf_nil, by rw [reset_flows]; exact mapWf_nil, by rw [reset_services]; exact mapWf_nil,
    by rw [reset_bufs]; exact mapWf_nil, by rw [reset_pages]; exact mapWf_nil, by rw [reset_wear]; exact mapWf_nil⟩

theorem State.reset_memWf : State.reset.memWf := ⟨reset_storesWf, reset_mapsWf⟩

/-! ### Cores -/

theorem State.modBh_memWf {s : State} (h : s.memWf) (f : BellhouseCore → BellhouseCore) (hf : (f s.bh).mem = s.bh.mem) : (s.modBh f).memWf := by
  obtain ⟨⟨a, b, c, d, e⟩, h2⟩ := h
  exact ⟨⟨a, b, c, d, by simpa [hf] using e⟩, h2⟩

theorem State.setD_memWf {s : State} (h : s.memWf) (c : Core) (r : Fin 32) (v : DWord) : (s.setD c r v).memWf := by
  cases c
  · exact modCore_memWf h _ _
  · exact modBh_memWf h _ rfl

theorem State.setFl_memWf {s : State} (h : s.memWf) (c : Core) (v : DWord) : (s.setFl c v).memWf := by
  cases c
  · exact modCore_memWf h _ _
  · exact modBh_memWf h _ rfl

theorem State.setPc_memWf {s : State} (h : s.memWf) (c : Core) (v : DWord) : (s.setPc c v).memWf := by
  cases c
  · exact modCore_memWf h _ _
  · exact modBh_memWf h _ rfl

theorem State.setRun_memWf {s : State} (h : s.memWf) (c : Core) (r : CoreRun) : (s.setRun c r).memWf := by
  cases c
  · exact modCore_memWf h _ _
  · exact modBh_memWf h _ rfl

theorem State.nextPc_memWf {s : State} (h : s.memWf) (c : Core) : (s.nextPc c).memWf := setPc_memWf h _ _

/-! ### Events -/

theorem State.toPending_memWf {s : State} (h : s.memWf) (k : Nat) : (s.toPending k).memWf := setSrc_memWf (s := { s with evcStamp := s.evcStamp + 1 }) h _ _

theorem State.claimSource_memWf {s : State} (h : s.memWf) (t : Fin 16) (k : Nat) : (s.claimSource t k).memWf :=
  foldl_keeps State.memWf _ (fun _ p hs => setSrc_memWf hs p.1 _) _ _ (setSrc_memWf h k _)

theorem State.endWait_memWf {s : State} (h : s.memWf) (c : Core) (rd : Fin 32) (src : Nat) (st : Byte) : (s.endWait c rd src st).memWf :=
  nextPc_memWf (setRun_memWf (setFl_memWf (setD_memWf h _ _ _) _ _) _ _) _

theorem State.deliverTo_memWf {s : State} (h : s.memWf) (c : Core) : (s.deliverTo c).memWf := by
  unfold State.deliverTo
  split
  · dsimp only
    split
    · exact h
    · exact endWait_memWf (claimSource_memWf h _ _) _ _ _ _
  · exact h

theorem State.deliver_memWf {s : State} (h : s.memWf) : s.deliver.memWf := foldl_keeps State.memWf _ (fun _ c hs => deliverTo_memWf hs c) _ _ h

theorem State.putRecord_memWf {s : State} (h : s.memWf) (r : EventRecord) : (s.putRecord r).memWf := by
  unfold State.putRecord
  dsimp only
  split
  · split
    · exact bump_memWf (orReg_memWf h _ _) _ _
    · have h1 := fun a => ctlSync_memWf h a 16 true
      exact setReg_memWf (setStore_memWf (h1 _) .ctl (Store.write_wf (h1 _).1.2.2.1 _ _)) _ _
  · exact bump_memWf (orReg_memWf h _ _) _ _

theorem State.edgeRaise_memWf {s : State} (h : s.memWf) (k : Nat) : (s.edgeRaise k).memWf := by
  unfold State.edgeRaise
  dsimp only
  have h1 : (s.setSrc k { s.src k with raw := true }).memWf := setSrc_memWf h _ _
  split
  · exact h1
  · split
    · exact toPending_memWf h1 _
    · exact bump_memWf h1 _ _
    · exact setSrc_memWf h1 _ _
    · exact bump_memWf h1 _ _

/-- Raising a source keeps the canonical form. -/
theorem State.raiseWith_memWf {s : State} (h : s.memWf) (k : Nat) (r : Option EventRecord) : (s.raiseWith k r).memWf := by
  unfold State.raiseWith
  dsimp only
  split
  · exact h
  · refine deliver_memWf (edgeRaise_memWf ?_ k)
    split
    · split
      · exact putRecord_memWf (setSrc_memWf h _ _) _
      · exact h
    · exact h

theorem State.raise_memWf {s : State} (h : s.memWf) (k : Nat) : (s.raise k).memWf := raiseWith_memWf h k none

theorem State.raiseRec_memWf {s : State} (h : s.memWf) (k a b c d e : Nat) : (s.raiseRec k a b c d e).memWf := raiseWith_memWf h k _

theorem State.complete_memWf {s : State} (h : s.memWf) (t : Fin 16) (k : Nat) : (s.complete t k).memWf := by
  unfold State.complete
  extract_lets x again
  split
  · split
    · exact deliver_memWf (toPending_memWf h _)
    · exact setSrc_memWf h _ _
  · exact orReg_memWf h _ _

/-! ### Words read and written -/

theorem State.threshold_memWf {s : State} (h : s.memWf) : s.threshold.memWf := raise_memWf (orReg_memWf h _ _) _

theorem State.countSite_memWf {s : State} (h : s.memWf) (site : Nat) (vs : List Verdict) : (s.countSite site vs).memWf := by
  unfold State.countSite
  extract_lets c u t
  have ht : t.memWf := by
    unfold t
    split
    · exact h
    · exact bump_memWf h _ _
  split
  · exact ht
  · exact bump_memWf ht _ _

theorem State.siteWords_memWf {s : State} (h : s.memWf) (site : Nat) (vs : List Verdict) : (s.siteWords site vs).memWf := by
  unfold State.siteWords
  extract_lets c u s1 hr base old s2 s3
  have h1 : s1.memWf := countSite_memWf h _ _
  have h2 : s2.memWf := by
    unfold s2
    split
    · exact h1
    · exact modRas_memWf h1 _ rfl
  have h3 : s3.memWf := by
    unfold s3
    split
    · exact threshold_memWf h2
    · exact h2
  split
  · exact h3
  · exact threshold_memWf h3

theorem State.enter_memWf {s : State} (h : s.memWf) (p : Proposal) : (s.enter p).memWf := by
  unfold State.enter
  split
  · exact orReg_memWf (modRas_memWf h _ rfl) _ _
  · exact raise_memWf (modRas_memWf h _ rfl) _

/-- A proposal formed keeps the canonical form. -/
theorem State.propose_memWf {s : State} (h : s.memWf) (kind target reason info : Nat) : (s.propose kind target reason info).memWf := by
  unfold State.propose
  extract_lets p
  split
  · exact h
  · split
    · exact modRas_memWf h _ rfl
    · split
      · exact threshold_memWf h
      · exact enter_memWf h _

theorem State.dramCorrected_memWf {s : State} (h : s.memWf) (c phy : Nat) : (s.dramCorrected c phy).memWf := by
  unfold State.dramCorrected
  split
  · exact h
  · extract_lets s1
    have h1 : s1.memWf := modRas_memWf h _ rfl
    split
    · exact propose_memWf h1 _ _ _ _
    · exact h1

theorem State.countedRaise_memWf {s : State} (h : s.memWf) (a b c k : Nat) (v : DWord) (w : Word) :
    ((((s.bump a 1).setReg64 b v).orReg c w).raise k).memWf :=
  raise_memWf (orReg_memWf (setReg64_memWf (bump_memWf h _ _) _ _) _ _) _

theorem State.noteDramWord_memWf {s : State} (h : s.memWf) (a : Nat) (v : Verdict) : (s.noteDramWord a v).memWf := by
  unfold State.noteDramWord
  dsimp only
  have h1 : (if v.corrected = true then (s.bump (rMcChCorr (s.chanOf a)) 1).dramCorrected (s.chanOf a) (s.physOf a) else s).memWf := by
    split
    · exact dramCorrected_memWf (bump_memWf h _ _) _ _
    · exact h
  generalize (if v.corrected = true then (s.bump (rMcChCorr (s.chanOf a)) 1).dramCorrected (s.chanOf a) (s.physOf a) else s) = s1 at h1 ⊢
  split
  · exact propose_memWf (countedRaise_memWf h1 _ _ _ _ _ _) _ _ _ _
  · exact h1

theorem State.sramCorrected_memWf {s : State} (h : s.memWf) (site i : Nat) : (s.sramCorrected site i).memWf := by
  unfold State.sramCorrected
  extract_lets old s1 alike s2
  have h1 : s1.memWf := modRas_memWf h _ rfl
  split
  · exact h1
  · have h2 : s2.memWf := by
      unfold s2
      split
      · exact propose_memWf h1 _ _ _ _
      · exact h1
    split
    · exact propose_memWf h2 _ _ _ _
    · exact h2

theorem State.noteSramWord_memWf {s : State} (h : s.memWf) (site i : Nat) (v : Verdict) : (s.noteSramWord site i v).memWf := by
  unfold State.noteSramWord
  extract_lets s1
  have h1 : s1.memWf := by
    unfold s1
    split
    · exact sramCorrected_memWf h _ _
    · exact h
  split
  · exact propose_memWf h1 _ _ _ _
  · exact h1

/-- What a read or a partial write counts keeps the canonical form. -/
theorem State.noteWords_memWf {s : State} (h : s.memWf) (id : StoreId) (a k : Nat) : (s.noteWords id a k).memWf := by
  unfold State.noteWords
  extract_lets m
  refine foldl_keeps State.memWf _ (fun t i ht => ?_) _ _ (siteWords_memWf h _ _)
  cases id
  · exact noteDramWord_memWf ht _ _
  · exact noteSramWord_memWf ht _ _ _
  · exact noteSramWord_memWf ht _ _ _
  · exact ht

/-- A write into a store keeps the canonical form. -/
theorem State.writeStore_memWf {s : State} (h : s.memWf) (id : StoreId) (a : Nat) (b : List Byte) : (s.writeStore id a b).memWf := by
  unfold State.writeStore
  extract_lets t
  exact setStore_memWf (foldl_keeps State.memWf _ (fun _ i ht => noteWords_memWf ht id _ _) _ _ h) id (Store.write_wf (store_wf h id) a b)

theorem State.poke_memWf {s : State} (h : s.memWf) (a : Nat) (b : List Byte) : (s.poke a b).memWf := by
  unfold State.poke
  split
  · exact h
  · exact writeStore_memWf (ctlSync_memWf h _ _ _) _ _ _
  · exact h

/-! ### Reading what is sound -/

/-- Words without an error count nothing. -/
theorem State.siteWords_clean (s : State) (site : Nat) (vs : List Verdict) (h : ∀ v ∈ vs, v = .clean) : s.siteWords site vs = s := by
  have hc : vs.filter (·.corrected) = [] := List.filter_eq_nil_iff.2 (fun v hv => by rw [h v hv]; decide)
  have hu : vs.filter (· = .uncorr) = [] := List.filter_eq_nil_iff.2 (fun v hv => by rw [h v hv]; decide)
  unfold State.siteWords State.countSite
  simp only [hc, hu, List.length_nil]
  simp

theorem State.noteWords_clean (s : State) (id : StoreId) (a k : Nat) (h : ∀ i, (s.store id).syndrome i = 0) : s.noteWords id a k = s := by
  have hv : ∀ i, verdict ((s.store id).syndrome i) = .clean := fun i => by rw [h]; rfl
  unfold State.noteWords
  extract_lets m
  rw [siteWords_clean s _ _ (fun v m => by
    unfold Store.verdicts at m
    obtain ⟨i, -, rfl⟩ := List.mem_map.1 m
    exact hv i)]
  simp only [show ∀ i, verdict (m.syndrome i) = .clean from hv]
  generalize wordsOf a k = l
  induction l with
  | nil => rfl
  | cons i l ih => rw [List.foldl_cons]; cases id <;> exact ih

/-- A unit that reads sound memory of which no data cache holds a line changes nothing. -/
theorem State.readArea_clean (s : State) (a n : Nat) (hc : ∀ (j : Fin 4) (l : CacheLine), l ∈ (vget s.cores j).dcache → l.ctlWithin a n = false)
    (hd : ∀ i, s.dram.syndrome i = 0) (hs : ∀ i, s.cisSram.syndrome i = 0) (ht : ∀ i, s.ctlSram.syndrome i = 0)
    (hn : ∀ i, s.nvs.syndrome i = 0) : (s.readArea a n).1 = s := by
  have e : s.ctlSync a n false = s := by
    unfold State.ctlSync
    have : s.cores.toList.flatMap (fun x => x.dcache.filter (fun l => l.ctlWithin a n)) = [] := by
      rw [List.flatMap_eq_nil_iff]
      intro x hx
      obtain ⟨j, hj, rfl⟩ := List.mem_iff_getElem.1 hx
      refine List.filter_eq_nil_iff.2 (fun l hl => ?_)
      rw [Vector.length_toList] at hj
      have := hc ⟨j, hj⟩ l (by simpa [vget, Vector.get_eq_getElem] using hl)
      rw [this]
      decide
    rw [this]
    rfl
  have hw : ∀ id i, (s.store id).syndrome i = 0 := fun id => by cases id <;> assumption
  unfold State.readArea State.noteArea
  simp only [e]
  split
  · exact noteWords_clean s _ _ _ (hw _)
  · rfl

/-! ### Completions -/

theorem State.writeCompletion_memWf {s : State} (h : s.memWf) (c : Completion) : (s.writeCompletion c).memWf := by
  unfold State.writeCompletion
  extract_lets k n tail phase s1 s2
  have h1 : s1.memWf := poke_memWf h _ _
  have h2 : s2.memWf := ⟨h1.1, h1.2⟩
  exact raise_memWf (setReg_memWf h2 _ _) _

theorem State.postEntry_memWf {s : State} (h : s.memWf) (c : Completion) : (s.postEntry c).memWf := by
  unfold State.postEntry
  split
  · exact h
  · split
    · exact h
    · exact writeCompletion_memWf h c

/-- A posted completion keeps the canonical form. -/
theorem State.post_memWf {s : State} (h : s.memWf) (p : PendingCmd) (status : Nat) (final : Bool) (value : DWord) :
    (s.post p status final value).memWf := by
  unfold State.post
  dsimp only
  refine postEntry_memWf ?_ _
  split
  · exact bump_memWf (by split <;> first | exact bump_memWf h _ _ | exact h) _ _
  · split
    · exact bump_memWf h _ _
    · exact h

end Sys2Proof.Machine
end

