-- ==== Sys2Proof/Laws/Events.lean ====
section
/-! SUPPORT. What raising, completing and delivering events can touch, and a core's registers after each write of one. -/

namespace Sys2Proof.Machine

/-! ### Core registers -/

section CoreRegs
variable (s : State) (c : Core) (r r' : Fin 32) (v : DWord) (u : CoreRun)

@[simp] theorem State.getD_setFl : (s.setFl c v).getD c r = s.getD c r := by
  cases c <;> simp [State.getD, State.setFl]
@[simp] theorem State.getD_setPc : (s.setPc c v).getD c r = s.getD c r := by
  cases c <;> simp [State.getD, State.setPc]
@[simp] theorem State.getD_setRun : (s.setRun c u).getD c r = s.getD c r := by
  cases c <;> simp [State.getD, State.setRun]
@[simp] theorem State.getFl_setD : (s.setD c r v).getFl c = s.getFl c := by
  cases c <;> simp [State.getFl, State.setD]
@[simp] theorem State.getFl_setPc : (s.setPc c v).getFl c = s.getFl c := by
  cases c <;> simp [State.getFl, State.setPc]
@[simp] theorem State.getFl_setRun : (s.setRun c u).getFl c = s.getFl c := by
  cases c <;> simp [State.getFl, State.setRun]
@[simp] theorem State.getPc_setD : (s.setD c r v).getPc c = s.getPc c := by
  cases c <;> simp [State.getPc, State.setD]
@[simp] theorem State.getPc_setFl : (s.setFl c v).getPc c = s.getPc c := by
  cases c <;> simp [State.getPc, State.setFl]
@[simp] theorem State.getPc_setRun : (s.setRun c u).getPc c = s.getPc c := by
  cases c <;> simp [State.getPc, State.setRun]
@[simp] theorem State.getStatus_setD : (s.setD c r v).getStatus c = s.getStatus c := by
  cases c <;> simp [State.getStatus, State.setD]
@[simp] theorem State.getStatus_setFl : (s.setFl c v).getStatus c = s.getStatus c := by
  cases c <;> simp [State.getStatus, State.setFl]
@[simp] theorem State.getStatus_setPc : (s.setPc c v).getStatus c = s.getStatus c := by
  cases c <;> simp [State.getStatus, State.setPc]
@[simp] theorem State.coreRun_setD : (s.setD c r v).coreRun c = s.coreRun c := by
  cases c <;> simp [State.coreRun, State.setD]
@[simp] theorem State.coreRun_setFl : (s.setFl c v).coreRun c = s.coreRun c := by
  cases c <;> simp [State.coreRun, State.setFl]
@[simp] theorem State.coreRun_setPc : (s.setPc c v).coreRun c = s.coreRun c := by
  cases c <;> simp [State.coreRun, State.setPc]
@[simp] theorem State.coreRun_setRun : (s.setRun c u).coreRun c = u := by
  cases c <;> simp [State.coreRun, State.setRun]

/-- A register of a Tabor core reads back what was written, the others as before. -/
theorem State.getD_setD_tabor (k : Fin 4) :
    (s.setD (.tabor k) r v).getD (.tabor k) r' = if r' = r then v else s.getD (.tabor k) r' := by
  simp [State.getD, State.setD, vget_vset]

/-- A register of Bellhouse keeps the low 32 bits. -/
theorem State.getD_setD_bellhouse :
    (s.setD .bellhouse r v).getD .bellhouse r' = if r' = r then (v.setWidth 32).setWidth 64 else s.getD .bellhouse r' := by
  simp only [State.getD, State.setD, State.modBh_bh, vget_vset]
  split <;> rfl

@[simp] theorem State.getFl_setFl_tabor (k : Fin 4) : (s.setFl (.tabor k) v).getFl (.tabor k) = v := by simp [State.getFl, State.setFl]
@[simp] theorem State.getPc_setPc_tabor (k : Fin 4) : (s.setPc (.tabor k) v).getPc (.tabor k) = v := by simp [State.getPc, State.setPc]
@[simp] theorem State.getPc_nextPc_tabor (k : Fin 4) : (s.nextPc (.tabor k)).getPc (.tabor k) = s.getPc (.tabor k) + 4 := by
  simp [State.nextPc]
@[simp] theorem State.getD_nextPc : (s.nextPc c).getD c r = s.getD c r := by simp [State.nextPc]
@[simp] theorem State.getFl_nextPc : (s.nextPc c).getFl c = s.getFl c := by simp [State.nextPc]

end CoreRegs

/-! ### Events -/

/-- Everything but the sources, the order stamp, the registers, the cores and control SRAM (records) is as before; Bellhouse keeps its memory. -/
def EventFrame (s t : State) : Prop :=
  t = { s with srcs := t.srcs, evcStamp := t.evcStamp, regs := t.regs, cores := t.cores, bh := t.bh, ctlSram := t.ctlSram } ∧
    t.bh.mem = s.bh.mem

theorem EventFrame.refl (s : State) : EventFrame s s := ⟨rfl, rfl⟩

theorem EventFrame.trans {s t u : State} (h : EventFrame s t) (h' : EventFrame t u) : EventFrame s u :=
  ⟨h'.1.trans (by rw [h.1]), h'.2.trans h.2⟩

section EventFields
variable {s t : State} (h : EventFrame s t)
include h
theorem EventFrame.dram : t.dram = s.dram := by rw [h.1]
theorem EventFrame.cisSram : t.cisSram = s.cisSram := by rw [h.1]
theorem EventFrame.nvs : t.nvs = s.nvs := by rw [h.1]
theorem EventFrame.take : t.take = s.take := by rw [h.1]
theorem EventFrame.banks : t.banks = s.banks := by rw [h.1]
theorem EventFrame.engines : t.engines = s.engines := by rw [h.1]
theorem EventFrame.slots : t.slots = s.slots := by rw [h.1]
theorem EventFrame.ledgers : t.ledgers = s.ledgers := by rw [h.1]
theorem EventFrame.logs : t.logs = s.logs := by rw [h.1]
theorem EventFrame.mags : t.mags = s.mags := by rw [h.1]
theorem EventFrame.sns : t.sns = s.sns := by rw [h.1]
theorem EventFrame.ksl : t.ksl = s.ksl := by rw [h.1]
theorem EventFrame.hdg : t.hdg = s.hdg := by rw [h.1]
theorem EventFrame.ras : t.ras = s.ras := by rw [h.1]
theorem EventFrame.mc : t.mc = s.mc := by rw [h.1]
theorem EventFrame.cis : t.cis = s.cis := by rw [h.1]
theorem EventFrame.dma : t.dma = s.dma := by rw [h.1]
theorem EventFrame.cku : t.cku = s.cku := by rw [h.1]
theorem EventFrame.slu : t.slu = s.slu := by rw [h.1]
theorem EventFrame.ptp : t.ptp = s.ptp := by rw [h.1]
theorem EventFrame.sessions : t.sessions = s.sessions := by rw [h.1]
theorem EventFrame.streams : t.streams = s.streams := by rw [h.1]
theorem EventFrame.clk : t.clk = s.clk := by rw [h.1]
theorem EventFrame.supply : t.supply = s.supply := by rw [h.1]
theorem EventFrame.pending : t.pending = s.pending := by rw [h.1]
theorem EventFrame.gates : t.gates = s.gates := by rw [h.1]
end EventFields

theorem State.setReg_frame (s : State) (o : Nat) (w : Word) : EventFrame s (s.setReg o w) := ⟨rfl, rfl⟩
theorem State.orReg_frame (s : State) (o : Nat) (m : Word) : EventFrame s (s.orReg o m) := ⟨rfl, rfl⟩
theorem State.bump_frame (s : State) (o k : Nat) : EventFrame s (s.bump o k) := ⟨rfl, rfl⟩
theorem State.setReg64_frame (s : State) (o : Nat) (v : DWord) : EventFrame s (s.setReg64 o v) := ⟨rfl, rfl⟩
theorem State.setSrc_frame (s : State) (k : Nat) (x : Source) : EventFrame s (s.setSrc k x) := ⟨rfl, rfl⟩
theorem State.toPending_frame (s : State) (k : Nat) : EventFrame s (s.toPending k) := ⟨rfl, rfl⟩

theorem State.ctlSram_frame (s : State) (m : Store) : EventFrame s { s with ctlSram := m } := ⟨rfl, rfl⟩

theorem State.setD_frame (s : State) (c : Core) (r : Fin 32) (v : DWord) : EventFrame s (s.setD c r v) := by
  cases c <;> exact ⟨rfl, rfl⟩
theorem State.setFl_frame (s : State) (c : Core) (v : DWord) : EventFrame s (s.setFl c v) := by cases c <;> exact ⟨rfl, rfl⟩
theorem State.setPc_frame (s : State) (c : Core) (v : DWord) : EventFrame s (s.setPc c v) := by cases c <;> exact ⟨rfl, rfl⟩
theorem State.setRun_frame (s : State) (c : Core) (u : CoreRun) : EventFrame s (s.setRun c u) := by cases c <;> exact ⟨rfl, rfl⟩
theorem State.nextPc_frame (s : State) (c : Core) : EventFrame s (s.nextPc c) := setPc_frame s c _

theorem foldl_frame {β : Type} (f : State → β → State) (hf : ∀ s b, EventFrame s (f s b)) (l : List β) (s : State) : EventFrame s (l.foldl f s) := by
  induction l generalizing s with
  | nil => exact EventFrame.refl s
  | cons b l ih => exact (hf s b).trans (ih _)

theorem State.claimSource_frame (s : State) (t : Fin 16) (k : Nat) : EventFrame s (s.claimSource t k) :=
  (setSrc_frame s k _).trans (foldl_frame _ (fun s (p : Nat × Source) => setSrc_frame s p.1 _) _ _)

theorem State.endWait_frame (s : State) (c : Core) (rd : Fin 32) (src : Nat) (st : Byte) : EventFrame s (s.endWait c rd src st) :=
  (((setD_frame s c rd _).trans (setFl_frame _ c _)).trans (setRun_frame _ c _)).trans (nextPc_frame _ c)

theorem State.deliverTo_frame (s : State) (c : Core) : EventFrame s (s.deliverTo c) := by
  unfold State.deliverTo
  split
  · dsimp only
    split
    · exact EventFrame.refl s
    · exact (claimSource_frame s _ _).trans (endWait_frame _ _ _ _ _)
  · exact EventFrame.refl s

theorem State.deliver_frame (s : State) : EventFrame s s.deliver := foldl_frame _ (fun s c => deliverTo_frame s c) _ s

theorem State.modCore_frame (s : State) (k : Fin 4) (f : TaborCore → TaborCore) : EventFrame s (s.modCore k f) := ⟨rfl, rfl⟩

theorem State.ctlSync_frame (s : State) (a n : Nat) (drop : Bool) : EventFrame s (s.ctlSync a n drop) := by
  unfold State.ctlSync
  extract_lets lines s1 keep
  split
  · exact EventFrame.refl s
  · exact (ctlSram_frame s _).trans (foldl_frame _ (fun s k => modCore_frame s _ _) _ _)

theorem State.putRecord_frame (s : State) (r : EventRecord) : EventFrame s (s.putRecord r) := by
  unfold State.putRecord
  dsimp only
  split
  · split
    · exact (orReg_frame s _ _).trans (bump_frame _ _ _)
    · exact (ctlSync_frame s _ _ _).trans ((ctlSram_frame _ _).trans (setReg_frame _ _ _))
  · exact (orReg_frame s _ _).trans (bump_frame _ _ _)

theorem State.edgeRaise_frame (s : State) (k : Nat) : EventFrame s (s.edgeRaise k) := by
  unfold State.edgeRaise
  dsimp only
  have h := setSrc_frame s k { s.src k with raw := true }
  split
  · exact h
  · split
    · exact h.trans (toPending_frame _ _)
    · exact h.trans (bump_frame _ _ _)
    · exact h.trans (setSrc_frame _ _ _)
    · exact h.trans (bump_frame _ _ _)

/-- Raising a source touches nothing but the event controller, its records and the cores that wait. -/
theorem State.raiseWith_frame (s : State) (k : Nat) (r : Option EventRecord) : EventFrame s (s.raiseWith k r) := by
  unfold State.raiseWith
  dsimp only
  split
  · exact EventFrame.refl s
  · refine EventFrame.trans ?_ ((edgeRaise_frame _ k).trans (deliver_frame _))
    split
    · split
      · exact (setSrc_frame s _ _).trans (putRecord_frame _ _)
      · exact EventFrame.refl s
    · exact EventFrame.refl s

theorem State.raise_frame (s : State) (k : Nat) : EventFrame s (s.raise k) := raiseWith_frame s k none

theorem State.raiseRec_frame (s : State) (k a b c d e : Nat) : EventFrame s (s.raiseRec k a b c d e) := raiseWith_frame s k _

/-- A completion touches nothing else either. -/
theorem State.complete_frame (s : State) (t : Fin 16) (k : Nat) : EventFrame s (s.complete t k) := by
  unfold State.complete
  extract_lets x again
  split
  · split
    · exact (toPending_frame s _).trans (deliver_frame _)
    · exact setSrc_frame s _ _
  · exact orReg_frame s _ _

/-! ### Completions of commands -/

/-- A posted completion leaves the take, the banks and every unit as they are: it writes memory, the ring's registers and phase, the list of
waiting completions, raises the ring's source, and counts the words it finds wrong in memory. -/
def PostFrame (s t : State) : Prop :=
  t = { s with srcs := t.srcs, evcStamp := t.evcStamp, regs := t.regs, cores := t.cores, bh := t.bh, dram := t.dram, cisSram := t.cisSram,
               ctlSram := t.ctlSram, nvs := t.nvs, ras := t.ras, ringPhase := t.ringPhase, stalled := t.stalled }

theorem PostFrame.trans {s t u : State} (h : PostFrame s t) (h' : PostFrame t u) : PostFrame s u := Eq.trans h' (by rw [h])

theorem EventFrame.post {s t : State} (h : EventFrame s t) : PostFrame s t := Eq.trans h.1 (by rw [h.1])

theorem PostFrame.refl (s : State) : PostFrame s s := rfl

theorem foldl_post {β : Type} (f : State → β → State) (hf : ∀ s b, PostFrame s (f s b)) (l : List β) (s : State) : PostFrame s (l.foldl f s) := by
  induction l generalizing s with
  | nil => exact PostFrame.refl s
  | cons b l ih => exact (hf s b).trans (ih _)

theorem State.modRas_post (s : State) (f : Ras → Ras) : PostFrame s (s.modRas f) := rfl
theorem State.setStore_post (s : State) (id : StoreId) (m : Store) : PostFrame s (s.setStore id m) := by cases id <;> rfl
theorem State.threshold_post (s : State) : PostFrame s s.threshold := ((orReg_frame s _ _).trans (raise_frame _ _)).post

theorem State.countSite_post (s : State) (site : Nat) (vs : List Verdict) : PostFrame s (s.countSite site vs) := by
  unfold State.countSite
  extract_lets c u t
  have ht : PostFrame s t := by
    unfold t
    split
    · exact PostFrame.refl s
    · exact (bump_frame s _ _).post
  split
  · exact ht
  · exact ht.trans (bump_frame t _ _).post

theorem State.siteWords_post (s : State) (site : Nat) (vs : List Verdict) : PostFrame s (s.siteWords site vs) := by
  unfold State.siteWords
  extract_lets c u s1 hr base old s2 s3
  have h1 : PostFrame s s1 := countSite_post s _ _
  have h2 : PostFrame s s2 := by
    unfold s2
    split
    · exact h1
    · exact h1.trans (modRas_post s1 _)
  have h3 : PostFrame s s3 := by
    unfold s3
    split
    · exact h2.trans (threshold_post s2)
    · exact h2
  split
  · exact h3
  · exact h3.trans (threshold_post s3)

theorem State.enter_post (s : State) (p : Proposal) : PostFrame s (s.enter p) := by
  unfold State.enter
  split
  · exact (modRas_post s _).trans (orReg_frame _ _ _).post
  · exact (modRas_post s _).trans (raise_frame _ _).post

theorem State.propose_post (s : State) (kind target reason info : Nat) : PostFrame s (s.propose kind target reason info) := by
  unfold State.propose
  extract_lets p
  split
  · exact PostFrame.refl s
  · split
    · exact modRas_post s _
    · split
      · exact threshold_post s
      · exact enter_post s _

theorem State.dramCorrected_post (s : State) (c phy : Nat) : PostFrame s (s.dramCorrected c phy) := by
  unfold State.dramCorrected
  split
  · exact PostFrame.refl s
  · extract_lets s1
    have h1 : PostFrame s s1 := modRas_post s _
    split
    · exact h1.trans (propose_post s1 _ _ _ _)
    · exact h1

theorem State.noteDramWord_post (s : State) (a : Nat) (v : Verdict) : PostFrame s (s.noteDramWord a v) := by
  unfold State.noteDramWord
  extract_lets c phy s1
  have h1 : PostFrame s s1 := by
    unfold s1
    split
    · exact (bump_frame s _ _).post.trans (dramCorrected_post _ _ _)
    · exact PostFrame.refl s
  split
  · rename_i s2 _
    have h2 : PostFrame s1 s2 := ((((bump_frame s1 _ _).trans (setReg64_frame _ _ _)).trans (orReg_frame _ _ _)).trans (raise_frame _ _)).post
    exact (h1.trans h2).trans (propose_post s2 _ _ _ _)
  · exact h1

theorem State.sramCorrected_post (s : State) (site i : Nat) : PostFrame s (s.sramCorrected site i) := by
  unfold State.sramCorrected
  extract_lets old s1 alike s2
  have h1 : PostFrame s s1 := modRas_post s _
  split
  · exact h1
  · have h2 : PostFrame s s2 := by
      unfold s2
      split
      · exact h1.trans (propose_post s1 _ _ _ _)
      · exact h1
    split
    · exact h2.trans (propose_post s2 _ _ _ _)
    · exact h2

theorem State.noteSramWord_post (s : State) (site i : Nat) (v : Verdict) : PostFrame s (s.noteSramWord site i v) := by
  unfold State.noteSramWord
  extract_lets s1
  have h1 : PostFrame s s1 := by
    unfold s1
    split
    · exact sramCorrected_post s _ _
    · exact PostFrame.refl s
  split
  · exact h1.trans (propose_post s1 _ _ _ _)
  · exact h1

/-- What a read or a partial write counts touches the counts, the proposals and the events they raise alone. -/
theorem State.noteWords_post (s : State) (id : StoreId) (a k : Nat) : PostFrame s (s.noteWords id a k) := by
  unfold State.noteWords
  extract_lets m
  refine (siteWords_post s _ _).trans (foldl_post _ (fun t i => ?_) _ _)
  cases id
  · exact noteDramWord_post t _ _
  · exact noteSramWord_post t _ _ _
  · exact noteSramWord_post t _ _ _
  · exact PostFrame.refl t

theorem State.writeStore_post (s : State) (id : StoreId) (a : Nat) (b : List Byte) : PostFrame s (s.writeStore id a b) := by
  unfold State.writeStore
  extract_lets t
  exact (foldl_post _ (fun t i => noteWords_post t id _ _) _ s).trans (setStore_post t id _)

theorem State.poke_post (s : State) (a : Nat) (b : List Byte) : PostFrame s (s.poke a b) := by
  unfold State.poke
  split
  · exact PostFrame.refl s
  · exact (ctlSync_frame s _ _ _).post.trans (writeStore_post _ _ _ _)
  · exact PostFrame.refl s

theorem State.writeCompletion_post (s : State) (c : Completion) : PostFrame s (s.writeCompletion c) := by
  unfold State.writeCompletion
  extract_lets k n tail phase s1 s2
  have h1 : PostFrame s s1 := poke_post s _ _
  have h2 : PostFrame s1 s2 := rfl
  exact (h1.trans h2).trans ((setReg_frame s2 _ _).trans (raise_frame _ _)).post

theorem State.postEntry_post (s : State) (c : Completion) : PostFrame s (s.postEntry c) := by
  unfold State.postEntry
  split
  · rfl
  · split
    · rfl
    · exact writeCompletion_post s c

theorem State.post_post (s : State) (p : PendingCmd) (status : Nat) (final : Bool) (value : DWord) : PostFrame s (s.post p status final value) := by
  unfold State.post
  extract_lets s1 s2
  have h1 : EventFrame s s1 := by
    show EventFrame s (if _ then _ else _)
    split
    · exact bump_frame s _ _
    · exact EventFrame.refl s
  have h2 : EventFrame s1 s2 := by
    show EventFrame s1 (if _ then _ else _)
    split
    · exact bump_frame s1 _ _
    · exact EventFrame.refl s1
  exact (h1.trans h2).post.trans (postEntry_post s2 _)

end Sys2Proof.Machine
end

