-- ==== Sys2Proof/WellFormed.lean ====
section
/-! DEFINITION. Which commands can arrive at all: the bounds that a command's operands have by the form of the interface that carries it.
Values that the spec judges (a field out of range, a reserved bit) are no business of this check: the meanings judge them. -/

namespace Sys2Proof

/-- A ring entry carries this command: its opcode, or one that is no command's, which every command's judging refuses (R278). -/
def headOf (h : CmdHead) (op : Nat) : Bool := decide (h.opcode.toNat = op) || decide (h.opcode.toNat = 0) || decide (12 < h.opcode.toNat)

/-- A unit acts for the owners of its link (R21); a physical Tabor core without a logical number has none. -/
def Initiator.wellFormed : Initiator → Bool
  | .unit l o => decide (l.1 < 5) || (linkOwners l.1).contains o.1
  | _ => true

/-- The operands are inside the bounds of their interface: the selector or operation of a ring command that has several rows (R279, R300),
level sources (R406), feed sizes (R315), a beat of four words (R317), whole lines (R320), one training result a channel (R331), wire flits
(R438), functions (R428), 5 mV set points (R532) and the boundary-scan cells (R545). -/
def Instr.wellFormed : Instr → Bool
  | .loadProgram h _ _ => headOf h 1
  | .armCommand h _ => headOf h 2
  | .roll h => headOf h 3
  | .cut h => headOf h 4
  | .close h => headOf h 5
  | .abort h => headOf h 6
  | .queryTakeState h => headOf h 7
  | .querySlot h _ => headOf h 7
  | .queryLedger h selector _ _ => headOf h 7 && decide (2 ≤ selector.toNat)
  | .play h _ => headOf h 8
  | .stopPlay h _ => headOf h 9
  | .enumerate h _ _ => headOf h 10
  | .setTag h _ _ _ => headOf h 11
  | .maintPatchLoad h _ _ => headOf h 12
  | .maintApprove h _ => headOf h 12
  | .maintReject h _ => headOf h 12
  | .maintSpareStatus h op => headOf h 12 && decide (3 ≤ op.toNat)
  | .commandTailWrite ini _ _ => ini.wellFormed
  | .ringEnable ini _ _ => ini.wellFormed
  | .ringDisable ini _ => ini.wellFormed
  | .heartbeat ini _ _ => ini.wellFormed
  | .heartbeatLoss => true
  | .setupTimeout => true
  | .add _ _ => true
  | .sub _ _ => true
  | .and _ _ => true
  | .or _ _ => true
  | .xor _ _ => true
  | .andn _ _ => true
  | .sll _ _ => true
  | .srl _ _ => true
  | .sra _ _ => true
  | .ror _ _ => true
  | .min _ _ => true
  | .max _ _ => true
  | .minu _ _ => true
  | .maxu _ _ => true
  | .slt _ _ => true
  | .sltu _ _ => true
  | .addsat _ _ => true
  | .subsat _ _ => true
  | .clz _ _ => true
  | .popc _ _ => true
  | .cmp _ _ => true
  | .mul _ _ => true
  | .mulh _ _ => true
  | .mulhu _ _ => true
  | .divs _ _ => true
  | .divu _ _ => true
  | .rems _ _ => true
  | .remu _ _ => true
  | .fxmul _ _ _ => true
  | .addi _ _ => true
  | .andi _ _ => true
  | .ori _ _ => true
  | .xori _ _ => true
  | .shi _ _ => true
  | .cmpi _ _ => true
  | .callr _ _ => true
  | .liz _ _ => true
  | .lii _ _ => true
  | .lin _ _ => true
  | .ldb _ _ => true
  | .ldbs _ _ => true
  | .ldh _ _ => true
  | .ldhs _ _ => true
  | .ldw _ _ => true
  | .ldws _ _ => true
  | .ldd _ _ => true
  | .stb _ _ => true
  | .sth _ _ => true
  | .stw _ _ => true
  | .std _ _ => true
  | .bcc _ _ => true
  | .calli _ _ => true
  | .fence _ _ => true
  | .ifence _ _ => true
  | .cacheWriteBack _ _ => true
  | .cacheInvalidate _ _ => true
  | .cacheWriteBackInvalidate _ _ => true
  | .cacheInstructionInvalidate _ _ => true
  | .mfsr _ _ => true
  | .mtsr _ _ => true
  | .rfx _ _ => true
  | .strec _ _ => true
  | .commit _ _ => true
  | .arm _ _ _ => true
  | .mark _ _ => true
  | .markQuery _ _ => true
  | .ledg _ _ => true
  | .ledgSnapshot _ _ => true
  | .waite _ _ => true
  | .waiteTimeout _ => true
  | .dbell _ _ => true
  | .evdone _ _ => true
  | .lcadd _ _ => true
  | .lcswp _ _ => true
  | .lccas _ _ => true
  | .registerWrite ini _ _ => ini.wellFormed
  | .readClear ini _ => ini.wellFormed
  | .pairLoRead ini _ => ini.wellFormed
  | .pairHiWrite ini _ _ => ini.wellFormed
  | .keyGate ini _ => ini.wellFormed
  | .keyLock ini _ => ini.wellFormed
  | .topDebugWrite ini _ => ini.wellFormed
  | .debugHalt ini _ => ini.wellFormed
  | .debugRelease ini _ => ini.wellFormed
  | .topTagGo ini _ => ini.wellFormed
  | .topTagDone ini _ => ini.wellFormed
  | .nvsWrite _ _ _ _ => true
  | .evcClaim ini _ => ini.wellFormed
  | .evcDone ini _ _ => ini.wellFormed
  | .evcSrcCfgWrite ini _ _ => ini.wellFormed
  | .evcDisable ini _ => ini.wellFormed
  | .levelLineChange n _ => (decide (1 ≤ n.1) && decide (n.1 ≤ 4)) || decide (n.1 = 12)
  | .kalsalClaim _ => true
  | .ckuStart ini _ => ini.wellFormed
  | .ckuSeed ini _ _ => ini.wellFormed
  | .ckuFeed ini _ bytes => ini.wellFormed && (decide (bytes.length = 1) || decide (bytes.length = 2) || decide (bytes.length = 4))
  | .ckuSnoopReq ini _ _ => ini.wellFormed
  | .ckuSnoopBeat _ _ _ beat => decide (beat.words.length = 4)
  | .alloc reqs => !reqs.isEmpty && reqs.all (·.ini.wellFormed)
  | .free ini _ _ => ini.wellFormed
  | .give ini _ _ _ => ini.wellFormed
  | .dmaChainStart _ => true
  | .dmaDescriptorFetch _ => true
  | .dmaBurst => true
  | .dmaResponse _ _ _ => true
  | .dmaTimeout _ _ => true
  | .flumeRequest ini _ addr write data => ini.wellFormed && decide (0 < data.len) &&
      decide (data.words.length = if write then (addr.toNat % 16 + data.len + 15) / 16 else 0)
  | .dramRequest ini _ _ _ _ bytes _ => ini.wellFormed && decide (bytes.length = 64)
  | .dramCommand _ => true
  | .agePromotion _ _ => true
  | .refreshOwed _ _ => true
  | .forcedRefresh _ _ => true
  | .mr4Read _ _ => true
  | .wckOscillatorRead _ => true
  | .zqLatch _ => true
  | .pageIdleClose _ _ => true
  | .trainingCommit _ results => decide (results.length = 16) || decide (results.length = 32)
  | .fspChange _ => true
  | .scrubStep => true
  | .pictureStart _ => true
  | .line _ => true
  | .pictureEnd _ => true
  | .picTimeout => true
  | .bankRetire _ => true
  | .sensorDownWait _ => true
  | .sensorEqualizeDone _ _ _ => true
  | .sensorAlignDone _ _ => true
  | .sensorTrainTimeout _ => true
  | .sensorLinkLoss _ => true
  | .openPicture => true
  | .dispatchBand => true
  | .chargeBand _ => true
  | .closePicture => true
  | .spillDrain _ => true
  | .writeSubmit _ => true
  | .flush _ => true
  | .datasetManagement _ => true
  | .nvmeCompletion _ _ _ _ => true
  | .nvmeTimeout _ _ => true
  | .magPresenceLost _ => true
  | .magPresenceStable _ => true
  | .magPowerGood _ => true
  | .magPowerTimeout _ => true
  | .magOvercurrent _ => true
  | .magPerstRelease _ => true
  | .magLinkUp _ _ _ _ _ _ => true
  | .magLinkTimeout _ => true
  | .magLinkLost _ => true
  | .magEject _ => true
  | .magShutdownTimeout _ => true
  | .tileDispatch => true
  | .safePointRequest _ _ => true
  | .statisticsSnapshot _ => true
  | .tileCommit _ _ _ => true
  | .teFault _ _ => true
  | .patchLoadCommit _ => true
  | .spareSwapIn _ => true
  | .controlStoreScrub _ _ => true
  | .referenceSlotMove _ _ => true
  | .slotRelease => true
  | .shortEviction => true
  | .viewSlotExpiry _ => true
  | .proxyRow _ _ _ _ _ => true
  | .rtcpSenderReport _ => true
  | .playbackTileDecode _ => true
  | .pictureOutput _ => true
  | .playProgress _ => true
  | .accessUnitDecode _ _ => true
  | .jitterExpiry _ => true
  | .ethFrameReceive _ _ => true
  | .ethLinkChange _ _ => true
  | .ptpSync _ => true
  | .ptpFollowUp _ => true
  | .ptpDelayResp _ => true
  | .ptpAnnounce _ => true
  | .ptpDelayReq => true
  | .announceReceiptTimeout => true
  | .sluicePick _ => true
  | .tokenAccrual => true
  | .kslFlitReceive _ flit => decide (flit.hdr.length = 32) && decide (flit.words.length ≤ 16)
  | .kslFlitTransmit _ => true
  | .nakRepeat _ => true
  | .kslTrainingStep _ _ _ _ => true
  | .kslTrainingTimeout _ _ => true
  | .kslTrainingRetry _ => true
  | .kslLinkLoss _ => true
  | .memRd _ => true
  | .memWr _ => true
  | .msg _ => true
  | .evt _ => true
  | .refTile _ => true
  | .kslResponse _ => true
  | .remoteRequestTimeout _ => true
  | .sync _ => true
  | .delayReq _ => true
  | .delayResp _ => true
  | .timeSyncSend _ => true
  | .assign _ => true
  | .report _ => true
  | .refuse _ => true
  | .enumerateTimeout => true
  | .slotBoundary => true
  | .pllLocked _ => true
  | .pllLockTimeout _ => true
  | .pllRestart _ => true
  | .functionReady f => decide (f.1 < 39)
  | .domainRequestWrite ini _ _ => ini.wellFormed
  | .inrushWrite ini _ _ => ini.wellFormed
  | .coreRunWrite ini _ => ini.wellFormed
  | .sleepStandby ini => ini.wellFormed
  | .sleepOffWake ini => ini.wellFormed
  | .wake => true
  | .dramPwrOk => true
  | .watchdogKick ini _ => ini.wellFormed
  | .watchdogExpiry => true
  | .powerOnReset _ _ => true
  | .deviceReset _ _ => true
  | .softReset ini _ _ => ini.wellFormed
  | .referenceLost => true
  | .thermalTrip => true
  | .thermalLimit _ => true
  | .avsCommand setPoint acks => decide (setPoint % 5 = 0) && decide (acks.length ≤ 4)
  | .taborSwapIn => true
  | .sensorLaneRetire => true
  | .kslLaneRemap => true
  | .sramRepair => true
  | .postPackageRepair _ => true
  | .tapReset => true
  | .extest => true
  | .samplePreload => true
  | .idcode => true
  | .clamp => true
  | .highz => true
  | .bypass => true
  | .referenceReturn => true
  | .powerNotGood _ => true
  | .controllerReady _ => true
  | .controllerReadyTimeout _ => true
  | .shutdownComplete _ => true
  | .inboundRequest _ _ _ => true
  | .sensorPacketDiscarded _ => true
  | .agingMonitor _ _ => true
  | .maintenanceRoutineStart _ => true
  | .tapClock _ _ pins => decide (pins.length = 827)

end Sys2Proof
end

