-- ==== Sys2Proof/Tests/Slice0.lean ====
section
/-! SUPPORT. Tests of the model: well-formedness, effects by the spec's own examples, and for each statement states and operands that
meet its hypotheses, clause by clause. -/

namespace Sys2Proof.Tests

open Sys2Proof Sys2Proof.Machine Sys2Proof.Claims

set_option Elab.async false

/-! ### Small states -/

def r : State := State.reset
/-- Core 0 runs at P1 from the start of control SRAM; no function is READY. -/
def cold : State := r.modCore 0 (fun c => { c with run := .running })
/-- The same with every function READY. -/
def up (s : State) : State := s.modHdg (fun h => { h with ready := 0x7FFFFFFFFF })
def live : State := up cold
/-- The same at P0. -/
def user : State := live.modCore 0 (fun c => { c with status := 0 })
/-- Core 0 with d2 and d3 set. -/
def liveD (a b : DWord) : State := (live.setD (.tabor 0) 2 a).setD (.tabor 0) 3 b
def fa : FmtA := { rd := 1, ra := 2, rb := 3, fw := true, rsv := 0 }
def fa0 : FmtA := { rd := 0, ra := 2, rb := 0, fw := true, rsv := 0 }
def fx : FmtX := { rd := 0, ra := 0, rb := 0, sub := 0 }
def fm : FmtM := { rt := 1, ra := 2, off := 0 }
def headAt (op : Byte) : CmdHead := { ring := 0, opcode := op, reservedZero := true, tag := 7 }
/-- The 64-byte entry of a command with tag 7 and these fields (R275). -/
def entry (op : Nat) (fields : List (Nat × List Byte)) : List Byte :=
  fields.foldl (fun b f => b.take f.1 ++ f.2 ++ b.drop (f.1 + f.2.length)) ([BitVec.ofNat 8 op, 0, 7, 0] ++ List.replicate 60 0)
/-- Ring 0 is enabled with 16 entries at DRAM address 0; its first entry is this command, and visible. -/
def asks (s : State) (op : Nat) (fields : List (Nat × List Byte)) : State :=
  { s with
    visible := [0]
    dram := { s.dram with bytes := ((upFrom 0 64).zip (entry op fields)).filter (fun e : Nat × Byte => decide (e.2 ≠ 0)) ++ s.dram.bytes } }.setReg (rTabCmdSize 0) 4
def ringed : State := asks live 6 []

/-- What Fronts says, where reading the entry changes nothing. -/
theorem fronts {s : State} {h : CmdHead} {op : Nat} {fields : List (Nat × List Byte)} (q : (s.readArea (s.headEntry h.ring) 64).1 = s)
    (d : s.visible.head? = some h.ring ∧ s.ringOn h.ring = true ∧ s.firmwareFree = true ∧ h.reservedZero = true ∧ h.opcode.toNat = op ∧
      entrySpells h fields (s.readArea (s.headEntry h.ring) 64).2.1 = true) : Fronts s h op fields :=
  ⟨d.1, d.2.1, d.2.2.1, d.2.2.2.1, d.2.2.2.2.1, (s.readArea (s.headEntry h.ring) 64).2.1, (s.readArea (s.headEntry h.ring) 64).2.2,
    by rw [← Prod.mk.eta (p := (s.readArea (s.headEntry h.ring) 64).2), ← Prod.mk.eta (p := s.readArea (s.headEntry h.ring) 64), q], d.2.2.2.2.2⟩

/-- A completion. -/
def cpl0 : Completion := { ring := 0, gen := 0, tag := 7, opcode := 6, status := 0, state := 0, final := true, value := 0 }

/-- The state that a command gives, and that several give in turn. -/
def after (s : State) (c : Instr) : State := match exec c s with
  | .next t => t
  | _ => s
def afterAll (s : State) (cs : List Instr) : State := cs.foldl after s

theorem noExt (s : State) (h : s.cis = Cistern.atReset) (i : Nat) : s.extBuf i = none := by
  have e : ∀ p : Nat, ¬ (vgetN 0 Cistern.atReset.extBase p ≤ i ∧
      i < vgetN 0 Cistern.atReset.extBase p + vgetN 0 Cistern.atReset.extCount p * poolSize p) := by
    intro p
    have hb : vgetN 0 Cistern.atReset.extBase p = 0 := by
      unfold vgetN; split <;> simp [Cistern.atReset, vget, Vector.get]
    have hc : vgetN 0 Cistern.atReset.extCount p = 0 := by
      unfold vgetN; split <;> simp [Cistern.atReset, vget, Vector.get]
    rw [hb, hc]; omega
  unfold State.extBuf
  rw [h]
  simp only [e, decide_false, List.find?_eq_none, Option.map_eq_none_iff]
  simp

/-! ### Witnesses: the block and the Densiten instructions -/

theorem wit_StepRunsFront : State.reset.pending = [] := by decide +kernel

theorem wit_OpaOperations : Runs live (.tabor 0) ∧ fa.rsv = 0 ∧ fa0.rb = 0 ∧ fa0.rd = 0 ∧ fa.rb ≠ 0 ∧ fa.rd ≠ 0 := by decide +kernel

theorem wit_OpmResults : Runs live (.tabor 0) ∧ live.getD (.tabor 0) fa.rb = 0 ∧ Runs (liveD (-(2 ^ 63)) (-1)) (.tabor 0) ∧
    ((liveD (-(2 ^ 63)) (-1)).getD (.tabor 0) fa.ra).toInt = -(2 ^ 63) ∧ ((liveD (-(2 ^ 63)) (-1)).getD (.tabor 0) fa.rb).toInt = -1 ∧
    Runs (liveD (-(2 ^ 63)) 1) (.tabor 0) ∧ (liveD (-(2 ^ 63)) 1).getD (.tabor 0) fa.rb ≠ 0 ∧
    ((liveD (-(2 ^ 63)) 1).getD (.tabor 0) fa.rb).toInt ≠ -1 := by decide +kernel

theorem wit_Immediates : Runs live (.tabor 0) ∧ (⟨0, 2, 255⟩ : FmtI).imm.toNat < 256 ∧ (⟨0, 2, 255⟩ : FmtI).rd = 0 ∧
    256 ≤ (⟨1, 2, 256⟩ : FmtI).imm.toNat ∧ (⟨1, 2, 256⟩ : FmtI).rd ≠ 0 ∧
    (⟨1, 3, 0xFFFF, 0⟩ : FmtU).rsv = 0 := by decide +kernel

theorem wit_BellhouseOperations : Runs r .bellhouse ∧ fa.rsv = 0 ∧ fa0.rb = 0 ∧ vget (r.setD .bellhouse 3 1).bh.d fa.rb ≠ 0 ∧
    Runs (r.setD .bellhouse 3 1) .bellhouse := by decide +kernel

theorem wit_Branches : Runs live (.tabor 0) ∧ Runs r .bellhouse := by decide +kernel

def env0 : ArmEnv := ⟨⟨true, 4096, false, false, 100000⟩, ⟨true, 4096, false, false, 100000⟩, true, true⟩

theorem wit_IllegalRaised : Runs live (.tabor 0) ∧ ({ fa with rsv := 1 } : FmtA).rsv ≠ 0 ∧ Runs r .bellhouse ∧
    decodeDsn .bellhouse env0 0xFFFFFFFF = none ∧ (decodeDsn .bellhouse env0 0).isSome = true := by decide +kernel

theorem wit_ExceptionsAndReturn : (live.getStatus (.tabor 0)).getLsbD 1 = false ∧ (live.getStatus (.tabor 0)).getLsbD 0 = true ∧
    Runs live (.tabor 0) ∧ live.atP1 (.tabor 0) = true ∧ Runs user (.tabor 0) ∧ user.atP1 (.tabor 0) = false ∧
    fx.rd = 0 ∧ fx.ra = 0 ∧ fx.rb = 0 ∧ fx.sub = 0 := by decide +kernel

theorem wit_SystemRegisters : Runs live (.tabor 0) ∧ live.atP1 (.tabor 0) = true ∧ fx.ra = 0 ∧ fx.rd = 0 ∧ fx.rb = 0 := by decide +kernel

/-- A sound line of 64 bytes 5. -/
def lineMem : Store := { bytes := (upFrom 0 64).map (fun i => (i, 5)), syn := [] }
/-- A dirty line at address 64 of the data cache; d2 names it. -/
def lined : State := (liveD 64 0).modCore 0 (fun c => { c with dcache := [{ line := 1, mem := lineMem, dirty := true }] })

theorem wit_FencesAndCache : Runs live (.tabor 0) ∧ live.cacheLine 0 ((live.getD (.tabor 0) 0).toNat / 64) = none ∧ Runs lined (.tabor 0) ∧
    ((lined.getD (.tabor 0) 2).toNat / 64 = 1) ∧ lined.cacheLine 0 1 = some ⟨1, lineMem, true⟩ ∧ 64 * 1 + 64 ≤ lined.window ∧
    (lined.pathNeeds (.core 0) (64 * 1)).all lined.fnReady = true ∧ Sound lineMem ∧ (∀ i : Nat, lined.extBuf i = none) :=
  ⟨by decide +kernel, by decide +kernel, by decide +kernel, by decide +kernel, by decide +kernel, by decide +kernel, by decide +kernel, fun _ => rfl,
    noExt _ rfl⟩

/-- No channel has a request queued at reset. -/
theorem chn_reset (n : Nat) : (r.chn n).queue = [] := by
  unfold State.chn vgetN
  split
  · rename_i h; exact (by decide +kernel : ∀ i : Fin 32, (vget r.mc.chans i).queue = []) ⟨n, h⟩
  · rfl

theorem wit_FencesAndCache_queue : ∀ (n : Nat) (q : DramReq), q ∈ (lined.chn n).queue → q.ini ≠ .core 0 := by
  intro n q h
  have e : (lined.chn n).queue = [] := chn_reset n
  rw [e] at h; cases h

/-- d2 names the last double word of control SRAM; `hit` has its line in the data cache. -/
def edge : State := liveD (BitVec.ofNat 64 (ctlBase + 0x3FFFF8)) 0
def hit : State := edge.modCore 0 (fun c => { c with dcache := [{ line := (ctlBase + 0x3FFFF8) / 64, mem := lineMem, dirty := false }] })

theorem wit_ControlSramAccess : Runs hit (.tabor 0) ∧ hit.atP1 (.tabor 0) = true ∧ (hit.region (hit.addrM (.tabor 0) fm).toNat).cached = true ∧
    hit.cacheLine 0 ((hit.addrM (.tabor 0) fm).toNat / 64) = some ⟨(ctlBase + 0x3FFFF8) / 64, lineMem, false⟩ ∧ Sound lineMem ∧
    (hit.addrM (.tabor 0) fm).toNat % 8 = 0 :=
  ⟨by decide +kernel, by decide +kernel, by decide +kernel, by decide +kernel, fun _ => rfl, by decide +kernel⟩

/-- A cache without lines gives none up. -/
theorem victim_none (s : State) (k : Fin 4) (h : (vget s.cores k).dcache = []) (v : CacheLine) : s.victim k ≠ some v := by
  unfold State.victim
  rw [h]
  simp

theorem wit_ControlSramAccess_miss : (Runs edge (.tabor 0) ∧ edge.atP1 (.tabor 0) = true ∧ edge.fnReady 8 = true ∧ edge.fnReady 3 = true ∧
    (∀ v, edge.victim 0 = some v → v.dirty = false) ∧
    (let a := (edge.addrM (.tabor 0) fm).toNat
     a % 8 = 0 ∧ ctlBase ≤ a ∧ a < ctlBase + 0x400000 ∧ Uncached edge (a / 64 * 64) 64)) ∧ Sound edge.ctlSram :=
  ⟨⟨by decide +kernel, by decide +kernel, by decide +kernel, by decide +kernel, fun v h => (victim_none edge 0 (by decide +kernel) v h).elim,
    by decide +kernel⟩, fun _ => rfl⟩

theorem wit_ControlSramAccess_faults : Runs (liveD 2 0) (.tabor 0) ∧ ((liveD 2 0).addrM (.tabor 0) fm).toNat % 4 ≠ 0 ∧
    Runs (liveD (2 ^ 48) 0) (.tabor 0) ∧ 2 ^ 48 ≤ ((liveD (2 ^ 48) 0).addrM (.tabor 0) fm).toNat ∧
    ((liveD (2 ^ 48) 0).addrM (.tabor 0) fm).toNat % 8 = 0 ∧ (liveD 2 0).atP1 (.tabor 0) = true ∧
    (liveD (2 ^ 48) 0).atP1 (.tabor 0) = true := by decide +kernel

theorem wit_LockOperations : (let x : FmtX := ⟨1, 2, 3, 0⟩
    let a := (edge.getD (.tabor 0) x.ra).toNat
    Runs edge (.tabor 0) ∧ edge.atP1 (.tabor 0) = true ∧ edge.ctlSram.wf ∧ x.sub = 0 ∧ edge.mayEnter (.core 0) [8, 3] (some 33) = true ∧
    a % 8 = 0 ∧ ctlBase ≤ a ∧ a + 8 ≤ ctlBase + 0x400000 ∧ edge.ctlSram.syndrome ((a - ctlBase) / 16) = 0 ∧ Uncached edge a 8) := by decide +kernel

/-- Source 528 is pending for target 0. -/
def rung : State := live.setSrc 528 { srcReset 528 with target := 0, en := true, st := .pending }
def asleep : State := r.setRun (.tabor 0) (.waiting 4 true)

theorem wit_EventInstructions : Runs rung (.tabor 0) ∧ (liveD 528 0).mayEnter (.core 0) [8, 9] (some 67) = true ∧ Runs cold (.tabor 0) ∧
    ¬ cold.mayEnter (.core 0) [8, 9] (some 67) = true ∧ rung.claimable (coreTarget (.tabor 0)) ≠ 0 ∧ Runs live (.tabor 0) ∧
    live.claimable (coreTarget (.tabor 0)) = 0 ∧ (live.getD (.tabor 0) 0).toNat % 2 ^ 32 = 0 ∧
    Runs (liveD 1 0) (.tabor 0) ∧ (liveD 1 0).claimable (coreTarget (.tabor 0)) = 0 ∧ ((liveD 1 0).getD (.tabor 0) 2).toNat % 2 ^ 32 ≠ 0 ∧
    asleep.coreRun (.tabor 0) = .waiting 4 true ∧ asleep.claimable (coreTarget (.tabor 0)) = 0 ∧
    ((liveD 1024 0).getD (.tabor 0) 2).toNat = 1024 ∧ Runs (liveD 528 0) (.tabor 0) ∧ ((liveD 528 0).getD (.tabor 0) 2).toNat = 528 ∧
    Runs (liveD 1023 0) (.tabor 0) ∧ ((liveD 1023 0).getD (.tabor 0) 2).toNat = 1023 ∧ (liveD 528 0).take.setup = none := by decide +kernel

/-! ### A small setup: one tile of 256 x 64 photosites, 24 pictures/s, magazine 0 alone -/

/-- Bytes with a little-endian field written at `o`. -/
def put (b : List Byte) (f : Nat × Nat × Nat) : List Byte := b.take f.1 ++ leBytes f.2.1 f.2.2 ++ b.drop (f.1 + f.2.1)
/-- A record of unit `u`, `n` bytes, with fields (offset, bytes, value) and its crc. -/
def rec (u n : Nat) (fs : List (Nat × Nat × Nat)) : List Byte :=
  let b := fs.foldl put (List.replicate n 0 |> fun z => [(0, 1, u), (1, 1, 1), (4, 4, n)].foldl put z)
  put b (12, 4, (checkValue 0 0xFFFD u (b.take 12 ++ b.drop 16)).toNat)

def recCode : List Byte := rec 1 128 [(16, 2, 256), (18, 2, 64), (20, 1, 12), (21, 1, 2), (22, 1, 1), (28, 4, 24), (32, 4, 1)]
def recLog : List Byte := rec 2 128 [(26, 2, 1), (28, 2, 4096), (30, 2, 4096), (32, 2, 1), (36, 4, 1), (72, 4, 4096)]
def recLedger : List Byte :=
  rec 3 192 [(16, 8, 100000000), (24, 8, 16777216), (32, 8, 114688), (40, 8, 0x800000), (48, 8, 0x20000), (64, 8, 10000000), (72, 8, 16777216)]
def recRef : List Byte := rec 4 128 [(112, 8, 0x100000), (120, 8, 32768)]
def recSns : List Byte := rec 0 64 [(16, 1, 1), (17, 1, 1), (24, 8, 0x400000), (32, 1, 2), (36, 4, 100)]
def recMc : List Byte := rec 13 64 [(16, 1, 12), (22, 2, 10), (24, 2, 50), (26, 2, 50), (28, 2, 50), (30, 2, 50)]
def recCis : List Byte := rec 12 1024 []
def h12 : List Byte := [5, 1, 0, 0, 0, 1, 0, 0, 0, 0, 0, 0]
def z60 : List Byte := List.replicate 60 0
def recPxy : List Byte := h12 ++ leBytes 4 323353050 ++ z60 ++ z60 ++ z60 ++ z60

theorem crc_append (c : Word) (a b : List Byte) : crcBytes c (a ++ b) = crcBytes (crcBytes c a) b := List.foldl_append

theorem pxy_crc : checkValue 0 0xFFFD 5 (h12 ++ z60 ++ z60 ++ z60 ++ z60) = 323353050 := by
  have h1 : crcBytes (crcSeed 0 0xFFFD 5) h12 = 3395060839 := by decide +kernel
  have h2 : crcBytes 3395060839 z60 = 3736575743 := by decide +kernel
  have h3 : crcBytes 3736575743 z60 = 644122033 := by decide +kernel
  have h4 : crcBytes 644122033 z60 = 4180177715 := by decide +kernel
  have h5 : crcBytes 4180177715 z60 = 3971614245 := by decide +kernel
  unfold checkValue
  rw [crc_append, crc_append, crc_append, crc_append, h1, h2, h3, h4, h5]
  decide

def ready (b : List Byte) : Bank := { Bank.empty with shadow := some { bytes := b, coef := [], lut := [] }, ready := true }
def banked (b : List Byte) : Bank := { Bank.empty with active := some { bytes := b, coef := [], lut := [] } }
def setupBanks (f : List Byte → Bank) : Vector Bank 14 :=
  [(0, recSns), (1, recCode), (2, recLog), (3, recLedger), (4, recRef), (12, recCis), (13, recMc)].foldl (fun v e => vsetN v e.1 (f e.2)) r.banks

/-- LOADED with every required bank ready and magazine 0 READY. -/
def loaded0 : State := ({ live with banks := setupBanks ready }.modTake (fun t => { t with st := .loaded })).modMag 0 (fun p => { p with st := .ready })

/-- A record of unit 13 in control SRAM, in LOADED; d2 names it. -/
def withRecord (b : List Byte) : State :=
  { (liveD (BitVec.ofNat 64 (ctlBase + 64)) 0).modTake (fun t => { t with st := .loaded }) with
    ctlSram := { bytes := ((upFrom 0 256).zip b).filterMap (fun e => if e.2 = 0 then none else some (e.1 + 64, e.2)), syn := [] } }
def pxyRead : List Byte := (withRecord recPxy).ctlSram.read 64 256

theorem pxy_recordCrc : recordCrc pxyRead = true := by
  have h : pxyRead.take 12 ++ pxyRead.drop 16 = h12 ++ z60 ++ z60 ++ z60 ++ z60 := by decide +kernel
  have n : leAt pxyRead 0 1 = 5 ∧ leAt pxyRead 12 4 = 323353050 := by decide +kernel
  unfold recordCrc
  rw [h, n.1, n.2, pxy_crc]
  decide

def fx2 : FmtX := { rd := 1, ra := 2, rb := 0, sub := 0 }

theorem wit_SetupRecords : Runs live (.tabor 0) ∧ live.setupLegal = false ∧ fx2.rb = 0 ∧ fx2.sub = 0 ∧
    (let s := withRecord recMc
     let h := s.ctlSram.read 64 64
     Runs s (.tabor 0) ∧ Uncached s (ctlBase + 64) 0x400000 ∧ s.setupLegal = true ∧ (s.getD (.tabor 0) 2).toNat = ctlBase + 64 ∧ recordFormed h 64 = true ∧ s.locked 4 = false ∧
     leAt h 0 1 = 13 ∧ (bankOf s 13).ready = false ∧ (bankOf s 13).retiring = none ∧ recordCrc (s.ctlSram.read 64 (leAt h 4 4)) = true) ∧
    (∀ i, (withRecord recMc).ctlSram.syndrome i = 0) ∧
    (let s := withRecord recPxy
     let h := s.ctlSram.read 64 64
     Runs s (.tabor 0) ∧ Uncached s (ctlBase + 64) 0x400000 ∧ s.setupLegal = true ∧ recordFormed h 64 = true ∧ leAt h 0 1 = 5 ∧ leAt h 4 4 = 256 ∧
     leAt pxyRead 120 8 + 2048 ≤ s.window ∧ leAt pxyRead 128 8 + 215622 ≤ s.window) ∧ recordCrc pxyRead = true ∧
    (∀ i, (withRecord recPxy).ctlSram.syndrome i = 0) ∧ (∀ i, (withRecord recPxy).dram.syndrome i = 0) ∧
    (let s := loaded0.setD (.tabor 0) 2 2
     Runs s (.tabor 0) ∧ s.take.st = .loaded ∧ ∀ u < 14, natBit 2 u = true → (bankOf s u).shadow.isSome = true) :=
  ⟨by decide +kernel, by decide +kernel, by decide +kernel, by decide +kernel, by decide +kernel, fun _ => rfl, by decide +kernel,
    pxy_recordCrc, fun _ => rfl, fun _ => rfl, by decide +kernel⟩

/-- The same with the command ring enabled and one command visible. -/
def loadedRing : State := asks loaded0 2 []
abbrev Passes (s : State) : Prop := s.take.st = .loaded ∧ s.swapping = false ∧
  s.admission s.armSetup (fun u => (bankOf s u).ready) env0 = 0 ∧ leAt (s.armSetup.bytes unitMc) 17 1 = s.mc.fsp.1 ∧
  s.hdg.teEcon = decide (codeProfile (s.armSetup.bytes unitCode) = 1)

theorem wit_ArmTakesOver : Runs live (.tabor 0) ∧ live.take.st ≠ .loaded ∧ fx.ra = 0 ∧ fx.rb = 0 ∧ fx.sub = 0 ∧
    Runs (took loadedRing (headAt 2)) (.tabor 0) ∧ (asks live 2 []).take.st ≠ .loaded ∧ Passes (took loadedRing (headAt 2)) := by decide +kernel

theorem wit_ArmTakesOver_command : Fronts (asks live 2 []) (headAt 2) 2 [] ∧ Fronts loadedRing (headAt 2) 2 [] :=
  ⟨fronts rfl (by decide +kernel), fronts rfl (by decide +kernel)⟩

/-- Slot 3 as given, picture 7; d2 names it. -/
def slotted (m : Mark) : State := ((liveD 3 0).modSlot 3 (fun x => { x with mark := m, picture := 7, base := some 4096, size := 64 })) |>.modSlot 3 (fun x => { x with current := false })
def fxs (n : Byte) : FmtX := { rd := 1, ra := 2, rb := 0, sub := n }
abbrev Still (s : State) (i : Fin 16) : Prop := (s.slot i).current = false ∧ s.inList i = false ∧ (s.slot i).playing = false
/-- A take whose REF record allows LONG slots. -/
def longAllowed : State := let s := slotted .short
  { s with banks := vsetN s.banks unitRef (banked (rec 4 128 [(17, 1, 1), (16, 1, 1)])) }

theorem wit_PoolAndLedgerInstructions : Runs (slotted .long) (.tabor 0) ∧ (fxs 0x80).rb = 0 ∧ ((slotted .long).getD (.tabor 0) 2).toNat = 3 ∧
    Runs (liveD 16 0) (.tabor 0) ∧ ((liveD 16 0).getD (.tabor 0) 2).toNat = 16 ∧ Still (slotted .long) 3 ∧ ((slotted .long).slot 3).mark = .long ∧
    Runs longAllowed (.tabor 0) ∧ (longAllowed.getD (.tabor 0) 2).toNat = 3 ∧ Still longAllowed 3 ∧ (longAllowed.slot 3).mark = .short ∧
    (longAllowed.slotsWhere Slot.isLong).length < refLongMax (longAllowed.active unitRef) ∧
    Runs (slotted .unused) (.tabor 0) ∧ ((slotted .unused).slot 3).mark = .unused ∧ (fxs 5).sub.toNat < 6 ∧
    (fx.ra = 0 ∧ ({ fx with sub := 12 } : FmtX).sub.toNat = (4 : Fin 5).1 + 8 * (1 : Fin 2).1) ∧
    ({ fx with sub := 28 } : FmtX).sub.toNat = (4 : Fin 5).1 + 8 * (1 : Fin 2).1 + 16 := by decide +kernel

/-- A completion of ring 0; the ring at its last entry, and full. -/
def cpl : Completion := { ring := 0, gen := vget r.ringGen 0, tag := 7, opcode := 6, status := 0, state := 0, final := true, value := 0 }
def lastEntry : State := ringed.setReg (rTabCplTail 0) 15 |>.setReg (rTabCplHead 0) 3
def fullRing : State := ringed.setReg (rTabCplTail 0) 15

theorem wit_CompletionsWritten : vget lastEntry.ringGen cpl.ring = cpl.gen ∧ lastEntry.ringOn cpl.ring = true ∧ lastEntry.stalled = [] ∧
    ((lastEntry.reg (rTabCplTail 0)).toNat + 1) % 2 ^ lastEntry.ringLog2 0 ≠ (lastEntry.reg (rTabCplHead 0)).toNat % 2 ^ lastEntry.ringLog2 0 ∧
    mapWf regReset lastEntry.regs ∧
    vget fullRing.ringGen cpl.ring = cpl.gen ∧ fullRing.ringOn cpl.ring = true ∧ fullRing.stalled = [] ∧
    ((fullRing.reg (rTabCplTail 0)).toNat + 1) % 2 ^ fullRing.ringLog2 0 = (fullRing.reg (rTabCplHead 0)).toNat % 2 ^ fullRing.ringLog2 0 := by
  decide +kernel

/-- The completion ring lies in control SRAM and its source is enabled. -/
def ctlRing : State := (lastEntry.setReg64 (rTabCplBase 0) (BitVec.ofNat 64 ctlBase)).setSrc 21 { srcReset 21 with en := true }

theorem wit_CompletionsWritten_image : (let a := (ctlRing.reg64 (rTabCplBase 0)).toNat + 16 * 15
    ctlRing.ctlSram.wf ∧ a % 16 = 0 ∧ ctlBase ≤ a ∧ a + 16 ≤ ctlBase + 0x400000 ∧ (ctlRing.src 21).en = true ∧ (ctlRing.src 21).st = .idle ∧
    vget ctlRing.ringGen cpl.ring = cpl.gen ∧ ctlRing.ringOn cpl.ring = true ∧ ctlRing.stalled = [] ∧
    ((ctlRing.reg (rTabCplTail 0)).toNat + 1) % 2 ^ ctlRing.ringLog2 0 ≠ (ctlRing.reg (rTabCplHead 0)).toNat % 2 ^ ctlRing.ringLog2 0) := by
  decide +kernel

/-- The take in state `t`; `b` from DRAM address 4096 up. -/
def inTake (t : TakeState) : State := live.modTake (fun x => { x with st := t })
def atDram (s : State) (b : List Byte) : State :=
  { s with dram := { bytes := ((upFrom 4096 b.length).zip b).filter (fun e => e.2 ≠ 0), syn := [] } }
def pic0 (k : Nat) : Picture :=
  { number := k, ring := 0, ptp := 5, info := [], refs := [], slot := none, ended := true, dropped := none, opened := false, nextBand := 0,
    floorBands := [], tilesOut := [], units := [], charged := [], recordAddr := 0, spilled := false, old := 0, closing := false, overrun := [] }
def withPics (t : TakeState) (ps : List Picture) : State := (inTake t).modTake (fun x => { x with pics := ps })

/-- A program image of a header and one instruction, for core 1. -/
def image : List Byte :=
  let b := [(0, 4, 0x504E5344), (4, 2, 1), (6, 1, 2), (8, 4, 68), (12, 4, 64)].foldl put (List.replicate 68 0)
  put b (60, 4, (checkValue 0 0xFFFC 0 (b.take 60 ++ b.drop 64)).toNat)
/-- LOAD_PROGRAM of the 68 bytes at 4096; core 1 runs. -/
def loadFields : List (Nat × List Byte) := [(16, leBytes 8 4096), (24, leBytes 4 68)]
def imaged (b : List Byte) : State := asks ((atDram live b).modCore 1 (fun c => { c with run := .running })) 1 loadFields
/-- The state in which the image is judged. -/
def judged (s : State) : State := (took s (headAt 1)).post (cmdOf s (headAt 1)) stPending false 0

theorem wit_HostCommands : Fronts (asks live 7 [(16, [0])]) (headAt 7) 7 [(16, [0])] ∧ Fronts (asks live 7 [(16, [1, 255])]) (headAt 7) 7 [(16, [1, 255])] ∧
    Fronts (asks live 7 [(16, [1, 15])]) (headAt 7) 7 [(16, [1, 15])] ∧ Fronts (asks live 7 [(16, [2, 4, 1])]) (headAt 7) 7 [(16, [2, 4, 1])] ∧
    Fronts (asks live 7 [(16, [2, 5, 2])]) (headAt 7) 7 [(16, [2, 5, 2])] ∧ Fronts (asks live 12 [(16, [3])]) (headAt 12) 12 [(16, [3])] ∧
    (16 : Nat) ≤ (255 : Byte).toNat ∧ (15 : Byte).toNat = (15 : Fin 16).1 ∧ (4 : Byte).toNat ≤ 4 ∧ (1 : Byte).toNat ≤ 1 ∧
    (4 : Nat) < (5 : Byte).toNat ∧ (1 : Nat) < (2 : Byte).toNat :=
  ⟨fronts rfl (by decide +kernel), fronts rfl (by decide +kernel), fronts rfl (by decide +kernel), fronts rfl (by decide +kernel),
    fronts rfl (by decide +kernel), fronts rfl (by decide +kernel), by decide +kernel⟩

theorem wit_HostCommands_load : (let s := asks (inTake .armed) 1 loadFields
     Fronts s (headAt 1) 1 loadFields ∧ 4096 + 68 ≤ s.window ∧ s.take.st ≠ .idle ∧ s.take.st ≠ .loaded) ∧
    (∀ b, b = image ∨ b = [1] → let s := imaged b
      Fronts s (headAt 1) 1 loadFields ∧ 4096 + 68 ≤ s.window ∧ s.take.st = .idle ∧ s.take.setup = none ∧
        ((judged s).readArea 4096 68).2.2 = false ∧ (judged s).peekBad 4096 64 = false) ∧
    imageFault ((judged (imaged image)).peek 4096 68) (false, false) = 0 ∧ imageFault ((judged (imaged [1])).peek 4096 68) (false, false) ≠ 0 ∧
    Uncached (judged (imaged image)) programArea 68 ∧ natBit (leAt ((judged (imaged image)).peek 4096 68) 6 1) 1 = true ∧
    (imaged image).coreRun (.tabor 1) = .running := by
  refine ⟨⟨fronts rfl (by decide +kernel), by decide +kernel⟩, ?_, by decide +kernel⟩
  rintro b (rfl | rfl) <;> exact ⟨fronts rfl (by decide +kernel), by decide +kernel⟩

/-- Judging the image counts nothing. -/
theorem wit_HostCommands_read : ((judged (imaged image)).readArea 4096 68).1 = judged (imaged image) ∧
    ((judged (imaged [1])).readArea 4096 68).1 = judged (imaged [1]) := ⟨rfl, rfl⟩

theorem wit_TakeMoves : (∀ t, t = .armed ∨ t = .idle → Fronts (asks (inTake t) 3 []) (headAt 3) 3 []) ∧
    Fronts (asks (withPics .rolling [pic0 0]) 4 []) (headAt 4) 4 [] ∧ Fronts (asks (inTake .idle) 4 []) (headAt 4) 4 [] ∧
    (∀ t, t = .faulted ∨ t = .idle → Fronts (asks (inTake t) 5 []) (headAt 5) 5 []) ∧
    (∀ t, t = .cutting ∨ t = .closed → Fronts (asks (inTake t) 6 []) (headAt 6) 6 []) ∧
    (asks (inTake .armed) 3 []).take.st = .armed ∧ (asks (inTake .idle) 3 []).take.st ≠ .armed ∧
    (asks (withPics .rolling [pic0 0]) 4 []).take.pics ≠ [] ∧ (asks (withPics .rolling [pic0 0]) 4 []).take.st = .rolling ∧
    (asks (inTake .idle) 4 []).take.st ≠ .rolling ∧ (asks (inTake .faulted) 5 []).takeIn [.loaded, .armed, .closed, .faulted] = true ∧
    (asks (inTake .idle) 5 []).takeIn [.idle, .rolling, .cutting] = true ∧ (asks (inTake .cutting) 6 []).takeIn [.armed, .rolling, .cutting] = true ∧
    (asks (inTake .closed) 6 []).takeIn [.idle, .loaded, .closed, .faulted] = true := by
  refine ⟨?_, fronts rfl (by decide +kernel), fronts rfl (by decide +kernel), ?_, ?_, by decide +kernel⟩ <;> rintro t (rfl | rfl) <;>
    exact fronts rfl (by decide +kernel)

/-- A PLAY block of session 0 (kind 0) and of session 8 (kind 1). -/
def playBlock (k : Nat) : List Byte :=
  ([(0, 1, k), (2, 1, 2), (9, 1, 255), (11, 1, 96), (16, 8, 0x10000), (24, 8, 0x20000), (56, 4, 4096), (72, 4, 24), (76, 4, 1), (88, 2, 64),
    (90, 2, 64), (92, 2, 60)] ++
   (if k = 0 then [(10, 1, 2), (32, 8, 0x30000), (48, 8, 0x40000), (60, 4, 16), (96, 8, 0x10000), (104, 4, 1), (108, 2, 512)]
    else [(1, 1, 1), (94, 2, 5004)])).foldl put (List.replicate 128 0)
/-- PLAY of the block at 4096; STOP_PLAY of session 8. -/
def playFields : List (Nat × List Byte) := [(16, leBytes 8 4096)]
def played (b : List Byte) : State := asks ((atDram live b).modMag 0 (fun p => { p with st := .ready })) 8 playFields
def params0 : PlayParams := playParams (playBlock 0)
def sessioned (f : Session → Session) : State := asks (live.modSession 8 f) 9 [(16, [8])]
abbrev Plays (s : State) : Prop := Fronts s (headAt 8) 8 playFields ∧ s.sourceOk 4096 128 = true ∧
  (took s (headAt 8)).readArea 4096 128 = (took s (headAt 8), (took s (headAt 8)).peek 4096 128, false)
def playBytes (s : State) : List Byte := (took s (headAt 8)).peek 4096 128
def refusalOf (s : State) : Nat := (took s (headAt 8)).playRefusal (playBytes s) (playParams (playBytes s))

theorem wit_PlayCommands : Plays (played (playBlock 0)) ∧ Plays (played (playBlock 1)) ∧ Plays (played []) ∧
    (let s := asks (inTake .faulted) 8 playFields
     Fronts s (headAt 8) 8 playFields ∧ s.sourceOk 4096 128 = true ∧ s.take.st = .faulted) ∧
    (played (playBlock 0)).take.st ≠ .faulted ∧ (played (playBlock 1)).take.st ≠ .faulted ∧ (played []).take.st ≠ .faulted ∧
    refusalOf (played (playBlock 0)) = 0 ∧ refusalOf (played (playBlock 1)) = 0 ∧ refusalOf (played []) ≠ 0 ∧
    leAt (playBytes (played (playBlock 0))) 0 1 = 0 ∧ leAt (playBytes (played (playBlock 1))) 0 1 ≠ 0 ∧
    ((played (playBlock 0)).mag (playParams (playBytes (played (playBlock 0)))).mag).st = .ready :=
  ⟨⟨fronts rfl (by decide +kernel), by decide +kernel, rfl⟩, ⟨fronts rfl (by decide +kernel), by decide +kernel, rfl⟩,
    ⟨fronts rfl (by decide +kernel), by decide +kernel, rfl⟩, ⟨fronts rfl (by decide +kernel), by decide +kernel⟩, by decide +kernel⟩

theorem wit_PlayCommands_stop : (let s := sessioned (fun x => { x with params := some { params0 with cmpSlot := some 3 } })
     Fronts s (headAt 9) 9 [(16, [8])] ∧ (8 : Byte).toNat ≤ 8 ∧ s.take.st ≠ .faulted ∧
       (vgetN Session.atReset s.sessions 8).params.bind (·.cmpSlot) = some 3 ∧
       ∀ j < 8, (vgetN Session.atReset s.sessions j).params = none) ∧
    Fronts (sessioned id) (headAt 9) 9 [(16, [8])] ∧ (vgetN Session.atReset (sessioned id).sessions 8).params = none :=
  ⟨⟨fronts rfl (by decide +kernel), by decide +kernel⟩, fronts rfl (by decide +kernel), by decide +kernel⟩

def enumFields : List (Nat × List Byte) := [(16, leBytes 2 3), (18, leBytes 2 1)]
def locking (b : Nat) : State := live.setReg rKeyLock (BitVec.twoPow 32 b)
/-- Proposal 5 of kind 1 stands in entry 0. -/
def proposed : State := live.modRas (fun x => { x with
  props := vset x.props 0 { number := 5, st := .proposed, kind := 1, reason := 1, target := 3, info := 1 } })
/-- An uncorrectable word at DRAM address 4096. -/
def badWord : State := { live with dram := { bytes := [], syn := [(256, 0xFFFF)] } }
/-- The command of opcode `op` taken and accepted as PENDING. -/
def pendingOf (s : State) (op : Byte) : State := (took s (headAt op)).post (cmdOf s (headAt op)) stPending false 0

theorem wit_DeviceCommands : Fronts (asks (locking 5) 10 enumFields) (headAt 10) 10 enumFields ∧
    Fronts (asks live 10 enumFields) (headAt 10) 10 enumFields ∧
    (let s := asks (locking 5) 10 enumFields
     (1 : Half) ≠ 0 ∧ (1 : Half) ≠ s.ksl.epoch ∧ s.takeIn [.idle, .loaded, .closed] = true ∧ (pendingOf s 10).locked 5 = true) ∧
    (let s := asks live 10 enumFields
     (1 : Half) ≠ s.ksl.epoch ∧ s.takeIn [.idle, .loaded, .closed] = true ∧ (pendingOf s 10).locked 5 = false ∧ s.ksl.enumCmd = none ∧
       ∀ k, (pendingOf s 10).portActive k = false) :=
  ⟨fronts rfl (by decide +kernel), fronts rfl (by decide +kernel), by decide +kernel, by decide +kernel⟩

def tagFields (n : Nat) : List (Nat × List Byte) := [(16, leBytes 8 4096), (24, leBytes 2 0), (26, leBytes 2 n)]

theorem wit_DeviceCommands_tag : Fronts (asks badWord 11 (tagFields 16)) (headAt 11) 11 (tagFields 16) ∧
    Fronts (asks live 11 (tagFields 4096)) (headAt 11) 11 (tagFields 4096) ∧ (0 : Half).toNat + (4096 : Half).toNat ≤ 4096 ∧
    (let s := asks badWord 11 (tagFields 16)
     s.sourceOk 4096 16 = true ∧ ((pendingOf s 11).readArea 4096 16).2.2 = true) ∧
    (let s := asks live 11 (tagFields 4096)
     let r := (pendingOf s 11).readArea 4096 4096
     s.sourceOk 4096 4096 = true ∧ r.2.2 = false ∧
     (let t1 := { r.1 with freeCount := r.1.freeCount + 1 }.cisAlloc [{ ini := .core 0, owner := 1, cls := 0, size := 4096 }]
      let hnd := (t1.page 1).result
      hnd ≠ 0xFFFFFFFF ∧ t1.tagBusy = false ∧ t1.locked 2 = false ∧ t1.giveCause 1 hnd 0 = 0 ∧ mapWf regReset t1.regs)) :=
  ⟨fronts rfl (by decide +kernel), fronts rfl (by decide +kernel), by decide +kernel, by decide +kernel, by decide +kernel⟩

def patchFields : List (Nat × List Byte) := [(16, [0]), (24, leBytes 8 4096), (32, leBytes 4 64)]
def numberFields (op : Byte) : List (Nat × List Byte) := [(16, [op]), (24, leBytes 4 5)]

theorem wit_DeviceCommands_maint : Fronts (asks live 12 patchFields) (headAt 12) 12 patchFields ∧
    Fronts (asks (locking 1) 12 patchFields) (headAt 12) 12 patchFields ∧
    (∀ s op, s = live ∨ s = proposed → op = 1 ∨ op = 2 → Fronts (asks s 12 (numberFields op)) (headAt 12) 12 (numberFields op)) ∧
    (let s := asks live 12 patchFields
     s.sourceOk 4096 64 = true ∧ s.takeActive = false ∧ (pendingOf s 12).locked 1 = false) ∧
    (pendingOf (asks (locking 1) 12 patchFields) 12).locked 1 = true ∧
    (∀ op, op = 1 ∨ op = 2 → (pendingOf (asks live 12 (numberFields op)) 12).proposedEntry 5 = none) ∧
    (∀ op, op = 1 ∨ op = 2 → let t0 := pendingOf (asks proposed 12 (numberFields op)) 12
     proposed.takeActive = false ∧ t0.proposedEntry 5 = some 0 ∧ t0.ras.waiting = [] ∧
     t0.spareGone 1 3 = false ∧ (vgetN Proposal.empty t0.ras.props 0).target.toNat = 3 ∧ (vgetN Proposal.empty t0.ras.props 0).kind = 1) := by
  refine ⟨fronts rfl (by decide +kernel), fronts rfl (by decide +kernel), ?_, by decide +kernel, by decide +kernel, ?_, ?_⟩
  · rintro s op (rfl | rfl) (rfl | rfl) <;> exact fronts rfl (by decide +kernel)
  · rintro op (rfl | rfl) <;> decide +kernel
  · rintro op (rfl | rfl) <;> decide +kernel

/-- Each taken for the register tests: ring 0 enabled with its first command visible. -/
theorem wit_RingsAndHeartbeat : Enters live (.core 0) (rTabHb 0) ∧ Enters live (.core 0) (rTabCmdTail 0) ∧ Enters live (.core 0) (rTabCmdSize 0) ∧
    Enters ringed (.core 0) (rTabCmdTail 0) ∧ Enters ringed (.core 0) (rTabCmdSize 0) ∧
    live.ringOn 0 = false ∧ (4 : Word).toNat ≤ 12 ∧ ringed.ringOn 0 = true ∧ (12 : Word).toNat % 16 ≠ 0 ∧
    mapWf regReset ringed.regs ∧ mapWf regReset live.regs ∧ (inTake .faulted).take.st = .faulted ∧
    (inTake .closed).takeIn [.loaded, .armed, .closed] = true ∧
    (withPics .rolling [pic0 0]).take.st = .rolling ∧ (withPics .rolling [pic0 0]).take.pics ≠ [] ∧
    (let s := live.modTake (fun t => { t with setup := some (cmdOf ringed (headAt 1)) })
     s.take.setup.isSome = true ∧ s.take.st ≠ .faulted) ∧ ringed.take.setup = none := by decide +kernel

/-! ### Registers, keys, events, Kalsal packets -/

def csrAt (off : Nat) : BitVec 48 := BitVec.ofNat 48 (csrBase + off)
/-- An access of a CSR address that its way accepts and at which the register interface serves. -/
abbrev Serves (s : State) (off : Nat) : Prop := csrBase ≤ (csrAt off).toNat ∧ (csrAt off).toNat < csrBase + 0x400000 ∧ (csrAt off).toNat % 4 = 0 ∧
  (csrAt off).toNat - csrBase = off ∧ (regRowAt off).isSome = true ∧ 4 ≤ off / 0x10000 ∧ off / 0x10000 ≠ 0x30 ∧ s.absentReg off = false ∧
  off / 0x10000 ≠ 0xF ∧ off / 0x10000 ≠ 0x31 ∧ Enters s (.core 0) off
def row (off : Nat) : RegRow := (regRowAt off).getD (rowRO 0 0 0)
def lockedRoutes : State := live.setReg rKeyLock 0x20
def armedRoutes : State := live.modTake (fun t => { t with st := .armed })
/-- Offsets whose accesses the commands of the register interface make. -/
def heldOffs : List Nat := [rTabCmdTail 0, rTabCmdSize 0, rTabHb 0, 0xD0010, rKslStat]

theorem wit_RegisterAccess : (∀ off ∈ heldOffs, ¬ Enters cold (.core 0) off) ∧ cold.coreRun (.tabor 0) = .running ∧
    r.coreRun .bellhouse = .running ∧
    Serves live 0xD0010 ∧ (row 0xD0010).pair = 0 ∧ (row 0xD0010).rwl = 0 ∧
    Serves lockedRoutes 0xD010C ∧ (row 0xD010C).pair = 0 ∧ (row 0xD010C).rwl ≠ 0 ∧ lockedRoutes.locked (row 0xD010C).lock = true ∧
    Serves armedRoutes 0xD010C ∧ armedRoutes.locked (row 0xD010C).lock = false ∧ armedRoutes.takeActive = true ∧
    Serves live 0xD010C ∧ live.locked (row 0xD010C).lock = false ∧ live.takeActive = false := by decide +kernel

/-- No register that the commands of the system and event blocks name is accepted from a core that stalls on a full ring. -/
theorem wit_RegisterAccess_held : ∀ off ∈ [rKeyGate, rKeyLock, rTopDebug, rTopDbgCtrl, rTopTagGo, rTopTagDone, rEvcClaim 5, rEvcDone 5,
    rEvcSrcCfg 1023, rEvcCtrl, rHdgInrushDidt, rHdgInrushQ, rHdgCoreRun, rHdgSleep, rHdgWdogKick, rHdgReset],
    ¬ Enters { live with stalled := [cpl0] } (.core 0) off := by decide +kernel

theorem wit_RegisterAccess_reads : Serves live 0x5000C ∧ (row 0x5000C).pair = 0 ∧ (row 0x5000C).rc ≠ 0 ∧
    (live.pxyHidden 0x5000C || live.mirrorHidden 0x5000C) = false ∧ flmCount 0x5000C = false ∧
    Serves live 0x70100 ∧ flmCount 0x70100 = true ∧ (row 0x70100).pair = 0 ∧
    (live.pxyHidden 0x70100 || live.mirrorHidden 0x70100) = false ∧
    (row 0xD0010).rc = 0 ∧ (live.pxyHidden 0xD0010 || live.mirrorHidden 0xD0010) = false ∧ flmCount 0xD0010 = false := by decide +kernel

/-- A mirror take: the registers of ledger 1 read 0. -/
def mirrored : State := { live with banks := vsetN live.banks unitLog (banked (rec 2 128 [(24, 1, 1)])) }

theorem wit_RegisterAccess_pairs : Serves mirrored 0xB08A8 ∧ (row 0xB08A8).pair = 0 ∧
    (mirrored.pxyHidden 0xB08A8 || mirrored.mirrorHidden 0xB08A8) = true ∧
    Serves live 0x60114 ∧ (row 0x60114).pair = 1 ∧ Serves live 0x60118 ∧ (row 0x60118).pair = 2 ∧
    (regRowAt (0x60118 - 4)).isSome = true := by decide +kernel

def gateOpen : State := { live with gates := BitVec.allOnes 64 }
def debugOn : State := live.setReg rTopDebug 1
def captures : State := debugOn.setEngine 271 { engineReset 271 with run := .capture 0 0 }
def halting : State := debugOn.setEngine 5 { engineReset 5 with halt := true }
def userNow : State := live.modCore 0 (fun c => { c with status := 0 })

theorem wit_KeysAndHalts : (∀ off ∈ [rKeyGate, rKeyLock, rTopDebug, rTopTagGo, rTopTagDone],
      Enters live (.core 0) off ∧ Enters gateOpen (.core 0) off ∧ Enters userNow (.core 0) off) ∧
    userNow.privileged (.core 0) = false ∧ live.privileged (.core 0) = true ∧ (0xA7C3 : Word) ≠ 0 ∧
    gateOpen.privileged (.core 0) = true ∧ gateOpen.gates.getLsbD (gateOpen.link (.core 0)).1 = true ∧ (1 : Word).getLsbD 0 = true ∧
    live.gates.getLsbD (live.link (.core 0)).1 = false ∧ (live.reg rTopDebug).getLsbD 0 = false ∧ Enters debugOn (.core 0) rTopDbgCtrl ∧
    Enters captures (.core 0) rTopDbgCtrl ∧ Enters halting (.core 0) rTopDbgCtrl ∧ Enters live (.core 0) rTopDbgCtrl ∧
    (debugOn.reg rTopDebug).getLsbD 0 = true ∧ (271 : Word).getLsbD 10 = false ∧ (271 : Word).toNat % 512 = 271 ∧ (271 : Word).getLsbD 9 = false ∧
    captures.privileged (.core 0) = true ∧ (captures.reg rTopDebug).getLsbD 0 = true ∧ captures.debugBusy = false ∧
    (captures.engine 271).run = .capture 0 0 ∧ debugOn.debugBusy = false ∧ (debugOn.engine 271).run = .idle ∧
    halting.privileged (.core 0) = true ∧ (halting.reg rTopDebug).getLsbD 0 = true ∧ halting.debugBusy = true ∧
    (271 : Nat) ≠ (halting.reg rTopDbgCtrl).toNat % 512 ∧ mapWf engineReset debugOn.engines := by decide +kernel

/-- Owner 1 holds buffer 0 of pool 2, or owner 0 does; the tag registers name it. -/
def holding (o : Fin 64) : State :=
  ((gateOpen.setBuf (bufKey 2 0) (some { holder := o, charge := o })).setReg rTopTagHandle (handleOf 2 0)).setReg rTopTagRange (65536 * 4096)
def nvsSrc (s : State) : Nat := s.bufAddr ((handleOf 2 0).toNat / 2 ^ 29) ((handleOf 2 0).toNat % 2 ^ 29)

theorem wit_TagAndNvs : (let s := holding 1
     let l := s.link (.core 0)
     let go := (s.closeGate l).setReg rTopTagGo (((7 : Word).setWidth 8).setWidth 32)
     Enters s (.core 0) rTopTagGo ∧
     s.privileged (.core 0) = true ∧ s.gates.getLsbD l.1 = true ∧ s.tagBusy = false ∧ go.giveCause (ownOwner (.core 0)) (s.reg rTopTagHandle) 0 = 0 ∧
     (s.reg rTopTagRange).toNat / 65536 % 8192 ≠ 0 ∧ (s.reg rTopTagRange).toNat % 4096 + (s.reg rTopTagRange).toNat / 65536 % 8192 ≤ 4096 ∧
     s.locked 2 = false ∧ s.tagCmd = none ∧ Enters s .bellhouse rTopTagDone) ∧
    (let s := (holding 0).modRas (fun x => { x with wear := [(0x1FFFC0 / 64, 89999998)] })
     s.buf (handleOf 2 0).toNat = some { holder := 0, charge := 0 } ∧ 0x1000 ≤ 0x1FFFC0 ∧ 0x1FFFC0 % 64 + 64 ≤ 64 ∧ 0x1FFFC0 < 0x200000 ∧
     s.ras.wearOf (0x1FFFC0 / 64) + 1 < 90000000 ∧ s.badSpans (nvsSrc s) 64 = []) ∧ r.buf 0 = none := by decide +kernel

theorem wit_TagAndNvs_reads : (let s := (holding 0).modRas (fun x => { x with wear := [(0x1FFFC0 / 64, 89999998)] })
     (s.readArea (nvsSrc s) 64).1 = s ∧ Sound s.nvs) :=
  ⟨State.readArea_clean _ _ _ (by decide +kernel) (fun _ => rfl) (fun _ => rfl) (fun _ => rfl) (fun _ => rfl), fun _ => rfl⟩

def src528 (x : Source) : State := live.setSrc 528 x
def mine (st : SourceState) (en : Bool) : Source := { srcReset 528 with target := 0, en := en, st := st }

theorem wit_EventController_stray : (liveD 528 0).mayEnter (.core 0) [8, 9] (some 67) = true ∧ Enters live (.core 0) (rEvcDone 5) ∧
    Enters live (.core 0) (rEvcClaim 15) ∧ Enters live (.core 0) (rEvcSrcCfg 1023) ∧ Enters live (.core 0) rEvcCtrl ∧ (live.src 528).st = .idle ∧ Runs (liveD 528 0) (.tabor 0) ∧ ((liveD 528 0).getD (.tabor 0) 2).toNat = 528 ∧
    coreTarget (.tabor 0) = 0 ∧ ((liveD 528 0).src 528).st = .idle ∧
    (let s := (liveD 528 0).setSrc 528 (mine .active true)
     Runs s (.tabor 0) ∧ s.mayEnter (.core 0) [8, 9] (some 67) = true ∧ (s.getD (.tabor 0) 2).toNat = 528 ∧ (s.src 528).st = .active ∧ (s.src 528).target = 0 ∧ isLevel 528 = false) := by
  decide +kernel

theorem wit_EventController : rung.claimable 0 ≠ 0 ∧ live.claimable 0 = 0 ∧ (5 : Nat) < (15 : Fin 16).1 ∧
    live.claimantOf (.core 0) 0 = true ∧ (528 : Word).toNat % 1024 = (528 : Fin 1024).1 ∧ ((src528 (mine .active true)).src 528).st = .active ∧
    (src528 (mine .active true)).claimantOf (.core 0) 0 = true ∧ ((src528 (mine .active true)).src 528).target = 0 ∧ isLevel 528 = false ∧
    (src528 (mine .repend true)).claimantOf (.core 0) 0 = true ∧ ((src528 (mine .repend true)).src 528).st = .repend ∧
    ((src528 (mine .repend true)).src 528).target = 0 ∧ ((src528 (mine .repend true)).src 528).en = true ∧
    live.claimantOf (.core 1) 0 = false ∧ (live.src 1023).en = false ∧ (live.src 1023).st = .idle ∧ isLevel 1023 = false ∧ isLevel 1 = true ∧
    ((live.setSrc 1 { srcReset 1 with en := true }).src 1).en = true ∧ ((live.setSrc 1 { srcReset 1 with en := true }).src 1).st = .idle ∧
    isLevel 12 = true ∧ (let s := live.setSrc 12 { srcReset 12 with st := .pending }
                         (s.src 12).st = .pending ∧ mapWf srcReset s.srcs) := by decide +kernel

/-- Port 0 is ACTIVE towards a host; source 528 is pending for the remote target 6. -/
def hosted : State := (live.setSrc 528 { srcReset 528 with target := 6, en := true, st := .pending }).modPort 0 (fun x => { x with
  st := .active, peerAdapter := true })
abbrev Sends (s : State) : Prop := s.claimable (fin 16 6) ≠ 0 ∧ ((s.evtPort ((s.reg (rEvcKdest 0)).toNat % 65536)).filter s.portActive).isSome = true ∧
  s.ksl.wait = []
def pkt (t : Nat) (rsp : Bool) (f : List (Nat × Nat × Nat)) (pay : List Byte) : Packet :=
  { type := t, rsp := rsp, bcast := false, host := false, dst := 0, src := 9, hops := 0, status := 0, tag := 7,
    fields := f.foldl (fun b e => put b (e.1 - 16, e.2)) (List.replicate 32 0), payload := pay, bad := [] }
/-- Packet `p` has arrived on port 0. -/
def arrived (p : Packet) : State :=
  (hosted.setReg rKeyMpmCtrl 3).modPort 0 (fun x => { x with rxq := [(p, 0)] })
def memRdOk : Packet := pkt 1 false [(16, 8, 4096), (24, 2, 64)] []
def memWrOk : Packet := pkt 2 false [(16, 8, 4096), (24, 2, 8)] (leBytes 8 5)

theorem wit_KalsalPackets : live.claimable 6 = 0 ∧ Sends hosted ∧ hosted.ksl.out.length < hosted.aOutMax ∧
    Sends (hosted.modKsl (fun x => { x with out := [5] })) ∧ (hosted.modKsl (fun x => { x with out := [5] })).aOutMax ≤ 1 ∧
    (live.kslPort 0).rxq = [] ∧
    (let s := arrived memRdOk
     let g := (s.dropArrived 0).remoteAllowed 0 false (memRdOk.field 16 8) (memRdOk.field 24 2)
     (s.kslPort 0).rxq = [(memRdOk, 0)] ∧ memRdOk.type = 1 ∧ memRdOk.rsp = false ∧ g.2 = true ∧
     (g.1.readAt (.kalsal 0) (memRdOk.field 16 8) (memRdOk.field 24 2)).2 = .ok (List.replicate 64 0)) ∧
    (let p := pkt 1 false [(16, 8, 1), (24, 2, 64)] []
     p.type = 1 ∧ 64 < p.field 16 8 % 64 + p.field 24 2) ∧
    (let s := arrived memWrOk
     let a := memWrOk.field 16 8
     memWrOk.type = 2 ∧ a % 64 + memWrOk.payload.length ≤ 64 ∧ s.mpmAllows true true a = true ∧ a < s.window ∧ memWrOk.bad = []) ∧
    (let s := arrived (pkt 3 false [] [1])
     ¬ (s.ksl.msgProd % 64 + 1) % 64 = (s.reg rKslMsgCons).toNat % 64) ∧
    (let s := (arrived (pkt 3 false [] [1])).setReg rKslMsgCons 1
     (s.ksl.msgProd % 64 + 1) % 64 = (s.reg rKslMsgCons).toNat % 64) ∧
    (let s := arrived (pkt 4 false [(18, 1, 6)] [])
     s.hostPort = some 0 ∧ s.portActive 0 = true) ∧
    (arrived (pkt 5 false [] [])).refSource (pkt 5 false [] []) = none ∧
    ((arrived (pkt 1 true [] [])).modKsl (fun x => { x with out := [7] })).ksl.wait = [] ∧
    (arrived (pkt 1 true [] [])).ksl.out = [] := by decide +kernel

theorem wit_KalsalPackets_ext : ∀ i : Nat, (arrived memWrOk).extBuf i = none := noExt _ rfl

/-- The way of a remote access, and one on which no function is READY. -/
abbrev RemoteReaches (s : State) (a : Nat) : Prop := s.mayEnter (.kalsal 0) (s.pathNeeds (.kalsal 0) a) (some (s.pointOf a)) = true
def unready (s : State) : State := s.modHdg (fun h => { h with ready := 0 })

theorem wit_KalsalPackets_reach : RemoteReaches (arrived memRdOk) 4096 ∧ RemoteReaches (arrived (pkt 1 false [(16, 8, 1), (24, 2, 64)] [])) 1 ∧
    RemoteReaches (arrived memWrOk) 4096 ∧ ¬ RemoteReaches (unready (arrived memRdOk)) 4096 ∧ ¬ RemoteReaches (unready (arrived memWrOk)) 4096 ∧
    ((unready (arrived memRdOk)).kslPort 0).rxq = [(memRdOk, 0)] ∧ ((unready (arrived memWrOk)).kslPort 0).rxq = [(memWrOk, 0)] ∧
    memRdOk.field 16 8 = 4096 ∧ memWrOk.field 16 8 = 4096 := by decide +kernel

theorem wit_KalsalPackets_queue : ∀ (n : Nat) (q : DramReq), q ∈ ((arrived memWrOk).chn n).queue → q.ini ≠ .kalsal 0 := by
  intro n q h
  have e : ((arrived memWrOk).chn n).queue = [] := chn_reset n
  rw [e] at h; cases h

/-- A take of one-sample pictures with device 9 as source 0, slot 3 taking its picture 2. -/
def viewing (p : Packet) : State :=
  let s := arrived p
  { s with banks := vsetN (vsetN s.banks unitCode (banked (rec 1 128 [(16, 2, 1), (18, 2, 1), (20, 1, 12), (21, 1, 1), (22, 1, 1), (28, 4, 24), (32, 4, 1),
      (36, 2, 1)]))) unitRef (banked (rec 4 128 [(20, 1, 1), (32, 2, 9)])) }.modSlot 3 (fun x => { x with
    mark := .pendingIn, source := some 0, picture := 2, base := some 0x2000, size := 2 })
def tilePkt0 : Packet := pkt 5 false [(20, 4, 2), (32, 2, 1), (34, 2, 1), (36, 1, 12), (37, 1, 1), (38, 1, 1)] [5, 0]
def tilePkt : Packet :=
  let v := playEnv ((viewing tilePkt0).active unitCode) 0 [] (fun _ _ _ _ => 0)
  let c := v.reconCheck 9 0 2 ((upFrom 0 v.planes).map (v.planeOf (halves tilePkt0.payload)))
  { tilePkt0 with fields := put tilePkt0.fields (24, 4, c.toNat) }

theorem wit_KalsalPackets_tile : (let s := viewing tilePkt
     let s0 := s.dropArrived 0
     let p := tilePkt
     (s.kslPort 0).rxq = [(p, 0)] ∧ p.type = 5 ∧ s0.refSource p = some 0 ∧ p.field 16 2 = refSrcRank (s.active unitRef) 0 ∧
     p.field 16 2 < codeRank (s.active unitCode) ∧ s0.refGeometry p = true ∧
     s0.refAbandoned 0 (BitVec.ofNat 32 (p.field 20 4)) (BitVec.ofNat 64 (p.field 24 8)) = false ∧ s0.refCheck p = true ∧
     s0.peerSlot 0 (BitVec.ofNat 32 (p.field 20 4)) = some 3 ∧ (s.slot 3).mark ≠ .viewIn ∧ p.field 18 2 ∉ (s.slot 3).accepted) := by
  decide +kernel

/-! ### Check units, the Cistern, DMA, memory -/

/-- Check unit 15 of owner 1, as given. -/
def unit15 (f : Cku → Cku) : State := live.modCku 15 (fun x => f { x with owner := 1 })
def cleanWord (d : BitVec 128) : CodeWord := { data := d, chk := codeChk d }
def beat1 : Beat := { addr := 0, cls := 0, words := [cleanWord 5], enables := BitVec.allOnes 64 }

theorem wit_CheckUnits : (unit15 id).mayEnter (.core 0) [8, 11] (some 32) = true ∧ live.mayEnter (.core 0) [8, 11] (some 32) = true ∧
    (unit15 id).ckuOwns (.core 0) 15 = true ∧ ((unit15 id).ckuAt 15).queue = [] ∧ ((unit15 id).ckuAt 15).act = false ∧
    (let s := unit15 (fun x => { x with queue := [.bytes [1]] })
     s.mayEnter (.core 0) [8, 11] (some 32) = true ∧ (s.ckuAt 15).queue.head? = some (.bytes (1 :: []))) ∧
    (let s := unit15 (fun x => { x with queue := List.replicate 5 (.bytes [1]) })
     s.mayEnter (.core 0) [8, 11] (some 32) = true ∧ s.ckuOwns (.core 0) 15 = true ∧ (s.ckuAt 15).act = false ∧ 5 ≤ (s.ckuAt 15).queue.length) ∧
    (let s := unit15 (fun x => { x with act := true })
     s.mayEnter (.core 0) [8, 11] (some 32) = true ∧ s.ckuOwns (.core 0) 15 = true ∧ (s.ckuAt 15).act = true) ∧
    live.ckuOwns (.core 0) 15 = false ∧ (1 : Word).getLsbD 0 = true ∧
    (let s := (unit15 id).modTake (fun t => { t with st := .armed })
     s.mayEnter (.core 0) [8, 11] (some 32) = true ∧ s.ckuOwns (.core 0) 15 = true ∧ s.takeActive = true) ∧ (unit15 id).takeActive = false ∧
    ((unit15 id).ckuAt 15).req = false ∧
    (let x := (unit15 (fun x => { x with act := true, sel := 0x200, limit := BitVec.allOnes 64 })).ckuAt 15
     x.act = true ∧ x.sel.getLsbD 9 = true ∧ x.base = 0 ∧ x.limit = BitVec.allOnes 64) ∧ beat1.words = [cleanWord 5] ∧
    codeChk (cleanWord 5).data = (cleanWord 5).chk := by decide +kernel

def askFor (size : Word) : AllocReq := { ini := .core 0, owner := 1, cls := 0, size := size }
/-- Owner 1 has its reserve of pool 5 out of a pool that has none to share. -/
def drained : State := { live with banks := vsetN live.banks unitCis (banked (put (rec 12 1024 []) (48 + 24 * 5 + 16, 4, 56))) }
def heldBy (o : Fin 64) : State := live.setBuf (bufKey 5 55) (some { holder := o, charge := 1 })
abbrev Reaches (s : State) : Prop := ([8, 13] : List Nat).all s.fnReady = true ∧ s.mayEnter (.core 0) [8, 13] (some 32) = true

theorem wit_CisternBuffers : Reaches live ∧ Reaches drained ∧ Reaches (heldBy 1) ∧ Reaches (heldBy 2) ∧ ¬ ([8, 13] : List Nat).all cold.fnReady = true ∧
    live.freeIndex 0 < 2 ^ 29 ∧ poolFor 256 = some 0 ∧ live.pageOk (.core 0) 1 = true ∧
    live.charged 1 0 < live.cisMin 1 0 ∧ live.freeIndex 0 < live.poolN 0 ∧
    drained.freeIndex 5 < 2 ^ 29 ∧ poolFor 262144 = some 5 ∧ drained.pageOk (.core 0) 1 = true ∧
    drained.cisMin 1 5 ≤ drained.charged 1 5 ∧ drained.shared 5 ≤ (drained.cisBp 5 : Int) ∧
    (heldBy 1).pageOk (.core 0) 1 = true ∧ (heldBy 1).handleOk (handleOf 5 55) = true ∧ isCkuHandle (handleOf 5 55) = false ∧
    (heldBy 1).buf (handleOf 5 55).toNat = some { holder := 1, charge := 1 } ∧
    (heldBy 2).handleOk (handleOf 5 55) = true ∧ (heldBy 2).buf (handleOf 5 55).toNat = some { holder := 2, charge := 1 } ∧
    (7 : Fin 64).1 < 8 ∧ (heldBy 1).giveChannel 7 = none ∧ live.pageOk (.core 1) 1 = false := by decide +kernel

def desc0 : DmaDesc := dmaDesc ([(4, 4, 16), (8, 8, 0x1000), (16, 8, 0x2000), (52, 4, 9)].foldl put (List.replicate 64 0))
def chain0 : DmaChain :=
  { handle := handleOf 2 0, giver := 0, owner := 0, descAddr := 0x1000, desc := none, hops := 0, hopLimit := 4, actOwner := 0, crcEn := false, crcAddr := 0,
    crc := 0, fed := 0, poison := false, moved := 0, confirmed := 0, total := 0, reqs := [], ending := none, passed := 0 }
def chained (f : DmaChain → DmaChain) : State := live.modDma 63 (fun x => { x with chain := some (f chain0) })
def req0 (a : Nat) : DmaRequest := { id := 3, addr := a, bytes := 16, write := true, last := true, refused := false, burst := 0 }
def descBytes (n : Nat) : List Byte := [(4, 4, n)].foldl put (List.replicate 64 0)
/-- A descriptor of `n` bytes stands at DRAM address 0x1000; channel 0's chain is to fetch it. -/
def fetching (n : Nat) : State :=
  { live.modDma 0 (fun x => { x with chain := some chain0 }) with dram := { bytes := if n = 0 then [] else [(0x1004, BitVec.ofNat 8 n)], syn := [] } }
/-- The same with the fetch's request counted. -/
def fetched (n : Nat) : State := (fetching n).modDma 0 (fun y => { y with nextReq := y.nextReq + 1 })

theorem wit_DmaAndFlume : (let s := live.modDma 63 (fun x => { x with queue := [(handleOf 2 0, 0, 0)] })
     (s.chan 63).chain = none ∧ (s.chan 63).queue = [(handleOf 2 0, 0, 0)]) ∧
    ((fetching 16).chan 0).chain = some chain0 ∧ ((fetching 0).chan 0).chain = some chain0 ∧
    ((fetched 16).memRead (.dma chain0.actOwner) 0x1000 64).2 = .ok (descBytes 16) ∧
    (fetching 16).descRefused 0 true (dmaDesc (descBytes 16)) = false ∧ (fetching 0).descRefused 0 true (dmaDesc (descBytes 0)) = true ∧
    ((fetched 0).memRead (.dma chain0.actOwner) 0x1000 64).2 = .ok (descBytes 0) ∧
    (let s := chained (fun x => { x with desc := some desc0 })
     s.dmaInFlight < 32 ∧ s.dmaPick = some 63 ∧ s.dram.wf ∧ (desc0.src + 0 + 16 + 63) / 64 * 64 ≤ s.window ∧ desc0.dst + 16 ≤ s.window) ∧
    (let s := chained (fun x => { x with desc := some desc0, moved := 16, reqs := [req0 0x2000] })
     (s.chan 63).chain.map (·.reqs) = some [req0 0x2000] ∧ (req0 0x2000).refused = false ∧ desc0.count ≤ 16 ∧ desc0.next = 0) ∧
    (live.chan 63).chain = none := by decide +kernel

theorem wit_DmaAndFlume_dram : (∀ i, (chained id).dram.syndrome i = 0) ∧ (∀ i : Nat, (chained id).extBuf i = none) ∧
    ((fetched 16).memRead (.dma 0) 0x1000 64).1 = fetched 16 ∧ ((fetched 0).memRead (.dma 0) 0x1000 64).1 = fetched 0 :=
  ⟨fun _ => rfl, noExt _ rfl, rfl, rfl⟩

theorem wit_DmaAndFlume_queue : ∀ (n : Nat) (q : DramReq), q ∈ ((chained id).chn n).queue → q.ini ≠ .dma 0 := by
  intro n q h
  have e : ((chained id).chn n).queue = [] := chn_reset n
  rw [e] at h; cases h

/-- A read of one word by the sensor port's unit at `a`: it waits at its interface, or has come to its target's link. -/
def flmBeat (a : Nat) (st : Fin 4) : FlumeBeat :=
  { id := 0, first := true, ini := .core 0, src := live.link (.core 0), dst := live.targetLink a, cls := 0, addr := a, len := 16, write := false, bytes := [],
    bad := [], err := false, born := 0, stage := st, came := 0, ready := 0 }
def waitingAt (a : Nat) : State := { live with flume := { live.flume with req := { live.flume.req with wait := [flmBeat a 0] } } }
def landing (a : Nat) : State := { live with flume := { live.flume with req := { live.flume.req with beats := [flmBeat a 3] } } }

theorem wit_DmaAndFlume_beats : live.fnReady 8 = true ∧ live.flume.rsp.wait = [] ∧ live.flume.rsp.beats = [] ∧ live.flume.req.beats = [] ∧
    live.region (flmBeat 0x7FFFFFFFFFFF 0).addr = .nowhere ∧
    (waitingAt 64).routerRefuses 0 64 16 = false ∧ (waitingAt 64).creditFree (.core 0) ((waitingAt 64).pointOf 64) = true ∧
    (flmBeat 64 3).ready ≤ (landing 64).clk.fab ∧ ((landing 64).pathNeeds (.core 0) 64).all (landing 64).fnReady = true ∧ 64 < (landing 64).window ∧
    (landing 64).touchOk (.core 0) (.dram 64) = true ∧ 0 < 16 ∧ 64 % 64 + 16 ≤ 64 ∧ 16 = 16 * [cleanWord 5].length := by decide +kernel

def dreq (w : Bool) (n : Nat) : DramReq :=
  { id := none, ini := .core 0, cls := fin 4 n, addr := 4096 * 15, write := w, enables := BitVec.allOnes 64, bytes := List.replicate 64 3, bad := [],
    close := false, promoted := false }
/-- Both halves serve; channel 15 as given. -/
def serving (f : DramChan → DramChan) : State :=
  (live.modMc (fun m => { m with readyA := true, readyB := true })).modChn 15 (fun x => f { x with up := true, selfRefresh := false })

theorem wit_DramCommands : (let s := serving id
     4096 * 15 < s.window ∧ s.touchOk (.core 0) (.dram (4096 * 15)) = true ∧ s.chanOf (4096 * 15) = 15 ∧ s.mc.readyA = true ∧
     (s.pathNeeds (.core 0) (4096 * 15)).all s.fnReady = true ∧ queueRoom (s.chn 15).queue 0 = true) ∧
    (cold.pathNeeds (.core 0) (4096 * 15)).all cold.fnReady = false ∧ cold.touchOk (.core 0) (.dram (4096 * 15)) = true ∧
    (let s := serving (fun x => { x with queue := List.replicate 40 (dreq true 0) })
     queueRoom (s.chn 15).queue 0 = false) ∧
    (let s := fun w => serving (fun x => { x with queue := [dreq w 0] })
     (s true).chanServes 15 = true ∧ ((s true).chn 15).queue = [dreq true 0] ∧ (∀ k < 16, vgetN 0 ((s true).chn 15).owed k = 0) ∧ (s true).dram.wf ∧
     (dreq true 0).bytes.length = 64 ∧ (dreq true 0).bad = [] ∧ ((s false).chn 15).queue = [dreq false 0]) ∧ live.chanServes 15 = false ∧
    ((serving (fun x => { x with queue := [dreq true 1, dreq true 0] })).chn 15).queue.drop 1 = [dreq true 0] := by decide +kernel

theorem wit_DramCommands_upkeep : (serving id).chanRuns 15 = true ∧ (serving id).mc.fspPend = none ∧ live.chanRuns 15 = false ∧
    8 ≤ vgetN 0 ((serving (fun x => { x with owed := vmodN x.owed 15 (fun _ => 8) })).chn 15).owed 15 ∧
    (serving (fun x => { x with owed := vmodN x.owed 15 (fun _ => 8) })).chanServes 15 = true ∧
    vgetN 0 ((serving id).chn 15).owed 15 < 8 := by decide +kernel

def allPass (b : Bool) : List ChanTrain := List.replicate 16 { pass := b, readTaps := 0, writeTaps := 0 }
/-- Half A's domain is waking and its clock runs, its channels not up. -/
def booting : State := live.modHdg (fun h => { h with doms := vmodN h.doms 5 (fun x => { x with st := .waking, clock := true }) })
def training0 (e : Bool) : State := live.modMc (fun m => { m with training := some { entry := e, fsp := 2 }, readyA := true, readyB := true })
def settled : State := live.modMc (fun m => { m with readyA := true, readyB := true })

theorem wit_DramSequences : booting.halfTrains 0 = true ∧ booting.mc.bootedA = false ∧ (allPass true).length = 16 ∧
    (allPass true).all (·.pass) = true ∧ (allPass false).all (·.pass) = false ∧ (training0 true).halfTrains 0 = false ∧
    (training0 true).mc.training = some { entry := true, fsp := 2 } ∧ (allPass true).length = (training0 true).nCh ∧
    (training0 true).mc.fspPend = none ∧ settled.mc.training = none ∧ settled.atBoundary = true ∧ settled.mcReady = true ∧
    (2 : Fin 3) ≠ settled.mc.fsp ∧ settled.nextGroup settled.mc.scrubPtr < settled.window ∧
    (let s := settled.modMc (fun m => { m with scrubPtr := settled.window - 1 })
     s.mcReady = true ∧ s.mc.training = none ∧ s.window ≤ s.nextGroup s.mc.scrubPtr) := by decide +kernel

theorem wit_DramSequences_sound : ∀ i, settled.dram.syndrome i = 0 := fun _ => rfl

/-! ### The sensor port -/

def recTiny : List Byte := rec 1 128 [(16, 2, 16), (18, 2, 16), (20, 1, 12), (21, 1, 2), (22, 1, 1), (28, 4, 24), (32, 4, 1)]
/-- Links 0 and 1 (or link 0 alone) in service and UP, pictures of 16 x 16 photosites, the take as given. -/
def sensing (en : Nat) (t : TakeState) : State :=
  { live with
    banks := vsetN (vsetN live.banks unitCode (banked recTiny)) unitSns (banked (rec 0 64 [(16, 1, en), (17, 1, 1), (18, 1, 1), (24, 8, 0x400000), (32, 1, 2)])) }.modTake
    (fun x => { x with st := t }) |>.modLink 0 (fun x => { x with st := .up }) |>.modLink 1 (fun x => { x with st := .up })
/-- A packet of link 0: header and payload in `n` - 1 words, then the trailer with the crc. -/
def snsPkt (n : Nat) (f : List (Nat × Nat × Nat)) : SnsPacket :=
  let d := f.foldl put (List.replicate (16 * (n - 1)) 0)
  let crc := crcBytes 0xFFFFFFFF d ^^^ 0xFFFFFFFF
  let w := fun b => cleanWord (BitVec.ofNat 128 (leNat b))
  { link := 0, startLink := 0, n := BitVec.ofNat 16 n, words := (upFrom 0 (n - 1)).map (fun i => w ((d.drop (16 * i)).take 16)) ++ [w (leBytes 4 crc.toNat)] }
def startPkt (width : Nat) : SnsPacket :=
  snsPkt 5 [(0, 1, 1), (2, 2, 7), (16, 2, width), (18, 2, 16), (20, 1, 12), (21, 1, 2), (22, 1, 1)]
def linePkt : SnsPacket := snsPkt 4 [(0, 1, 2), (2, 2, 7), (4, 2, 15), (8, 2, 16)]
def endPkt : SnsPacket := snsPkt 2 [(0, 1, 3), (2, 2, 7)]
def snsPic (ps : List Nat) (ends : List (Fin 4)) : SnsPicture :=
  { number := 0, recorded := true, countPic := 7, slot := some 0, info := [], ends := ends, parcels := ps, ptp := none }
def at0 (s : State) (x : SnsPicture) : State := s.modSns (fun y => { y with pic := some x })

theorem wit_SensorPackets : (live.snsLink 0).st ≠ .up ∧ ((sensing 1 .idle).snsLink 0).st = .up ∧ 2 ≤ linePkt.n.toNat ∧
    crcOk { linePkt with words := linePkt.words.map (fun w => { w with chk := w.chk ^^^ 3 }) } = false ∧ (1 : Half).toNat < 2 ∧
    (at0 (sensing 1 .idle) (snsPic [15] [])).snsJudge linePkt = some .duplicate := by decide +kernel

theorem wit_SensorPackets_start : (let s := sensing 1 .idle
     s.snsJudge (startPkt 16) = none ∧ pktType (startPkt 16) = 1 ∧ s.sns.pic = none ∧ s.ringBusy s.sns.nextSlot = false ∧
     (let d := snsData (startPkt 16)
      let c := s.active unitCode
      leAt d 16 2 = codeWidth c ∧ leAt d 18 2 = codeHeight c ∧ leAt d 20 1 = codeDepth c ∧ leAt d 21 1 = codePeriod c ∧ leAt d 22 1 = codeExposures c) ∧
     s.snsJudge (startPkt 17) = none ∧ leAt (snsData (startPkt 17)) 16 2 ≠ codeWidth (s.active unitCode)) := by decide +kernel

theorem wit_SensorPackets_line : (let s := at0 (sensing 1 .idle) (snsPic [14] [])
     (s.snsLink linePkt.link).st = .up ∧ s.snsJudge linePkt = none ∧ pktType linePkt = 2) ∧
    (let s := at0 (sensing 1 .rolling) (snsPic [] [])
     s.snsJudge linePkt = none ∧ s.take.st = .rolling ∧ (bankOf s 0).ready = false) ∧
    (let s := at0 (sensing 3 .rolling) (snsPic [] [])
     s.snsJudge endPkt = none ∧ pktType endPkt = 3 ∧ s.snsEnabled 1 = true ∧ (1 : Fin 4) ≠ endPkt.link ∧ (1 : Fin 4) ∉ (snsPic [] []).ends) ∧
    (let s := at0 (sensing 3 .rolling) (snsPic [] [1])
     s.snsJudge endPkt = none ∧ ∀ k : Fin 4, s.snsEnabled k.1 = true → k = endPkt.link ∨ k ∈ (snsPic [] [1]).ends) := by decide +kernel

def linkAt (st : SnsLinkState) : State := (sensing 1 .idle).modLink 0 (fun x => { x with st := st })
def domOn (s : State) (d : Nat) : State := s.modHdg (fun h => { h with doms := vmodN h.doms d (fun x => { x with st := .on }) })

theorem wit_SensorLinks : (let s := domOn (linkAt .down) 7
     (s.snsLink 0).st = .down ∧ s.snsEnabled 0 = true ∧ (s.dom 7).st = .on) ∧ ((linkAt .equalize).snsLink 0).st = .equalize ∧
    ((linkAt .align).snsLink 0).st = .align ∧ ((linkAt .up).snsLink 0).st = .up ∧
    (at0 (sensing 1 .idle) (snsPic [] [])).sns.pic.isSome = true ∧ live.sns.pic = none ∧
    (let s := { live with banks := vsetN live.banks 13 { Bank.empty with retiring := some { bytes := recMc, coef := [], lut := [] } } }
     (bankOf s 13).retiring.isSome = true ∧ s.oldWork 13 = false) := by decide +kernel

/-! ### The ledger, the log and the magazine ports -/

/-- The small setup in effect, ledger 0 sized and as given, rolling with pictures `ps`. -/
def rolled (ps : List Picture) (f : Ledger → Ledger) : State :=
  ({ live with banks := setupBanks banked }.modTake (fun x => { x with st := .rolling, pics := ps })).modLedger 0 (fun l =>
    f { l with sizes := some (ledgerSizes recCode recLog recLedger 0) })
def spillUnit : LogUnit :=
  { addr := 0, bytes := List.replicate 16 1, picture := none, header := false, trailer := false, flushAfter := false, given := false, other := none }
def small : LedgerSizes := { LedgerSizes.none with fMax := 50, h := 10, cap := 100, z := 20, tNs := 1000, f := [40], g := [60], spillLen := 100, pMax := 200 }
def sized (ps : List Picture) (f : Ledger → Ledger) : State := (rolled ps id).modLedger 0 (fun l => f { l with sizes := some small })
abbrev Opens (s : State) (p : Picture) : Prop := s.nextToOpen = some p ∧ s.take.st = .rolling ∧ s.ledgerOf p.number = 0 ∧ s.ledgerFree 0 = true ∧
  (s.ledger 0).sizes.isSome = true ∧ s.logRoom 0 = true ∧ p.dropped = none
def full (w : Bool) : State := sized [pic0 0] (fun l => { l with fill := 60, waited := w })

theorem wit_LedgerOpening : (let s := rolled [pic0 0] id
     let l := s.ledger 0
     Opens s (pic0 0) ∧ s.dropTest 0 = false ∧ l.fill - l.credit s.clk.fab + l.pend + l.sz.fMax ≤ l.sz.cap) ∧
    (∀ w : Bool, Opens (full w) (pic0 0) ∧ (full w).dropTest 0 = false ∧ ((full w).ledger 0).waited = w ∧
      ((full w).ledger 0).sz.cap < ((full w).ledger 0).fill - ((full w).ledger 0).credit (full w).clk.fab + ((full w).ledger 0).pend +
        ((full w).ledger 0).sz.fMax) ∧
    (let s := sized [pic0 0] (fun l => { l with spill := [spillUnit] })
     let l := s.ledger 0
     Opens s (pic0 0) ∧ s.dropTest 0 = true ∧ l.fill - l.credit s.clk.fab + l.pend + l.sz.z ≤ l.sz.cap) := by decide +kernel

def openPic : Picture := { pic0 0 with opened := true }
def grant0 : Grant := { picture := 0, band := 0, amount := 60, floor := false }
def tile0 : TileUnit := { tile := 0, bytes := [1, 2, 3, 4], mode := 0, flags := 0 }

theorem wit_LedgerBands : (let s := sized [openPic] (fun l => { l with res := 40 })
     s.nextToDispatch = some openPic ∧ s.ledgerOf openPic.number = 0 ∧ (s.ledger 0).grants.length < 4 ∧ s.tileReady openPic 0 = true) ∧
    (let p := { openPic with nextBand := 1, units := [tile0] }
     let s := sized [p] (fun l => { l with pend := 60, grants := [grant0] })
     s.oldest 0 = some p ∧ (s.ledger 0).grants.find? (fun x : Grant => x.picture = p.number && x.band = p.charged.length) = some grant0 ∧
     p.dropped = none ∧ p.bandFinal (s.active unitCode) p.charged.length = true) ∧ live.oldest 0 = none := by decide +kernel

theorem wit_LedgerCloses : (let p := { openPic with nextBand := 1, units := [tile0] }
     let s := sized [p] id
     s.arrangement ≠ 2 ∧ s.take.pics.find? (fun p : Picture => p.opened && !p.closing && decide (s.ledgerOf p.number = 0)) = some p ∧
     s.oldest 0 = some p ∧ p.nextBand = tilesY (s.active unitCode) ∧ p.charged.length ≠ tilesY (s.active unitCode)) ∧
    (let p := { openPic with nextBand := 1, units := [tile0], charged := [0], closing := true }
     let s := sized [p] id
     s.take.pics.find? (fun p : Picture => p.opened && !p.closing && decide (s.ledgerOf p.number = 0)) = none ∧ s.oldest 0 = some p ∧
     s.take.st = .rolling ∧ p.charged.length = tilesY (s.active unitCode)) ∧
    (let s := sized [] (fun l => { l with spill := [spillUnit] })
     s.arrangement = 0 ∧ (s.ledger 0).spill = spillUnit :: (s.ledger 0).spill.drop 1 ∧ spillUnit.given = false ∧ s.ledgerPending 0 = 0) ∧ (live.ledger 0).spill = [] := by
  decide +kernel

/-- Magazine 0 READY with two I/O queues of 256 entries. -/
def port0 (f : MagPort → MagPort) : State :=
  (rolled [] id).modMag 0 (fun p => f { p with st := .ready, present := true, gate := true, perstN := true, ioq := 2, qdepth := 256, nextQueue := 2 })

theorem wit_LogSubmits : (let s := (port0 id).modLog 0 (fun g => { g with units := [spillUnit] })
     let x := s.mag 0
     let g := s.active unitLog
     x.st = .ready ∧ (s.log 0).units = [spillUnit] ∧ 0 < x.room x.nextQueue ∧ 0 < spillUnit.bytes.length ∧ spillUnit.bytes.length ≤ x.maxBytes ∧
     spillUnit.bytes.length ≤ extentLeft g 0 (logExtents g 0) 0 spillUnit.addr ∧
     x.undone (lbaOf g 0 spillUnit.addr) (spillUnit.bytes.length / Nat.max 1 (logLbaBytes g 0)) = false) ∧
    (let x := (port0 (fun p => { p with flushDue := [5] })).mag 0
     x.st = .ready ∧ x.flushDue = [5] ∧ 0 < x.room 2 ∧ x.cmds.any (fun c => c.isWrite && decide (c.order < 5)) = false) ∧
    ((port0 (fun p => { p with dsmTodo := [(0, 8)] })).mag 0).dsmTodo ≠ [] ∧ (live.mag 0).st ≠ .ready := by decide +kernel

def writeCmd (tries : Nat) : NvmeCmd :=
  { cid := 4, order := 4, queue := 2, opcode := 1, nsid := 1, slba := 0, nlb := 0, bytes := 4096, tries := tries, purpose := .write spillUnit true }
def busyPort (tries : Nat) : State := port0 (fun p => { p with cmds := [writeCmd tries], nextCid := 5 })

theorem wit_NvmeOutcomes : (let s := busyPort 2
     (s.mag 0).cmds.find? (fun y => y.cid = 4) = some (writeCmd 2) ∧ (writeCmd 2).purpose = .write spillUnit true ∧ nvmeCode 0 = 0 ∧
     (s.session 0).params = none ∧ (s.session 0).phase = .off ∧ s.take.st = .rolling ∧ nvmeCode 0x0008 ≠ 0 ∧ nvmeDnr 0x0008 = false ∧
     (writeCmd 2).tries < 3 ∧ (s.mag 0).st = .ready) ∧ (live.mag 0).cmds.find? (fun y => y.cid = 4) = none ∧ (live.mag 0).cmds = [] := by
  decide +kernel

def magAt (st : MagState) : State := live.modMag 0 (fun p => { p with st := st })

theorem wit_MagazinePorts : (let s := domOn live 8
     (s.mag 0).st = .absent ∧ (s.dom 8).st = .on) ∧ ((magAt .powering).mag 0).st = .powering ∧
    (let s := (magAt .training).modMag 0 (fun p => { p with perstN := true })
     (s.mag 0).st = .training ∧ (s.mag 0).perstN = true) ∧ ((magAt .training).mag 0).perstN = false ∧
    (let s := (magAt .init).modMag 0 (fun p => { p with initStep := 2 })
     (s.mag 0).st = .init ∧ (s.mag 0).initStep = 2) ∧ ((port0 id).mag 0).gate = true ∧ ((port0 id).mag 0).st ≠ .powering ∧
    (live.mag 0).gate = false ∧
    (let s := { port0 id with banks := live.banks }
     (s.mag 0).st = .ready ∧ (s.mag 0).eject = .none ∧ s.usesMag 0 = false ∧ 0 < (s.mag 0).ioq) ∧ (port0 id).usesMag 0 = true ∧
    ((port0 (fun p => { p with eject := .shutdown })).mag 0).eject = .shutdown := by decide +kernel

/-! ### Tile engines and the reference pool -/

def pic1 : Picture := { openPic with nextBand := 1, tilesOut := [0] }
/-- The small setup rolling with picture 0, cluster 0 on, the queue and engine 3 as given. -/
def tiling (q : List (Nat × Nat)) (f : Engine → Engine) : State :=
  let s := domOn (sized [pic1] id) 12
  { s with tileQueue := q }.setEngine 3 (f (engineReset 3))
def captures3 (f : Engine → Engine) : State := tiling [] (fun x => f { x with run := .capture 0 0 })

/-- What the units' operations answer. -/
def step0 : MicroStep :=
  { cond := true, lanes := 0, vector := [], scalar := 0, gather := [], loops := [], dispatch := 0, units := Datapath.atReset }
/-- A safe microword of SEQ code `q`, with NEXT 0x8000. -/
def seqWord (q : Nat) : BitVec 256 := BitVec.ofNat 256 (0x8000 + q * 2 ^ 16 + 2 ^ 29)
/-- Engine 3, in its tile routine, is to fetch word `w` from address `a` of the patch RAM of cluster 0. -/
def micro (w : BitVec 256) (a : Nat) (f : Sequencer → Sequencer) (g : Engine → Engine) : State :=
  (captures3 (fun x => g { x with seq := f { x.seq with uaddr := BitVec.ofNat 16 a } })).modCluster 0 (fun c => { c with
    store := Store.empty.write (32 * a) (leBytes 32 w.toNat) })

theorem wit_TileEngines : mapWf engineReset (tiling [] id).engines ∧ (tiling [] id).tileQueue = [] ∧
    (let s := tiling [(0, 0)] id
     s.picOf 0 = some pic1 ∧ pic1.dropped = none ∧ s.tileReady pic1 0 = true ∧ s.nextEngine.isSome = true ∧
       ∀ j : Fin 272, s.nextEngine = some j.1 → (s.engine j.1).run = .idle) ∧
    (let s := { rolled [pic1] id with tileQueue := [(0, 0)] }
     s.picOf 0 = some pic1 ∧ s.tileReady pic1 0 = true ∧ s.nextEngine = none ∧ (s.engine 271).run = .idle) ∧
    (let s := captures3 id
     let x := s.engine 3
     mapWf engineReset s.engines ∧ x.run = .capture 0 0 ∧ x.halted = false ∧ x.fault = none ∧ x.preempt = none ∧ x.snapshot = false ∧ x.halt = false ∧
       x.stop = false ∧ x.out = none ∧ s.picOf 0 = some pic1 ∧ s.tileArrived pic1 0 true = true ∧ s.atBoundary = false) ∧
    (let s := micro (seqWord 8) 0x8000 id (fun x => { x with stop := true })
     mapWf engineReset s.engines ∧ (s.engine 3).run = .capture 0 0 ∧ (s.engine 3).stop = true ∧ s.atSafePoint 3 = true) ∧
    (let p := { pic1 with ended := false }
     let s := (captures3 id).modTake (fun t => { t with pics := [p] })
     s.picOf 0 = some p ∧ s.tileArrived p 0 true = false) ∧
    (∀ i < 16, (live.engine (16 * 16 + i)).run = .idle) ∧ mapWf regReset live.regs := by decide +kernel

/-- SEQ code 9 in the word that engine 3 fetches. -/
theorem wit_TileEngines_fault : (let s := micro (seqWord 9) 0x8000 id id
     mapWf engineReset s.engines ∧ (s.engine 3).run = .capture 0 0 ∧ (s.engine 3).halted = false ∧ (s.engine 3).out = none ∧ s.atBoundary = false ∧
     (s.engine 3).fault = none ∧ Issues s 3 ∧ 9 ≤ mwSeq (Fetched s 3)) := by decide +kernel

abbrev Ready3 (s : State) : Prop := mapWf engineReset s.engines ∧ (s.engine 3).run = .capture 0 0 ∧ (s.engine 3).halted = false ∧
  (s.engine 3).out = none ∧ (s.engine 3).seq.maint = false ∧ s.atBoundary = false
def stacked (n : Nat) (q : Sequencer) : Sequencer := { q with stack := List.replicate n 5, loops := Vector.replicate 4 3 }
abbrev FetchAt (s : State) : Nat := s.fetchAddr (s.storeOf 3) (s.engine 3).seq.uaddr.toNat

theorem wit_MicrowordIssue : (∀ q < 9, let s := micro (seqWord q) 0x8000 (stacked 7) id
     Ready3 s ∧ Issues s 3 ∧ mwSeq (Fetched s 3) = q ∧ mwEvt (Fetched s 3) = 0 ∧ mwTmop (Fetched s 3) = 0 ∧ FetchAt s = 0x8000 ∧
       (s.engine 3).seq.stack.length < 8 ∧ (s.engine 3).seq.stack = 5 :: List.replicate 6 5 ∧
       1 < vgetN 0 (s.engine 3).seq.loops (mwLctr (Fetched s 3)) ∧ (step0.cond != mwPol (Fetched s 3)) = true ∧
       (({ step0 with cond := false } : MicroStep).cond != mwPol (Fetched s 3)) = false) := by decide +kernel

def deep : State := micro (seqWord 3) 0x8000 (stacked 8) id
def shallow : State := micro (seqWord 4) 0x8000 id id
def pageEnd : State := micro (seqWord 0) 0x81FF id id
def outside : State := micro (seqWord 0) 0x8400 id id
def marked : State := micro (seqWord 0 ||| BitVec.twoPow 256 31) 0x8000 id id
def long : State := micro 0 0x8000 (fun q => { q with gap := 64 }) id
def plain : State := micro (seqWord 0) 0x8000 id id

theorem wit_MicrowordIssue_stack : Ready3 deep ∧ Issues deep 3 ∧ mwSeq (Fetched deep 3) = 3 ∧ 8 ≤ (deep.engine 3).seq.stack.length ∧
    Ready3 shallow ∧ Issues shallow 3 ∧ mwSeq (Fetched shallow 3) = 4 ∧ (shallow.engine 3).seq.stack = [] := by decide +kernel

theorem wit_MicrowordIssue_region : Ready3 pageEnd ∧ Issues pageEnd 3 ∧ mwSeq (Fetched pageEnd 3) = 0 ∧ FetchAt pageEnd = 0x81FF ∧
    Ready3 outside ∧ 0x8400 ≤ FetchAt outside := by decide +kernel

abbrev Fetches (s : State) : Prop := Ready3 s ∧ FetchAt s = 0x8000 ∧ s.storeVerdict (s.storeOf 3) 0x10000 = .clean ∧
  s.storeVerdict (s.storeOf 3) 0x10001 = .clean

theorem wit_MicrowordIssue_words : Fetches marked ∧ mwReserved (Fetched marked 3) = true ∧ Fetches long ∧ mwReserved (Fetched long 3) = false ∧
    mwSafe (Fetched long 3) = false ∧ 64 ≤ (long.engine 3).seq.gap := by decide +kernel

theorem wit_MicrowordIssue_uncorrectable : Ready3 plain ∧ FetchAt plain = 0x8000 ∧ plain.storeOf 3 < 17 ∧
    (verdict (((plain.cluster (plain.storeOf 3)).store.upset 0x10000 3).syndrome 0x10000)).bad = true := by decide +kernel

def maint (k : MaintKind) (g : Bool) : EngineRun := .maint { kind := k, abandoned := 0, guarded := g }
def idle3 (q : List MaintReq) : State := { domOn live 12 with maintQueue := q }
def runs3 (k : MaintKind) : State := (idle3 []).setEngine 3 { engineReset 3 with run := maint k false }
/-- A patch image of one microword for no cluster. -/
def patchHead : List Byte := [(0, 4, 0x54415054), (4, 2, 9), (12, 2, 1)].foldl put (List.replicate 124 0)
def patchImage : List Byte := patchHead ++ z60 ++ z60 ++ z60 ++ leBytes 4 1078130137
def patchReq : PatchReq := { cmd := none, image := patchImage, bad := false }
def patching : State := (idle3 []).setEngine 3 { engineReset 3 with run := maint (.patchLoad patchReq) false }

theorem patch_crc : checkValue 0 0xFFFE 9 (patchHead ++ z60 ++ z60 ++ z60) = 1078130137 := by
  have h1 : crcBytes (crcSeed 0 0xFFFE 9) (patchHead.take 62) = 3397072123 := by decide +kernel
  have h2 : crcBytes 3397072123 (patchHead.drop 62) = 3384496740 := by decide +kernel
  have h3 : crcBytes 3384496740 z60 = 3296983208 := by decide +kernel
  have h4 : crcBytes 3296983208 z60 = 3727359093 := by decide +kernel
  have h5 : crcBytes 3727359093 z60 = 3216837158 := by decide +kernel
  have e : patchHead = patchHead.take 62 ++ patchHead.drop 62 := (List.take_append_drop _ _).symm
  unfold checkValue
  rw [e, crc_append, crc_append, crc_append, crc_append, h1, h2, h3, h4, h5]
  decide

theorem patch_sound : patching.patchRefusal patchReq = none := by
  have c : leAt patchImage (272 + 32 * leAt patchImage 12 2) 4 = (checkValue 0 0xFFFE (leAt patchImage 4 2) (patchImage.take (272 + 32 * leAt patchImage 12 2))).toNat := by
    have h : patchImage.take (272 + 32 * leAt patchImage 12 2) = patchHead ++ z60 ++ z60 ++ z60 := by decide +kernel
    have n : leAt patchImage 4 2 = 9 ∧ leAt patchImage (272 + 32 * leAt patchImage 12 2) 4 = 1078130137 := by decide +kernel
    rw [h, n.1, n.2, patch_crc]
    decide
  unfold State.patchRefusal
  refine (if_neg ?_).trans ((if_neg ?_).trans ((if_neg ?_).trans ((if_neg ?_).trans ((if_neg ?_).trans ((if_neg (fun h => h c)).trans (if_neg ?_))))))
  all_goals decide +kernel

theorem wit_EnginesAndSlots : mapWf engineReset (idle3 []).engines ∧ live.engineUp 3 = false ∧ (idle3 []).engineUp 3 = true ∧
    ((idle3 []).engine 3).run = .idle ∧ ((idle3 []).engine 3).halted = false ∧ (idle3 []).maintQueue = [] ∧
    (idle3 [{ kind := .swapIn 0, abandoned := 8, guarded := false }]).runnable 3 { kind := .swapIn 0, abandoned := 8, guarded := false } = true ∧
    (patching.engine 3).run = maint (.patchLoad patchReq) false ∧ patching.takeActive = false ∧ mapWf engineReset patching.engines ∧
    (let s := runs3 (.swapIn 271)
     (s.engine 3).run = maint (.swapIn 271) false ∧ s.takeActive = false ∧ (271 : Nat) ≠ 16 * spareCluster (271 / 16) + 15 ∧
       (s.cluster (spareCluster (271 / 16))).spareUsed = false ∧ mapWf engineReset s.engines) ∧
    live.runner (fun c => decide (c = 0)) .scrub = none ∧ (runs3 .scrub).runner (fun c => decide (c = 0)) .scrub = some 3 := by decide +kernel

def unitSlot (f : Slot → Slot) : State := (rolled [] id).modSlot 3 (fun x => f { x with base := some 0x4000, size := 65536 })
def shorts (n : Nat) : State := { rolled [] id with
  banks := vsetN (rolled [] id).banks unitRef (banked (rec 4 128 [(16, 1, n)])) }.modSlot 3 (fun x => { x with mark := .short, picture := 4 })

theorem wit_EnginesAndSlots_pool : (let s := unitSlot (fun x => { x with mark := .short })
     (s.slot 3).move = none ∧ (s.slot 3).base.isSome = true) ∧
    (let s := ((runs3 (.slotMove 3)).modSlot 3 (fun x => { x with base := some 0x4000, size := 65536, move := some (0, 0x8000) }))
     (s.slot 3).move = some (0, 0x8000) ∧ (s.slot 3).base.isSome = true ∧ s.runner (fun _ => true) (.slotMove 3) = some 3 ∧
       (s.slot 3).size ≤ 65536 * 0 + 65536 ∧ mapWf engineReset s.engines) ∧ live.nextRelease = none ∧
    (∀ b : Bool, let s := (shorts 2).modSlot 5 (fun x => { x with mark := .held, current := true, final := b })
     s.nextRelease = some 5 ∧ (s.slot 5).final = b ∧ (s.slotsWhere Slot.isShort).length < refShortMax (s.active unitRef)) ∧
    ((shorts 2).slotsWhere Slot.isShort).length ≤ refShortMax ((shorts 2).active unitRef) ∧
    (refShortMax ((shorts 0).active unitRef) < ((shorts 0).slotsWhere Slot.isShort).length ∧ ((shorts 0).slot 3).mark = .short ∧
      (shorts 0).inList 3 = false) ∧ (live.slot 3).source = none ∧
    (∀ m ∈ [Mark.viewIn, .pendingIn], let s := (shorts 2).modSlot 5 (fun x => { x with mark := m, source := some 0, ptp := 5 })
     (s.slot 5).source = some 0 ∧ s.windowPassed 0 5 = false ∧ (s.modTake (fun t => { t with lastPtp := 1000000000 })).windowPassed 0 5 = true ∧
       (s.modTake (fun t => { t with lastPtp := 1000000000 })).inList 5 = false ∧ (s.slot 5).mark = m) := by decide +kernel

/-! ### Proxy streams and decode sessions -/

/-- A set of stream 0: two rows of two 16 x 16 CTUs, sender reports on. -/
def pxySet0 : List Byte := [(40, 2, 32), (42, 2, 32), (26, 1, 16), (78, 2, 1000), (80, 2, 5), (82, 1, 42)].foldl put (List.replicate 256 0)
def setRec : SetupRecord := { bytes := pxySet0, coef := [], lut := [] }
def endedPic : StreamPic := { slot := none, base := 0, ptp := 0, ended := true, old := 0, times := [], endAt := 0 }
def waitingPic : StreamPic := { endedPic with ended := false }
def coding (p : StreamPic) (row : Nat) : State :=
  { live with banks := vsetN (vsetN live.banks 5 (banked pxySet0)) unitCode (banked recCode) }.modStream 0 (fun x => { x with
    pics := [p], run := true, row := row, set := some setRec, code := recCode })

/-- A CTU of one intra unit without a coded block. -/
def ctu0 : CtuCode := { sao := .left, tree := .unit (.intra false [1] 4 0 (.leaf [] [] [])), bits := [], least := [] }
def slice0 : SliceChoice := { saoLuma := false, saoChroma := false, mergeFewer := 0, qp := 0 }
/-- Stream 1 of the same core became ready earlier than stream 2, whose picture ended later. -/
def behind : State := (coding { endedPic with endAt := 5 } 0).modStream 1 (fun x => { x with pics := [endedPic], run := true, row := 1, set := some setRec })
def pxyOf (m : Fin 4) (s : State) : Option SetupRecord := if (s.stream m).row = 0 then s.pxySet m endedPic else (s.stream m).set

theorem wit_ProxyStreams : (live.stream 0).pics = [] ∧ (live.stream 0).eob = false ∧
    (let s := coding waitingPic 0
     (s.stream 0).pics = [waitingPic] ∧ s.pxySet 0 waitingPic = some setRec ∧
       (waitingPic.ended || s.rowLines waitingPic setRec.bytes (s.active unitCode) 0) = false) ∧
    (behind.stream 0).pics = [{ endedPic with endAt := 5 }] ∧ behind.pxySet 0 { endedPic with endAt := 5 } = some setRec ∧
    behind.rowFirst 0 ({ endedPic with endAt := 5 }, setRec, behind.active unitCode) = false ∧
    (∀ row : Fin 2, let s := coding endedPic row.1
     let x := s.stream 0
     let c := if x.row = 0 then s.active unitCode else x.code
     x.pics = [endedPic] ∧ pxyOf 0 s = some setRec ∧ s.rowFirst 0 (endedPic, setRec, c) = true ∧
       (∀ idr, rowLegal setRec.bytes slice0 idr x.row [ctu0, ctu0] = true) ∧ x.run = true) ∧
    (0 : Nat) + 1 < pxyRows setRec.bytes ∧ pxyRows setRec.bytes ≤ 1 + 1 ∧
    pxyRtcpInterval ((coding endedPic 0).active (unitPxy 0)) ≠ 0 ∧ ((coding endedPic 0).flow 4).queue.length < 64 ∧
    (live.stream 0).run = false := by decide +kernel

def sesParams : PlayParams :=
  { kind := 0, outCount := 4, tileStatus := false, mag := 0, reverse := false, follow := false, core := 0, netPort := 0, cmpSlot := none,
    areaPics := 1, pt := 96, preroll := 0, outCtrl := 0x1000, outBuf := 0x2000, reportBase := 0x8000, logLba := 0, areaBase := 0, outStride := 0x1000,
    reportCount := 4, first := 0, last := 9, rateNum := 24, rateDen := 1, ssrc := 5, jitter := 1, maxW := 64, maxH := 64, maxRate := 24,
    udpPort := 5004, areaLen := 65536, nsid := 1, lbaBytes := 4096 }
/-- The picture of two tiles in hand. -/
def code2 : List Byte := [(16, 2, 512), (18, 2, 64), (20, 1, 12), (21, 1, 2), (22, 1, 1), (28, 4, 24), (32, 4, 1)].foldl put (List.replicate 36 0)
def sesTake2 : PlayTake := { device := 9, tag := 1, code := code2, arrangement := 0, extents := [(0, 16)] }
def sesPic : PlayPicture := { number := 0, addr := 0, record := [], failed := [], tiles := [], status := [], unsound := [], unresolved := 0 }
def owed : PendingCmd := { ring := 0, gen := 0, tag := 7, opcode := 0x09 }
def ses (k : Fin 9) (f : Session → Session) : State :=
  live.modSession k (fun x => f { x with params := some sesParams, cmd := some owed })
def deciding (run : EngineRun) : State :=
  (domOn (ses 0 (fun x => { x with phase := .decode, take := some sesTake2, pic := some sesPic })) 12).setEngine 3 { engineReset 3 with run := run }
def goodAu : AccessUnit :=
  { profileIdc := 1, main422 := false, levelIdc := 120, width := 8, height := 8, rate := 24, slicesOk := 0, ctu := 16, lost := [],
    usesConcealed := false }
/-- An access unit of one IDR slice, and one of another picture. -/
def unit0 : RxUnit := { timestamp := 9, ptp := 5, packets := [(1, [38, 1, 0])], marker := true, gap := false, fresh := false }
def unit1 : RxUnit := { unit0 with packets := [(1, [2, 1, 0])] }
def decoded0 : ReturnPicture :=
  { timestamp := 9, ptp := 5, concealed := false, degraded := false, width := 8, height := 8, format := 3, ctu := 16, lost := [] }

theorem wit_DecodeSessions : (live.session 0).params = none ∧
    (let s := deciding .idle
     mapWf engineReset s.engines ∧ (s.engine 3).run = .idle ∧ s.engineUp 3 = true ∧ (s.engine 3).halted = false ∧
       (s.session 0).phase = .decode ∧ (s.session 0).take = some sesTake2 ∧ (s.session 0).pic = some sesPic ∧ (s.session 0).stopping = false ∧
       s.nextPlayTile sesPic sesTake2 = some 0 ∧ s.captureWaits = false) ∧
    ((tiling [(0, 0)] id).captureWaits = true ∧ ((tiling [(0, 0)] id).engine 3).run = .idle) ∧
    (let s := deciding (.decode 0)
     let g := s.engine 3
     mapWf engineReset s.engines ∧ g.run = .decode 0 ∧ g.halted = false ∧ g.stop = false ∧ g.fault = none ∧ g.preempt = none ∧
       (s.session 0).params = some sesParams ∧ sesPic.status.length + 1 < tilesN sesTake2.code ∧ mapWf (fun _ => []) sesPic.tiles) ∧
    ((ses 1 (fun x => { x with stopping := true })).session 1).stopping = true ∧
    (let s := ses 1 (fun x => { x with produced := 4 })
     (s.session 1).stopping = false ∧ s.outputRoom 1 = false) ∧
    (let s := ses 1 (fun x => { x with ready := [decoded0] })
     s.outputRoom 1 = true ∧ (s.session 1).ready = [decoded0]) ∧
    (let s := ses 0 (fun x => { x with phase := .output, take := some sesTake2 })
     s.outputRoom 0 = true ∧ (s.session 0).phase = .output ∧ (s.session 0).take = some sesTake2 ∧ sesParams.follow = false ∧ s.outputDue sesParams sesTake2 = true ∧
       sesParams.after (s.session 0).next = some 1) ∧
    (let s := ses 1 (fun x => { x with recent := 24 })
     sesParams.rateNum * 65536 ≤ (s.session 1).recent * 65536 * sesParams.rateDen ∧ (s.session 1).cmd = some owed) ∧
    (let s := ses 1 (fun x => { x with queue := [unit0] })
     (s.session 1).queue = [unit0] ∧ (s.session 1).ready = []) ∧ unit0.irap = true ∧ unit0.rasl = false ∧ auRejected sesParams goodAu = false ∧
    auRejected sesParams { goodAu with levelIdc := 187 } = true ∧
    (let s := ses 1 (fun x => { x with queue := [unit1], untilIrap := true })
     (s.session 1).queue = [unit1] ∧ (s.session 1).ready = [] ∧ unit1.irap = false ∧ (s.session 1).untilIrap = true) ∧
    (live.session 1).opens = [] ∧
    (let s := ses 1 (fun x => { x with opens := [unit0] })
     (s.session 1).opens = [unit0] ∧ (s.session 1).queue.length < 8 ∧ (s.session 1).discarding = false) ∧
    (let s := ses 1 (fun x => { x with opens := [unit0], queue := List.replicate 8 unit1 })
     (s.session 1).opens = [unit0] ∧ 8 ≤ (s.session 1).queue.length) := by decide +kernel

/-! ### Ethernet, PTP and Sluice -/

/-- The NET record of PTP port 0, domain 0, is active, and the time base follows Ethernet; the selected master is 5. -/
def netted : State :=
  { live with banks := vsetN (vsetN live.banks unitNet (banked (List.replicate 48 0))) unitKsl (banked (put (List.replicate 64 0) (52, 1, 1)))
              ptp := { live.ptp with master := 5, reqOut := true, reqSeq := 3, haveSync := true, awaitFollow := true, syncSeq := 3 } }
def frame0 : EthFrame :=
  { fcsOk := true, pause := false, toMac := true, toIp := true, fragment := false, ipSumOk := true, udpSumOk := true, udpPort := some 5004,
    etherPtp := false, ptpDomain := 0, rtcp := none, rtp := none }
def linked (s : State) : State := { s with ptp := { s.ptp with linkUp := vset s.ptp.linkUp 0 true } }
def rtp0 : RtpPacket := { ssrc := 5, pt := 96, seq := 1, timestamp := 9, marker := false, payload := [38, 1, 0] }
def msg (id : DWord) (best two : Bool) (stamp : Int) : PtpMsg :=
  { version := 2, domain := 0, clockId := id, seqId := 3, stamp := stamp, twoStep := two, utcOffset := 37, best := best, interval := 0 }
/-- The fields of the selected master's exchange. -/
def exchange : State := { netted with ptp := { netted.ptp with t1 := 0, t2 := 100, t3 := 0 } }

theorem wit_NetworkPorts : vget live.ptp.linkUp 0 = false ∧ vget (linked live).ptp.linkUp 0 = true ∧
    (linked netted).ethPtp 0 { frame0 with etherPtp := true } = true ∧
    (let s := linked (ses 1 id)
     s.ethPtp 0 frame0 = false ∧ s.ethSessions 0 frame0.udpPort = [1] ∧ ({ frame0 with rtp := some rtp0 } : EthFrame).rtp = some rtp0) ∧
    (linked live).ethSessions 0 frame0.udpPort = [] ∧ ({ frame0 with rtcp := some 2 } : EthFrame).rtcp = some 2 ∧ live.fromMaster (msg 5 true false 0) = false ∧
    netted.fromMaster (msg 5 true false 0) = true ∧ netted.ptp.awaitFollow = true ∧ (msg 5 true false 0).seqId = netted.ptp.syncSeq ∧
    (msg 5 true false 0).seqId = netted.ptp.reqSeq ∧ ((100 - 0) - (0 - 0) : Int) % 2 = 0 ∧ exchange.ptp.t2 = 100 ∧
    exchange.fromMaster (msg 5 true false (-5000)) = true ∧ exchange.takeActive = false ∧ netted.ptpTaken (msg 5 true false 0) = true ∧
    (msg 6 true false 0).clockId ≠ netted.ptp.master ∧ netted.timeSource = 1 ∧ netted.ptp.master ≠ 0 ∧ live.timeSource ≠ 1 := by decide +kernel

def packet0 : SluPacket := plainPacket .time 64 none
/-- Flow 18 of port 2 holds one packet. -/
def offered : State := live.setFlow 18 { flowReset 18 with queue := [packet0] }

theorem wit_SluiceScheduling : mapWf flowReset offered.slu.flows ∧
    (rotate (vgetN 0 offered.slu.ptr0 2) (offered.flowsOf 2 0)).find? offered.flowEligible = some 18 ∧ (offered.flow 18).queue = [packet0] ∧
    (offered.flow 18).moving = none ∧ (∀ g < 64, (live.flow g).port = (5 : Fin 6).1 → (live.flow g).queue = []) := by decide +kernel

/-! ### Kalsal -/

def portAt (f : KslPort → KslPort) : State := live.modPort 0 (fun x => f { x with st := .active })
/-- A flit with sequence number 0 and no words; `d` spoils its header. -/
def flit0 (d : Nat) : Flit :=
  let h := [1, 0, 0, 0] ++ List.replicate 20 (0 : Byte)
  let h := h ++ leBytes 4 ((crcPlain h).toNat + d)
  { hdr := h ++ leBytes 4 1502459009, words := [] }
def txFlit0 : TxFlit := { vc := 0, origin := 4, held := none, sop := true, eop := true, words := [], event := none }

theorem flit_body : bodySound (flit0 0) = true := by
  have h1 : crcBytes 0xFFFFFFFF ((flit0 0).hdr.take 28) = 3080238136 := by decide +kernel
  have h2 : crcBytes 3080238136 (List.replicate 48 (0 : Byte)) = 2493084981 := by decide +kernel
  have h3 : crcBytes 2493084981 (List.replicate 48 (0 : Byte)) = 4164182025 := by decide +kernel
  have h4 : crcBytes 4164182025 (List.replicate 48 (0 : Byte)) = 2479541095 := by decide +kernel
  have h5 : crcBytes 2479541095 (List.replicate 48 (0 : Byte)) = 1282343222 := by decide +kernel
  have h6 : crcBytes 1282343222 (List.replicate 48 (0 : Byte)) = 3965898290 := by decide +kernel
  have h7 : crcBytes 3965898290 (List.replicate 48 (0 : Byte)) = 2792508286 := by decide +kernel
  have e : flitBody [] = List.replicate 48 (0 : Byte) ++ List.replicate 48 0 ++ List.replicate 48 0 ++ List.replicate 48 0 ++ List.replicate 48 0 ++
      List.replicate 48 0 := by decide +kernel
  have w : (flit0 0).words.map mended = [] := rfl
  have c : crcPlain ((flit0 0).hdr.take 28 ++ flitBody []) = 1502459009 := by
    unfold crcPlain
    rw [e, crc_append, crc_append, crc_append, crc_append, crc_append, crc_append, h1, h2, h3, h4, h5, h6, h7]
    decide
  unfold bodySound
  rw [w, c]
  decide +kernel

theorem wit_KalsalLink : live.portActive 0 = false ∧ live.ksl.wait = [] ∧ (portAt id).portActive 0 = true ∧ leAt (flit0 0).hdr 0 1 = 1 ∧
    headSound (flit0 0) = true ∧ leAt (flit0 0).hdr 4 2 = ((portAt id).kslPort 0).rxSeq.toNat ∧
    (let x := (portAt (fun x => { x with rxSeq := 1 })).kslPort 0
     (x.rxSeq - BitVec.ofNat 16 (leAt (flit0 0).hdr 4 2)).toNat = 1) ∧
    (let x := (portAt (fun x => { x with rxSeq := 512 })).kslPort 0
     (x.rxSeq - BitVec.ofNat 16 (leAt (flit0 0).hdr 4 2)).toNat = 512) := by decide +kernel

theorem wit_KalsalLink_faulty : headSound (flit0 1) = false ∧ ((portAt (fun x => { x with faulty := 2 })).kslPort 0).faulty < 3 ∧
    ((portAt (fun x => { x with awaited := true })).kslPort 0).awaited = true ∧
    8192 ≤ ((portAt (fun x => { x with sinceMarker := 8192 })).kslPort 0).sinceMarker := by decide +kernel

theorem wit_KalsalLink_sends :
    (let s := portAt id
     let x := s.kslPort 0
     x.sinceMarker < 8192 ∧ x.resend = none ∧ x.vcOrder.find? (fun v => s.kslCredit 0 v && (x.nextFlit v).isSome) = none) ∧
    (let s := portAt (fun x => { x with txq := [txFlit0], peerFreed := Vector.replicate 4 9 })
     let x := s.kslPort 0
     x.vcOrder.find? (fun v => s.kslCredit 0 v && (x.nextFlit v).isSome) = some 0 ∧ x.nextFlit 0 = some txFlit0) := by decide +kernel

theorem wit_KalsalLink_training :
    (∀ st ∈ [KslState.detect, .equalize, .align, .config], (((portAt id).modPort 0 (fun x => { x with st := st })).kslPort 0).st = st) ∧ (live.kslPort 0).st = .down ∧
    (let s := (portAt id).modPort 0 (fun x => { x with st := .down })
     (s.kslPort 0).st = .down ∧ s.hdg.ready.getLsbD 19 = true ∧ s.takeActive = false) := by decide +kernel

def dirAt (d : Nat) : State := (portAt id).setReg (rKslRtDir 0) (BitVec.ofNat 32 d)
def landed (s : State) (p : Packet) : State := s.modPort 0 (fun x => { x with rxq := [(p, 40)] })
def sync0 : Packet := pkt 6 false [(16, 1, 0), (18, 2, 3), (24, 8, 10)] []
def delayReq0 : Packet := pkt 6 false [(16, 1, 1), (18, 2, 3)] []
def delayResp0 : Packet := pkt 6 false [(16, 1, 2), (18, 2, 3), (24, 8, 10)] []
def assign0 : Packet := pkt 7 false [(16, 1, 0), (18, 2, 4), (20, 2, 9)] []
def report0 : Packet := pkt 7 true [(16, 1, 1), (18, 2, 4), (24, 4, 2)] []
def refuse0 : Packet := pkt 7 true [(16, 1, 2), (18, 2, 4)] []
def enumr0 : Enumeration := { parent := none, base := 0, next := 1, epoch := 4, waiting := some 0, status := 0 }
def walking (p : Packet) : State := (landed (dirAt 3) p).modKsl (fun x => { x with enumr := some enumr0 })

theorem wit_KalsalTimeAndIds : (dirAt 1).kslDir 0 = 1 ∧ (dirAt 1).portActive 0 = true ∧ (dirAt 3).kslDir 0 ≠ 1 ∧ (live.kslPort 0).rxq = [] ∧
    mapWf regReset (dirAt 0).regs ∧ mapWf regReset (dirAt 1).regs ∧
    (let s := landed (dirAt 0) sync0
     (s.kslPort 0).rxq = [(sync0, 40)] ∧ isTime 0 sync0 = true ∧ s.kslDir 0 = 0) ∧ isTime 1 delayReq0 = true ∧
    (let s := (landed (dirAt 0) delayResp0).modPort 0 (fun x => { x with timeSeq := 3, t1 := 10, t2 := 40, t3 := 20 })
     let x := s.kslPort 0
     let two : Int := ((x.t2.toNat : Int) - x.t1.toNat) - ((timeOf delayResp0).toNat - (x.t3.toNat : Int))
     isTime 2 delayResp0 = true ∧ s.kslDir 0 = 0 ∧ x.timeSeq = timeSeqOf delayResp0 ∧ s.timeSource = 0 ∧ two % 2 = 0 ∧ two.natAbs ≤ 2000) ∧
    (4 : Half) = ((landed (dirAt 3) assign0).modKsl (fun x => { x with epoch := 4 })).ksl.epoch ∧
    ((landed (dirAt 3) assign0).setReg rKeyLock 0x20).locked 5 = true ∧ ((landed (dirAt 3) assign0).setReg rKeyLock 0x20).takeActive = false ∧
    mapWf regReset ((landed (dirAt 3) assign0).setReg rKeyLock 0x20).regs ∧
    isEnum 0 assign0 = true ∧ (4 : Half) ≠ (landed (dirAt 3) assign0).ksl.epoch ∧ (landed (dirAt 3) assign0).takeActive = false ∧
    (landed (dirAt 3) assign0).locked 5 = false ∧ ((landed (dirAt 3) assign0).modTake (fun t => { t with st := .rolling })).takeActive = true ∧
    (walking report0).ksl.enumr = some enumr0 ∧ enumr0.epoch.toNat = report0.field 18 2 ∧ enumr0.waiting = some 0 ∧ isEnum 1 report0 = true ∧
    isEnum 2 refuse0 = true ∧ enumr0.epoch.toNat = refuse0.field 18 2 ∧ mapWf regReset (walking report0).regs ∧ (walking report0).takeActive = false ∧
    (walking refuse0).takeActive = false ∧ live.ksl.enumCmd = none ∧
    (live.modKsl (fun x => { x with enumCmd := some owed })).ksl.enumCmd = some owed := by decide +kernel

/-! ### Supplies, clocks, resets, spares and the test port -/

def pllAt (x : PllState) (lost : Bool) : State := (live.setPll 3 x).modHdg (fun h => { h with refLost := lost })
def domAt (d : Nat) (f : Domain → Domain) : State := live.modDom d f

theorem wit_PowerSequence : (pllAt .starting false).pllIs 3 .starting = true ∧ (pllAt .starting false).hdg.refLost = false ∧
    (pllAt .starting true).hdg.refLost = true ∧ (3 : Fin 9) ≠ 8 ∧ (pllAt .failed false).pllIs 3 .starting = false ∧
    (pllAt .failed false).pllIs 3 .failed = true ∧ live.pllIs 3 .failed = false ∧
    (let x := (domAt (functionDom 3) (fun x => { x with st := .waking, clock := true })).dom (functionDom 3)
     x.clock = true ∧ x.st ≠ .sleeping) ∧ functionDom 3 < 29 ∧ functionDom 38 < 29 ∧ (live.dom (functionDom 38)).clock = false ∧
    csrOff (csrAt rHdgReqBh) = rHdgReqBh ∧ csrOff (csrAt (rHdgReqCore 3)) = rHdgReqCore 3 ∧ csrOff (csrAt rHdgReqBh) ≠ rHdgReqCore 0 ∧
    live.locked 3 = false ∧ 4000 ≤ (4000 : Word).toNat % 65536 ∧ (1399 : Word).toNat % 65536 < 1400 ∧ Initiator.core 0 ≠ .bellhouse ∧
    mapWf regReset live.regs ∧ (8 : Word).getLsbD 3 = true ∧ (8 : Word).getLsbD 2 = false ∧ live.hdg.ready.getLsbD 3 = true ∧
    live.coreRun (.tabor 3) = .inReset ∧ ((domAt 28 (fun x => { x with st := .sleeping })).dom 28).st = .sleeping ∧
    ((domAt 1 (fun x => { x with st := .waking })).dom 1).st = .waking := by decide +kernel

theorem wit_PowerSequence_ways : (∀ off ∈ [rHdgReqBh, rHdgInrushDidt, rHdgInrushQ, rHdgCoreRun], Enters live .bellhouse off) ∧
    Enters live (.core 3) (rHdgReqCore 3) ∧ (∀ off ∈ [rHdgInrushDidt, rHdgInrushQ, rHdgCoreRun], Enters live (.core 0) off) ∧
    (let a := csrAt rHdgReqBh
     csrOff a ≠ rHdgReqCore 0 ∧ live.mayEnter (.core 0) (live.pathNeeds (.core 0) a.toNat) (some (live.pointOf a.toNat)) = true) := by decide +kernel

def sleeper (begun : Bool) : State :=
  (((live.setReg rHdgWakeEn 2).setSrc 1 { srcReset 1 with en := true, st := .pending }).modHdg (fun h => { h with
    mode := 1, sleepBegun := begun, ready := BitVec.allOnes _ }))

theorem wit_SleepAndSupply_ways : (∀ off ∈ [rHdgSleep, rHdgWdogKick], Enters live .bellhouse off ∧ Enters live (.core 0) off) ∧
    Enters (live.setReg rHdgReqBh 0x1FFFFFFE) .bellhouse rHdgSleep ∧ live.avsFree = true ∧
    ({ live with supply := { live.supply with avsAt := some 0 } } : State).avsFree = false := by decide +kernel

theorem wit_SleepAndSupply : allDoms.any live.requested = false ∧ allDoms.any (live.setReg rHdgReqBh 0x1FFFFFFE).requested = true ∧
    live.hdg.mode = 0 ∧ (∀ b : Bool, (sleeper b).hdg.mode ≠ 0 ∧ (sleeper b).wakeHolds = true ∧ (sleeper b).hdg.sleepBegun = b) ∧
    allDoms.all (fun d => decide (((sleeper true).dom d).st = .off)) = true ∧ live.hdg.pwrEn = true ∧
    (live.modHdg (fun h => { h with pwrEn := false })).hdg.pwrEn = false ∧
    (let s := live.setSrc 12 { srcReset 12 with en := true }
     (s.src 12).en = true ∧ (s.src 12).st = .idle) ∧
    ((live.setSrc 12 { srcReset 12 with st := .active }).src 12).st = .active ∧
    ((730 : Nat) % 5 = 0 ∧ 730 ≤ live.supply.vcore + 10) ∧ (([false, false, false, false, true].take 4).any id = false) ∧
    (([false, true].take 4).any id = true) ∧ (499 : Half).toNat < 500 ∧ (live.reg (rRasAge 16)).toNat % 65536 < 800 ∧
    800 ≤ (800 : Half).toNat := by decide +kernel

theorem wit_Resets : live.reg rHdgWdogPeriod ≠ 0 ∧ (live.setReg rHdgWdogPeriod 0).reg rHdgWdogPeriod = 0 ∧ gateOpen.gates.getLsbD 5 = true ∧
    live.gates.getLsbD 5 = false ∧ Enters live .bellhouse rHdgReset ∧ Enters gateOpen .bellhouse rHdgReset ∧ Enters live (.core 0) rHdgReset := by
  decide +kernel

/-- Entry 3 holds an approved proposal of kind `kind` for `target`. -/
def approved (kind target : Nat) : State := live.modRas (fun r => { r with sramFree := 9, props := vsetN r.props 3 {
  Proposal.empty with st := .approved, number := 5, kind := kind, target := BitVec.ofNat 32 target } })
abbrev Executes (kind target : Nat) : Prop := (match (approved kind target).execOf kind with
  | some e => decide (e.1 = 3 ∧ e.2.target.toNat = target ∧ e.2.kind = kind)
  | none => false) = true ∧ (approved kind target).spareGone kind target = false ∧ (approved kind target).ras.waiting = []

theorem wit_SparesExecuted : live.execOf 2 = none ∧ live.execOf 6 = none ∧ mapWf regReset live.regs ∧ Executes 2 1 ∧
    (∀ i : Fin 4, ((approved 2 1).phys i).1 = 1 ↔ i = 1) ∧ Executes 3 63 ∧ Executes 4 (16 * 3 + 8) ∧ (16 * 3 + 8) / 16 = (3 : Fin 4).1 ∧
    Executes 5 0 ∧ Executes 6 (16 * 31 + 15) ∧ (16 * 31 + 15) / 16 < 32 ∧ (approved 6 (16 * 31 + 15)).rowErrors (16 * 31 + 15) 0 = [] := by
  decide +kernel

def tapAt (st : TapState) (i : TapInstr) : State := { live with tap := { live.tap with st := st, instr := i } }

/-- Five clocks with TMS high, from Shift-DR. -/
theorem wit_TestPort : ∃ s1 s2 s3 s4 s5 : State, Gives (.tapClock true false []) (tapAt .shiftDr .bypass) s1 ∧ Gives (.tapClock true false []) s1 s2 ∧
    Gives (.tapClock true false []) s2 s3 ∧ Gives (.tapClock true false []) s3 s4 ∧ Gives (.tapClock true false []) s4 s5 :=
  ⟨_, _, _, _, _, rfl, rfl, rfl, rfl, rfl⟩

theorem wit_TestPort_states : (tapAt .shiftDr .bypass).tap.st = .shiftDr ∧ (tapAt .captureDr .idcode).tap.st = .captureDr ∧
    (tapAt .captureDr .idcode).tap.instr = .idcode := ⟨rfl, rfl, rfl⟩

/-! ### The whole block -/

def tripped : State := { live with supply := { live.supply with thermTripN := false }, pending := [.thermalTrip] }

/-- A held access, and a command that has waited for its way and goes now. -/
def waits : Held := { ini := .core 0, needs := [], point := none, cmd := .thermalTrip }

theorem wit_StepRunsFront_held : (let s := { live with onHold := [waits] }
    s.pending = [] ∧ s.onHold = [] ++ waits :: [] ∧ s.canGo waits = true) ∧ (live.pending = [] ∧ ∀ h ∈ live.onHold, live.canGo h = false) := by decide +kernel

theorem wit_ThermTripHolds : tripped.supply.thermTripN = false ∧ (∀ h ∈ tripped.onHold, ∀ ch32 den, h.cmd ≠ .powerOnReset ch32 den) ∧
    (∀ ch32 den, tripped.pending.head? ≠ some (.powerOnReset ch32 den)) ∧
    ∃ t, step tripped = .next t := by
  refine ⟨rfl, fun h m => ?_, ?_, _, rfl⟩
  · cases m
  · intro a b h
    cases h

theorem wit_StoresKeepForm : ({ live with pending := [.thermalTrip] } : State).memWf ∧
    ∃ t, step { live with pending := [.thermalTrip] } = .next t := ⟨⟨by decide +kernel, by decide +kernel⟩, _, rfl⟩

theorem wit_WordCode : (0 : Fin 144) ≠ 143 := by decide

theorem wit_CodingReversible : 0 ≤ (4095 : Int) ∧ [(1 : Int), 2, 3, 4, 5, 6, 7, 8, 9, 10, 11, 12, 13, 14, 15, 16].length = 16 := by decide

/-! ### The worked examples of the spec -/

/-- Scope and Conventions: r = -7, e = 2. -/
theorem test_quantiser : quant 2 (-7) = -1 := by decide

def lumaRows : List (List Nat) :=
  [[1000, 1010, 1020, 1030], [1040, 1050, 1070, 1080], [1100, 1120, 1140, 1150], [1160, 1170, 1190, 1200]]
def lumaEnv : TileEnv :=
  { d := 12, p := 1, x := 1, g := 0, xexp := false, w := 16, h := 16, ox := 0, oy := 0, pw := 256, ph := 256, e := 0,
    ref := (fun _ _ a b => nth 0 (nth [] lumaRows b) a) }

/-- Svetquel Prediction: mvx = -3 with mvy = 1, and with mvy = 0. -/
theorem test_fractional_prediction : lumaEnv.inter 0 0 (-3, 1) 3 1 = 1095 ∧ lumaEnv.inter 0 0 (-3, 0) 3 1 = 1060 := by decide +kernel

def residuals : List Int := [1, 2, 4, 6, 0, 2, 3, 5, -1, 0, 2, 4, -2, -1, 1, 3]

/-- Svetquel Transform and Entropy Coding: the mean of the boundary, the coefficients, and the 47 bits of block 17. -/
theorem test_block_coding : intraAt .intraAvg 4 ([500, 504, 508, 512], [496, 500, 504, 508], 0) 1 2 = 504 ∧
    slift residuals = [1, -4, -2, -2, 2, 0, -1, 0, 1, -1, 1, 0, 1, 0, 0, 0] ∧
    (let r := encValues 12 4 true 17 (Rice.start 12) [] 0 (scanOf 4 true residuals)
     bitsToBytes (true :: r.1) = [0xE7, 0xFF, 0x21, 0x23, 0xAA, 0x76] ∧ r.1.length = 46 ∧ nth (0, 0) r.2.ctx 20 = (6, 4)) := by decide +kernel

def exampleCode : List Byte :=
  [(16, 2, 4096), (18, 2, 2160), (20, 1, 12), (21, 1, 2), (22, 1, 1), (28, 4, 60), (32, 4, 1)].foldl put (List.replicate 128 0)
def exampleLog : List Byte := put (List.replicate 128 0) (26, 2, 60)
def exampleLedger : List Byte :=
  [(16, 8, 600000000), (24, 8, 60000000), (48, 8, 67108864), (112, 1, 4)].foldl put (List.replicate 192 0)

/-- Rate Control: the table of the worked example. -/
theorem test_ledger_sizes : let z := ledgerSizes exampleCode exampleLog exampleLedger 0
    tilesN exampleCode = 544 ∧ nth 0 z.f 0 = 266240 ∧ nth 0 z.f 33 = 200704 ∧ nth 0 z.g 0 = 397312 ∧ nth 0 z.g 33 = 299008 ∧ z.h = 8192 ∧
    z.z = 12288 ∧ z.fMax = 9007104 ∧ z.pMax = 13430784 ∧ z.dFull = 10000000 ∧ z.dAdm = 9970000 ∧ z.cap = 50000000 := by decide +kernel

/-- Integrity: a DRAM word with only bit 37 set, read with that bit flipped, with a check bit flipped too, and poisoned. -/
theorem test_word_code : codeChk (BitVec.twoPow 128 37) = 0x0260 ∧ readCode { data := 0, chk := 0x0260 } = (BitVec.twoPow 128 37, .dataBit 37) ∧
    (readCode { data := 0, chk := 0x0264 }).2 = .uncorr ∧ poisonWord { data := 0, chk := 0x0264 } = { data := 0, chk := 0xFFFF } ∧
    (readCode { data := 0, chk := 0xFFFF }).2 = .poisoned := by decide +kernel

/-- Memory Controller: device address 0x12345678 with 32 channels and a grain of 4,096 B. -/
theorem test_dram_mapping : let s := r.modHdg (fun h => { h with ch32 := true })
    s.chanOf 0x12345678 = 5 ∧ s.physOf 0x12345678 = 10738488 ∧ rowOfPhys 10738488 = 327 ∧ bankOfPhys 10738488 = 11 := by decide +kernel

/-- Reliability: engine 100, logical 94, is replaced by position 15 of cluster 6. -/
theorem test_swap_in : (runs3 (.swapIn 100)).engine 100 = engineReset 100 ∧ (engineReset 100).logical = some 94 ∧
    (let t := after (runs3 (.swapIn 100)) (.spareSwapIn 3)
     (t.engine 111).logical = some 94 ∧ (t.cluster 6).active = 0xFFEF ∧ (t.cluster 6).retired = 0x0010 ∧ (t.cluster 6).spareUsed = true) := by
  decide +kernel

def exampleExtents : List Byte :=
  [(28, 2, 4096), (32, 2, 2), (36, 4, 1), (64, 8, 1000000), (72, 4, 2560), (80, 8, 5000000), (88, 4, 2560)].foldl put (List.replicate 128 0)

/-- Magazine: the first LBA of a band that begins at log address 10,289,152, the bytes left in its extent, and where the rest goes. -/
theorem test_extents : lbaOf exampleExtents 0 10289152 = 1002512 ∧ extentLeft exampleExtents 0 2 0 10289152 = 196608 ∧
    lbaOf exampleExtents 0 10485760 = 5000000 := by decide +kernel

/-- EVT_PIN_2 with FILTER 10 and doorbell 600, both for Bellhouse. -/
def pins : State :=
  ((live.setSrc 3 { srcReset 3 with filter := 10, en := true, target := 5 }).setSrc 600 { srcReset 600 with target := 5, en := true })
def claimed3 : State :=
  afterAll (pins.setD (.tabor 0) 2 600) [.levelLineChange 3 ⟨true, 10⟩, .dbell (.tabor 0) { fx with ra := 2 }, .evcClaim .bellhouse 5,
    .levelLineChange 3 ⟨false, 10⟩]

/-- Event Controller: source 3 is claimed before doorbell 600, and is done although its pin fell while it was ACTIVE. -/
theorem test_claims : (after pins (.levelLineChange 3 ⟨true, 9⟩)).claimable 5 = 0 ∧ (after pins (.levelLineChange 3 ⟨true, 10⟩)).claimable 5 = 3 ∧ (claimed3.src 3).st = .active ∧
    ((after claimed3 (.evcDone .bellhouse 5 3)).src 3).st = .idle := by decide +kernel

/-- Bellhouse has requested domains 1-6 from the smallest declared supply. -/
def bringUp : State :=
  after (((r.modHdg (fun h => { h with ch32 := true })).setReg rHdgInrushQ 1400).setReg rHdgInrushDidt 4000)
    (.domainRequestWrite .bellhouse (csrAt rHdgReqBh) 0x7E)
def boundary1 : State := after bringUp .slotBoundary

/-- Headgate: boundaries 1 and 2 of the bring-up. -/
theorem test_bring_up : (boundary1.dom 1).st = .waking ∧ (boundary1.dom 2).st = .off ∧ (boundary1.dom 3).st = .waking ∧
    boundary1.hdg.lastRamp = 900 ∧ ((afterAll boundary1 [.pllLocked 8, .slotBoundary]).dom 1).clock = true := by decide +kernel

/-- Device V: a host adapter on port 0, devices on ports 1 and 2. -/
def deviceV : State :=
  let up := fun (s : State) (k : Fin 4) (host : Bool) => s.modPort k (fun x => { x with st := .active, peerAdapter := host })
  asks (up (up (up live 0 true) 1 false) 2 false) 10 [(16, leBytes 2 16), (18, leBytes 2 5)]
def enumerated : State := after deviceV (.enumerate (headAt 10) 16 5)
def reported : State :=
  after (enumerated.modPort 1 (fun x => { x with rxq := [(pkt 7 true [(16, 1, 1), (18, 2, 5), (24, 4, 4)] [], 0)] })) (.report 1)

/-- Kalsal Link: V takes ID 16, sends ASSIGN(17) on port 1, and gives port 1 the range 17-20 when W reports 4. -/
theorem test_enumeration : enumerated.reg rKslDevId = 16 ∧ enumerated.kslDir 0 = 2 ∧
    (enumerated.flow 23).queue.map (fun p => p.pkt.map (fun q => q.field 20 2)) = [some 17] ∧ reported.kslDir 1 = 1 ∧ reported.kslLo 1 = 17 ∧
    reported.kslHi 1 = 20 ∧ (reported.flow 24).queue.map (fun p => p.pkt.map (fun q => q.field 20 2)) = [some 21] := by decide +kernel

/-! ### Well-formedness: for each check, a command inside its bounds and one outside -/

theorem smoke_rings : (Instr.roll (headAt 3)).wellFormed = true ∧ (Instr.roll (headAt 13)).wellFormed = true ∧
    (Instr.loadProgram (headAt 2) 0 0).wellFormed = false ∧ (Instr.armCommand (headAt 1) env0).wellFormed = false ∧
    (Instr.roll (headAt 4)).wellFormed = false ∧ (Instr.cut (headAt 3)).wellFormed = false ∧ (Instr.close (headAt 6)).wellFormed = false ∧
    (Instr.abort (headAt 5)).wellFormed = false ∧ (Instr.queryTakeState (headAt 8)).wellFormed = false ∧
    (Instr.querySlot (headAt 8) 0).wellFormed = false ∧ (Instr.queryLedger (headAt 8) 2 0 0).wellFormed = false ∧
    (Instr.play (headAt 9) 0).wellFormed = false ∧ (Instr.stopPlay (headAt 8) 0).wellFormed = false ∧
    (Instr.enumerate (headAt 11) 0 0).wellFormed = false ∧ (Instr.setTag (headAt 10) 0 0 0).wellFormed = false := by decide

theorem smoke_selectors : (Instr.queryLedger (headAt 7) 2 0 0).wellFormed = true ∧ (Instr.queryLedger (headAt 7) 1 0 0).wellFormed = false ∧
    (Instr.maintSpareStatus (headAt 12) 3).wellFormed = true ∧ (Instr.maintSpareStatus (headAt 12) 2).wellFormed = false ∧
    (Instr.maintSpareStatus (headAt 11) 3).wellFormed = false ∧ (Instr.maintPatchLoad (headAt 11) 0 0).wellFormed = false ∧
    (Instr.maintApprove (headAt 11) 0).wellFormed = false ∧ (Instr.maintReject (headAt 11) 0).wellFormed = false := by decide

theorem smoke_sizes : (Instr.levelLineChange 4 ⟨true, 9⟩).wellFormed = true ∧ (Instr.levelLineChange 5 ⟨true, 9⟩).wellFormed = false ∧
    (Instr.ckuFeed .bellhouse 0 [1, 2]).wellFormed = true ∧ (Instr.ckuFeed .bellhouse 0 [1, 2, 3]).wellFormed = false ∧
    (Instr.ckuSnoopBeat 0 0 true { addr := 0, cls := 0, words := [cleanWord 0], enables := 0 }).wellFormed = false ∧
    (Instr.alloc []).wellFormed = false ∧ (Instr.dramRequest .bellhouse 0 0 true 0 [1] false).wellFormed = false ∧
    (Instr.trainingCommit true []).wellFormed = false ∧ (Instr.kslFlitReceive 0 { hdr := [], words := [] }).wellFormed = false ∧
    (Instr.functionReady 38).wellFormed = true ∧ (Instr.functionReady 39).wellFormed = false ∧ (Instr.avsCommand 725 []).wellFormed = true ∧
    (Instr.avsCommand 724 []).wellFormed = false ∧ (Instr.avsCommand 725 [false, false, false, false, true]).wellFormed = false ∧
    (Instr.tapClock true true []).wellFormed = false := by decide

/-- Words written out from the formats of R244: ADD d1, d2, d3 with flags, ADDI, LII of quarter 2, LDW, BCC, CALLI, MARK with its query bit, LCCAS; and codes
that R243 does not list: OPA function 21, OPM function 7, a load of size 7. -/
theorem test_dsn_words : let d := decodeDsn (.tabor 0) env0
    d 0b000000_00001_00010_00011_1_0000_000000 = some (.add (.tabor 0) fa) ∧
    d 0b000100_00001_00010_1111111111111111 = some (.addi (.tabor 0) ⟨1, 2, 0xFFFF⟩) ∧
    d 0b001101_00001_10_0000000000000101_000 = some (.lii (.tabor 0) ⟨1, 2, 5, 0⟩) ∧
    d 0b010100_00001_00010_0000000000000100 = some (.ldw (.tabor 0) ⟨1, 2, 4⟩) ∧
    d 0b100000_0011_0000000000000000000010 = some (.bcc (.tabor 0) ⟨3, 2⟩) ∧
    d 0b100001_00001_000000000000000000010 = some (.calli (.tabor 0) ⟨1, 2⟩) ∧
    d 0b110001_00001_00010_00000_011_10000000 = some (.markQuery (.tabor 0) ⟨1, 2, 0, 0x80⟩) ∧
    d 0b110011_00001_00010_00011_010_00000000 = some (.lccas (.tabor 0) ⟨1, 2, 3, 0⟩) ∧
    d 0b000000_00001_00010_00011_0_0000_010101 = none ∧ d 0b000001_00001_00010_00011_0_0000_000111 = none ∧
    d 0b010111_00001_00010_0000000000000000 = none := by decide +kernel

/-- The table gives no row a bit pattern. -/
theorem test_no_words : decodeTableWord 32 0 = none ∧ r.withFetchWord 32 0 = r := ⟨rfl, rfl⟩

end Sys2Proof.Tests
end

/-! The sample coding of a tile undone (R122 to R129, R135): the bound of the quantiser and of the floor code, the inverse of the S-lift and of
the code of signed values. -/

namespace Sys2Proof.Proofs.Coding

open Sys2Proof Sys2Proof.Machine

/-! ### Quantisation (R122, R123) -/

/-- The clip only moves a value toward every source inside its range (R123). -/
theorem natAbs_sub_clipI_le {x v lo hi : Int} (hlo : lo ≤ x) (hhi : x ≤ hi) : (x - clipI v lo hi).natAbs ≤ (x - v).natAbs := by
  unfold clipI
  split
  · omega
  · split <;> omega

/-- Rounding a magnitude to the nearest multiple of 2e + 1 is wrong by `e` at most. -/
theorem natAbs_sub_round_le (e n : Nat) : ((n : Int) - ((n + e) / (2 * e + 1) : Nat) * (2 * e + 1)).natAbs ≤ e := by
  have split_div := Nat.div_add_mod' (n + e) (2 * e + 1)
  have rem_lt := Nat.mod_lt (n + e) (show 0 < 2 * e + 1 by omega)
  have round_cast : (((n + e) / (2 * e + 1) : Nat) : Int) * (2 * e + 1) = ((n + e) / (2 * e + 1) * (2 * e + 1) : Nat) := by push_cast; rfl
  rw [round_cast]
  omega

theorem natAbs_sub_quant_mul_le (e : Nat) (r : Int) : (r - quant e r * (2 * e + 1)).natAbs ≤ e := by
  have factor : r - quant e r * (2 * e + 1) =
      r.sign * ((r.natAbs : Int) - ((r.natAbs + e) / (2 * e + 1) : Nat) * (2 * e + 1)) := by
    rw [mul_sub, Int.sign_mul_natAbs, quant, mul_assoc]
  calc (r - quant e r * (2 * e + 1)).natAbs
      = r.sign.natAbs * ((r.natAbs : Int) - ((r.natAbs + e) / (2 * e + 1) : Nat) * (2 * e + 1)).natAbs := by
        rw [factor, Int.natAbs_mul]
    _ ≤ 1 * e := Nat.mul_le_mul (by rw [Int.natAbs_sign]; split <;> omega) (natAbs_sub_round_le e r.natAbs)
    _ = e := one_mul e

theorem natAbs_sub_rebuild_quant_le (v : TileEnv) {pred x : Int} (hx : 0 ≤ x) (hmax : x ≤ v.maxv) :
    (x - v.rebuild pred (quant v.e (x - pred))).natAbs ≤ v.e :=
  calc (x - v.rebuild pred (quant v.e (x - pred))).natAbs
      ≤ (x - (pred + quant v.e (x - pred) * (2 * v.e + 1))).natAbs := natAbs_sub_clipI_le hx hmax
    _ = ((x - pred) - quant v.e (x - pred) * (2 * v.e + 1)).natAbs := by rw [sub_add_eq_sub_sub]
    _ ≤ v.e := natAbs_sub_quant_mul_le v.e (x - pred)

/-! ### Floor coding (R135) -/

@[simp] theorem floorRec_zero (f : Nat) : floorRec 0 f = f := rfl

theorem floorRec_succ (s f : Nat) : floorRec (s + 1) f = f * 2 ^ (s + 1) + 2 ^ s := rfl

theorem floorRec_bounds (s x : Nat) :
    (floorRec s (x / 2 ^ s) : Int) - x ≤ 2 ^ (s - 1) ∧ (x : Int) - floorRec s (x / 2 ^ s) ≤ 2 ^ (s - 1) := by
  cases s with
  | zero => simp
  | succ s =>
    have split_div := Nat.div_add_mod' x (2 ^ (s + 1))
    have rem_lt := Nat.mod_lt x (Nat.two_pow_pos (s + 1))
    have double : 2 ^ (s + 1) = 2 * 2 ^ s := Nat.pow_succ'
    rw [floorRec_succ, Nat.add_sub_cancel]
    zify at split_div rem_lt double ⊢
    omega

/-! ### Reading lists built by the model -/

theorem nth_eq_getD {α : Type} (d : α) (l : List α) (i : Nat) : nth d l i = l.getD i d := by
  induction l generalizing i with
  | nil => rfl
  | cons x xs ih =>
    cases i with
    | zero => rfl
    | succ i => exact ih i

theorem upFrom_eq_range' (a n : Nat) : upFrom a n = List.range' a n := by
  induction n generalizing a with
  | zero => rfl
  | succ n ih => rw [upFrom, ih, List.range'_succ]

/-! ### The S-lift (R124, R126) -/

theorem unlift4_lift4 (a b c d : Int) : unlift4 (lift4 [a, b, c, d]) = [a, b, c, d] := by
  simp [unlift4, lift4, intAt, nth]

@[simp] theorem length_lift4 (a : List Int) : (lift4 a).length = 4 := rfl

theorem unlift4_lift4_of_length {a : List Int} (h : a.length = 4) : unlift4 (lift4 a) = a := by
  obtain ⟨a₀, a₁, a₂, a₃, rfl⟩ := List.length_eq_four.mp h
  exact unlift4_lift4 a₀ a₁ a₂ a₃

@[simp] theorem length_transpose4 (a : List Int) : (transpose4 a).length = 16 := by simp [transpose4]

theorem intAt_transpose4 (a : List Int) {k : Nat} (h : k < 16) : intAt (transpose4 a) k = intAt a (4 * (k % 4) + k / 4) := by
  simp [transpose4, intAt, nth_eq_getD, upFrom_eq_range', h]

theorem transpose4_transpose4 {a : List Int} (h : a.length = 16) : transpose4 (transpose4 a) = a := by
  refine List.ext_getElem (by simp [h]) fun k hk hka => ?_
  have index : 4 * ((4 * (k % 4) + k / 4) % 4) + (4 * (k % 4) + k / 4) / 4 = k := by omega
  calc (transpose4 (transpose4 a))[k]
      = intAt (transpose4 (transpose4 a)) k := by rw [intAt, nth_eq_getD, List.getD_eq_getElem]
    _ = intAt a k := by rw [intAt_transpose4 _ (by omega), intAt_transpose4 _ (by omega), index]
    _ = a[k] := by rw [intAt, nth_eq_getD, List.getD_eq_getElem]

theorem onRows_eq_append (f : List Int → List Int) (a : List Int) :
    onRows f a = f (a.take 4) ++ (f ((a.drop 4).take 4) ++ (f ((a.drop 8).take 4) ++ f ((a.drop 12).take 4))) := by
  simp [onRows, upFrom]

theorem take_rows_append {a : List Int} (h : a.length = 16) :
    a.take 4 ++ ((a.drop 4).take 4 ++ ((a.drop 8).take 4 ++ (a.drop 12).take 4)) = a :=
  calc a.take 4 ++ ((a.drop 4).take 4 ++ ((a.drop 8).take 4 ++ (a.drop 12).take 4))
      = a.take (4 + (4 + (4 + 4))) := by simp only [List.take_add, List.drop_drop]
    _ = a := List.take_of_length_le (by omega)

/-- A map of rows to rows acts on each row of a raster alone. -/
theorem onRows_append {p q r s : List Int} (f : List Int → List Int) (hp : p.length = 4) (hq : q.length = 4) (hr : r.length = 4)
    (hs : s.length = 4) : onRows f (p ++ (q ++ (r ++ s))) = f p ++ (f q ++ (f r ++ f s)) := by
  simp [onRows_eq_append, List.drop_append, List.take_of_length_le, List.drop_of_length_le, hp, hq, hr, hs]

theorem onRows_unlift4_lift4 {a : List Int} (h : a.length = 16) : onRows unlift4 (onRows lift4 a) = a := by
  rw [onRows_eq_append lift4, onRows_append _ (length_lift4 _) (length_lift4 _) (length_lift4 _) (length_lift4 _)]
  simpa [unlift4_lift4_of_length, h] using take_rows_append h

theorem length_onRows_lift4 (a : List Int) : (onRows lift4 a).length = 16 := by simp [onRows_eq_append]

theorem unslift_slift {a : List Int} (h : a.length = 16) : unslift (slift a) = a := by
  rw [slift, unslift, transpose4_transpose4 (length_onRows_lift4 _), onRows_unlift4_lift4 (length_transpose4 _),
    transpose4_transpose4 (length_onRows_lift4 a), onRows_unlift4_lift4 h]

/-! ### The code of signed values (R129) -/

theorem zigzag_of_nonneg {q : Int} (h : 0 ≤ q) : (zigzag q : Int) = 2 * q := by
  rw [zigzag, if_pos h]; omega

theorem zigzag_of_neg {q : Int} (h : q < 0) : (zigzag q : Int) = -2 * q - 1 := by
  rw [zigzag, if_neg (by omega)]; omega

theorem unzigzag_zigzag (q : Int) : unzigzag (zigzag q) = q := by
  unfold unzigzag
  rcases le_or_gt 0 q with h | h
  · have code := zigzag_of_nonneg h
    rw [if_neg (by omega)]; omega
  · have code := zigzag_of_neg h
    rw [if_pos (by omega)]; omega

/-- Settles O60: each clause by the lemma of its own coding step. -/
theorem codingReversible : Obligations.CodingReversible := by
  refine ⟨fun v pred x _ _ hx hmax => natAbs_sub_rebuild_quant_le v hx hmax, fun s x => ?_, unlift4_lift4, fun a h => unslift_slift h,
    fun q => ⟨?_, unzigzag_zigzag q⟩, fun m => rfl⟩
  · obtain ⟨above, below⟩ := floorRec_bounds s x
    exact ⟨above, below, by simp⟩
  · split
    case isTrue h => exact zigzag_of_nonneg h
    case isFalse h => exact zigzag_of_neg (by omega)

end Sys2Proof.Proofs.Coding

/-! The integer, immediate and branch instructions of a DSN core (R242 to R247, R251): what running one amounts to when the fetch raises
nothing, and the results and flags of each operation at 64 bits. -/

namespace Sys2Proof.Proofs.Densiten

open Sys2Proof Sys2Proof.Machine Sys2Proof.Claims

/-! ### Running one instruction (R242, R243) -/

/-- A running core whose fetch raises nothing performs the instruction, or raises ILLEGAL. -/
theorem runDsn_of_runs {s : State} {c : Core} (run : Runs s c) (legal : Bool) (effect : State → State) :
    s.runDsn c legal effect = if legal then effect s else s.exception c 4 0 := by
  obtain ⟨executes, sound⟩ := run
  simp [State.runDsn, executes, sound]

theorem next_runDsn_legal {s t : State} {c : Core} {legal : Bool} {effect : State → State} (run : Runs s c) (h : legal = true)
    (leaves : effect s = t) : (.next (s.runDsn c legal effect) : Host.Outcome State Fault Refusal) = .next t := by
  rw [runDsn_of_runs run, if_pos h, leaves]

theorem next_runDsn_illegal {s : State} {c : Core} {legal : Bool} {effect : State → State} (run : Runs s c) (h : legal = false) :
    (.next (s.runDsn c legal effect) : Host.Outcome State Fault Refusal) = .next (s.exception c 4 0) := by
  rw [runDsn_of_runs run, h, if_neg Bool.false_ne_true]

/-- An OPA or OPM operation of a Tabor core leaves what `alu64` says of its result. -/
theorem next_opA {s : State} {k : Fin 4} {f : FmtA} {op : AluOp} {legal : Bool} {v : DWord} {c o : Bool} (run : Runs s (.tabor k))
    (h : legal = true) (result : alu op (s.getD (.tabor k) f.ra) (s.getD (.tabor k) f.rb) = (v, c, o)) :
    (.next (s.runDsn (.tabor k) legal (fun s => s.opA (.tabor k) f op)) : Host.Outcome State Fault Refusal) = .next (alu64 s k f v c o) := by
  have effect : s.opA (.tabor k) f op = alu64 s k f (alu op (s.getD (.tabor k) f.ra) (s.getD (.tabor k) f.rb)).1
      (alu op (s.getD (.tabor k) f.ra) (s.getD (.tabor k) f.rb)).2.1 (alu op (s.getD (.tabor k) f.ra) (s.getD (.tabor k) f.rb)).2.2 := rfl
  exact next_runDsn_legal run h (by rw [effect, result])

theorem fmtAPlain_of_rsv {f : FmtA} (h : f.rsv = 0) : fmtAPlain f = true := decide_eq_true h

/-- The flags of CMP and CMPI on a Tabor core (R245, R247). -/
theorem coreAlu_sub_flags (k : Fin 4) (a b : DWord) : (coreAlu (.tabor k) .sub a b).2 =
    { z := a = b, s := (a - b).msb, c := decide (a.toNat < b.toNat), o := outOfRange 64 (a.toInt - b.toInt) } := by
  have zero : a - b = 0 ↔ a = b := sub_eq_zero
  simp only [coreAlu, aluFlags, alu, zero]

/-! ### Signed range (R245) -/

theorem satInt_64 (v : Int) : satInt 64 v = sat64 v := by
  simp only [satInt, sat64]
  split_ifs <;> omega

theorem outOfRange_64 (v : Int) : outOfRange 64 v = Leaves 64 v := by
  rw [outOfRange, decide_eq_decide, satInt_64, sat64]
  split_ifs <;> omega

theorem toInt_64_bounds (a : DWord) : -(2 ^ 63) ≤ a.toInt ∧ a.toInt < 2 ^ 63 := ⟨a.le_toInt, a.toInt_lt⟩

theorem leaves_64_toInt (a : DWord) : Leaves 64 a.toInt = false := by
  have bounds := toInt_64_bounds a
  simp only [Leaves, decide_eq_false_iff_not]
  omega

/-! ### OPA results (R245) -/

section Results
variable (a b : DWord)

theorem alu_add : alu .add a b = (a + b, decide (2 ^ 64 ≤ a.toNat + b.toNat), Leaves 64 (a.toInt + b.toInt)) := by
  simp only [alu, outOfRange_64]

theorem alu_sub : alu .sub a b = (a - b, decide (a.toNat < b.toNat), Leaves 64 (a.toInt - b.toInt)) := by
  simp only [alu, outOfRange_64]

theorem alu_addsat : alu .addsat a b = (BitVec.ofInt 64 (sat64 (a.toInt + b.toInt)), false, Leaves 64 (a.toInt + b.toInt)) := by
  simp only [alu, outOfRange_64, satInt_64]

theorem alu_subsat : alu .subsat a b = (BitVec.ofInt 64 (sat64 (a.toInt - b.toInt)), false, Leaves 64 (a.toInt - b.toInt)) := by
  simp only [alu, outOfRange_64, satInt_64]

/-- A rotation by an amount below the width, as two shifts. -/
theorem alu_ror : alu .ror a b = ((a >>> (b.toNat % 64)) ||| (a <<< (64 - b.toNat % 64)), false, false) := by
  simp only [alu, BitVec.rotateRight_def, Nat.mod_mod]

theorem alu_min : alu .min a b = (if b.slt a then b else a, false, false) := by
  simp only [alu, BitVec.slt_iff_toInt_lt, ← not_lt, ite_not]

theorem alu_max : alu .max a b = (if b.slt a then a else b, false, false) := by
  simp only [alu, BitVec.slt_iff_toInt_lt, ← not_lt, ite_not]

theorem alu_minu : alu .minu a b = (if b < a then b else a, false, false) := by
  simp only [alu, BitVec.lt_def, ← not_lt, ite_not]

theorem alu_maxu : alu .maxu a b = (if b < a then a else b, false, false) := by
  simp only [alu, BitVec.lt_def, ← not_lt, ite_not]

theorem alu_slt : alu .slt a b = (if a.slt b then 1 else 0, false, false) := by
  simp only [alu, boolVal, decide_eq_true_eq, BitVec.slt_iff_toInt_lt]

theorem alu_sltu : alu .sltu a b = (if a < b then 1 else 0, false, false) := by
  simp only [alu, boolVal, decide_eq_true_eq, BitVec.lt_def]

/-! ### OPM results (R246) -/

theorem alu_mul : alu .mul a b = (a * b, false, Leaves 64 (a.toInt * b.toInt)) := by
  simp only [alu, outOfRange_64]

theorem alu_fxmul (n : Nat) : alu (.fxmul (n + 1)) a b =
    (BitVec.ofInt 64 (sat64 ((a.toInt * b.toInt + 2 ^ n) / 2 ^ (n + 1))), false, Leaves 64 ((a.toInt * b.toInt + 2 ^ n) / 2 ^ (n + 1))) := by
  simp only [alu, outOfRange_64, satInt_64, Nat.add_sub_cancel]

end Results

section Division
variable {a b : DWord}

theorem alu_divs_zero (h : b = 0) : alu .divs a b = (0, false, true) := by simp only [alu, if_pos h]
theorem alu_divu_zero (h : b = 0) : alu .divu a b = (0, false, true) := by simp only [alu, if_pos h]
theorem alu_rems_zero (h : b = 0) : alu .rems a b = (a, false, true) := by simp only [alu, if_pos h]
theorem alu_remu_zero (h : b = 0) : alu .remu a b = (a, false, true) := by simp only [alu, if_pos h]

theorem alu_divu (h : b ≠ 0) : alu .divu a b = (a / b, false, false) := by
  simp only [alu, if_neg h, ← BitVec.toNat_udiv, BitVec.ofNat_toNat, BitVec.setWidth_eq]

theorem alu_remu (h : b ≠ 0) : alu .remu a b = (a % b, false, false) := by
  simp only [alu, if_neg h, ← BitVec.toNat_umod, BitVec.ofNat_toNat, BitVec.setWidth_eq]

/-- A divisor of -1 is not 0. -/
theorem ne_zero_of_toInt_neg_one (h : b.toInt = -1) : b ≠ 0 := by
  rintro rfl
  exact absurd h (by decide)

/-- The one quotient of s64 values outside the s64 range. -/
theorem alu_divs_overflow (ha : a.toInt = -(2 ^ 63)) (hb : b.toInt = -1) : alu .divs a b = (a, false, true) := by
  have least : a = BitVec.ofInt 64 (-(2 ^ 63)) := by rw [← ha, BitVec.ofInt_toInt]
  simp only [alu, if_neg (ne_zero_of_toInt_neg_one hb), ha, hb]
  rw [least]
  decide

theorem alu_rems_overflow (ha : a.toInt = -(2 ^ 63)) (hb : b.toInt = -1) : alu .rems a b = (0, false, true) := by
  simp only [alu, if_neg (ne_zero_of_toInt_neg_one hb), ha, hb]
  decide

/-- Every other quotient of s64 values is an s64 value. -/
theorem leaves_tdiv (h : a.toInt ≠ -(2 ^ 63) ∨ b.toInt ≠ -1) : Leaves 64 (a.toInt.tdiv b.toInt) = false := by
  rw [← BitVec.toInt_sdiv_of_ne_or_ne a b (h.imp (mt fun e => by rw [e]; decide) (mt fun e => by rw [e]; decide))]
  exact leaves_64_toInt _

theorem alu_divs (h0 : b ≠ 0) (h : a.toInt ≠ -(2 ^ 63) ∨ b.toInt ≠ -1) :
    alu .divs a b = (BitVec.ofInt 64 (a.toInt.tdiv b.toInt), false, false) := by
  simp only [alu, if_neg h0, outOfRange_64, leaves_tdiv h]

theorem alu_rems (h0 : b ≠ 0) (h : a.toInt ≠ -(2 ^ 63) ∨ b.toInt ≠ -1) :
    alu .rems a b = (BitVec.ofInt 64 (a.toInt.tmod b.toInt), false, false) := by
  simp only [alu, if_neg h0, outOfRange_64, leaves_tdiv h]

end Division

/-! ### The claims of R245 and R246 -/

/-- Settles O2: each operation by the lemma of its result. -/
theorem opaOperations : Obligations.OpaOperations := by
  refine ⟨fun k f s run rsv => ?_, fun k f s run rsv => ?_, fun k f s run rsv => ?_⟩
  · intro a b
    have plain := fmtAPlain_of_rsv rsv
    exact ⟨next_opA run plain (alu_add a b), next_opA run plain (alu_sub a b), next_opA run plain rfl, next_opA run plain rfl,
      next_opA run plain rfl, next_opA run plain rfl, next_opA run plain (alu_addsat a b), next_opA run plain (alu_subsat a b)⟩
  · intro a n
    have plain := fmtAPlain_of_rsv rsv
    exact ⟨next_opA run plain rfl, next_opA run plain rfl, next_opA run plain rfl, next_opA run plain (alu_ror a _)⟩
  · intro a b
    have plain := fmtAPlain_of_rsv rsv
    refine ⟨next_opA run plain (alu_min a b), next_opA run plain (alu_max a b), next_opA run plain (alu_minu a b),
      next_opA run plain (alu_maxu a b), next_opA run plain (alu_slt a b), next_opA run plain (alu_sltu a b),
      fun rb => ⟨next_runDsn_illegal run (by simp [rb]), next_runDsn_illegal run (by simp [rb])⟩,
      fun rd => next_runDsn_illegal run (by simp [rd]), fun rb => next_opA run (by simp [plain, rb]) rfl,
      fun rb => next_opA run (by simp [plain, rb]) rfl, fun rd => ?_⟩
    rw [← outOfRange_64, ← coreAlu_sub_flags k a b]
    exact next_runDsn_legal run (by simp [plain, rd]) rfl

/-- Settles O3: each operation by the lemma of its result, the zero divisor and the overflowing quotient apart. -/
theorem opmResults : Obligations.OpmResults := by
  intro k f s run rsv a b
  have plain := fmtAPlain_of_rsv rsv
  have legal : (fmtAPlain f && isTabor (.tabor k)) = true := by simp [plain, isTabor]
  refine ⟨next_opA run plain (alu_mul a b), next_opA run legal rfl, next_opA run plain rfl, fun zero => ?_, fun nonzero => ?_,
    fun ⟨ha, hb⟩ => ⟨next_opA run legal (alu_divs_overflow ha hb), next_opA run legal (alu_rems_overflow ha hb)⟩,
    fun ⟨nonzero, fits⟩ => ⟨next_opA run legal (alu_divs nonzero fits), next_opA run legal (alu_rems nonzero fits)⟩,
    fun func => next_opA run legal (alu_fxmul a b func.1)⟩
  · exact ⟨next_opA run legal (alu_divs_zero zero), next_opA run plain (alu_divu_zero zero),
      next_opA run legal (alu_rems_zero zero), next_opA run plain (alu_remu_zero zero)⟩
  · exact ⟨next_opA run plain (alu_divu nonzero), next_opA run plain (alu_remu nonzero)⟩

/-! ### Immediates (R247) -/

theorem alu_shiOp (a : DWord) {imm : Half} (h : imm.toNat < 256) :
    (alu (shiOp imm) a (BitVec.ofNat 64 (imm.toNat % 64))).1 = match imm.toNat / 64 with
      | 0 => a <<< (imm.toNat % 64)
      | 1 => a >>> (imm.toNat % 64)
      | 2 => a.sshiftRight (imm.toNat % 64)
      | _ => (a >>> (imm.toNat % 64)) ||| (a <<< (64 - imm.toNat % 64)) := by
  have quarter : imm.toNat / 64 = 0 ∨ imm.toNat / 64 = 1 ∨ imm.toNat / 64 = 2 ∨ imm.toNat / 64 = 3 := by omega
  rcases quarter with q | q | q | q
  · simp [shiOp, q, alu]
  · simp [shiOp, q, alu]
  · simp [shiOp, q, alu]
  · simp [shiOp, q, alu_ror]

/-- Settles O4: the legal words by what each writes, SHI and CMPI with a field that must be 0 by ILLEGAL. -/
theorem immediates : Obligations.Immediates := by
  intro k f u s run c a n wide wrote
  have tabor : isTabor c = true := rfl
  refine ⟨next_runDsn_legal run rfl rfl, next_runDsn_legal run rfl rfl, next_runDsn_legal run rfl rfl, next_runDsn_legal run rfl rfl, fun small => ?_,
    fun rd => ?_, fun big => next_runDsn_illegal run (by simp; omega), fun rd => next_runDsn_illegal run (by simp [rd]),
    next_runDsn_legal run rfl rfl, fun rsv => ?_⟩
  · exact next_runDsn_legal run (by simp [small, tabor]) (congrArg (wrote f.rd) (alu_shiOp a small))
  · rw [← outOfRange_64, ← coreAlu_sub_flags k a _]
    exact next_runDsn_legal run (by simp [rd]) rfl
  · have plain : fmtUPlain c u = true := by simp [fmtUPlain, rsv, c]
    exact ⟨next_runDsn_legal run plain rfl, next_runDsn_legal run plain rfl, next_runDsn_legal run plain rfl⟩

/-! ### Branches (R251) -/

/-- S ≠ O after a comparison is the signed order: the sign of the difference, turned where the difference leaves the range. -/
theorem msb_sub_bne_leaves (a b : DWord) : ((a - b).msb != Leaves 64 (a.toInt - b.toInt)) = a.slt b := by
  obtain ⟨alo, ahi⟩ := toInt_64_bounds a
  obtain ⟨blo, bhi⟩ := toInt_64_bounds b
  simp only [Leaves, BitVec.msb_eq_toInt, BitVec.toInt_sub, Int.bmod_def, BitVec.slt_eq_decide]
  rw [Bool.eq_iff_iff]
  simp only [bne_iff_ne, ne_eq, decide_eq_decide, decide_eq_true_eq]
  norm_num at *
  split_ifs <;> omega

theorem eq_or_slt (a b : DWord) : (decide (a = b) || a.slt b) = !b.slt a := by
  rw [← BitVec.sle_eq_not_slt, BitVec.sle_eq_slt_or_eq, Bool.or_comm]
  rfl

theorem ult_or_eq (a b : DWord) : (a.ult b || decide (a = b)) = !b.ult a := by
  rw [← BitVec.ule_eq_not_ult, Bool.eq_iff_iff]
  simp [BitVec.ule_iff_toNat_le, BitVec.ult_iff_toNat_lt, ← BitVec.toNat_inj, Nat.le_iff_lt_or_eq]

/-- The sixteen conditions in the order of R251's table. -/
def condTable (fl : DWord) : List Bool :=
  let z := flZ fl
  let n := flS fl
  let cy := flC fl
  let v := flO fl
  [true, z, !z, n != v, n == v, z || (n != v), !z && (n == v), cy, !cy, cy || z, !cy && !z, n, !n, v, !v, flSt fl == 0]

theorem condHolds_eq_nth (fl : DWord) (cond : Fin 16) : condHolds fl cond = nth false (condTable fl) cond.1 := by
  fin_cases cond <;> rfl

/-- BCC sets PC alone, to its target or to the next word. -/
theorem bcc_effect (s : State) (c : Core) (f : FmtB) :
    (if condHolds (s.getFl c) f.cond then s.setPc c (s.branchTo c f.off) else s.nextPc c) =
      s.setPc c (s.getPc c + if nth false (condTable (s.getFl c)) f.cond.1 then 4 * f.off.signExtend 64 else 4) := by
  rw [← condHolds_eq_nth]
  split
  · rfl
  · rfl

/-- Settles O6: the flags of a comparison as orders, then the two instructions. -/
theorem branches : Obligations.Branches := by
  refine ⟨fun a b => ?_, fun c f j s run => ⟨?_, next_runDsn_legal run rfl rfl⟩⟩
  · intro z n cy v
    have signed : (n != v) = a.slt b := msb_sub_bne_leaves a b
    have signed_not : (n == v) = !a.slt b := by rw [← signed, bne, Bool.not_not]
    have above : (z || a.slt b) = !b.slt a := eq_or_slt a b
    have unsigned : cy = a.ult b := rfl
    have above_unsigned : (a.ult b || z) = !b.ult a := ult_or_eq a b
    refine ⟨signed, signed_not, by rw [signed, above], ?_, unsigned, by rw [unsigned], by rw [unsigned, above_unsigned], ?_⟩
    · rw [signed_not, ← Bool.not_or, above, Bool.not_not]
    · rw [unsigned, ← Bool.not_or, above_unsigned, Bool.not_not]
  · exact next_runDsn_legal run rfl (bcc_effect s c f)

end Sys2Proof.Proofs.Densiten

/-! Headgate (R241, R409 to R432): what leaves the power domains and the READY bits alone, what the release of cores from reset and a slot
boundary leave of one core and of one domain, and the registers that only their requesters write. -/

namespace Sys2Proof.Proofs.Power

open Sys2Proof Sys2Proof.Machine Sys2Proof.Claims

/-! ### Folds -/

section Folds
variable {α β γ : Type} {f : State → β → State}

/-- A projection that every step of a fold keeps is kept. -/
theorem foldl_proj (p : State → γ) (keeps : ∀ s b, p (f s b) = p s) (l : List β) (s : State) : p (l.foldl f s) = p s := by
  induction l generalizing s with
  | nil => rfl
  | cons b l ih => rw [List.foldl_cons, ih, keeps]

/-- What one step of a fold establishes, and every step keeps, holds at its end. -/
theorem foldl_establishes {P : State → Prop} {b : β} (keeps : ∀ s c, P s → P (f s c)) (establishes : ∀ s, P (f s b)) {l : List β}
    (mem : b ∈ l) (s : State) : P (l.foldl f s) := by
  obtain ⟨pre, post, rfl⟩ := List.append_of_mem mem
  rw [List.foldl_append, List.foldl_cons]
  exact foldl_keeps P f keeps post _ (establishes _)

end Folds

/-! ### What leaves Headgate alone

Going DOWN on a Kalsal link, the loss of a domain's state and everything they call leave `hdg` as it is. -/

section Hdg
variable (s : State)

@[simp] theorem hdg_raise (k : Nat) : (s.raise k).hdg = s.hdg := (s.raise_frame k).hdg
@[simp] theorem hdg_orReg (o : Nat) (m : Word) : (s.orReg o m).hdg = s.hdg := rfl
@[simp] theorem hdg_bump (o k : Nat) : (s.bump o k).hdg = s.hdg := rfl

@[simp] theorem hdg_post (p : PendingCmd) (status : Nat) (final : Bool) (value : DWord) : (s.post p status final value).hdg = s.hdg := by
  rw [s.post_post p status final value]

@[simp] theorem hdg_sluOffer (f : Nat) (p : SluPacket) : (s.sluOffer f p).hdg = s.hdg := by
  unfold State.sluOffer
  dsimp only
  split
  · simp
  · rfl

@[simp] theorem hdg_enumSend (k : Fin 4) (sub epoch base count status : Nat) : (s.enumSend k sub epoch base count status).hdg = s.hdg :=
  hdg_sluOffer s _ _

@[simp] theorem hdg_setRoute (off : Nat) (w : Word) : (s.setRoute off w).hdg = s.hdg := by
  unfold State.setRoute
  split
  · rfl
  · rfl

@[simp] theorem hdg_setDir (k : Fin 4) (d : Nat) : (s.setDir k d).hdg = s.hdg := hdg_setRoute s _ _

@[simp] theorem hdg_enumWalk (e : Enumeration) (ks : List (Fin 4)) : (s.enumWalk e ks).hdg = s.hdg := by
  induction ks generalizing s e with
  | nil =>
    unfold State.enumWalk
    dsimp only
    split
    · simp
    · split
      · simp
      · rfl
  | cons k ks ih =>
    unfold State.enumWalk
    split
    · split
      · simp [ih]
      · simp
    · exact ih s e

@[simp] theorem hdg_enumAnswer (k : Fin 4) (count : Option Nat) (status : Nat) : (s.enumAnswer k count status).hdg = s.hdg := by
  unfold State.enumAnswer
  split
  · rfl
  · split
    · rfl
    · cases count
      · simp
      · simp

@[simp] theorem hdg_unclaim (t : Fin 16) (k : Nat) : (s.unclaim t k).hdg = s.hdg := by
  unfold State.unclaim
  dsimp only
  split
  · split
    · exact ((s.toPending_frame k).trans (State.deliver_frame _)).hdg
    · rfl
  · rfl

@[simp] theorem hdg_freeFlit (held : Option (Fin 4)) (vc : Nat) : (s.freeFlit held vc).hdg = s.hdg := by cases held <;> rfl

@[simp] theorem hdg_modPort (k : Fin 4) (f : KslPort → KslPort) : (s.modPort k f).hdg = s.hdg := rfl

@[simp] theorem hdg_linkFlush (k : Fin 4) : (s.linkFlush k).hdg = s.hdg := by
  unfold State.linkFlush
  extract_lets x events s1 s2
  have flits : s1.hdg = s.hdg := foldl_proj State.hdg (fun s (f : TxFlit) => hdg_freeFlit s f.held f.vc) _ s
  have ports : s2.hdg = s1.hdg := (hdg_modPort _ k _).trans (foldl_proj State.hdg (fun s j => hdg_modPort s j _) allPorts s1)
  exact (foldl_proj State.hdg (fun s e => hdg_unclaim s e.1 e.2) events s2).trans (ports.trans flits)

@[simp] theorem hdg_setLink (k : Fin 4) (st : KslState) : (s.setLink k st).hdg = s.hdg := by
  unfold State.setLink
  dsimp only
  split
  · exact hdg_raise _ _
  · rfl

@[simp] theorem hdg_linkDown (k : Fin 4) : (s.linkDown k).hdg = s.hdg := by
  unfold State.linkDown
  split
  · rfl
  · rw [hdg_enumAnswer, hdg_linkFlush, hdg_setLink, hdg_modPort]

@[simp] theorem hdg_cisUnitStops (d : Nat) : (s.cisUnitStops d).hdg = s.hdg := by
  refine foldl_proj State.hdg (fun s e => ?_) s.cis.bufs s
  split
  · split
    · rfl
    · rfl
  · rfl

/-- A domain that loses its state leaves the power domains, the PLLs and the READY bits as they are. -/
@[simp] theorem hdg_loseDomain (d : Nat) : (s.loseDomain d).hdg = s.hdg := by
  unfold State.loseDomain
  extract_lets s1
  have stops : s1.hdg = s.hdg := hdg_cisUnitStops _ d
  refine Eq.trans ?_ stops
  clear_value s1
  split
  -- domain 10: every Kalsal link goes DOWN
  case h_9 =>
    dsimp only
    exact foldl_proj State.hdg hdg_linkDown allPorts s1
  -- domains 12 to 28: the cluster's engines
  case h_11 =>
    split
    · exact foldl_proj State.hdg (fun s j => State.setEngine_hdg s j _) _ s1
    · rfl
  all_goals rfl

end Hdg

/-! ### Domains at a slot boundary (R414 to R424) -/

theorem dom_modDom_same (s : State) {d : Nat} (h : d < 29) (f : Domain → Domain) : (s.modDom d f).dom d = f (s.dom d) := by
  simp [State.dom, State.modDom, vmodN, vgetN, h]

theorem dom_modDom_ne (s : State) {d e : Nat} (h : d ≠ e) (f : Domain → Domain) : (s.modDom e f).dom d = s.dom d := by
  unfold State.dom State.modDom vmodN vgetN
  simp only [State.modHdg_hdg]
  split_ifs with he hd
  · exact vget_vmod_ne _ (fun same => h (congrArg Fin.val same)) _
  · rfl
  · rfl

theorem foldl_dom_of_not_mem {f : State → Nat → State} {d : Nat} (other : ∀ s e, d ≠ e → (f s e).dom d = s.dom d) {l : List Nat}
    (out : d ∉ l) (s : State) : (l.foldl f s).dom d = s.dom d := by
  induction l generalizing s with
  | nil => rfl
  | cons e l ih =>
    rw [List.mem_cons, not_or] at out
    obtain ⟨ne, out⟩ := out
    rw [List.foldl_cons, ih out, other s e ne]

/-- A sweep over the domains acts once on each. -/
theorem foldl_dom {f : State → Nat → State} {d : Nat} {l : List Nat} {R : Domain → Domain → Prop} (nodup : l.Nodup) (mem : d ∈ l)
    (other : ∀ s e, d ≠ e → (f s e).dom d = s.dom d) (own : ∀ s, R (s.dom d) ((f s d).dom d)) (s : State) :
    R (s.dom d) ((l.foldl f s).dom d) := by
  obtain ⟨pre, post, rfl⟩ := List.append_of_mem mem
  obtain ⟨out, -⟩ := List.nodup_cons.1 (List.nodup_middle.1 nodup)
  rw [List.foldl_append, List.foldl_cons, foldl_dom_of_not_mem other (fun h => out (List.mem_append_right _ h)),
    ← foldl_dom_of_not_mem other (fun h => out (List.mem_append_left _ h)) s]
  exact own _

theorem allDoms_nodup : allDoms.Nodup := by decide

theorem mem_allDoms {d : Nat} : d ∈ allDoms ↔ 1 ≤ d ∧ d ≤ 28 := by
  rw [allDoms, mem_upFrom]
  omega

/-- What a boundary finds of a domain before the governor acts; `asked` says whether a request for it stands (R414, R422, R423). -/
def boundaryDomain (asked : Bool) (x : Domain) : Domain :=
  match x.st with
  | .sleeping => Domain.off
  | .waking => { x with rampDone := true }
  | .off => { x with offFor := x.offFor + 1 }
  | .on => { x with eligible := if asked then 0 else x.eligible + 1 }

theorem slotBegin_dom (s : State) {d : Nat} (mem : d ∈ allDoms) : ∃ asked, s.slotBegin.dom d = boundaryDomain asked (s.dom d) := by
  have small : d < 29 := by have := mem_allDoms.1 mem; omega
  unfold State.slotBegin
  extract_lets s1 s2 both s3 l s4
  have sweep : ∃ asked, s1.dom d = boundaryDomain asked (s.dom d) := by
    refine foldl_dom (R := fun x y => ∃ asked, y = boundaryDomain asked x) allDoms_nodup mem (fun s e ne => ?_) (fun s => ?_) s
    · dsimp only
      split
      all_goals exact dom_modDom_ne s ne _
    · refine ⟨s.requested d, ?_⟩
      dsimp only
      split
      all_goals
        rename_i found
        simp only [dom_modDom_same s small, boundaryDomain, found]
  clear_value s1
  have down : s4.hdg.doms = s1.hdg.doms := by
    unfold s4
    split
    · rfl
    · rfl
  clear_value s4
  obtain ⟨asked, found⟩ := sweep
  refine ⟨asked, Eq.trans ?_ found⟩
  split
  · exact congrArg (vgetN Domain.off · d) down
  · exact congrArg (vgetN Domain.off · d) down

/-- The domain that a stage of the governor is for (R418). -/
def stageDom : Stage → Nat
  | .ramp d => d
  | .clockStart d => d
  | .clockStop d => d

/-- A stage acts on its own domain alone (R422, R423). -/
theorem doStage_dom_ne (s : State) (g : Stage) {d : Nat} (h : d ≠ stageDom g) : (s.doStage g).dom d = s.dom d := by
  cases g with
  | ramp e => exact dom_modDom_ne s h _
  | clockStart e => exact dom_modDom_ne s h _
  | clockStop e =>
    unfold State.doStage State.dom
    rw [hdg_loseDomain]
    exact dom_modDom_ne (s.modHdg _) h _

theorem doStage_clockStart_dom (s : State) {d : Nat} (h : d < 29) :
    (s.doStage (.clockStart d)).dom d = { s.dom d with clock := true } := dom_modDom_same s h _

/-- What every offered stage keeps of a domain, the governor keeps (R419, R421). -/
theorem offer_keeps {P : Domain → Prop} {d : Nat} {l : List Stage} (stage : ∀ g ∈ l, ∀ s : State, P (s.dom d) → P ((s.doStage g).dom d))
    (s : State) (b : Budget) (h : P (s.dom d)) : P ((s.offer b l).1.dom d) := by
  induction l generalizing s b with
  | nil => exact h
  | cons g l ih =>
    have rest := ih fun g mem => stage g (List.mem_cons_of_mem _ mem)
    unfold State.offer
    dsimp only
    split
    · exact rest _ _ (stage g List.mem_cons_self s h)
    · exact rest _ _ h

theorem st_of_stopDue {s : State} {d : Nat} (due : s.stopDue d = true) : (s.dom d).st = .on := by
  simp only [State.stopDue, Bool.and_eq_true, decide_eq_true_eq] at due
  obtain ⟨⟨⟨on, -⟩, -⟩, -⟩ := due
  exact on

theorem st_of_rampDue {s : State} {d : Nat} (due : s.rampDue d = true) : (s.dom d).st = .off ∧ 1 ≤ (s.dom d).offFor := by
  simp only [State.rampDue, Bool.and_eq_true, decide_eq_true_eq] at due
  obtain ⟨⟨⟨⟨⟨⟨off, -⟩, slots⟩, -⟩, -⟩, -⟩, -⟩ := due
  exact ⟨off, slots⟩

/-- What a slot boundary's stages are for, by what it finds at its start: a clock starts where a domain wakes, one stops where it is ON, and a
ramp begins where it has been OFF for a slot (R422, R423). -/
theorem slotBoundary_keeps {P : Domain → Prop} {d : Nat} (s : State) (h : P (s.slotBegin.dom d))
    (start : (s.slotBegin.dom d).st = .waking → ∀ t : State, P (t.dom d) → P ((t.doStage (.clockStart d)).dom d))
    (notOn : (s.slotBegin.dom d).st ≠ .on) (noRamp : (s.slotBegin.dom d).st = .off → (s.slotBegin.dom d).offFor = 0) :
    P (s.slotBoundary.dom d) := by
  unfold State.slotBoundary
  extract_lets s1 starts stops ramps q0 r
  have offered : P (r.1.dom d) := ?_
  · clear_value r
    exact offered
  refine offer_keeps (P := P) (fun g mem t ht => ?_) s1 _ h
  by_cases other : d = stageDom g
  swap
  · rw [doStage_dom_ne t g other]
    exact ht
  · rw [List.append_assoc, List.mem_append, List.mem_append] at mem
    rcases mem with mem | mem | mem
    · obtain ⟨e, due, rfl⟩ := List.mem_map.1 mem
      obtain rfl : d = e := other
      have due := (List.mem_filter.1 due).2
      simp only [Bool.and_eq_true, decide_eq_true_eq] at due
      obtain ⟨⟨⟨waking, -⟩, -⟩, -⟩ := due
      exact start waking t ht
    · obtain ⟨e, due, rfl⟩ := List.mem_map.1 mem
      obtain rfl : d = e := other
      exact absurd (st_of_stopDue (List.mem_filter.1 due).2) notOn
    · obtain ⟨e, due, rfl⟩ := List.mem_map.1 mem
      obtain rfl : d = e := other
      obtain ⟨off, slots⟩ := st_of_rampDue (List.mem_filter.1 due).2
      exact absurd (noRamp off) (Nat.one_le_iff_ne_zero.1 slots)

theorem slotBoundary_of_sleeping {s : State} {d : Nat} (mem : d ∈ allDoms) (sleeping : (s.dom d).st = .sleeping) :
    (s.slotBoundary.dom d).st = .off := by
  obtain ⟨asked, found⟩ := slotBegin_dom s mem
  have opened : s.slotBegin.dom d = Domain.off := by rw [found, boundaryDomain, sleeping]
  refine slotBoundary_keeps (P := fun x => x.st = .off) s ?_ ?_ ?_ ?_
  all_goals simp [opened, Domain.off]

theorem slotBoundary_of_waking {s : State} {d : Nat} (mem : d ∈ allDoms) (waking : (s.dom d).st = .waking) :
    (s.slotBoundary.dom d).st = .waking ∧ (s.slotBoundary.dom d).rampDone = true := by
  obtain ⟨asked, found⟩ := slotBegin_dom s mem
  have small : d < 29 := by have := mem_allDoms.1 mem; omega
  have ramped : s.slotBegin.dom d = { s.dom d with rampDone := true } := by simp only [found, boundaryDomain, waking]
  refine slotBoundary_keeps (P := fun x => x.st = .waking ∧ x.rampDone = true) s ?_ (fun _ t ht => ?_) ?_ ?_
  · simp [ramped, waking]
  · rw [doStage_clockStart_dom t small]
    exact ht
  · simp [ramped, waking]
  · simp [ramped, waking]

/-! ### READY bits (R428, R429) -/

/-- DRAM is as before and no READY bit has been lost. -/
def ReadyKept (s t : State) : Prop := t.dram = s.dram ∧ ∀ i, s.hdg.ready.getLsbD i = true → t.hdg.ready.getLsbD i = true

theorem ReadyKept.refl (s : State) : ReadyKept s s := ⟨rfl, fun _ h => h⟩

theorem ReadyKept.trans {s t u : State} (h : ReadyKept s t) (h' : ReadyKept t u) : ReadyKept s u :=
  ⟨h'.1.trans h.1, fun i set => h'.2 i (h.2 i set)⟩

theorem ReadyKept.of_frame {s t : State} (h : EventFrame s t) : ReadyKept s t := ⟨h.dram, fun i set => by rw [h.hdg]; exact set⟩

theorem modHdg_readyKept (s : State) (f : Headgate → Headgate) (h : ∀ i, s.hdg.ready.getLsbD i = true → (f s.hdg).ready.getLsbD i = true) :
    ReadyKept s (s.modHdg f) := ⟨rfl, h⟩

theorem setReady_sets (s : State) {f : Nat} (h : f < 40) : (s.setReady f).hdg.ready.getLsbD f = true := by
  unfold State.setReady
  split
  case isTrue set => exact set
  case isFalse =>
    rw [hdg_raise]
    simp [h]

/-! ### What events leave of a core (R263, R397, R429) -/

/-- The core does not wait in WAITE, so that no delivery ends a wait of it (R263). -/
def Awake (x : TaborCore) : Prop := ∀ rd timed, x.run ≠ .waiting rd timed

/-- HDG_CORE_RUN is as before, core `k` too unless it waits in WAITE, and no READY bit has been lost. -/
def Steady (k : Fin 4) (s t : State) : Prop :=
  t.reg rHdgCoreRun = s.reg rHdgCoreRun ∧ (Awake (vget s.cores k) → vget t.cores k = vget s.cores k) ∧ ReadyKept s t

section Steady
variable (k : Fin 4) (s : State)

theorem Steady.refl : Steady k s s := ⟨rfl, fun _ => rfl, ReadyKept.refl s⟩

variable {k s} in
theorem Steady.readyKept {t : State} (h : Steady k s t) : ReadyKept s t := by
  obtain ⟨-, -, ready⟩ := h
  exact ready

variable {k s} in
theorem Steady.trans {t u : State} (h : Steady k s t) (h' : Steady k t u) : Steady k s u := by
  obtain ⟨reg, core, ready⟩ := h
  obtain ⟨reg', core', ready'⟩ := h'
  exact ⟨reg'.trans reg, fun awake => (core' (by rw [core awake]; exact awake)).trans (core awake), ready.trans ready'⟩

theorem foldl_steady {β : Type} {f : State → β → State} (h : ∀ s b, Steady k s (f s b)) (l : List β) : Steady k s (l.foldl f s) := by
  induction l generalizing s with
  | nil => exact Steady.refl k s
  | cons b l ih => exact (h s b).trans (ih _)

theorem setReg_steady {o : Nat} (h : rHdgCoreRun ≠ o) (w : Word) : Steady k s (s.setReg o w) :=
  ⟨State.reg_setReg_ne s h w, fun _ => rfl, ReadyKept.of_frame (State.setReg_frame s o w)⟩

theorem setSrc_steady (n : Nat) (x : Source) : Steady k s (s.setSrc n x) :=
  ⟨rfl, fun _ => rfl, ReadyKept.of_frame (State.setSrc_frame s n x)⟩

theorem toPending_steady (n : Nat) : Steady k s (s.toPending n) := ⟨rfl, fun _ => rfl, ReadyKept.of_frame (State.toPending_frame s n)⟩

theorem claimSource_steady (t : Fin 16) (n : Nat) : Steady k s (s.claimSource t n) :=
  (setSrc_steady k s n _).trans (foldl_steady k _ (fun s (p : Nat × Source) => setSrc_steady k s p.1 _) _)

theorem modCore_steady {j : Fin 4} (h : k ≠ j) (f : TaborCore → TaborCore) : Steady k s (s.modCore j f) :=
  ⟨rfl, fun _ => vget_vmod_ne s.cores h f, ReadyKept.of_frame (State.modCore_frame s j f)⟩

theorem endWait_reg (c : Core) (rd : Fin 32) (src : Nat) (st : Byte) (o : Nat) : (s.endWait c rd src st).reg o = s.reg o := by
  cases c
  · rfl
  · rfl

theorem endWait_steady {c : Core} (h : c ≠ .tabor k) (rd : Fin 32) (src : Nat) (st : Byte) : Steady k s (s.endWait c rd src st) := by
  refine ⟨endWait_reg s c rd src st _, fun _ => ?_, ReadyKept.of_frame (State.endWait_frame s c rd src st)⟩
  cases c with
  | bellhouse => rfl
  | tabor j =>
    have ne : k ≠ j := fun e => h (congrArg Core.tabor e.symm)
    simp [State.endWait, State.setD, State.setFl, State.setRun, State.nextPc, State.setPc, vget_vmod_ne _ ne]

theorem deliverTo_steady (c : Core) : Steady k s (s.deliverTo c) := by
  unfold State.deliverTo
  split
  case h_1 rd timed waits =>
    dsimp only
    split
    · exact Steady.refl k s
    · by_cases own : c = .tabor k
      · subst own
        refine ⟨?_, fun awake => absurd waits (awake rd timed), ReadyKept.of_frame ?_⟩
        · rw [endWait_reg]
          exact (claimSource_steady k s _ _).1
        · exact (State.claimSource_frame s _ _).trans (State.endWait_frame _ _ _ _ _)
      · exact (claimSource_steady k s _ _).trans (endWait_steady k _ own _ _ _)
  case h_2 => exact Steady.refl k s

theorem deliver_steady : Steady k s s.deliver := foldl_steady k s (deliverTo_steady k) allCores

theorem edgeRaise_steady (n : Nat) : Steady k s (s.edgeRaise n) := by
  unfold State.edgeRaise
  extract_lets x s1
  have marked : Steady k s s1 := setSrc_steady k s n _
  have coalesced : Steady k s (s1.bump rEvcCoalesced 1) := marked.trans (setReg_steady k s1 (by decide) _)
  split
  · exact marked
  · split
    · exact marked.trans (toPending_steady k s1 n)
    · exact coalesced
    · exact marked.trans (setSrc_steady k s1 n _)
    · exact coalesced

theorem raise_steady (n : Nat) : Steady k s (s.raise n) := by
  unfold State.raise State.raiseWith
  split
  · exact Steady.refl k s
  · exact (edgeRaise_steady k s n).trans (deliver_steady k _)

theorem writeSrcCfg_steady (n : Nat) (v : Word) : Steady k s (s.writeSrcCfg n v) := by
  unfold State.writeSrcCfg
  split
  · exact Steady.refl k s
  · extract_lets x en free y ignored s1 y' s2
    have noted : Steady k s s1 := by
      unfold s1
      split
      · exact setReg_steady k s (by decide) _
      · exact Steady.refl k s
    have written : Steady k s s2 := noted.trans (setSrc_steady k s1 n y')
    split
    · exact written.trans ((toPending_steady k s2 n).trans (deliver_steady k _))
    · exact written

theorem assignDoorbells_steady : Steady k s s.assignDoorbells := by
  unfold State.assignDoorbells
  split
  · exact ((writeSrcCfg_steady k s _ _).trans (writeSrcCfg_steady k _ _ _)).trans (writeSrcCfg_steady k _ _ _)
  · exact Steady.refl k s

theorem modHdg_steady (f : Headgate → Headgate) (h : ∀ i, s.hdg.ready.getLsbD i = true → (f s.hdg).ready.getLsbD i = true) :
    Steady k s (s.modHdg f) := ⟨rfl, fun _ => rfl, modHdg_readyKept s f h⟩

theorem setReady_steady (f : Nat) : Steady k s (s.setReady f) := by
  unfold State.setReady
  split
  · exact Steady.refl k s
  · refine (modHdg_steady k s _ fun i set => ?_).trans (raise_steady k _ 15)
    simp [set]

end Steady

/-! ### Cores released from reset (R429) -/

/-- The RUN bit of core `j` is set while it is in reset, and CTRL_SRAM is READY. -/
def Releases (s : State) (j : Fin 4) : Prop :=
  (s.reg rHdgCoreRun).getLsbD j.1 = true ∧ s.hdg.ready.getLsbD 3 = true ∧ (vget s.cores j).run = .inReset

/-- A core as it leaves reset (R241, R429). -/
def fresh (base : Nat) : TaborCore := { TaborCore.inReset with run := .running, cycleBase := base }

/-- The release of core `j`. -/
def released (s : State) (j : Fin 4) : State :=
  let t := (s.modCore j (fun _ => fresh s.clk.tab)).setReady (4 + j.1)
  if j = 0 then t.assignDoorbells else t

/-- One core's turn in the release of the cores. -/
def releaseStep (s : State) (j : Fin 4) : State :=
  if (s.reg rHdgCoreRun).getLsbD j.1 && s.hdg.ready.getLsbD 3 && decide ((vget s.cores j).run = .inReset) then released s j else s

theorem releaseCores_eq (s : State) : s.releaseCores = ([0, 1, 2, 3] : List (Fin 4)).foldl releaseStep s := rfl

theorem releaseStep_of_releases {s : State} {j : Fin 4} (h : Releases s j) : releaseStep s j = released s j := by
  obtain ⟨bit, ready, inReset⟩ := h
  simp [releaseStep, bit, ready, inReset]

theorem releaseStep_of_not {s : State} {j : Fin 4} (h : ¬ Releases s j) : releaseStep s j = s := by
  refine if_neg fun bits => h ?_
  simp only [Bool.and_eq_true, decide_eq_true_eq] at bits
  obtain ⟨⟨bit, ready⟩, inReset⟩ := bits
  exact ⟨bit, ready, inReset⟩

/-- After the core itself, a release only raises events. -/
theorem released_steady (k : Fin 4) (s : State) (j : Fin 4) : Steady k (s.modCore j (fun _ => fresh s.clk.tab)) (released s j) := by
  unfold released
  dsimp only
  split
  · exact (setReady_steady k _ _).trans (assignDoorbells_steady k _)
  · exact setReady_steady k _ _

theorem awake_fresh (base : Nat) : Awake (fresh base) := fun _ _ => nofun

theorem released_core (s : State) (k : Fin 4) : vget (released s k).cores k = fresh s.clk.tab := by
  have own : vget (s.modCore k (fun _ => fresh s.clk.tab)).cores k = fresh s.clk.tab := vget_vmod_same _ _ _
  obtain ⟨-, core, -⟩ := released_steady k s k
  exact (core (by rw [own]; exact awake_fresh _)).trans own

theorem releaseStep_steady {k : Fin 4} {s : State} {j : Fin 4} (h : j = k → ¬ Releases s k) : Steady k s (releaseStep s j) := by
  by_cases due : Releases s j
  · rw [releaseStep_of_releases due]
    exact (modCore_steady k s (fun e => h e.symm (e ▸ due)) _).trans (released_steady k s j)
  · rw [releaseStep_of_not due]
    exact Steady.refl k s

/-- Every core's turn leaves HDG_CORE_RUN and the READY bits of others. -/
theorem releaseStep_kept (s : State) (j : Fin 4) : (releaseStep s j).reg rHdgCoreRun = s.reg rHdgCoreRun ∧ ReadyKept s (releaseStep s j) := by
  by_cases due : Releases s j
  · rw [releaseStep_of_releases due]
    obtain ⟨reg, -, ready⟩ := released_steady j s j
    exact ⟨reg, (ReadyKept.of_frame (State.modCore_frame s j _)).trans ready⟩
  · rw [releaseStep_of_not due]
    exact ⟨rfl, ReadyKept.refl s⟩

theorem releaseCores_coreRun (s : State) : s.releaseCores.reg rHdgCoreRun = s.reg rHdgCoreRun := by
  rw [releaseCores_eq]
  exact foldl_proj (State.reg · rHdgCoreRun) (fun s j => (releaseStep_kept s j).1) _ s

theorem releaseCores_readyKept (s : State) : ReadyKept s s.releaseCores := by
  rw [releaseCores_eq]
  exact foldl_keeps (ReadyKept s) releaseStep (fun t j h => h.trans (releaseStep_kept t j).2) _ s (ReadyKept.refl s)

/-- Core `k` is not to be released: its RUN bit is clear, or it runs. -/
def Settled (k : Fin 4) (s : State) : Prop := (s.reg rHdgCoreRun).getLsbD k.1 = false ∨ (vget s.cores k).run = .running

theorem Settled.not_releases {k : Fin 4} {s : State} (h : Settled k s) : ¬ Releases s k := by
  rintro ⟨bit, -, inReset⟩
  rcases h with clear | running
  · exact absurd (bit.symm.trans clear) (by decide)
  · exact absurd (running.symm.trans inReset) (by decide)

theorem awake_of_running {x : TaborCore} (h : x.run = .running) : Awake x := fun _ _ => by rw [h]; nofun

theorem awake_of_inReset {x : TaborCore} (h : x.run = .inReset) : Awake x := fun _ _ => by rw [h]; nofun

theorem Settled.steady {k : Fin 4} {s t : State} (h : Settled k s) (steady : Steady k s t) : Settled k t := by
  obtain ⟨reg, core, -⟩ := steady
  exact h.imp (fun clear => by rw [reg]; exact clear) (fun running => by rw [core (awake_of_running running)]; exact running)

theorem Releases.steady {k : Fin 4} {s t : State} (h : Releases s k) (steady : Steady k s t) : Releases t k := by
  obtain ⟨bit, ready, inReset⟩ := h
  obtain ⟨reg, core, -, kept⟩ := steady
  exact ⟨by rw [reg]; exact bit, kept 3 ready, by rw [core (awake_of_inReset inReset)]; exact inReset⟩

theorem foldl_releaseStep_steady {k : Fin 4} {s : State} (h : Settled k s) (l : List (Fin 4)) : Steady k s (l.foldl releaseStep s) := by
  induction l generalizing s with
  | nil => exact Steady.refl k s
  | cons j l ih =>
    have step : Steady k s (releaseStep s j) := releaseStep_steady fun _ => h.not_releases
    exact step.trans (ih (h.steady step))

/-- A core that is to be released is fresh from reset after its turn, and no later turn touches it. -/
theorem foldl_releaseStep_fresh {k : Fin 4} {s : State} (h : Releases s k) {l : List (Fin 4)} (mem : k ∈ l) :
    ∃ base, vget (l.foldl releaseStep s).cores k = fresh base := by
  induction l generalizing s with
  | nil => exact absurd mem List.not_mem_nil
  | cons j l ih =>
    rw [List.foldl_cons]
    by_cases own : j = k
    · subst own
      rw [releaseStep_of_releases h]
      have core : vget (released s j).cores j = fresh s.clk.tab := released_core s j
      have settled : Settled j (released s j) := .inr (by rw [core]; rfl)
      obtain ⟨-, kept, -⟩ := foldl_releaseStep_steady settled l
      exact ⟨_, (kept (by rw [core]; exact awake_fresh _)).trans core⟩
    · exact ih (h.steady (releaseStep_steady fun e => absurd e own)) ((List.mem_cons.1 mem).resolve_left (Ne.symm own))

theorem mem_cores (k : Fin 4) : k ∈ ([0, 1, 2, 3] : List (Fin 4)) := by
  fin_cases k <;> decide

/-! ### Writes of HDG_CORE_RUN (R429, R430) -/

/-- The cores whose bit of `v` is clear are put into reset. -/
def resetClear (v : Word) (s : State) : State :=
  ([0, 1, 2, 3] : List (Fin 4)).foldl (fun s j => if v.getLsbD j.1 then s else s.resetCore j) s

/-- The state that the release of the cores starts from. -/
def runWritten (v : Word) (s : State) : State := (resetClear v s).setReg rHdgCoreRun (v &&& 0xF)

theorem coreRunWrite_bellhouse (s : State) (v : Word) : s.coreRunWrite .bellhouse v = (runWritten v s).releaseCores := rfl

/-- Core `k` is as reset leaves it (R241); its cycle count starts at the reset. -/
def IsReset (k : Fin 4) (s : State) : Prop := ∃ base, vget s.cores k = { TaborCore.inReset with cycleBase := base }

theorem resetCore_core_same (s : State) (k : Fin 4) : IsReset k (s.resetCore k) := ⟨s.clk.tab, vget_vmod_same _ _ _⟩

theorem resetCore_core_ne (s : State) {j k : Fin 4} (h : k ≠ j) : vget (s.resetCore j).cores k = vget s.cores k := vget_vmod_ne s.cores h _

theorem resetCore_ready (s : State) (j : Fin 4) : (s.resetCore j).hdg.ready.getLsbD 3 = s.hdg.ready.getLsbD 3 := by
  have other : ¬ 3 = 4 + j.1 := by omega
  simp [State.resetCore, State.dropHeld, State.modHdg, other]

theorem resetClear_regs (v : Word) (s : State) : (resetClear v s).regs = s.regs := by
  refine foldl_proj State.regs (fun s j => ?_) _ s
  split
  · rfl
  · rfl

theorem resetClear_ready (v : Word) (s : State) : (resetClear v s).hdg.ready.getLsbD 3 = s.hdg.ready.getLsbD 3 := by
  refine foldl_proj (fun s => s.hdg.ready.getLsbD 3) (fun s j => ?_) _ s
  split
  · rfl
  · exact resetCore_ready s j

theorem resetClear_of_clear {v : Word} {k : Fin 4} (clear : v.getLsbD k.1 = false) (s : State) : IsReset k (resetClear v s) := by
  refine foldl_establishes (fun s j h => ?_) (fun s => ?_) (mem_cores k) s
  · split
    · exact h
    · by_cases own : k = j
      · subst own
        exact resetCore_core_same s k
      · unfold IsReset
        rw [resetCore_core_ne s own]
        exact h
  · rw [clear, if_neg Bool.false_ne_true]
    exact resetCore_core_same s k

theorem resetClear_of_set {v : Word} {k : Fin 4} (set : v.getLsbD k.1 = true) (s : State) : vget (resetClear v s).cores k = vget s.cores k := by
  refine foldl_proj (fun s => vget s.cores k) (fun s j => ?_) _ s
  split
  case isTrue => rfl
  case isFalse clear => exact resetCore_core_ne s (fun own => clear (own ▸ set))

section CoreRunWrite
variable {s : State} (wf : mapWf regReset s.regs) (v : Word) {k : Fin 4}
include wf

theorem runWritten_coreRun : (runWritten v s).reg rHdgCoreRun = v &&& 0xF := by
  have wf' : mapWf regReset (resetClear v s).regs := by rw [resetClear_regs]; exact wf
  rw [runWritten, State.reg_setReg wf', if_pos rfl]

theorem runWritten_bit (k : Fin 4) : ((runWritten v s).reg rHdgCoreRun).getLsbD k.1 = v.getLsbD k.1 := by
  have mask : (0xF : Word).getLsbD k.1 = true := by fin_cases k <;> rfl
  rw [runWritten_coreRun wf, BitVec.getLsbD_and, mask, Bool.and_true]

theorem coreRunWrite_coreRun : (s.coreRunWrite .bellhouse v).reg rHdgCoreRun = v &&& 0xF := by
  rw [coreRunWrite_bellhouse, releaseCores_coreRun, runWritten_coreRun wf]

/-- A core whose RUN bit is clear is in reset. -/
theorem coreRunWrite_of_clear (clear : v.getLsbD k.1 = false) : IsReset k (s.coreRunWrite .bellhouse v) := by
  have settled : Settled k (runWritten v s) := .inl (by rw [runWritten_bit wf, clear])
  obtain ⟨base, core⟩ : IsReset k (runWritten v s) := resetClear_of_clear clear s
  obtain ⟨-, kept, -⟩ := foldl_releaseStep_steady settled [0, 1, 2, 3]
  rw [coreRunWrite_bellhouse, releaseCores_eq]
  exact ⟨base, (kept (awake_of_inReset (by rw [core]; rfl))).trans core⟩

/-- A core in reset whose RUN bit is set leaves it once CTRL_SRAM is READY. -/
theorem coreRunWrite_of_set (set : v.getLsbD k.1 = true) (ready : s.hdg.ready.getLsbD 3 = true) (inReset : (vget s.cores k).run = .inReset) :
    ∃ base, vget (s.coreRunWrite .bellhouse v).cores k = fresh base := by
  have releases : Releases (runWritten v s) k :=
    ⟨by rw [runWritten_bit wf, set], (resetClear_ready v s).trans ready, (congrArg TaborCore.run (resetClear_of_set set s)).trans inReset⟩
  rw [coreRunWrite_bellhouse, releaseCores_eq]
  exact foldl_releaseStep_fresh releases (mem_cores k)

end CoreRunWrite

/-! ### Functions that become READY (R428) -/

theorem bootPatch_readyKept (s : State) (n : Nat) : ReadyKept s (s.bootPatch n) := by
  unfold State.bootPatch
  split
  · exact ReadyKept.refl s
  · dsimp only
    split
    · exact ReadyKept.refl s
    · exact ReadyKept.refl s

/-- A function whose domain's clock runs becomes READY, and DRAM is as before. -/
theorem becomeReady_ready {s : State} {f : Fin 40} (clock : (s.dom (functionDom f.1)).clock = true)
    (awake : (s.dom (functionDom f.1)).st ≠ .sleeping) (exists_dom : functionDom f.1 < 29) (nonzero : f ≠ 0) (noCore : f.1 < 4 ∨ 8 ≤ f.1)
    (noDramA : f ≠ 14) (noDramB : f ≠ 15) :
    (s.becomeReady f.1).hdg.ready.getLsbD f.1 = true ∧ (s.becomeReady f.1).dram = s.dram := by
  unfold State.becomeReady
  extract_lets d ok s1 s2 s3
  have accepted : ok = true := by
    have core : (decide (4 ≤ f.1) && decide (f.1 < 8)) = false := by
      simp only [Bool.and_eq_false_iff, decide_eq_false_iff_not]
      omega
    have numbers : f.1 ≠ 0 ∧ f.1 ≠ 14 ∧ f.1 ≠ 15 := ⟨fun e => nonzero (Fin.ext e), fun e => noDramA (Fin.ext e), fun e => noDramB (Fin.ext e)⟩
    simp [ok, d, clock, awake, exists_dom, core, numbers]
  have marked : ReadyKept s s1 := (setReady_steady 0 s f.1).readyKept
  have bit : s1.hdg.ready.getLsbD f.1 = true := setReady_sets s f.2
  have on : ReadyKept s1 s2 := by
    unfold s2
    split
    · exact modHdg_readyKept s1 _ fun _ set => set
    · exact ReadyKept.refl s1
  suffices rest : ∀ t, ReadyKept s2 t → t.hdg.ready.getLsbD f.1 = true ∧ t.dram = s.dram by
    rw [accepted, if_neg (by decide)]
    split
    · exact rest _ (releaseCores_readyKept s2)
    · exact rest _ (((assignDoorbells_steady 0 s2).trans (deliver_steady 0 _)).readyKept)
    · exact rest _ (ReadyKept.refl s2)
    · exact rest _ (ReadyKept.refl s2)
    · split
      · exact rest _ (modHdg_readyKept s2 _ fun _ set => set)
      · split
        · exact rest _ (bootPatch_readyKept s2 _)
        · exact rest _ (ReadyKept.refl s2)
  intro t later
  obtain ⟨dram, kept⟩ := (marked.trans on).trans later
  exact ⟨(on.trans later).2 f.1 bit, dram⟩

/-! ### The claims of R241, R415, R419 to R423, R428, R429 and R432 -/

theorem next_access {s t : State} {i : Initiator} {a : Nat} {c : Instr} {f : State → State}
    (enters : s.mayEnter i (s.pathNeeds i a) (some (s.pointOf a)) = true) (leaves : f s = t) :
    (.next (s.access i a c f) : Host.Outcome State Fault Refusal) = .next t := by
  rw [State.access, if_pos enters, leaves]

/-- An address in the CSR space by its offset. -/
theorem toNat_of_csrOff {addr : BitVec 48} {off : Nat} (h : csrOff addr = off) (pos : 0 < off) : addr.toNat = csrBase + off := by
  unfold csrOff at h
  omega

theorem becomeReady_stopped {s : State} {f : Nat} (stopped : (s.dom (functionDom f)).clock = false) : s.becomeReady f = s := by
  unfold State.becomeReady
  extract_lets d ok s1 s2 s3
  have refused : ok = false := by simp [ok, d, stopped]
  rw [refused]
  rfl

/-- The requester's own register takes bits 28:1 (R432). -/
theorem domainRequest_own {s : State} {i : Initiator} {off : Nat} {v : Word}
    (own : (∃ k, i = .core k ∧ off = rHdgReqCore k.1) ∨ (i = .bellhouse ∧ off = rHdgReqBh)) :
    s.domainRequest i off v = s.setReg off (v &&& 0x1FFFFFFE) := by
  rcases own with ⟨k, rfl, rfl⟩ | ⟨rfl, rfl⟩
  · simp [State.domainRequest]
  · simp [State.domainRequest]

theorem domainRequest_other {s : State} {k : Fin 4} {off : Nat} {v : Word} (other : off ≠ rHdgReqCore k.1) :
    s.domainRequest (.core k) off v = s := by
  simp [State.domainRequest, other]

/-- Bellhouse's write of an inrush limit that is not locked (R420, R506). -/
theorem inrush_bellhouse {s : State} (unlocked : s.locked 3 = false) (didt : Bool) (v : Word) :
    s.inrush .bellhouse didt v =
      if v.toNat % 65536 < (if didt then 4000 else 1400) then
        (s.setReg (if didt then rHdgInrushDidt else rHdgInrushQ) (BitVec.ofNat 32 (if didt then 4000 else 1400))).orReg rHdgStat 0x10
      else s.setReg (if didt then rHdgInrushDidt else rHdgInrushQ) (BitVec.ofNat 32 (v.toNat % 65536)) := by
  simp [State.inrush, unlocked]

/-- A core as reset leaves it, read through the accessors of its registers (R241). -/
theorem IsReset.registers {s : State} {k : Fin 4} (h : IsReset k s) : s.coreRun (.tabor k) = .inReset ∧ (∀ r, s.getD (.tabor k) r = 0) ∧
    s.getFl (.tabor k) = 0 ∧ s.getStatus (.tabor k) = 1 ∧ s.getPc (.tabor k) = 0x020000000000 := by
  obtain ⟨base, core⟩ := h
  simp [State.coreRun, State.getD, State.getFl, State.getStatus, State.getPc, core, TaborCore.inReset]

/-- Settles O50: each clause by the lemma of its unit: PLLs, READY bits, requests, inrush limits, cores and slot boundaries. -/
theorem powerSequence : Obligations.PowerSequence := by
  intro q f d k ini addr didt v s lim least x
  refine ⟨fun starting => ⟨fun free => ?_, fun lost other => ?_, ?_⟩, fun still => ⟨?_, ?_⟩, fun failed => ?_, fun sound => ?_,
    fun clock awake exists_dom nonzero noCore noDramA noDramB => ?_, fun stopped => ?_, fun off enters => ?_, fun off enters => ?_,
    fun off enters => ?_, fun unlocked enters fits => ?_, fun unlocked enters low => ?_, fun other => ⟨fun enters => ?_, fun enters => ?_⟩,
    fun wf enters => ?_, fun lo hi => ?_⟩
  · have locks : (s.pllIs q .starting && (!s.hdg.refLost || decide (q = 8))) = true := by
      rcases free with kept | own
      · rw [starting, kept]
        rfl
      · rw [starting, decide_eq_true own, Bool.or_true]
        rfl
    exact congrArg Host.Outcome.next (if_pos locks)
  · exact congrArg Host.Outcome.next (if_neg (by simp [lost, other]))
  · exact congrArg Host.Outcome.next (if_pos starting)
  · exact congrArg Host.Outcome.next (if_neg (by simp [still]))
  · exact congrArg Host.Outcome.next (if_neg (by simp [still]))
  · exact congrArg Host.Outcome.next (if_pos failed)
  · exact congrArg Host.Outcome.next (if_neg (by simp [sound]))
  · obtain ⟨bit, dram⟩ := becomeReady_ready clock awake exists_dom nonzero noCore noDramA noDramB
    exact ⟨_, rfl, bit, dram⟩
  · exact congrArg Host.Outcome.next (becomeReady_stopped stopped)
  · have addressed : addr.toNat = csrBase + rHdgReqBh := toNat_of_csrOff off (by decide)
    refine next_access (by rw [addressed]; exact enters) ?_
    rw [off]
    exact domainRequest_own (.inr ⟨rfl, rfl⟩)
  · have addressed : addr.toNat = csrBase + rHdgReqCore k.1 := toNat_of_csrOff off (by rw [rHdgReqCore]; omega)
    refine next_access (by rw [addressed]; exact enters) ?_
    rw [off]
    exact domainRequest_own (.inl ⟨k, rfl, rfl⟩)
  · exact next_access enters (domainRequest_other off)
  · exact next_access enters ((inrush_bellhouse unlocked didt v).trans (if_neg (Nat.not_lt.2 fits)))
  · exact next_access enters ((inrush_bellhouse unlocked didt v).trans (if_pos low))
  · exact next_access enters (if_pos other)
  · exact next_access enters (if_pos other)
  · refine ⟨_, next_access enters rfl, coreRunWrite_coreRun wf v, fun clear => (coreRunWrite_of_clear wf v clear).registers,
      fun set ready inReset => ?_⟩
    obtain ⟨base, core⟩ := coreRunWrite_of_set wf v set ready inReset
    exact ⟨congrArg TaborCore.run core, congrArg TaborCore.pc core⟩
  · have mem : d ∈ allDoms := mem_allDoms.2 ⟨lo, hi⟩
    exact ⟨fun sleeping => ⟨_, rfl, slotBoundary_of_sleeping mem sleeping⟩, fun waking => ⟨_, rfl, slotBoundary_of_waking mem waking⟩⟩

end Sys2Proof.Proofs.Power

/-! The event controller (R395 to R408): one lemma for each case of a completion, of a configuration write and of a sampled line, and what an EVDONE
leaves before its completion. -/

namespace Sys2Proof.Proofs.Events

open Sys2Proof Sys2Proof.Machine Sys2Proof.Claims

/-- Source `k` is ACTIVE, pending again or not, and was claimed through target `t` (R402). -/
abbrev HeldBy (s : State) (t : Fin 16) (k : Nat) : Prop := ((s.src k).st = .active ∨ (s.src k).st = .repend) ∧ (s.src k).target = t

/-! ### Completions (R397, R402) -/

section Complete
variable {s : State} {t : Fin 16} {k : Nat}

theorem complete_of_not_held (free : ¬ HeldBy s t k) : s.complete t k = s.orReg rEvcStat 1 :=
  if_neg fun ⟨active, target, _⟩ => free ⟨active, target⟩

variable (nonzero : k ≠ 0) (small : k < 1024)
include nonzero small

/-- The completion of an edge source that is held goes by its REPEND alone. -/
theorem complete_of_held (held : HeldBy s t k) (edge : isLevel k = false) :
    s.complete t k =
      if (s.src k).en && decide ((s.src k).st = .repend) then (s.toPending k).deliver else s.setSrc k { s.src k with st := .idle } := by
  obtain ⟨active, target⟩ := held
  unfold State.complete
  extract_lets x again
  have repend : again = decide (x.st = .repend) := if_neg (by simp [edge])
  rw [if_pos ⟨active, target, nonzero, small⟩, repend]

theorem complete_of_active (active : (s.src k).st = .active) (target : (s.src k).target = t) (edge : isLevel k = false) :
    s.complete t k = s.setSrc k { s.src k with st := .idle } := by
  rw [complete_of_held nonzero small ⟨.inl active, target⟩ edge, if_neg (by simp [active])]

theorem complete_of_repend (repend : (s.src k).st = .repend) (target : (s.src k).target = t) (enabled : (s.src k).en = true)
    (edge : isLevel k = false) : s.complete t k = (s.toPending k).deliver := by
  rw [complete_of_held nonzero small ⟨.inr repend, target⟩ edge, if_pos (by simp [enabled, repend])]

end Complete

/-! ### Writes of EVC_DONE and EVDONE (R262, R402) -/

theorem doneWrite_of_claimant {s : State} {i : Initiator} {t : Fin 16} {v : Word} (software : t.1 ≤ 5) (claimant : s.claimantOf i t = true) :
    s.doneWrite i t v = s.complete t (v.toNat % 1024) := by
  rw [State.doneWrite, if_neg (by omega), if_neg (by omega), if_pos claimant]

theorem doneWrite_of_stranger {s : State} {i : Initiator} {t : Fin 16} {v : Word} (software : t.1 ≤ 5) (stranger : s.claimantOf i t = false) :
    s.doneWrite i t v = s.orReg rEvcStat 1 := by
  rw [State.doneWrite, if_neg (by omega), if_neg (by omega), if_neg (by simp [stranger])]

/-- Core `c` goes on with status OK. -/
def doneOk (s : State) (c : Core) : State := (s.setFl c (putSt (s.getFl c) 0)).nextPc c

theorem doneOk_src (s : State) (c : Core) (k : Nat) : (doneOk s c).src k = s.src k := by
  cases c with
  | tabor j => rfl
  | bellhouse => rfl

/-- An EVDONE of a source's number whose message is accepted ends with OK, whatever its completion does (R262). -/
theorem exec_evdone {s : State} {c : Core} {f : FmtX} {k : Nat} (run : Runs s c) (enters : s.mayEnter (coreIni c) [8, 9] (some 67) = true)
    (rd : f.rd = 0) (rb : f.rb = 0) (sub : f.sub = 0) (number : (s.getD c f.ra).toNat = k) (nonzero : k ≠ 0) (small : k < 1024) :
    Gives (.evdone c f) s ((doneOk s c).complete (coreTarget c) k) := by
  have legal : fmtXPlain f false true false 0 = true := by simp [fmtXPlain, rd, rb, sub]
  refine Densiten.next_runDsn_legal run legal ?_
  rw [State.evcAccess, if_pos enters]
  dsimp only
  rw [number, if_pos (by omega)]
  rfl

/-! ### Claims (R401) -/

theorem claimRead_of_claimable {s : State} {t : Fin 16} (software : t.1 ≤ 5) (found : s.claimable t ≠ 0) :
    (s.claimRead t).1 = s.claimSource t (s.claimable t) := by
  rw [State.claimRead, if_pos software, if_neg found]

theorem claimRead_of_none {s : State} {t : Fin 16} (empty : 5 < t.1 ∨ s.claimable t = 0) : (s.claimRead t).1 = s := by
  unfold State.claimRead
  split
  case isTrue software => rw [if_pos (empty.resolve_left (by omega))]
  case isFalse => rfl

/-! ### Configuration (R408) -/

/-- A write to an edge source that is disabled and IDLE changes every field and ignores none. -/
theorem writeSrcCfg_of_free {s : State} {k : Nat} (nonzero : k ≠ 0) (small : k < 1024) (disabled : (s.src k).en = false)
    (idle : (s.src k).st = .idle) (edge : isLevel k = false) (v : Word) :
    s.writeSrcCfg k v = s.setSrc k { s.src k with
      target := fin 16 (v.toNat % 16), filter := v.extractLsb' 4 8, pol := v.getLsbD 13, en := v.getLsbD 12 } := by
  have number : ¬ (k = 0 ∨ 1024 ≤ k) := by omega
  rw [State.writeSrcCfg, if_neg number]
  simp [disabled, idle, edge]

/-! ### Lines of level sources (R397 to R399) -/

section Line
variable {s : State} {k m : Nat} {line : Bool}

/-- Fewer agreeing samples than FILTER asks for are not recognised. -/
theorem lineSampled_of_early (early : m < Nat.max 1 (s.src k).filter.toNat) : s.lineSampled k line m = s :=
  if_neg fun ⟨_, recognised⟩ => absurd recognised (by omega)

theorem lineSampled_of_recognised (level : isLevel k = true) (recognised : Nat.max 1 (s.src k).filter.toNat ≤ m) :
    s.lineSampled k line m = s.lineChange k (s.afterPol k line) := if_pos ⟨level, recognised⟩

theorem lineChange_asserted (enabled : (s.src k).en = true) (idle : (s.src k).st = .idle) :
    s.lineChange k true = ((s.setSrc k { s.src k with raw := true }).toPending k).deliver :=
  if_pos ⟨enabled, idle⟩

theorem lineChange_released (pending : (s.src k).st = .pending) :
    s.lineChange k false = (s.setSrc k { s.src k with raw := false }).setSrc k { s.src k with raw := false, st := .idle } :=
  if_pos pending

end Line

/-- Settles O26: each clause by the lemma of its case; EVDONE by its state with OK, whose sources are as before. -/
theorem eventController : Obligations.EventController := by
  intro ini t n v c f s nonzero k x held ok
  have number : n.1 ≠ 0 := fun e => nonzero (Fin.ext e)
  have same : ok.src n.1 = x := doneOk_src s c n.1
  refine ⟨fun enters => ⟨?_, ?_, ?_, ?_⟩, fun run enters rd rb sub ra own => ?_, fun enters => ⟨?_, ?_⟩, fun enters disabled idle edge => ?_,
    fun enters => ?_, fun line m level => ⟨fun early => ?_, fun recognised => ⟨fun asserted enabled idle => ?_, fun released pending => ?_⟩⟩⟩
  · intro claimant software value free
    exact Power.next_access enters (by rw [doneWrite_of_claimant software claimant, value, complete_of_not_held free])
  · intro claimant software value active target edge
    exact Power.next_access enters
      (by rw [doneWrite_of_claimant software claimant, value, complete_of_active number n.2 active target edge])
  · intro claimant software value repend target enabled edge
    exact Power.next_access enters
      (by rw [doneWrite_of_claimant software claimant, value, complete_of_repend number n.2 repend target enabled edge])
  · intro software stranger
    exact Power.next_access enters (doneWrite_of_stranger software stranger)
  · have completes : Gives (.evdone c f) s (ok.complete t n.1) := own ▸ exec_evdone run enters rd rb sub ra number n.2
    refine ⟨fun free => ?_, fun active target edge => ?_⟩
    · have free' : ¬ HeldBy ok t n.1 := by rw [HeldBy, same]; exact free
      rwa [complete_of_not_held free'] at completes
    · rwa [complete_of_active number n.2 (by rw [same]; exact active) (by rw [same]; exact target) edge, same] at completes
  · intro software claimable
    exact Power.next_access enters (claimRead_of_claimable software claimable)
  · intro empty
    exact Power.next_access enters (claimRead_of_none empty)
  · exact Power.next_access enters (writeSrcCfg_of_free number n.2 disabled idle edge v)
  · exact Power.next_access enters rfl
  · exact congrArg Host.Outcome.next (lineSampled_of_early early)
  · refine congrArg Host.Outcome.next ?_
    rw [lineSampled_of_recognised level recognised, asserted, lineChange_asserted enabled idle]
  · refine ⟨_, congrArg Host.Outcome.next (lineSampled_of_recognised level recognised), fun wf => ?_⟩
    rw [released, lineChange_released pending, State.src_setSrc (mapWf_mapSet wf _ _), if_pos rfl]

end Sys2Proof.Proofs.Events

/-! Kalsal time and enumeration (R450, R454 to R456): a packet that has arrived is taken by the command of its kind, what a TIME or ENUM packet that
is offered to Sluice leaves alone, the registers of the Kalsal unit that no completion writes, and the walk over the ports. -/

namespace Sys2Proof.Proofs.KalsalTime

open Sys2Proof Sys2Proof.Machine Sys2Proof.Claims

/-! ### Registers of the Kalsal unit that completions leave alone (R277, R305, R328, R462) -/

/-- `o` is the offset of a register of the Kalsal unit. -/
abbrev KslReg (o : Nat) : Prop := 0xD0000 ≤ o ∧ o < 0xE0000

/-- Every register of the Kalsal unit is as before. -/
def KslRegsKept (s t : State) : Prop := ∀ o, KslReg o → t.reg o = s.reg o

theorem KslRegsKept.of_regs {s t : State} (h : t.regs = s.regs) : KslRegsKept s t := fun o _ => congrArg (mapGet regReset · o) h

theorem KslRegsKept.refl (s : State) : KslRegsKept s s := .of_regs rfl

theorem KslRegsKept.trans {s t u : State} (h : KslRegsKept s t) (h' : KslRegsKept t u) : KslRegsKept s u :=
  fun o own => (h' o own).trans (h o own)

section Kept
variable (s : State)

theorem foldl_kept {β : Type} {f : State → β → State} (h : ∀ s b, KslRegsKept s (f s b)) (l : List β) : KslRegsKept s (l.foldl f s) := by
  induction l generalizing s with
  | nil => exact .refl s
  | cons b l ih => exact (h s b).trans (ih _)

theorem setReg_kept {o : Nat} (other : ¬ KslReg o) (w : Word) : KslRegsKept s (s.setReg o w) :=
  fun p own => State.reg_setReg_ne s (show p ≠ o from fun e => other (e ▸ own)) w

theorem orReg_kept {o : Nat} (other : ¬ KslReg o) (m : Word) : KslRegsKept s (s.orReg o m) := setReg_kept s other _

theorem bump_kept {o : Nat} (other : ¬ KslReg o) (n : Nat) : KslRegsKept s (s.bump o n) := setReg_kept s other _

theorem setReg64_kept {o : Nat} (low : ¬ KslReg o) (high : ¬ KslReg (o + 4)) (v : DWord) : KslRegsKept s (s.setReg64 o v) :=
  (setReg_kept s low _).trans (setReg_kept _ high _)

theorem modRas_kept (f : Ras → Ras) : KslRegsKept s (s.modRas f) := .of_regs rfl

theorem claimSource_kept (t : Fin 16) (n : Nat) : KslRegsKept s (s.claimSource t n) :=
  (KslRegsKept.of_regs (t := s.setSrc n _) rfl).trans (foldl_kept _ (fun s (e : Nat × Source) => .of_regs (State.setSrc_regs s e.1 _)) _)

theorem deliverTo_kept (c : Core) : KslRegsKept s (s.deliverTo c) := by
  unfold State.deliverTo
  split
  · dsimp only
    split
    · exact .refl s
    · exact (claimSource_kept s _ _).trans fun o _ => Power.endWait_reg _ _ _ _ _ o
  · exact .refl s

theorem deliver_kept : KslRegsKept s s.deliver := foldl_kept s deliverTo_kept allCores

theorem edgeRaise_kept (n : Nat) : KslRegsKept s (s.edgeRaise n) := by
  unfold State.edgeRaise
  extract_lets x s1
  have marked : KslRegsKept s s1 := .of_regs rfl
  have coalesced : KslRegsKept s (s1.bump rEvcCoalesced 1) := marked.trans (bump_kept s1 (by decide) _)
  split
  · exact marked
  · split
    · exact marked.trans (.of_regs rfl)
    · exact coalesced
    · exact marked.trans (.of_regs rfl)
    · exact coalesced

theorem raise_kept (n : Nat) : KslRegsKept s (s.raise n) := by
  unfold State.raise State.raiseWith
  split
  · exact .refl s
  · exact (edgeRaise_kept s n).trans (deliver_kept _)

theorem threshold_kept : KslRegsKept s s.threshold := (orReg_kept s (by decide) _).trans (raise_kept _ 13)

theorem countSite_kept (site : Nat) (vs : List Verdict) : KslRegsKept s (s.countSite site vs) := by
  unfold State.countSite
  extract_lets c u t
  have corrected : KslRegsKept s t := by
    unfold t
    split
    · exact .refl s
    · exact bump_kept s (by unfold rRasWcCorr; omega) _
  split
  · exact corrected
  · exact corrected.trans (bump_kept t (by unfold rRasWcUncorr; omega) _)

theorem siteWords_kept (site : Nat) (vs : List Verdict) : KslRegsKept s (s.siteWords site vs) := by
  unfold State.siteWords
  extract_lets c u s1 hr base old s2 s3
  have counted : KslRegsKept s s2 := by
    unfold s2
    split
    · exact countSite_kept s _ _
    · exact (countSite_kept s _ _).trans (modRas_kept s1 _)
  have limited : KslRegsKept s s3 := by
    unfold s3
    split
    · exact counted.trans (threshold_kept s2)
    · exact counted
  split
  · exact limited
  · exact limited.trans (threshold_kept s3)

theorem enter_kept (p : Proposal) : KslRegsKept s (s.enter p) := by
  unfold State.enter
  split
  · exact (modRas_kept s _).trans (orReg_kept _ (by decide) _)
  · exact (modRas_kept s _).trans (raise_kept _ 14)

theorem propose_kept (kind target reason info : Nat) : KslRegsKept s (s.propose kind target reason info) := by
  unfold State.propose
  extract_lets p
  split_ifs
  · exact .refl s
  · exact modRas_kept s _
  · exact threshold_kept s
  · exact enter_kept s p

theorem dramCorrected_kept (c phy : Nat) : KslRegsKept s (s.dramCorrected c phy) := by
  unfold State.dramCorrected
  split
  · exact .refl s
  · extract_lets s1
    have listed : KslRegsKept s s1 := modRas_kept s _
    split
    · exact listed.trans (propose_kept s1 _ _ _ _)
    · exact listed

theorem chanOf_lt (a : Nat) : s.chanOf a < 32 := by
  have some_channel : 0 < s.nCh ∧ s.nCh ≤ 32 := by
    unfold State.nCh
    split <;> decide
  exact (Nat.mod_lt _ some_channel.1).trans_le some_channel.2

/-- The registers of the memory channels lie below those of the Kalsal unit (R319, R328). -/
theorem noteDramWord_kept (a : Nat) (v : Verdict) : KslRegsKept s (s.noteDramWord a v) := by
  unfold State.noteDramWord
  extract_lets c phy s1
  have channel : c < 32 := chanOf_lt s a
  have corrected : KslRegsKept s s1 := by
    unfold s1
    split
    · exact (bump_kept s (by unfold rMcChCorr; omega) _).trans (dramCorrected_kept _ _ _)
    · exact .refl s
  split
  · exact corrected.trans <| (bump_kept s1 (by unfold rMcChUncorr; omega) 1).trans <|
      (setReg64_kept _ (by unfold rMcChLastUncorr; omega) (by unfold rMcChLastUncorr; omega) _).trans <|
      (orReg_kept _ (by decide) _).trans <| (raise_kept _ 32).trans (propose_kept _ _ _ _ _)
  · exact corrected

theorem sramCorrected_kept (site i : Nat) : KslRegsKept s (s.sramCorrected site i) := by
  unfold State.sramCorrected
  extract_lets old s1 alike s2
  have listed : KslRegsKept s s1 := modRas_kept s _
  split
  · exact listed
  · have rows : KslRegsKept s s2 := by
      unfold s2
      split
      · exact listed.trans (propose_kept s1 _ _ _ _)
      · exact listed
    split
    · exact rows.trans (propose_kept s2 _ _ _ _)
    · exact rows

theorem noteSramWord_kept (site i : Nat) (v : Verdict) : KslRegsKept s (s.noteSramWord site i v) := by
  unfold State.noteSramWord
  extract_lets s1
  have corrected : KslRegsKept s s1 := by
    unfold s1
    split
    · exact sramCorrected_kept s _ _
    · exact .refl s
  split
  · exact corrected.trans (propose_kept s1 _ _ _ _)
  · exact corrected

theorem noteWords_kept (id : StoreId) (a n : Nat) : KslRegsKept s (s.noteWords id a n) := by
  unfold State.noteWords
  extract_lets m
  refine (siteWords_kept s _ _).trans (foldl_kept _ (fun t i => ?_) _)
  cases id
  · exact noteDramWord_kept t _ _
  · exact noteSramWord_kept t _ _ _
  · exact noteSramWord_kept t _ _ _
  · exact .refl t

theorem setStore_kept (id : StoreId) (m : Store) : KslRegsKept s (s.setStore id m) := by
  cases id <;> exact .of_regs rfl

theorem ctlSync_kept (a n : Nat) (drop : Bool) : KslRegsKept s (s.ctlSync a n drop) := by
  unfold State.ctlSync
  extract_lets lines s1 keep
  split
  · exact .refl s
  · exact (KslRegsKept.of_regs (t := s1) rfl).trans (foldl_kept s1 (fun s n => .of_regs (State.modCore_regs s (fin 4 n) _)) _)

theorem writeStore_kept (id : StoreId) (a : Nat) (b : List Byte) : KslRegsKept s (s.writeStore id a b) :=
  (foldl_kept s (fun t _ => noteWords_kept t id _ _) _).trans (setStore_kept _ id _)

theorem poke_kept (a : Nat) (b : List Byte) : KslRegsKept s (s.poke a b) := by
  unfold State.poke
  split
  · exact .refl s
  · exact (ctlSync_kept s _ _ _).trans (writeStore_kept _ _ _ _)
  · exact .refl s

theorem writeCompletion_kept (c : Completion) : KslRegsKept s (s.writeCompletion c) := by
  unfold State.writeCompletion
  extract_lets k n tail phase s1 s2
  have written : KslRegsKept s s2 := (poke_kept s _ _).trans (.of_regs rfl)
  exact written.trans ((setReg_kept s2 (by unfold rTabCplTail; omega) _).trans (raise_kept _ _))

theorem postEntry_kept (c : Completion) : KslRegsKept s (s.postEntry c) := by
  unfold State.postEntry
  split_ifs
  · exact .refl s
  · exact .of_regs rfl
  · exact writeCompletion_kept s c

/-- A completion posted leaves the registers of the Kalsal unit as they are. -/
theorem post_kept (p : PendingCmd) (status : Nat) (final : Bool) (value : DWord) : KslRegsKept s (s.post p status final value) := by
  unfold State.post
  extract_lets s1 s2
  have refused : KslRegsKept s s1 := by
    unfold s1
    split
    · exact bump_kept s (by unfold rTabRingStateCnt; omega) _
    · exact .refl s
  have judged : KslRegsKept s1 s2 := by
    unfold s2
    split
    · exact bump_kept s1 (by unfold rTabRingBadargCnt; omega) _
    · exact .refl s1
  exact (refused.trans judged).trans (postEntry_kept s2 _)

end Kept

/-! ### Ports and the packets that have arrived on them (R446 to R450) -/

section Arrived
variable {s : State} {k : Fin 4} {p : Packet} {stamp : DWord} {rest : List (Packet × DWord)} {kind : Packet → Bool}
  {f : State → Packet → DWord → State}

@[simp] theorem kslPort_modPort_same (s : State) (k : Fin 4) (f : KslPort → KslPort) : (s.modPort k f).kslPort k = f (s.kslPort k) :=
  vget_vmod_same _ _ _

theorem onArrived_of_empty (empty : (s.kslPort k).rxq = []) : s.onArrived k kind f = s := by
  simp [State.onArrived, State.arrived, empty]

theorem onArrived_of_head (head : (s.kslPort k).rxq = (p, stamp) :: rest) (own : kind p = true) :
    s.onArrived k kind f = f (s.dropArrived k) p stamp := by
  have found : s.arrived k kind = some (p, stamp) := by simp [State.arrived, head, own]
  rw [State.onArrived, found]

theorem kslPort_dropArrived (head : (s.kslPort k).rxq = (p, stamp) :: rest) :
    (s.dropArrived k).kslPort k = { s.kslPort k with rxq := rest } := by
  simp [State.dropArrived, head]

/-- Taking a packet leaves every port's link as it is. -/
theorem portActive_dropArrived (s : State) (k j : Fin 4) : (s.dropArrived k).portActive j = s.portActive j := by
  have link : ((s.dropArrived k).kslPort j).st = (s.kslPort j).st := by
    by_cases own : j = k
    · subst own
      simp [State.dropArrived]
    · exact congrArg KslPort.st (vget_vmod_ne s.ksl.ports own _)
  unfold State.portActive
  rw [link]

theorem timeSource_dropArrived (s : State) (k : Fin 4) : (s.dropArrived k).timeSource = s.timeSource := by
  have up : (s.dropArrived k).upPort = s.upPort := rfl
  have src : (s.dropArrived k).timeSrc = s.timeSrc := rfl
  have active : (s.dropArrived k).portActive = s.portActive := funext (portActive_dropArrived s k)
  unfold State.timeSource State.upActive
  rw [up, src, active]

end Arrived

/-! ### Packets offered to the links' own flows (R387, R450, R454) -/

section Offers
variable (s : State) (k : Fin 4)

/-- Flows 8 to 31 discard nothing (R387). -/
theorem sluOffer_of_open {f : Nat} (lo : 8 ≤ f) (hi : f < 32) (p : SluPacket) :
    s.sluOffer f p = s.setFlow f { s.flow f with queue := (s.flow f).queue ++ [p] } := by
  have enabled : s.flowEn f = true := by simp [State.flowEn, hi]
  exact if_neg (by simp [enabled, Nat.not_lt.2 lo])

/-- A queue that has got a packet reads back from any map, the canonical form or not. -/
theorem queue_sluOffer_of_open {f : Nat} (lo : 8 ≤ f) (hi : f < 32) (p : SluPacket) :
    ((s.sluOffer f p).flow f).queue = (s.flow f).queue ++ [p] := by
  rw [sluOffer_of_open s lo hi]
  have listed : { s.flow f with queue := (s.flow f).queue ++ [p] } ≠ flowReset f := fun e => by
    simpa [flowReset] using congrArg Flow.queue e
  exact congrArg Flow.queue (mapGet_mapSet_listed s.slu.flows listed)

theorem timeSend_ksl (sub : Nat) (seq : Half) (time : DWord) : (s.timeSend k sub seq time).ksl = s.ksl := by
  unfold State.timeSend
  rw [sluOffer_of_open _ (by omega) (by omega)]
  rfl

theorem timeSend_length (sub : Nat) (seq : Half) (time : DWord) :
    ((s.timeSend k sub seq time).flow (18 + k.1)).queue.length = (s.flow (18 + k.1)).queue.length + 1 := by
  unfold State.timeSend
  rw [queue_sluOffer_of_open _ (by omega) (by omega), List.length_append, List.length_singleton]

theorem enumSend_ksl (sub epoch base count status : Nat) : (s.enumSend k sub epoch base count status).ksl = s.ksl := by
  unfold State.enumSend
  rw [sluOffer_of_open _ (by omega) (by omega)]
  rfl

theorem enumSend_regs (sub epoch base count status : Nat) : (s.enumSend k sub epoch base count status).regs = s.regs := by
  unfold State.enumSend
  rw [sluOffer_of_open _ (by omega) (by omega)]
  rfl

theorem enumSend_kept (sub epoch base count status : Nat) : KslRegsKept s (s.enumSend k sub epoch base count status) :=
  .of_regs (enumSend_regs s k _ _ _ _ _)

end Offers

/-! ### The time base (R490) -/

/-- An offset of a whole number of nanoseconds within 1 µs goes to the servo and does not step the time base. -/
theorem timeOffset_of_small (s : State) {twice : Int} (count : Bool) (even : twice % 2 = 0) (small : twice.natAbs ≤ 2000) :
    (s.timeOffset twice count).ptp.offset = BitVec.ofInt 32 (twice / 2) ∧ (s.timeOffset twice count).clk.ns = s.clk.ns ∧
      (s.timeOffset twice count).ksl = s.ksl := by
  have fits : satS32 (twice / 2) = BitVec.ofInt 32 (twice / 2) := by
    unfold satS32 satInt
    rw [if_neg (by omega), if_neg (by omega)]
  unfold State.timeOffset
  extract_lets off s1 inTake clk ptp n good ptp' clk'
  have whole : off = twice / 2 := if_pos even
  rw [if_neg (by omega)]
  exact ⟨by rw [← fits, ← whole], rfl, rfl⟩

/-! ### Routing registers (R451, R454) -/

section Routes
variable {s : State} {o : Nat} {w : Word}

theorem reg_modKsl (s : State) (f : Kalsal → Kalsal) (o : Nat) : (s.modKsl f).reg o = s.reg o := rfl

theorem rKslRtDir_ne {j k : Fin 4} (h : j ≠ k) : rKslRtDir j.1 ≠ rKslRtDir k.1 := by
  unfold rKslRtDir
  omega

theorem rKslRtDir_ne_devId (k : Nat) : rKslDevId ≠ rKslRtDir k := by
  unfold rKslDevId rKslRtDir
  omega

theorem rKslRtDir_ne_range (j k : Nat) : rKslRtRange j ≠ rKslRtDir k := by
  unfold rKslRtRange rKslRtDir
  omega

theorem kslReg_devId : KslReg rKslDevId := by decide

theorem kslReg_rtDir (k : Fin 4) : KslReg (rKslRtDir k.1) := by
  unfold rKslRtDir
  omega

theorem reg_setRoute_ne (s : State) {p : Nat} (h : p ≠ o) (w : Word) : (s.setRoute o w).reg p = s.reg p := by
  unfold State.setRoute
  split
  · rfl
  · exact State.reg_setReg_ne s h w

theorem setRoute_of_idle (idle : s.takeActive = false) : s.setRoute o w = s.setReg o w := if_neg (by simp [idle])

theorem setRoute_takeActive : (s.setRoute o w).takeActive = s.takeActive := by
  unfold State.setRoute
  split <;> rfl

theorem setRoute_ksl : (s.setRoute o w).ksl = s.ksl := by
  unfold State.setRoute
  split <;> rfl

theorem setRoute_wf (wf : mapWf regReset s.regs) : mapWf regReset (s.setRoute o w).regs := by
  unfold State.setRoute
  split
  · exact wf
  · exact mapWf_mapSet wf o w

theorem reg_setDir_same (wf : mapWf regReset s.regs) (idle : s.takeActive = false) (k : Fin 4) (d : Nat) :
    (s.setDir k d).reg (rKslRtDir k.1) = BitVec.ofNat 32 d := by
  unfold State.setDir
  rw [setRoute_of_idle idle, State.reg_setReg wf, if_pos rfl]

end Routes

/-! ### The walk over the ports (R454) -/

/-- A walk writes no register of the unit but the directions of the ports it visits, and not the parent's. -/
theorem enumWalk_reg (s : State) (e : Enumeration) {ks : List (Fin 4)} {o : Nat} (own : KslReg o)
    (other : ∀ j ∈ ks, e.parent ≠ some j → o ≠ rKslRtDir j.1) : (s.enumWalk e ks).reg o = s.reg o := by
  induction ks generalizing s e with
  | nil =>
    unfold State.enumWalk
    dsimp only
    split
    · exact enumSend_kept _ _ _ _ _ _ _ o own
    · split
      · exact post_kept _ _ _ _ _ o own
      · rfl
  | cons j ks ih =>
    have later := fun i mem => other i (List.mem_cons_of_mem j mem)
    unfold State.enumWalk
    split
    case isTrue visits =>
      simp only [Bool.and_eq_true, decide_eq_true_eq] at visits
      obtain ⟨-, child⟩ := visits
      split
      · exact (ih (s.setDir j 3) (e.note stNoresource) later).trans (reg_setRoute_ne s (other j List.mem_cons_self child) _)
      · exact enumSend_kept s j _ _ _ _ _ o own
    case isFalse => exact ih s e later

theorem enumWalk_epoch (s : State) (e : Enumeration) (ks : List (Fin 4)) : (s.enumWalk e ks).ksl.epoch = s.ksl.epoch := by
  induction ks generalizing s e with
  | nil =>
    unfold State.enumWalk
    dsimp only
    split
    · rw [enumSend_ksl]
      rfl
    · split
      · rw [State.post_post]
        rfl
      · rfl
  | cons j ks ih =>
    unfold State.enumWalk
    split
    · split
      · rw [ih]
        exact congrArg Kalsal.epoch setRoute_ksl
      · have sent : (s.enumSend j 0 e.epoch.toNat e.next 0 stOk).ksl.epoch = s.ksl.epoch := by rw [enumSend_ksl]
        exact sent
    · exact ih s e

/-! ### A device takes its ID (R454 steps 1 to 3) -/

/-- Step 2 of R454 for port `j`: the direction it gets before the walk. -/
def assignDir (parent : Option (Fin 4)) (s : State) (j : Fin 4) : State :=
  s.setDir j (if parent = some j then 0 else if (s.kslPort j).peerAdapter then 2 else 3)

theorem enumStart_eq (s : State) (parent : Option (Fin 4)) (b : Nat) (epoch : Half) :
    s.enumStart parent b epoch =
      ((allPorts.foldl (assignDir parent) (s.setReg rKslDevId (BitVec.ofNat 32 b))).modKsl (fun x => { x with epoch := epoch })).enumWalk
        { parent := parent, base := b, next := b + 1, epoch := epoch, waiting := none, status := stOk } allPorts := rfl

theorem foldl_assignDir_devId (parent : Option (Fin 4)) (ks : List (Fin 4)) (s : State) :
    (ks.foldl (assignDir parent) s).reg rKslDevId = s.reg rKslDevId :=
  Power.foldl_proj (f := assignDir parent) (fun s => s.reg rKslDevId) (fun s j => reg_setRoute_ne s (rKslRtDir_ne_devId j.1) _) ks s

/-- The parent's port becomes the up port. -/
theorem foldl_assignDir_parent {s : State} {k : Fin 4} {ks : List (Fin 4)} (wf : mapWf regReset s.regs) (idle : s.takeActive = false)
    (set : k ∈ ks ∨ s.reg (rKslRtDir k.1) = 0) : (ks.foldl (assignDir (some k)) s).reg (rKslRtDir k.1) = 0 := by
  induction ks generalizing s with
  | nil => exact set.resolve_left List.not_mem_nil
  | cons j ks ih =>
    refine ih (setRoute_wf wf) (setRoute_takeActive.trans idle) ?_
    by_cases own : k = j
    · subst own
      exact .inr ((reg_setDir_same wf idle k _).trans (by rw [if_pos rfl]; rfl))
    · exact set.imp (fun mem => (List.mem_cons.1 mem).resolve_left own)
        (fun zero => (reg_setRoute_ne s (rKslRtDir_ne own) _).trans zero)

theorem enumStart_epoch (s : State) (parent : Option (Fin 4)) (b : Nat) (epoch : Half) : (s.enumStart parent b epoch).ksl.epoch = epoch := by
  rw [enumStart_eq, enumWalk_epoch]
  rfl

theorem enumStart_devId {s : State} (wf : mapWf regReset s.regs) (parent : Option (Fin 4)) (b : Nat) (epoch : Half) :
    (s.enumStart parent b epoch).reg rKslDevId = BitVec.ofNat 32 b := by
  rw [enumStart_eq, enumWalk_reg _ _ kslReg_devId fun j _ _ => rKslRtDir_ne_devId j.1, reg_modKsl, foldl_assignDir_devId,
    State.reg_setReg wf, if_pos rfl]

theorem enumStart_parent_dir {s : State} (wf : mapWf regReset s.regs) (idle : s.takeActive = false) (k : Fin 4) (b : Nat) (epoch : Half) :
    (s.enumStart (some k) b epoch).reg (rKslRtDir k.1) = 0 := by
  have parent : ∀ j ∈ allPorts, some k ≠ some j → rKslRtDir k.1 ≠ rKslRtDir j.1 := fun j _ ne => rKslRtDir_ne fun e => ne (congrArg some e)
  have mem : k ∈ allPorts := by
    revert k
    decide
  rw [enumStart_eq, enumWalk_reg _ _ (kslReg_rtDir k) parent, reg_modKsl]
  exact foldl_assignDir_parent (mapWf_mapSet wf _ _) idle (.inl mem)

/-- A field of two bytes. -/
theorem field_two_lt (p : Packet) (off : Nat) : p.field off 2 < 65536 := by
  have len : ((p.fields.drop (off - 16)).take 2).length ≤ 2 := List.length_take_le 2 _
  exact (leNat_lt _).trans_le (Nat.pow_le_pow_right (by decide) len)

/-! ### ASSIGN and its refusals (R455) -/

section Assign
variable {s : State} {k : Fin 4} {p : Packet}

theorem assign_of_epoch (same : BitVec.ofNat 16 (p.field 18 2) = s.ksl.epoch) :
    s.assign k p = (s.setDir k 3).enumSend k 2 (BitVec.ofNat 16 (p.field 18 2)).toNat 0 0 stOk := if_pos same

variable (new : BitVec.ofNat 16 (p.field 18 2) ≠ s.ksl.epoch)
include new

theorem assign_of_take (active : s.takeActive = true) :
    s.assign k p = s.enumSend k 2 (BitVec.ofNat 16 (p.field 18 2)).toNat 0 0 stState := (if_neg new).trans (if_pos active)

theorem assign_of_locked (idle : s.takeActive = false) (locked : s.locked 5 = true) :
    s.assign k p = s.enumSend k 2 (BitVec.ofNat 16 (p.field 18 2)).toNat 0 0 stLocked :=
  (if_neg new).trans ((if_neg (by simp [idle])).trans (if_pos locked))

theorem assign_of_free (idle : s.takeActive = false) (unlocked : s.locked 5 = false) :
    s.assign k p = s.enumStart (some k) (p.field 20 2) (BitVec.ofNat 16 (p.field 18 2)) :=
  (if_neg new).trans ((if_neg (by simp [idle])).trans (if_neg (by simp [unlocked])))

end Assign

/-! ### Answers (R454) -/

section Answers
variable {s : State} {k : Fin 4} {e : Enumeration}

theorem enumMine_of_epoch {p : Packet} (running : s.ksl.enumr = some e) (epoch : e.epoch.toNat = p.field 18 2) : s.enumMine p = true := by
  simp [State.enumMine, running, epoch]

theorem rKslRtDir_ne_of_after {j k : Fin 4} (after : j ∈ portsAfter k) : rKslRtDir k.1 ≠ rKslRtDir j.1 := by
  have later : k.1 < j.1 := of_decide_eq_true (List.mem_filter.1 after).2
  exact rKslRtDir_ne fun e => absurd (congrArg Fin.val e) later.ne

variable (wf : mapWf regReset s.regs) (idle : s.takeActive = false) (running : s.ksl.enumr = some e) (waits : e.waiting = some k)
include wf idle running waits

/-- A port that reports is a down port. -/
theorem enumAnswer_report_dir (n status : Nat) : (s.enumAnswer k (some n) status).reg (rKslRtDir k.1) = 1 := by
  unfold State.enumAnswer
  simp only [running, waits, ne_eq, not_true_eq_false, if_false]
  rw [enumWalk_reg _ _ (kslReg_rtDir k) fun j after _ => rKslRtDir_ne_of_after after, reg_setRoute_ne _ (rKslRtDir_ne_range _ _).symm]
  exact reg_setDir_same wf idle k 1

/-- A port that refuses is unused. -/
theorem enumAnswer_refuse_dir (status : Nat) : (s.enumAnswer k none status).reg (rKslRtDir k.1) = 3 := by
  unfold State.enumAnswer
  simp only [running, waits, ne_eq, not_true_eq_false, if_false]
  rw [enumWalk_reg _ _ (kslReg_rtDir k) fun j after _ => rKslRtDir_ne_of_after after]
  exact reg_setDir_same wf idle k 3

end Answers

/-! ### The commands (R450, R454 to R456) -/

/-- Twice the offset that the DELAY_RESP `p` gives a port that has kept the times of its SYNC and DELAY_REQ (R450). -/
def twiceOffset (x : KslPort) (p : Packet) : Int :=
  ((x.t2.toNat : Int) - x.t1.toNat) - ((timeOf p).toNat - (x.t3.toNat : Int))

section Commands
variable {s : State} {k : Fin 4} {p : Packet} {stamp : DWord} {rest : List (Packet × DWord)}

theorem gives_empty (empty : (s.kslPort k).rxq = []) {i : Instr}
    (mem : i ∈ [Instr.sync k, .delayReq k, .delayResp k, .assign k, .report k, .refuse k]) : Gives i s s := by
  simp only [List.mem_cons, List.not_mem_nil, or_false] at mem
  rcases mem with rfl | rfl | rfl | rfl | rfl | rfl
  all_goals exact congrArg Host.Outcome.next (onArrived_of_empty empty)

theorem gives_enumerateTimeout_of_none (noCmd : s.ksl.enumCmd = none) : Gives .enumerateTimeout s s := by
  show execEnumerateTimeout s = _
  rw [execEnumerateTimeout, noCmd]

theorem gives_enumerateTimeout_of_owed {c : PendingCmd} (owed : s.ksl.enumCmd = some c) :
    ∃ t, Gives .enumerateTimeout s t ∧ t.ksl.enumCmd = none ∧ t.ksl.epoch = s.ksl.epoch := by
  refine ⟨_, by show execEnumerateTimeout s = _; rw [execEnumerateTimeout, owed], ?_⟩
  dsimp only
  rw [State.post_post]
  exact ⟨rfl, rfl⟩

/-- The master end sends SYNC with the next sequence number. -/
theorem gives_timeSyncSend (master : s.kslDir k.1 = 1) (up : s.portActive k = true) : ∃ t, Gives (.timeSyncSend k) s t ∧
    (t.kslPort k).timeSeq = (s.kslPort k).timeSeq + 1 ∧
      (t.flow (18 + k.1)).queue.length = (s.flow (18 + k.1)).queue.length + 1 := by
  refine ⟨_, congrArg Host.Outcome.next (if_pos ⟨master, up⟩), ?_, timeSend_length _ k _ _ _⟩
  rw [State.kslPort, timeSend_ksl]
  exact congrArg KslPort.timeSeq (kslPort_modPort_same s k _)

theorem gives_timeSyncSend_idle (other : s.kslDir k.1 ≠ 1 ∨ s.portActive k = false) : Gives (.timeSyncSend k) s s :=
  congrArg Host.Outcome.next (if_neg fun ⟨master, up⟩ => other.elim (· master) (fun down => Bool.false_ne_true (down.symm.trans up)))

variable (head : (s.kslPort k).rxq = (p, stamp) :: rest)
include head

/-- The slave keeps what SYNC tells it and sends DELAY_REQ. -/
theorem gives_sync (kind : isTime 0 p = true) (slave : s.kslDir k.1 = 0) : ∃ t, Gives (.sync k) s t ∧ (t.kslPort k).t1 = timeOf p ∧
    (t.kslPort k).t2 = stamp ∧ (t.kslPort k).timeSeq = timeSeqOf p ∧ (t.kslPort k).rxq = rest ∧
      (t.flow (18 + k.1)).queue.length = (s.flow (18 + k.1)).queue.length + 1 := by
  refine ⟨_, congrArg Host.Outcome.next ((onArrived_of_head head kind).trans (if_pos slave)), ?_⟩
  rw [State.kslPort, timeSend_ksl, ← State.kslPort, kslPort_modPort_same, kslPort_dropArrived head]
  exact ⟨rfl, rfl, rfl, rfl, timeSend_length _ k _ _ _⟩

theorem gives_delayReq (kind : isTime 1 p = true) (master : s.kslDir k.1 = 1) :
    Gives (.delayReq k) s ((s.dropArrived k).timeSend k 2 (timeSeqOf p) stamp) :=
  congrArg Host.Outcome.next ((onArrived_of_head head kind).trans (if_pos master))

/-- The slave takes the offset of its own SYNC's answer when the link is its time source. -/
theorem gives_delayResp (kind : isTime 2 p = true) (slave : s.kslDir k.1 = 0) (seq : (s.kslPort k).timeSeq = timeSeqOf p)
    (source : s.timeSource = 0) : Gives (.delayResp k) s ((s.dropArrived k).timeOffset (twiceOffset (s.kslPort k) p) false) := by
  have port := kslPort_dropArrived head
  refine congrArg Host.Outcome.next ((onArrived_of_head head kind).trans ?_)
  dsimp only
  rw [port]
  exact if_pos ⟨slave, seq, (timeSource_dropArrived s k).trans source⟩

theorem gives_assign (kind : isEnum 0 p = true) : Gives (.assign k) s ((s.dropArrived k).assign k p) :=
  congrArg Host.Outcome.next (onArrived_of_head head kind)

variable {e : Enumeration} (running : s.ksl.enumr = some e) (same : e.epoch.toNat = p.field 18 2)
include running same

theorem gives_report (kind : isEnum 1 p = true) :
    Gives (.report k) s ((s.dropArrived k).enumAnswer k (some (p.field 24 4)) p.status.toNat) :=
  congrArg Host.Outcome.next ((onArrived_of_head head kind).trans (if_pos (enumMine_of_epoch running same)))

theorem gives_refuse (kind : isEnum 2 p = true) : Gives (.refuse k) s ((s.dropArrived k).enumAnswer k none p.status.toNat) :=
  congrArg Host.Outcome.next ((onArrived_of_head head kind).trans (if_pos (enumMine_of_epoch running same)))

end Commands

/-! ### The claims of R450 and R454 to R456 -/

/-- The ID, the epoch, the ranges of the ports and the directions of all but port `k` are as before (R455). -/
def TablesKept (k : Fin 4) (s t : State) : Prop :=
  t.reg rKslDevId = s.reg rKslDevId ∧ t.ksl.epoch = s.ksl.epoch ∧
    ∀ j : Fin 4, t.reg (rKslRtRange j.1) = s.reg (rKslRtRange j.1) ∧ (j ≠ k → t.reg (rKslRtDir j.1) = s.reg (rKslRtDir j.1))

/-- A REFUSE sent leaves the tables as they are. -/
theorem enumSend_tables (s : State) (k : Fin 4) (sub epoch base count status : Nat) :
    TablesKept k s (s.enumSend k sub epoch base count status) := by
  have regs : ∀ o, (s.enumSend k sub epoch base count status).reg o = s.reg o := fun o =>
    congrArg (mapGet regReset · o) (enumSend_regs s k _ _ _ _ _)
  exact ⟨regs _, congrArg Kalsal.epoch (enumSend_ksl s k _ _ _ _ _), fun _ => ⟨regs _, fun _ => regs _⟩⟩

/-- A port's new direction leaves the rest of the tables as they are. -/
theorem setDir_tables (s : State) (k : Fin 4) (d : Nat) : TablesKept k s (s.setDir k d) :=
  ⟨reg_setRoute_ne s (rKslRtDir_ne_devId k.1) _, congrArg Kalsal.epoch setRoute_ksl,
    fun j => ⟨reg_setRoute_ne s (rKslRtDir_ne_range j.1 k.1) _, fun other => reg_setRoute_ne s (rKslRtDir_ne other) _⟩⟩

theorem TablesKept.trans {k : Fin 4} {s t u : State} (h : TablesKept k s t) (h' : TablesKept k t u) : TablesKept k s u := by
  obtain ⟨id, epoch, routes⟩ := h
  obtain ⟨id', epoch', routes'⟩ := h'
  exact ⟨id'.trans id, epoch'.trans epoch,
    fun j => ⟨(routes' j).1.trans (routes j).1, fun other => ((routes' j).2 other).trans ((routes j).2 other)⟩⟩

/-- Settles O49: each command by the lemma of the packet it takes, and what its TIME or ENUM packet, its walk or its completion leaves alone. -/
theorem kalsalTimeAndIds : Obligations.KalsalTimeAndIds := by
  intro k p stamp rest e c s wf s0 x epoch two
  have wf0 : mapWf regReset s0.regs := wf
  refine ⟨fun master up => gives_timeSyncSend master up, fun other => gives_timeSyncSend_idle other, fun empty i mem => gives_empty empty mem,
    fun head => ⟨fun kind slave => gives_sync head kind slave, fun kind master => gives_delayReq head kind master,
      fun kind slave seq source even small => ?_, fun kind new idle unlocked => ?_, ?_, fun running same waits idle => ?_⟩,
    fun noCmd => gives_enumerateTimeout_of_none noCmd, fun owed => gives_enumerateTimeout_of_owed owed⟩
  · obtain ⟨offset, ns, ksl⟩ := timeOffset_of_small s0 false even small
    refine ⟨_, gives_delayResp head kind slave seq source, offset, ns, ?_⟩
    have port : (s0.timeOffset two false).kslPort k = s0.kslPort k := congrArg (fun x : Kalsal => vget x.ports k) ksl
    exact congrArg KslPort.rxq (port.trans (kslPort_dropArrived head))
  · have idle0 : s0.takeActive = false := idle
    refine ⟨s0.assign k p, gives_assign head kind, ?_⟩
    rw [assign_of_free (s := s0) new idle0 unlocked, enumStart_epoch, enumStart_devId wf0, enumStart_parent_dir wf0 idle0, BitVec.toNat_ofNat]
    exact ⟨rfl, Nat.mod_eq_of_lt ((field_two_lt p 20).trans (by decide)), rfl⟩
  · intro refused kind
    have gives : Gives (.assign k) s (s0.assign k p) := gives_assign head kind
    refine ⟨fun same => ?_, fun new active => ?_, fun new idle locked => ?_⟩
    · rw [assign_of_epoch (s := s0) same] at gives
      exact ⟨gives, (setDir_tables s0 k 3).trans (enumSend_tables _ k _ _ _ _ _)⟩
    · rw [assign_of_take (s := s0) new active] at gives
      exact ⟨gives, enumSend_tables s0 k _ _ _ _ _⟩
    · rw [assign_of_locked (s := s0) new idle locked] at gives
      exact ⟨gives, enumSend_tables s0 k _ _ _ _ _⟩
  · refine ⟨fun kind => ⟨_, gives_report head running same kind, ?_⟩, fun kind => ⟨_, gives_refuse head running same kind, ?_⟩⟩
    · exact congrArg BitVec.toNat (enumAnswer_report_dir (s := s0) wf0 idle running waits _ _)
    · exact congrArg BitVec.toNat (enumAnswer_refuse_dir (s := s0) wf0 idle running waits _)

end Sys2Proof.Proofs.KalsalTime

/-! The word code (R302, R303): check bits are linear in the data, and every bit of a code word has a column of its own and of odd weight. -/

namespace Sys2Proof.Proofs.WordCode

open Sys2Proof Sys2Proof.Machine

/-! ### Linearity -/

theorem foldl_columns_xor (l : List Nat) (x y : BitVec 128) (p q : Half) :
    l.foldl (fun c j => if (x ^^^ y).getLsbD j then c ^^^ codeCol j else c) (p ^^^ q) =
      l.foldl (fun c j => if x.getLsbD j then c ^^^ codeCol j else c) p ^^^
        l.foldl (fun c j => if y.getLsbD j then c ^^^ codeCol j else c) q := by
  induction l generalizing p q with
  | nil => rfl
  | cons j l ih =>
    simp only [List.foldl_cons, ← ih, BitVec.getLsbD_xor]
    congr 1
    rcases x.getLsbD j with _ | _ <;> rcases y.getLsbD j with _ | _
    · rfl
    · exact BitVec.xor_assoc p q _
    · show p ^^^ q ^^^ codeCol j = p ^^^ codeCol j ^^^ q
      ac_rfl
    · show p ^^^ q = p ^^^ codeCol j ^^^ (q ^^^ codeCol j)
      rw [BitVec.xor_comm q, BitVec.xor_assoc, ← BitVec.xor_assoc (codeCol j), BitVec.xor_self, BitVec.zero_xor]

theorem codeChk_xor (x y : BitVec 128) : codeChk (x ^^^ y) = codeChk x ^^^ codeChk y := by
  simpa [codeChk] using foldl_columns_xor (upFrom 0 128) x y 0 0

/-! ### The syndrome of an error -/

/-- The code word that 144 bits spell: the data, above them the check bits. -/
def wordOf (w : BitVec 144) : CodeWord := { data := w.extractLsb' 0 128, chk := w.extractLsb' 128 16 }

/-- What a reader finds where the bits of `e` are wrong, whatever the data. -/
def syndromeOf (e : BitVec 144) : Half := codeChk (wordOf e).data ^^^ (wordOf e).chk

theorem syndromeOf_xor (x y : BitVec 144) : syndromeOf (x ^^^ y) = syndromeOf x ^^^ syndromeOf y := by
  simp only [syndromeOf, wordOf, BitVec.extractLsb'_xor, codeChk_xor]
  ac_rfl

theorem wordOf_clean_xor (d : BitVec 128) (e : BitVec 144) :
    wordOf ((codeChk d ++ d) ^^^ e) = { data := d ^^^ (wordOf e).data, chk := codeChk d ^^^ (wordOf e).chk } := by
  have low : (codeChk d ++ d).extractLsb' 0 128 = d := BitVec.extractLsb'_append_eq_right
  have high : (codeChk d ++ d).extractLsb' 128 16 = codeChk d := BitVec.extractLsb'_append_eq_left
  simp only [wordOf, BitVec.extractLsb'_xor, low, high]

/-- A reader takes the errors of `e` for the bit whose column their syndrome is. -/
theorem readCode_wordOf_xor (d : BitVec 128) (e : BitVec 144) : readCode (wordOf ((codeChk d ++ d) ^^^ e)) =
    ((readCode (wordOf e)).1 ^^^ d, verdict (syndromeOf e)) := by
  have syn : codeChk (d ^^^ (wordOf e).data) ^^^ (codeChk d ^^^ (wordOf e).chk) = syndromeOf e := by
    rw [codeChk_xor, BitVec.xor_comm (codeChk d), BitVec.xor_assoc, ← BitVec.xor_assoc (codeChk d), BitVec.xor_self, BitVec.zero_xor]
    rfl
  simp only [wordOf_clean_xor, readCode, syn, show codeChk (wordOf e).data ^^^ (wordOf e).chk = syndromeOf e from rfl]
  cases verdict (syndromeOf e)
  case dataBit j => exact congrArg (·, _) (by rw [BitVec.xor_assoc, BitVec.xor_comm d])
  all_goals exact congrArg (·, _) (BitVec.xor_comm d _)

theorem syndromeOf_zero : syndromeOf 0 = 0 := by decide +kernel

theorem readCode_sound : readCode (wordOf 0) = (0, .clean) := by decide +kernel

/-! ### Columns -/

/-- The column of bit `i` of a code word (R302): a data bit's, above them a check bit's, which is its own. -/
def column (i : Fin 144) : Half := if i.1 < 128 then codeCol i.1 else BitVec.twoPow 16 (i.1 - 128)

theorem syndromeOf_twoPow : ∀ i : Fin 144, syndromeOf (BitVec.twoPow 144 i.1) = column i := by decide +kernel

/-- The syndrome of a single wrong bit names it. -/
theorem verdict_column : ∀ i : Fin 144, verdict (column i) = if i.1 < 128 then .dataBit i.1 else .checkBit := by decide +kernel

theorem wordOf_twoPow_data : ∀ i : Fin 144, (wordOf (BitVec.twoPow 144 i.1)).data = if i.1 < 128 then BitVec.twoPow 128 i.1 else 0 := by
  decide +kernel

theorem readCode_flipped (i : Fin 144) : (readCode (wordOf (BitVec.twoPow 144 i.1))).1 = 0 := by
  have syn : codeChk (wordOf (BitVec.twoPow 144 i.1)).data ^^^ (wordOf (BitVec.twoPow 144 i.1)).chk = column i := syndromeOf_twoPow i
  rw [readCode, syn, verdict_column, wordOf_twoPow_data]
  by_cases data : i.1 < 128
  · simp only [if_pos data, BitVec.xor_self]
    rfl
  · simp only [if_neg data]

theorem corrected_column (i : Fin 144) : (verdict (column i)).corrected = true := by
  rw [verdict_column]
  split <;> rfl

theorem column_injective : ∀ i j : Fin 144, column i = column j → i = j := by decide +kernel

/-- Columns of data bits have three bits, those of check bits one: odd, and few. -/
theorem popNat_column : ∀ i : Fin 144, popNat 16 (column i).toNat % 2 = 1 ∧ popNat 16 (column i).toNat ≤ 3 ∧
    13 ≤ popNat 16 (0xFFFF ^^^ column i).toNat := by decide +kernel

theorem popNat_codeCol : ∀ j ∈ upFrom 0 128, popNat 16 (codeCol j).toNat % 2 = 1 := by decide +kernel

theorem popNat_xor_mod_two (n a b : Nat) : popNat n (a ^^^ b) % 2 = (popNat n a + popNat n b) % 2 := by
  induction n generalizing a b with
  | zero => rfl
  | succ n ih =>
    have low := Nat.xor_mod_two_eq (m := a) (n := b)
    have high := ih (a / 2) (b / 2)
    simp only [popNat, Nat.xor_div_two]
    omega

/-- A syndrome of even weight, not 0 and not that of a poisoned word, is no single bit's. -/
theorem verdict_of_even {x : Half} (even : popNat 16 x.toNat % 2 = 0) (nonzero : x ≠ 0) (sound : x ≠ 0xFFFF) : verdict x = .uncorr := by
  have none : (upFrom 0 128).find? (fun j => codeCol j = x) = none := by
    rw [List.find?_eq_none]
    intro j hj same
    have odd := popNat_codeCol j hj
    rw [of_decide_eq_true same] at odd
    omega
  have single : popNat 16 x.toNat ≠ 1 := by omega
  rw [verdict, if_neg nonzero, if_neg sound, if_neg single, none]

theorem verdict_two_columns {i j : Fin 144} (h : i ≠ j) : verdict (column i ^^^ column j) = .uncorr := by
  obtain ⟨oddi, fewi, -⟩ := popNat_column i
  obtain ⟨oddj, -, manyj⟩ := popNat_column j
  refine verdict_of_even ?_ (fun zero => h (column_injective i j (BitVec.xor_eq_zero_iff.mp zero))) (fun ones => ?_)
  · rw [BitVec.toNat_xor, popNat_xor_mod_two]
    omega
  · have complement : column i = 0xFFFF ^^^ column j := by rw [← ones, BitVec.xor_assoc, BitVec.xor_self, BitVec.xor_zero]
    rw [← complement] at manyj
    omega

/-- Settles O59: by the columns of the flipped bits. -/
theorem wordCode : Obligations.WordCode := by
  intro d i j clean word
  have one := readCode_wordOf_xor d (BitVec.twoPow 144 i.1)
  refine ⟨?_, ?_, ?_, fun h => ?_⟩
  · have none := readCode_wordOf_xor d 0
    rw [show (codeChk d ++ d) ^^^ (0 : BitVec 144) = clean from BitVec.xor_zero, readCode_sound, syndromeOf_zero] at none
    exact none.trans (congrArg (·, _) BitVec.zero_xor)
  · exact (congrArg Prod.fst one).trans ((congrArg (· ^^^ d) (readCode_flipped i)).trans BitVec.zero_xor)
  · rw [syndromeOf_twoPow] at one
    exact (congrArg (fun r => r.2.corrected) one).trans (corrected_column i)
  · have two := readCode_wordOf_xor d (BitVec.twoPow 144 i.1 ^^^ BitVec.twoPow 144 j.1)
    rw [← BitVec.xor_assoc] at two
    exact (congrArg Prod.snd two).trans (by
      rw [syndromeOf_xor, syndromeOf_twoPow, syndromeOf_twoPow]
      exact verdict_two_columns h)

end Sys2Proof.Proofs.WordCode

/-! A step of the block: whose command it runs, that every command answers, and the state that reset leaves (R408, R411, R430). -/

namespace Sys2Proof.Proofs.Block

open Sys2Proof Sys2Proof.Machine Sys2Proof.Claims

theorem released_of_canGo {s : State} {pre post : List Held} {h : Held} (split : s.onHold = pre ++ h :: post)
    (wait : ∀ g ∈ pre, s.canGo g = false) (go : s.canGo h = true) :
    s.released = some (h.cmd, { s with onHold := pre ++ post }.unstall h.ini) := by
  have first : s.onHold.find? s.canGo = some h := by
    rw [split, List.find?_append, List.find?_eq_none.mpr (by simpa using wait), Option.none_or, List.find?_cons_of_pos go]
  have absent : h ∉ pre := fun mem => by simp [wait h mem] at go
  have rest : s.onHold.erase h = pre ++ post := by rw [split, List.erase_append_right _ absent, List.erase_cons_head]
  simp only [State.released, first, rest]

theorem released_eq_none {s : State} (wait : ∀ h ∈ s.onHold, s.canGo h = false) : s.released = none := by
  rw [State.released, List.find?_eq_none.mpr (by simpa using wait)]

/-- Without a command at the front a held one runs, or time passes. -/
theorem step_of_idle {s : State} (idle : s.pending = []) : step s = match s.released with
    | some r => exec r.1 r.2
    | none => .next s.tick := by
  unfold step
  split
  · rfl
  · next queued => exact absurd (idle.symm.trans queued) nofun

/-- Settles O1: the three cases of `step`. -/
theorem stepRunsFront : Obligations.StepRunsFront := by
  refine ⟨fun c rest s => rfl, fun s pre post h idle split wait go => ?_, fun s idle wait => ?_⟩
  · exact (step_of_idle idle).trans (by rw [released_of_canGo split wait go])
  · exact (step_of_idle idle).trans (by rw [released_eq_none wait])

/-- Settles O55: every command's meaning is a next state. -/
theorem commandsComplete : Obligations.CommandsComplete := by
  intro c s
  cases c <;> exact ⟨_, rfl⟩

/-- Settles O58: by evaluating the reset state, source by source and unit by unit. -/
theorem resetState : Obligations.ResetState := by
  unfold Obligations.ResetState
  refine ⟨State.reset_memWf, rfl, rfl, rfl, rfl, rfl, by decide +kernel, by decide +kernel, fun k => ⟨rfl, rfl, rfl⟩, rfl, rfl,
    by decide +kernel, by decide +kernel, by decide +kernel, by decide +kernel, by decide +kernel, rfl, rfl⟩

end Sys2Proof.Proofs.Block

/-! The test access port (R545): what the rising and the falling edge of TCK leave. -/

namespace Sys2Proof.Proofs.TestPort

open Sys2Proof Sys2Proof.Machine Sys2Proof.Claims

theorem next_inj {s t : State} (h : (.next s : Host.Outcome State Fault Refusal) = .next t) : s = t := by
  injection h

/-- The state of the controller moves by TMS alone. -/
@[simp] theorem st_rise (t : Tap) (tms tdi : Bool) (pins : List Bool) : (t.rise tms tdi pins).st = t.st.next tms := by
  unfold Tap.rise
  split <;> rfl

@[simp] theorem st_fall (t : Tap) : t.fall.st = t.st := by
  unfold Tap.fall
  split
  case h_3 => split <;> rfl
  all_goals rfl

theorem instr_fall_of_reset {t : Tap} (h : t.st = .testLogicReset) : t.fall.instr = .idcode := by
  simp only [Tap.fall, h]

/-- From every state the controller reaches Test-Logic-Reset in five periods with TMS high. -/
theorem five_next (x : TapState) : (((((x.next true).next true).next true).next true).next true) = .testLogicReset := by
  cases x <;> rfl

/-- A period of TCK in Shift-DR shifts once, wherever TMS leads. -/
theorem fall_rise_shiftDr {t : Tap} (h : t.st = .shiftDr) (tms tdi : Bool) (pins : List Bool) :
    (t.rise tms tdi pins).fall.dr = t.dr.drop 1 ++ [tdi] ∧ (t.rise tms tdi pins).fall.instr = t.instr ∧
      (t.rise tms tdi pins).fall.bsr = t.bsr := by
  cases tms <;> simp [Tap.rise, h, TapState.next, Tap.fall]

/-- The bits of a word, the lowest first. -/
def bits (w : Word) : List Bool := (upFrom 0 32).map (fun i => w.getLsbD i)

/-- Every revision's identification code ends in a 1, and the part number stands at bit 12. -/
theorem bits_idWord : ∀ rev : BitVec 4, let b := bits (rev ++ (0x7160 : Half) ++ (0 : BitVec 11) ++ (1 : BitVec 1))
    b.head? = some true ∧ (b.drop 12).take 16 = (upFrom 0 16).map (fun i => (0x7160 : Half).getLsbD i) := by decide +kernel

theorem bits_idCode : (bits idCode).head? = some true ∧
    ((bits idCode).drop 12).take 16 = (upFrom 0 16).map (fun i => (0x7160 : Half).getLsbD i) := bits_idWord _

/-- Capture-DR under IDCODE loads the identification code, and its lowest bit goes out. -/
theorem fall_rise_captureDr {t : Tap} (h : t.st = .captureDr) (instr : t.instr = .idcode) (tdi : Bool) (pins : List Bool) :
    (t.rise false tdi pins).fall = { t with st := .shiftDr, dr := bits idCode, tdo := some true } := by
  simp only [Tap.rise, h, Tap.capture, instr, TapState.next, Bool.false_eq_true, if_false, Tap.fall]
  rw [← instr]
  exact congrArg (fun out => { t with st := .shiftDr, dr := bits idCode, tdo := out }) bits_idCode.1

/-- Settles O54: resets, scanned instructions and clock edges by what each leaves of the port. -/
theorem testPort : Obligations.TestPort := by
  intro tdi tms pins s s1 s2 s3 s4 s5 x scan up
  refine ⟨rfl, rfl, rfl, rfl, rfl, rfl, rfl, fun g1 g2 g3 g4 g5 => ?_, fun shift => ⟨_, rfl, fall_rise_shiftDr shift tms tdi pins⟩,
    fun capture instr => ⟨_, rfl, ?_⟩⟩
  · obtain rfl := next_inj g1
    obtain rfl := next_inj g2
    obtain rfl := next_inj g3
    obtain rfl := next_inj g4
    obtain rfl := next_inj g5
    have reset := five_next x.st
    exact ⟨by simpa using reset, instr_fall_of_reset (by simpa using reset)⟩
  · show ((x.rise false tdi pins).fall).st = _ ∧ ((x.rise false tdi pins).fall).dr.length = _ ∧ ((x.rise false tdi pins).fall).tdo = _ ∧
      (((x.rise false tdi pins).fall).dr.drop 12).take 16 = _
    rw [fall_rise_captureDr capture instr]
    exact ⟨rfl, rfl, rfl, bits_idCode.2⟩

end Sys2Proof.Proofs.TestPort

/-! Bellhouse's operations at 32 bits, illegal words, exceptions and system registers of a DSN core (R240, R243, R252, R266, R268, R271). -/

namespace Sys2Proof.Proofs.Cores

open Sys2Proof Sys2Proof.Machine Sys2Proof.Claims Sys2Proof.Proofs.Densiten

/-! ### Operations of Bellhouse (R271) -/

theorem satInt_32 (v : Int) : satInt 32 v = if v < -(2 ^ 31) then -(2 ^ 31) else if 2 ^ 31 ≤ v then 2 ^ 31 - 1 else v := by
  simp only [satInt]
  split_ifs <;> omega

theorem outOfRange_32 (v : Int) : outOfRange 32 v = Leaves 32 v := by
  rw [outOfRange, decide_eq_decide, satInt_32]
  split_ifs <;> omega

/-- An OPA or OPM operation of Bellhouse leaves what `alu32` says of its result. -/
theorem next_opA32 {s : State} {f : FmtA} {op : AluOp} {legal : Bool} {v : Word} {c o : Bool} (run : Runs s .bellhouse) (h : legal = true)
    (result : alu op (vget s.bh.d f.ra) (vget s.bh.d f.rb) = (v, c, o)) :
    (.next (s.runDsn .bellhouse legal (fun s => s.opA .bellhouse f op)) : Host.Outcome State Fault Refusal) = .next (alu32 s f v c o) := by
  have narrow (r : Fin 32) : (s.getD .bellhouse r).setWidth 32 = vget s.bh.d r := by simp [State.getD]
  have value : coreAlu .bellhouse op (s.getD .bellhouse f.ra) (s.getD .bellhouse f.rb) =
      (v.setWidth 64, { z := v = 0, s := v.msb, c := c, o := o }) := by
    simp only [coreAlu, aluFlags, narrow, result]
  exact next_runDsn_legal run h (by rw [State.opA, value]; rfl)

section Results
variable (a b : Word)

theorem alu32_add : alu .add a b = (a + b, decide (2 ^ 32 ≤ a.toNat + b.toNat), Leaves 32 (a.toInt + b.toInt)) := by
  simp only [alu, outOfRange_32]

theorem alu32_sub : alu .sub a b = (a - b, decide (a.toNat < b.toNat), Leaves 32 (a.toInt - b.toInt)) := by
  simp only [alu, outOfRange_32]

theorem alu32_mul : alu .mul a b = (a * b, false, Leaves 32 (a.toInt * b.toInt)) := by
  simp only [alu, outOfRange_32]

theorem alu32_divu {b : Word} (h : b ≠ 0) : alu .divu a b = (a / b, false, false) := by
  simp only [alu, if_neg h, ← BitVec.toNat_udiv, BitVec.ofNat_toNat, BitVec.setWidth_eq]

theorem alu32_remu {b : Word} (h : b ≠ 0) : alu .remu a b = (a % b, false, false) := by
  simp only [alu, if_neg h, ← BitVec.toNat_umod, BitVec.ofNat_toNat, BitVec.setWidth_eq]

end Results

/-- Settles O5: each operation by the lemma of its result. -/
theorem bellhouseOperations : Obligations.BellhouseOperations := by
  intro f s run rsv a b n
  have plain := fmtAPlain_of_rsv rsv
  exact ⟨next_opA32 run plain (alu32_add a b), next_opA32 run plain (alu32_sub a b), next_opA32 run plain rfl, next_opA32 run plain rfl,
    fun rb => next_opA32 run (by simp [plain, rb]) rfl, next_opA32 run plain (alu32_mul a b),
    fun nonzero => ⟨next_opA32 run plain (alu32_divu a nonzero), next_opA32 run plain (alu32_remu a nonzero)⟩⟩

/-! ### Illegal words (R243, R271) -/

/-- A Tabor instruction is illegal on Bellhouse. -/
theorem onTabor_bellhouse {s : State} (run : Runs s .bellhouse) (legal : Bool) (effect : Fin 4 → State → State) :
    (.next (s.onTabor .bellhouse legal effect) : Host.Outcome State Fault Refusal) = .next (s.exception .bellhouse 4 0) :=
  next_runDsn_illegal (effect := fun s => s) run rfl

/-- Settles O7: the illegal words by `runDsn`, each instruction that Bellhouse lacks by its own test. -/
theorem illegalRaised : Obligations.IllegalRaised := by
  intro c f m x n env w s run
  refine ⟨fun spells => ?_, fun i spells => ?_, fun rsv => ?_, ?_⟩
  · rw [State.execWord, spells]
    exact next_runDsn_illegal run rfl
  · rw [State.execWord, spells]
  · have reserved : fmtAPlain f = false := decide_eq_false rsv
    exact ⟨next_runDsn_illegal run reserved, next_runDsn_illegal run reserved, next_runDsn_illegal run (by rw [reserved, Bool.false_and])⟩
  · rintro rfl
    have lacks : isTabor .bellhouse = false := rfl
    have formA : (fmtAPlain f && isTabor .bellhouse) = false := Bool.and_false _
    simp only [List.forall_mem_cons, List.not_mem_nil, false_imp_iff, implies_true, and_true]
    exact ⟨next_runDsn_illegal run formA, next_runDsn_illegal run formA, next_runDsn_illegal run formA, next_runDsn_illegal run formA,
      next_runDsn_illegal run lacks, next_runDsn_illegal run lacks, next_runDsn_illegal run lacks, next_runDsn_illegal run rfl,
      next_runDsn_illegal run rfl, next_runDsn_illegal run rfl, next_runDsn_illegal run rfl, onTabor_bellhouse run _ _,
      onTabor_bellhouse run _ _, onTabor_bellhouse run _ _, onTabor_bellhouse run _ _, onTabor_bellhouse run _ _, onTabor_bellhouse run _ _,
      onTabor_bellhouse run _ _, onTabor_bellhouse run _ _, onTabor_bellhouse run _ _⟩

/-! ### Privilege, exceptions and system registers (R240, R252, R266, R268) -/

theorem atPriv_p1 {s : State} {c : Core} (p1 : s.atP1 c = true) (ok : Bool) (effect : State → State) : s.atPriv c ok effect = effect s := by
  rw [State.atPriv, p1, Bool.or_true, if_pos rfl]

theorem atPriv_p0 {s : State} {c : Core} (p0 : s.atP1 c = false) (effect : State → State) :
    s.atPriv c false effect = s.exception c 5 0 := by
  rw [State.atPriv, p0, Bool.or_false, if_neg Bool.false_ne_true]

theorem exception_p1 {s : State} {c : Core} (xl : (s.getStatus c).getLsbD 1 = false) (p1 : (s.getStatus c).getLsbD 0 = true) (code : Nat)
    (a : DWord) : s.exception c code a = (((s.setXpc c (s.getPc c)).setCause c code a).setStatus c 7).setPc c
      ((s.getXvec c &&& ~~~(0xFFF : DWord)) + BitVec.ofNat 64 (64 * code)) := by
  simp only [State.exception, xl, p1, Bool.not_true, Bool.and_false, Bool.false_eq_true, if_false, if_true]
  rfl

/-- The status that a return leaves: P and PP are the former PP, XL is 0. -/
theorem returned_status (p : Bool) : ((if p then 1 else 0) + (if p then 4 else 0) : DWord).getLsbD 0 = p ∧
    ((if p then 1 else 0) + (if p then 4 else 0) : DWord).getLsbD 1 = false := by
  cases p <;> decide

/-- What RFX leaves at P1 (R268). -/
theorem returnFromException_leaves (s : State) (c : Core) : let t := s.returnFromException c
    t.getPc c = s.getXpc c ∧ (t.getStatus c).getLsbD 1 = false ∧ (t.getStatus c).getLsbD 0 = (s.getStatus c).getLsbD 2 ∧
      (∀ r, t.getD c r = s.getD c r) ∧ t.getXpc c = s.getXpc c ∧ t.dram = s.dram ∧ t.ctlSram = s.ctlSram ∧ t.regs = s.regs ∧
      t.take = s.take := by
  obtain ⟨privilege, level⟩ := returned_status ((s.getStatus c).getLsbD 2)
  cases c with
  | tabor k =>
    simp [State.returnFromException, State.setPc, State.setStatus, State.modCore, State.getPc, State.getStatus, State.getXpc, State.getD]
      at privilege level ⊢
    exact ⟨level, privilege⟩
  | bellhouse =>
    simp [State.returnFromException, State.setPc, State.setStatus, State.modBh, State.getPc, State.getStatus, State.getXpc, State.getD]
      at privilege level ⊢
    exact ⟨level, privilege⟩

/-- Settles O8: both clauses by the lemmas of entry and return. -/
theorem exceptionsAndReturn : Obligations.ExceptionsAndReturn := by
  refine ⟨fun c code a s _ xl p1 => exception_p1 xl p1 code a, fun c x s run rd ra rb sub => ?_⟩
  have plain : fmtXPlain x false false false 0 = true := by simp [fmtXPlain, rd, ra, rb, sub]
  refine ⟨fun p1 => ⟨_, next_runDsn_legal run plain (atPriv_p1 p1 _ _), returnFromException_leaves s c⟩, fun p0 => ?_⟩
  exact next_runDsn_legal run plain (atPriv_p0 p0 _)

/-- The system registers of a Tabor core by number (R240); a reserved one reads 0. -/
theorem sysRead_tabor (s : State) (k : Fin 4) (n : Nat) : s.sysRead (.tabor k) n = nth 0 [BitVec.ofNat 64 (k.1 + 4 * (s.phys k).1),
    s.getStatus (.tabor k), s.getXpc (.tabor k), s.getXcause (.tabor k), s.getXaddr (.tabor k), s.getXvec (.tabor k),
    BitVec.ofNat 64 (s.clk.tab - (vget s.cores k).cycleBase), BitVec.ofNat 64 s.clk.aon, s.getFl (.tabor k)] n := by
  match n with
  | 0 | 1 | 2 | 3 | 4 | 5 | 6 | 7 | 8 | 9 | _ + 10 => rfl

/-- Which of them MTSR writes, and with which of its bits. -/
theorem sysWrite_tabor (s : State) (k : Fin 4) (n : Nat) (v : DWord) : s.sysWrite (.tabor k) n v =
    if n = 1 then s.setStatus (.tabor k) (v &&& 7) else if n = 2 then s.setXpc (.tabor k) v
    else if n = 5 then s.setXvec (.tabor k) (v &&& ~~~(0xFFF : DWord)) else if n = 8 then s.setFl (.tabor k) (v &&& 0xFF0F) else s := by
  match n with
  | 0 | 1 | 2 | 3 | 4 | 5 | 6 | 7 | 8 | 9 | _ + 10 => rfl

/-- Settles O9: by what a system register reads and a write to it does. -/
theorem systemRegisters : Obligations.SystemRegisters := by
  intro k x s run p1 rb c n v
  refine ⟨fun ra => ?_, fun rd => ?_⟩
  · refine next_runDsn_legal run (by simp [ra, rb]) ((atPriv_p1 p1 _ _).trans ?_)
    rw [sysRead_tabor]
    rfl
  · refine next_runDsn_legal run (by simp [rd, rb]) ((atPriv_p1 p1 _ _).trans ?_)
    rw [sysWrite_tabor]

end Sys2Proof.Proofs.Cores

/-! The canonical form of memory, registers and the other sparse parts, and THERM_TRIP_N (R539): each function of the model that gives a state
keeps the form, leaves a low THERM_TRIP_N low and lets no power-on reset wait, so every command but that reset does. -/

namespace Sys2Proof.Proofs.Form

open Sys2Proof Sys2Proof.Machine

section
-- One declaration after another: side by side, the proofs of this part take more memory than a check has.
set_option Elab.async false

variable {s t u : State}

/-! ### What is kept -/

/-- The command is a power-on reset. -/
def isPowerOn : Instr → Bool
  | .powerOnReset _ _ => true
  | _ => false

/-- No command that waits for its way is a power-on reset. -/
def Mild (l : List Held) : Prop := ∀ h ∈ l, isPowerOn h.cmd = false

/-- What the form of a state is about, and what THERM_TRIP_N and the waiting commands are. -/
def parts (s : State) :=
  ((s.dram, s.cisSram, s.ctlSram, s.nvs, s.bh.mem), (s.regs, s.latches, s.holds, s.srcs, s.engines),
    (s.slu.flows, s.slu.services, s.cis.bufs, s.cis.pages, s.ras.wear), s.supply.thermTripN, s.onHold)

/-- From `s` to `t` the canonical form is kept, a low THERM_TRIP_N stays low, and no power-on reset joins what waits. -/
structure Kept (s t : State) : Prop where
  form : s.memWf → t.memWf
  trip : s.supply.thermTripN = false → t.supply.thermTripN = false
  mild : Mild s.onHold → Mild t.onHold

theorem Kept.refl (s : State) : Kept s s := ⟨id, id, id⟩

theorem Kept.trans (h : Kept s t) (h' : Kept t u) : Kept s u := ⟨h'.form ∘ h.form, h'.trip ∘ h.trip, h'.mild ∘ h.mild⟩

/-- An update that leaves these parts alone. -/
theorem Kept.same (h : Kept s t) (e : parts u = parts t := by rfl) : Kept s u := by
  refine h.trans ?_
  simp only [parts, Prod.mk.injEq] at e
  obtain ⟨⟨e1, e2, e3, e4, e5⟩, ⟨e6, e7, e8, e9, e10⟩, ⟨e11, e12, e13, e14, e15⟩, e16, e17⟩ := e
  refine ⟨fun ⟨stores, maps⟩ => ⟨?_, ?_⟩, fun low => e16.trans low, fun mild => by rwa [e17]⟩
  · rwa [State.storesWf, e1, e2, e3, e4, e5]
  · rwa [State.mapsWf, e6, e7, e8, e9, e10, e11, e12, e13, e14, e15]

/-- What keeps the form and, of these parts, is as a posted completion. -/
theorem Kept.post (h : Kept s t) (wf : t.memWf → u.memWf) (f : PostFrame t u) : Kept s u := by
  refine h.trans ⟨wf, fun a => ?_, fun a => ?_⟩
  · rw [f]; exact a
  · rw [f]; exact a

theorem Kept.event (h : Kept s t) (wf : t.memWf → u.memWf) (f : EventFrame t u) : Kept s u := h.post wf f.post

theorem Kept.fst {α : Type} {b : α} (h : Kept s t) : Kept s (t, b).1 := h

theorem Kept.snd {α : Type} {b : α} (h : Kept s t) : Kept s (b, t).2 := h

theorem Kept.left {α : Type} {p : State × α} {b : α} (h : Kept s p.1) (e : p = (u, b)) : Kept s u := by
  rw [e] at h
  exact h

theorem Kept.ite {c : Prop} [Decidable c] {a b : State} (ha : Kept s a) (hb : Kept s b) : Kept s (if c then a else b) := by
  split
  · exact ha
  · exact hb

theorem Kept.foldl {β : Type} {f : State → β → State} (hf : ∀ {t b}, Kept s t → Kept s (f t b)) {l : List β} (h : Kept s t) :
    Kept s (l.foldl f t) := foldl_keeps (Kept s) f (fun _ _ => hf) l t h

/-! ### Registers and sources -/

theorem setReg_kept {off w} (h : Kept s t) : Kept s (t.setReg off w) := h.event (State.setReg_memWf · off w) (State.setReg_frame t off w)

theorem orReg_kept {off m} (h : Kept s t) : Kept s (t.orReg off m) := h.event (State.orReg_memWf · off m) (State.orReg_frame t off m)

theorem clrReg_kept {off m} (h : Kept s t) : Kept s (t.clrReg off m) := setReg_kept h

theorem bump_kept {off k} (h : Kept s t) : Kept s (t.bump off k) := h.event (State.bump_memWf · off k) (State.bump_frame t off k)

theorem setReg64_kept {off v} (h : Kept s t) : Kept s (t.setReg64 off v) := h.event (State.setReg64_memWf · off v) (State.setReg64_frame t off v)

theorem setSrc_kept {k x} (h : Kept s t) : Kept s (t.setSrc k x) := h.event (State.setSrc_memWf · k x) (State.setSrc_frame t k x)

theorem claimSource_kept {t0 k} (h : Kept s t) : Kept s (t.claimSource t0 k) :=
  h.event (State.claimSource_memWf · t0 k) (State.claimSource_frame t t0 k)

theorem toPending_kept {k} (h : Kept s t) : Kept s (t.toPending k) := h.event (State.toPending_memWf · k) (State.toPending_frame t k)

theorem setBuf_kept {h0 b} (h : Kept s t) : Kept s (t.setBuf h0 b) := h.trans ⟨(State.setBuf_memWf · h0 b), id, id⟩

/-! ### Core registers -/

theorem modCore_kept {k f} (h : Kept s t) : Kept s (t.modCore k f) := h.event (State.modCore_memWf · k f) (State.modCore_frame t k f)

theorem modBh_kept {f} (h : Kept s t) (hm : (f t.bh).mem = t.bh.mem := by rfl) : Kept s (t.modBh f) :=
  h.trans ⟨(State.modBh_memWf · f hm), id, id⟩

theorem setD_kept {c r v} (h : Kept s t) : Kept s (t.setD c r v) := h.event (State.setD_memWf · c r v) (State.setD_frame t c r v)

theorem setFl_kept {c v} (h : Kept s t) : Kept s (t.setFl c v) := h.event (State.setFl_memWf · c v) (State.setFl_frame t c v)

theorem setPc_kept {c v} (h : Kept s t) : Kept s (t.setPc c v) := h.event (State.setPc_memWf · c v) (State.setPc_frame t c v)

theorem setStatus_kept {c v} (h : Kept s t) : Kept s (t.setStatus c v) := by
  unfold State.setStatus
  split
  · exact modCore_kept h
  · exact modBh_kept h

theorem setXpc_kept {c v} (h : Kept s t) : Kept s (t.setXpc c v) := by
  unfold State.setXpc
  split
  · exact modCore_kept h
  · exact modBh_kept h

theorem setCause_kept {c code addr} (h : Kept s t) : Kept s (t.setCause c code addr) := by
  unfold State.setCause
  split
  · exact modCore_kept h
  · exact modBh_kept h

theorem setXvec_kept {c v} (h : Kept s t) : Kept s (t.setXvec c v) := by
  unfold State.setXvec
  split
  · exact modCore_kept h
  · exact modBh_kept h

theorem setRun_kept {c r} (h : Kept s t) : Kept s (t.setRun c r) := h.event (State.setRun_memWf · c r) (State.setRun_frame t c r)

theorem ctlSync_kept {a n drop} (h : Kept s t) : Kept s (t.ctlSync a n drop) :=
  h.event (State.ctlSync_memWf · a n drop) (State.ctlSync_frame t a n drop)

theorem nextPc_kept {c} (h : Kept s t) : Kept s (t.nextPc c) := h.event (State.nextPc_memWf · c) (State.nextPc_frame t c)

/-! ### The event controller -/

theorem endWait_kept {c rd src st} (h : Kept s t) : Kept s (t.endWait c rd src st) :=
  h.event (State.endWait_memWf · c rd src st) (State.endWait_frame t c rd src st)

theorem deliver_kept (h : Kept s t) : Kept s t.deliver := h.event State.deliver_memWf (State.deliver_frame t)

theorem raise_kept {k} (h : Kept s t) : Kept s (t.raise k) := h.event (State.raise_memWf · k) (State.raise_frame t k)

theorem raiseRec_kept {k cause status tileIx pic info} (h : Kept s t) : Kept s (t.raiseRec k cause status tileIx pic info) :=
  h.event (State.raiseRec_memWf · k cause status tileIx pic info) (State.raiseRec_frame t k cause status tileIx pic info)

theorem lineChange_kept {k line} (h : Kept s t) : Kept s (t.lineChange k line) := by
  unfold State.lineChange
  extract_lets x t1
  have ht1 : Kept s t1 := setSrc_kept h
  exact Kept.ite (Kept.ite (deliver_kept (toPending_kept ht1)) ht1) (Kept.ite (setSrc_kept ht1) ht1)

theorem complete_kept {t0 k} (h : Kept s t) : Kept s (t.complete t0 k) := h.event (State.complete_memWf · t0 k) (State.complete_frame t t0 k)

theorem writeSrcCfg_kept {k v} (h : Kept s t) : Kept s (t.writeSrcCfg k v) := by
  unfold State.writeSrcCfg
  split
  · exact h
  · extract_lets x en free y ignored t1 y1 t2
    have ht1 : Kept s t1 := Kept.ite (orReg_kept h) h
    have ht2 : Kept s t2 := setSrc_kept ht1
    exact Kept.ite (deliver_kept (toPending_kept ht2)) ht2

theorem writeDisable_kept {v} (h : Kept s t) : Kept s (t.writeDisable v) := deliver_kept (setReg_kept h)

theorem claimRead_kept {t0} (h : Kept s t) : Kept s (t.claimRead t0).1 := by
  unfold State.claimRead
  split
  · extract_lets k
    split
    · exact h
    · exact claimSource_kept h
  · exact h

theorem doneWrite_kept {i t0 v} (h : Kept s t) : Kept s (t.doneWrite i t0 v) :=
  Kept.ite h (Kept.ite (orReg_kept h) (Kept.ite (complete_kept h) (orReg_kept h)))

/-! ### Proposals and counts of words -/

theorem modRas_kept {f} (h : Kept s t) (hw : (f t.ras).wear = t.ras.wear := by rfl) : Kept s (t.modRas f) :=
  h.post (State.modRas_memWf · f hw) (State.modRas_post t f)

theorem threshold_kept (h : Kept s t) : Kept s t.threshold := h.post State.threshold_memWf (State.threshold_post t)

theorem setEngine_kept {j x} (h : Kept s t) : Kept s (t.setEngine j x) := h.trans ⟨(State.setEngine_memWf · j x), id, id⟩

theorem modCluster_kept {n f} (h : Kept s t) : Kept s (t.modCluster n f) := Kept.same h

theorem enter_kept {p} (h : Kept s t) : Kept s (t.enter p) := h.post (State.enter_memWf · p) (State.enter_post t p)

theorem propose_kept {kind target reason info} (h : Kept s t) : Kept s (t.propose kind target reason info) :=
  h.post (State.propose_memWf · kind target reason info) (State.propose_post t kind target reason info)

theorem admitWaiting_kept (h : Kept s t) : Kept s t.admitWaiting := Kept.foldl (fun h => Kept.ite (enter_kept (modRas_kept h)) h) h

theorem moveProposal_kept {j st} (h : Kept s t) : Kept s (t.moveProposal j st) := by
  unfold State.moveProposal
  extract_lets p t1 t2 mine next
  have ht1 : Kept s t1 := raise_kept (modRas_kept h)
  have ht2 : Kept s t2 := Kept.ite (admitWaiting_kept ht1) ht1
  clear_value next
  split
  · split
    · exact enter_kept (modRas_kept ht2)
    · exact ht2
  · exact ht2

theorem siteWords_kept {site vs} (h : Kept s t) : Kept s (t.siteWords site vs) :=
  h.post (State.siteWords_memWf · site vs) (State.siteWords_post t site vs)

theorem returnEngines_kept (h : Kept s t) : Kept s t.returnEngines := by
  unfold State.returnEngines
  extract_lets t1
  have ht1 : Kept s t1 := Kept.foldl (fun h => Kept.ite (setEngine_kept h) h) h
  refine Kept.foldl (fun h => ?_) ht1
  split
  · exact propose_kept (modCluster_kept h)
  · exact threshold_kept (modCluster_kept h)
  · exact h

theorem startExec_kept (h : Kept s t) : Kept s t.startExec := by
  unfold State.startExec
  split
  · exact Kept.ite (Kept.same h) h
  · exact h

theorem fspStart_kept {f} (h : Kept s t) : Kept s (t.fspStart f) := Kept.ite h (Kept.same h)

theorem fspTake_kept (h : Kept s t) : Kept s t.fspTake := by
  unfold State.fspTake
  split
  · exact Kept.ite h (fspStart_kept (Kept.same h))
  · exact h

theorem takeBoundary_kept (h : Kept s t) : Kept s t.takeBoundary := fspTake_kept (startExec_kept (returnEngines_kept h))

/-! ### Stores and memory -/

theorem setStore_kept {id m} (h : Kept s t) (hm : t.memWf → m.wf) : Kept s (t.setStore id m) :=
  h.post (fun w => State.setStore_memWf w id (hm w)) (State.setStore_post t id m)

theorem dram_kept {m} (h : Kept s t) (hm : t.dram.wf → m.wf) : Kept s { t with dram := m } :=
  setStore_kept (id := .dram) h fun w => hm w.1.1

theorem latches_kept {k v} (h : Kept s t) : Kept s { t with latches := mapSet wordZero t.latches k v } :=
  h.trans ⟨fun ⟨a, b, c, d⟩ => ⟨a, b, mapWf_mapSet c k v, d⟩, id, id⟩

theorem holds_kept {k v} (h : Kept s t) : Kept s { t with holds := mapSet wordZero t.holds k v } :=
  h.trans ⟨fun ⟨a, b, c, d, e⟩ => ⟨a, b, c, mapWf_mapSet d k v, e⟩, id, id⟩

theorem noteWords_kept {id a k} (h : Kept s t) : Kept s (t.noteWords id a k) :=
  h.post (State.noteWords_memWf · id a k) (State.noteWords_post t id a k)

theorem readStore_kept {id a k} (h : Kept s t) : Kept s (t.readStore id a k).1 := noteWords_kept h

theorem writeStore_kept {id a b} (h : Kept s t) : Kept s (t.writeStore id a b) :=
  h.post (State.writeStore_memWf · id a b) (State.writeStore_post t id a b)

theorem poke_kept {a b} (h : Kept s t) : Kept s (t.poke a b) := h.post (State.poke_memWf · a b) (State.poke_post t a b)

theorem poisonAll_wf {f : Nat → Nat} {l : List Nat} {m : Store} (w : m.wf) : (l.foldl (fun m i => m.poison (f i)) m).wf :=
  foldl_keeps Store.wf _ (fun _ _ hm => Store.poison_wf hm _) _ _ w

theorem poisonAt_kept {a n} (h : Kept s t) : Kept s (t.poisonAt a n) := by
  unfold State.poisonAt
  split
  · exact h
  · exact setStore_kept h fun w => poisonAll_wf (State.store_wf w _)
  · exact h

theorem noteArea_kept {a n} (h : Kept s t) : Kept s (t.noteArea a n) := by
  unfold State.noteArea
  split
  · exact noteWords_kept h
  · exact h

theorem noteAreas_kept {l} (h : Kept s t) : Kept s (t.noteAreas l) := Kept.foldl noteArea_kept h

theorem readArea_kept {a n} (h : Kept s t) : Kept s (t.readArea a n).1 := noteArea_kept (ctlSync_kept h)

theorem poisonSpans_kept {id a o l} (h : Kept s t) : Kept s (t.poisonSpans id a o l) :=
  setStore_kept h fun w => poisonAll_wf (State.store_wf w _)

theorem move_kept {a d n} (h : Kept s t) : Kept s (t.move a d n) := by
  unfold State.move
  extract_lets r t1
  have hr : Kept s r.1 := readArea_kept h
  have ht1 : Kept s t1 := poke_kept hr
  split
  · exact ht1
  · exact poisonSpans_kept ht1
  · exact ht1

theorem modMc_kept {f} (h : Kept s t) : Kept s (t.modMc f) := Kept.same h

theorem modChn_kept {c f} (h : Kept s t) : Kept s (t.modChn c f) := modMc_kept h

theorem flumeRespond_kept {id i src cls a len write err b bad} (h : Kept s t) : Kept s (t.flumeRespond id i src cls a len write err b bad) :=
  Kept.same h

theorem writeWord_kept {r w} (h : Kept s t) : Kept s (t.writeWord r w) := by
  unfold State.writeWord
  extract_lets e a t1
  have ht1 : Kept s t1 := noteWords_kept h
  split
  · exact h
  · split
    · exact dram_kept h (Store.write_wf · _ _)
    · exact dram_kept ht1 fun w => foldl_keeps Store.wf _ (fun _ _ hm => Store.write_wf hm _ _) _ _ w

theorem dramAnswer_kept {r b bad} (h : Kept s t) : Kept s (t.dramAnswer r b bad) := by
  unfold State.dramAnswer
  split
  · exact flumeRespond_kept h
  · exact h

theorem dramAccess_kept {c r} (h : Kept s t) : Kept s (t.dramAccess c r) := by
  unfold State.dramAccess
  extract_lets line t1 bad x b
  have ht1 : Kept s t1 := Kept.foldl writeWord_kept h
  have hx : Kept s x.1 := readStore_kept h
  exact Kept.ite (dramAnswer_kept (Kept.foldl poisonAt_kept ht1)) (dramAnswer_kept (modChn_kept hx))

theorem perform_kept {c i} (h : Kept s t) : Kept s (t.perform c i) := by
  unfold State.perform
  split
  · exact h
  · exact dramAccess_kept (modChn_kept h)

theorem settleChan_kept {c i a k n} (h : Kept s t) : Kept s (t.settleChan c i a k n) := by
  induction n generalizing t with
  | zero => exact h
  | succ n ih =>
    unfold State.settleChan
    extract_lets q
    split
    · exact ih (perform_kept h)
    · exact h

theorem settle_kept {i a k} (h : Kept s t) : Kept s (t.settle i a k) := by
  unfold State.settle
  split
  · exact Kept.foldl settleChan_kept h
  · exact h

theorem memRead_kept {i a k} (h : Kept s t) : Kept s (t.memRead i a k).1 := by
  unfold State.memRead
  extract_lets r
  split
  · exact h
  · split
    · exact readStore_kept (settle_kept (ctlSync_kept h))
    · exact h

theorem memWrite_kept {i a b} (h : Kept s t) : Kept s (t.memWrite i a b).1 := by
  unfold State.memWrite
  extract_lets r
  split
  · exact h
  · exact h
  · split
    · exact writeStore_kept (settle_kept (ctlSync_kept h))
    · exact h

theorem mpmDeny_kept {remote write link a} (h : Kept s t) : Kept s (t.mpmDeny remote write link a) :=
  bump_kept (setReg_kept (setReg64_kept (orReg_kept h)))

/-! ### Accesses and what waits -/

theorem stallIni_kept {i} (h : Kept s t) : Kept s (t.stallIni i) := by
  unfold State.stallIni
  split
  · exact Kept.ite (setRun_kept h) h
  · exact h

theorem hold_kept {i needs point c} (h : Kept s t) (hi : isPowerOn c = false := by rfl) : Kept s (t.hold i needs point c) :=
  stallIni_kept (h.trans ⟨id, id, fun hm x hx => by
    rcases List.mem_append.1 hx with hx | hx
    · exact hm x hx
    · rw [List.mem_singleton.1 hx]; exact hi⟩)

theorem onHold_filter_kept {p} (h : Kept s t) : Kept s { t with onHold := t.onHold.filter p } :=
  h.trans ⟨id, id, fun hm x hx => hm x (List.mem_filter.1 hx).1⟩

theorem unstall_kept {i} (h : Kept s t) : Kept s (t.unstall i) := by
  unfold State.unstall
  split
  · exact Kept.ite (setRun_kept h) h
  · exact h

theorem access_kept {i a c f} (hf : ∀ {t}, Kept s t → Kept s (f t)) (h : Kept s t) (hi : isPowerOn c = false :=
  by rfl) : Kept s (t.access i a c f) :=
  Kept.ite (hf h) (hold_kept h hi)

theorem regAccess_kept {i off c f} (hf : ∀ {t}, Kept s t → Kept s (f t)) (h : Kept s t) (hi : isPowerOn c = false :=
  by rfl) : Kept s (t.regAccess i off c f) :=
  access_kept hf h hi

theorem dropHeld_kept {i} (h : Kept s t) : Kept s (t.dropHeld i) := onHold_filter_kept h

/-! ### Records and the log -/

theorem modLog_kept {m f} (h : Kept s t) : Kept s (t.modLog m f) := Kept.same h

theorem modLedger_kept {m f} (h : Kept s t) : Kept s (t.modLedger m f) := Kept.same h

theorem modMag_kept {m f} (h : Kept s t) : Kept s (t.modMag m f) := Kept.same h

theorem ledgerEvent_kept {m e} (h : Kept s t) : Kept s (t.ledgerEvent m e) := raise_kept (orReg_kept h)

theorem ledgerWarn_kept {m} (h : Kept s t) : Kept s (t.ledgerWarn m) := Kept.ite (ledgerEvent_kept (modLedger_kept h)) (modLedger_kept h)

theorem ledgerDo_kept {m f} (h : Kept s t) : Kept s (t.ledgerDo m f) := ledgerWarn_kept (modLedger_kept h)

theorem markSpilled_kept {k} (h : Kept s t) : Kept s (t.markSpilled k) := by
  unfold State.markSpilled
  split
  · exact h
  · exact Kept.ite (bump_kept (Kept.same h)) h

theorem placeUnit_kept {m u0} (h : Kept s t) : Kept s (t.placeUnit m u0) := by
  unfold State.placeUnit
  extract_lets l n t1 one s'
  have hs' : Kept s s' := markSpilled_kept (modLedger_kept h)
  exact Kept.ite (Kept.ite (ledgerEvent_kept hs') hs') (Kept.foldl modLog_kept h)

theorem addRecord_kept {m type body trailer} (h : Kept s t) : Kept s (t.addRecord m type body trailer) := Kept.foldl modLog_kept (placeUnit_kept h)

theorem endRun_kept {m} (h : Kept s t) : Kept s (t.endRun m) := by
  unfold State.endRun
  split
  · exact h
  · exact Kept.foldl modLog_kept (addRecord_kept h)

theorem writeIndex_kept {m} (h : Kept s t) : Kept s (t.writeIndex m).1 := by
  unfold State.writeIndex
  extract_lets t1 at0 s'
  have ht1 : Kept s t1 := endRun_kept h
  have hs' : Kept s s' := addRecord_kept ht1
  split
  · exact ht1
  · exact Kept.foldl modLog_kept hs'

theorem noteDrop_kept {m k reason ptp} (h : Kept s t) : Kept s (t.noteDrop m k reason ptp).1 := Kept.foldl modLog_kept (Kept.ite h (endRun_kept h))

theorem indexAfter_kept {m k} (h : Kept s t) : Kept s (t.indexAfter m k).1 := by
  unfold State.indexAfter
  split
  · exact writeIndex_kept h
  · exact h

theorem closeLog_kept {m reason charge} (h : Kept s t) : Kept s (t.closeLog m reason charge) := by
  unfold State.closeLog
  split
  · exact h
  · extract_lets a0 t1 t2 t3
    have ht1 : Kept s t1 := writeIndex_kept h
    have ht2 : Kept s t2 := addRecord_kept ht1
    have ht3 : Kept s t3 := Kept.foldl modLog_kept ht2
    exact Kept.ite (ledgerDo_kept ht3) ht3

/-! ### The take and its completions -/

theorem writeCompletion_kept {c} (h : Kept s t) : Kept s (t.writeCompletion c) :=
  h.post (State.writeCompletion_memWf · c) (State.writeCompletion_post t c)

theorem flushStalled_kept {n} (h : Kept s t) : Kept s (t.flushStalled n) := by
  induction n generalizing t with
  | zero => exact h
  | succ n ih =>
    unfold State.flushStalled
    split
    · exact h
    · exact Kept.ite (ih h.same) (Kept.ite h (ih (writeCompletion_kept h.same)))

theorem post_kept {p status final value} (h : Kept s t) : Kept s (t.post p status final value) :=
  h.post (State.post_memWf · p status final value) (State.post_post t p status final value)

theorem postOwed_kept {p status value} (h : Kept s t) : Kept s (t.postOwed p status value) := by
  unfold State.postOwed
  split
  · exact post_kept h
  · exact h

theorem modTake_kept {f} (h : Kept s t) : Kept s (t.modTake f) := Kept.same h

theorem moveTake_kept {st cause} (h : Kept s t) : Kept s (t.moveTake st cause) :=
  Kept.ite (takeBoundary_kept (raise_kept (modTake_kept h))) (raise_kept (modTake_kept h))

theorem drawn_kept (h : Kept s t) : Kept s t.drawn := Kept.same h

theorem stopProgram_kept (h : Kept s t) : Kept s t.stopProgram := drawn_kept (modTake_kept (Kept.foldl (fun h => Kept.ite (modCore_kept h) h) h))

theorem modSlot_kept {i f} (h : Kept s t) : Kept s (t.modSlot i f) := Kept.same h

theorem freeSlot_kept {i} (h : Kept s t) : Kept s (t.freeSlot i) := modSlot_kept h

theorem dropCurrent_kept {i} (h : Kept s t) : Kept s (t.dropCurrent i) := Kept.ite (freeSlot_kept h) (modSlot_kept h)

theorem stopCapture_kept {p} (h : Kept s t) : Kept s (t.stopCapture p) := by
  unfold State.stopCapture
  refine Kept.foldl (fun h => ?_) h
  split
  · exact Kept.ite (setEngine_kept h) h
  · exact h

theorem dropPictures_kept {p} (h : Kept s t) : Kept s (t.dropPictures p) := by
  unfold State.dropPictures
  extract_lets gone t1 t2
  have ht1 : Kept s t1 := by
    unfold t1
    refine Kept.foldl (fun h => ?_) h
    split
    · exact dropCurrent_kept h
    · exact h
  have ht2 : Kept s t2 := stopCapture_kept (Kept.same ht1)
  exact modTake_kept ht2

theorem stopChannels_kept {p} (h : Kept s t) : Kept s (t.stopChannels p) := Kept.same h

theorem stopStreams_kept (h : Kept s t) : Kept s t.stopStreams := Kept.same h

theorem notePictures_kept {reason} (h : Kept s t) : Kept s (t.notePictures reason) := by
  unfold State.notePictures
  refine Kept.foldl (fun h => ?_) h
  split
  · exact h
  · exact indexAfter_kept (noteDrop_kept h)

theorem passBands_kept (h : Kept s t) : Kept s t.passBands := by
  unfold State.passBands
  extract_lets c
  split
  · exact h
  · refine Kept.foldl (fun h => ?_) h
    split
    · exact Kept.ite h (Kept.foldl modLog_kept h)
    · exact h

theorem releaseLedgers_kept (h : Kept s t) : Kept s t.releaseLedgers := Kept.foldl ledgerDo_kept h

theorem stopTake_kept {endReason dropReason} (h : Kept s t) : Kept s (t.stopTake endReason dropReason) := by
  unfold State.stopTake
  extract_lets rolling t1 t2 t3
  have ht1 : Kept s t1 := Kept.ite (notePictures_kept (passBands_kept h)) h
  have ht2 : Kept s t2 := stopChannels_kept (dropPictures_kept ht1)
  have ht3 : Kept s t3 := Kept.ite (Kept.foldl (fun h => Kept.ite (closeLog_kept h) (Kept.foldl modLog_kept h)) (releaseLedgers_kept ht2)) ht2
  exact stopStreams_kept ht3

theorem faultTake_kept {cause setupStatus} (h : Kept s t) : Kept s (t.faultTake cause setupStatus) :=
  Kept.ite h (raise_kept (drawn_kept (postOwed_kept (postOwed_kept (modTake_kept (moveTake_kept (stopTake_kept h)))))))

theorem checkClosed_kept (h : Kept s t) : Kept s t.checkClosed := by
  unfold State.checkClosed
  split
  · exact h
  · split
    · exact Kept.ite h (faultTake_kept h)
    · exact Kept.ite (drawn_kept (postOwed_kept (modTake_kept (moveTake_kept h)))) h

theorem checkCut_kept (h : Kept s t) : Kept s t.checkCut := Kept.ite (checkClosed_kept (Kept.foldl closeLog_kept h)) (checkClosed_kept h)

theorem raiseHalt_kept {c} (h : Kept s t) : Kept s (t.raiseHalt c) := by
  unfold State.raiseHalt
  split
  · exact raise_kept h
  · exact h

theorem haltProposal_kept {c code} (h : Kept s t) : Kept s (t.haltProposal c code) := by
  unfold State.haltProposal
  split
  · exact Kept.ite (propose_kept h) h
  · exact h

theorem exception_kept {c code addr} (h : Kept s t) : Kept s (t.exception c code addr) := by
  unfold State.exception
  extract_lets st p s1 s2 s21 s3
  have hs1 : Kept s s1 := setCause_kept (setXpc_kept h)
  have hs2 : Kept s s2 := haltProposal_kept (raiseHalt_kept (setRun_kept hs1))
  have hs21 : Kept s s21 := setStatus_kept hs1
  have hs3 : Kept s s3 := setPc_kept hs21
  exact Kept.ite (Kept.ite (faultTake_kept hs2) hs2) (Kept.ite (faultTake_kept hs3) hs3)

theorem returnFromException_kept {c} (h : Kept s t) : Kept s (t.returnFromException c) := setPc_kept (setStatus_kept h)

/-! ### Packets -/

theorem modKsl_kept {f} (h : Kept s t) : Kept s (t.modKsl f) := Kept.same h

theorem modPort_kept {k f} (h : Kept s t) : Kept s (t.modPort k f) := modKsl_kept h

theorem routeDrop_kept (h : Kept s t) : Kept s t.routeDrop := bump_kept (orReg_kept h)

theorem kslQueueWith_kept {k origin event p} (h : Kept s t) : Kept s (t.kslQueueWith k origin event p) := modPort_kept h

theorem kslQueue_kept {k origin p} (h : Kept s t) : Kept s (t.kslQueue k origin p) := kslQueueWith_kept h

theorem kslSend_kept {p} (h : Kept s t) : Kept s (t.kslSend p) := by
  unfold State.kslSend
  extract_lets k
  clear_value k
  split
  · exact Kept.ite (kslQueue_kept h) (routeDrop_kept h)
  · exact routeDrop_kept h

/-! ### Sluice -/

theorem setFlow_kept {f x} (h : Kept s t) : Kept s (t.setFlow f x) := h.trans ⟨(State.setFlow_memWf · f x), id, id⟩

theorem setService_kept {p v x} (h : Kept s t) : Kept s (t.setService p v x) := h.trans ⟨(State.setService_memWf · p v x), id, id⟩

theorem sluOffer_kept {f p} (h : Kept s t) : Kept s (t.sluOffer f p) := Kept.ite (raise_kept (orReg_kept (bump_kept h))) (setFlow_kept h)

theorem drrFlows_kept {p v l} (h : Kept s t) : Kept s (t.drrFlows p v l).1 := by
  induction l generalizing t with
  | nil => exact h
  | cons m ms ih =>
    unfold State.drrFlows
    dsimp only
    split
    · exact setService_kept (setFlow_kept h)
    · exact ih (setService_kept (Kept.ite (setFlow_kept h) h))

theorem drrServices_kept {p l} (h : Kept s t) : Kept s (t.drrServices p l).1 := by
  induction l generalizing t with
  | nil => exact h
  | cons v vs ih =>
    unfold State.drrServices
    dsimp only
    split
    · exact (setService_kept h).same
    · exact ih (Kept.ite (setService_kept h) h).same

theorem sluChoose_kept {p} (h : Kept s t) : Kept s (t.sluChoose p).1 := by
  unfold State.sluChoose
  split
  · exact h.same
  · have hd := drrServices_kept (p := p) (l := rotate (vgetN 0 t.slu.sptr p) (upFrom 1 7)) h
    split
    · rename_i e
      exact hd.left e
    · rename_i e
      exact drrFlows_kept (hd.left e)

theorem sluMoved_kept {f} (h : Kept s t) : Kept s (t.sluMoved f) := by
  unfold State.sluMoved
  extract_lets x
  split
  · exact h
  · exact Kept.ite (raise_kept (orReg_kept (setFlow_kept h))) (setFlow_kept h)

theorem refSent_kept {p} (h : Kept s t) : Kept s (t.refSent p) := by
  unfold State.refSent
  extract_lets pic
  split
  · exact modSlot_kept h
  · exact h

theorem noteLatency_kept {m t0} (h : Kept s t) : Kept s (t.noteLatency m t0) := Kept.ite (setReg_kept h) h

theorem sluHand_kept {f p k} (h : Kept s t) : Kept s (t.sluHand f p k) := by
  unfold State.sluHand
  extract_lets t1 t2 t3 port
  have ht1 : Kept s t1 := by
    unfold t1
    split
    · exact Kept.ite (noteLatency_kept h) h
    · exact h
  have ht2 : Kept s t2 := bump_kept ht1
  split
  · exact Kept.ite (raise_kept (bump_kept ht1)) (Kept.ite (Kept.same ht2) ht2)
  · split
    · exact ht1
    · exact Kept.ite (kslQueue_kept (Kept.ite (refSent_kept ht1) ht1)) (routeDrop_kept (Kept.ite (refSent_kept ht1) ht1))

theorem sluPick_kept {p} (h : Kept s t) : Kept s (t.sluPick p) := by
  unfold State.sluPick
  have hc := sluChoose_kept (p := p) h
  extract_lets waiting
  split
  · rename_i e
    exact Kept.ite (bump_kept (hc.left e)) (hc.left e)
  · rename_i t1 f e
    have h1 : Kept s t1 := hc.left e
    extract_lets x v
    split
    · exact h1
    · extract_lets t2 y t3
      have ht2 : Kept s t2 := setFlow_kept h1
      have ht3 : Kept s t3 := Kept.ite ht2 (setService_kept ht2)
      exact sluHand_kept (sluMoved_kept (bump_kept (bump_kept ht3)))

theorem sluAccrue_kept (h : Kept s t) : Kept s t.sluAccrue := Kept.foldl (fun h => Kept.foldl setService_kept h) (Kept.foldl setFlow_kept h)

theorem sluPlace_kept {f} (h : Kept s t) : Kept s (t.sluPlace f) := Kept.ite (setFlow_kept h) (Kept.ite (setFlow_kept h) (setFlow_kept h))

theorem sluTakeover_kept (h : Kept s t) : Kept s t.sluTakeover := by
  unfold State.sluTakeover
  extract_lets t1
  have ht1 : Kept s t1 := Kept.foldl (fun h => sluPlace_kept (Kept.ite (raise_kept (orReg_kept (bump_kept (setFlow_kept (setFlow_kept h)))))
      (setFlow_kept h))) h
  exact Kept.foldl (fun h => Kept.foldl setService_kept h) ht1

/-! ### Kalsal link state -/

theorem enumSend_kept {k sub epoch base count status} (h : Kept s t) : Kept s (t.enumSend k sub epoch base count status) := sluOffer_kept h

theorem setRoute_kept {off w} (h : Kept s t) : Kept s (t.setRoute off w) := Kept.ite h (setReg_kept h)

theorem setDir_kept {k d} (h : Kept s t) : Kept s (t.setDir k d) := setRoute_kept h

theorem enumWalk_kept {e l} (h : Kept s t) : Kept s (t.enumWalk e l) := by
  induction l generalizing t e with
  | nil =>
    unfold State.enumWalk
    extract_lets t1
    have ht1 : Kept s t1 := modKsl_kept h
    split
    · exact enumSend_kept ht1
    · split
      · exact post_kept (modKsl_kept ht1)
      · exact ht1
  | cons k ks ih =>
    unfold State.enumWalk
    exact Kept.ite (Kept.ite (ih (setDir_kept h)) (modKsl_kept (enumSend_kept h))) (ih h)

theorem enumStart_kept {parent b epoch} (h : Kept s t) : Kept s (t.enumStart parent b epoch) :=
  enumWalk_kept (modKsl_kept (Kept.foldl setDir_kept (setReg_kept h)))

theorem enumAnswer_kept {k count status} (h : Kept s t) : Kept s (t.enumAnswer k count status) := by
  unfold State.enumAnswer
  split
  · exact h
  · split
    · exact h
    · extract_lets t1 e
      split
      · exact enumWalk_kept (setRoute_kept (setDir_kept h))
      · exact enumWalk_kept (setDir_kept h)

theorem unclaim_kept {t0 k} (h : Kept s t) : Kept s (t.unclaim t0 k) := Kept.ite (Kept.ite (deliver_kept (toPending_kept h)) (setSrc_kept h)) h

theorem freeFlit_kept {held vc} (h : Kept s t) : Kept s (t.freeFlit held vc) := by
  unfold State.freeFlit
  split
  · exact modPort_kept h
  · exact h

theorem linkFlush_kept {k} (h : Kept s t) : Kept s (t.linkFlush k) :=
  Kept.foldl unclaim_kept (modPort_kept (Kept.foldl modPort_kept (Kept.foldl freeFlit_kept h)))

theorem setLink_kept {k st} (h : Kept s t) : Kept s (t.setLink k st) := Kept.ite (raise_kept (modPort_kept h)) (modPort_kept h)

theorem linkDown_kept {k} (h : Kept s t) : Kept s (t.linkDown k) := Kept.ite h (enumAnswer_kept (linkFlush_kept (setLink_kept (modPort_kept h))))

theorem trainFail_kept {k} (h : Kept s t) : Kept s (t.trainFail k) := raiseRec_kept (linkDown_kept (Kept.same h))

theorem retrain_kept {k} (h : Kept s t) : Kept s (t.retrain k) := Kept.ite (orReg_kept (bump_kept (setLink_kept (modPort_kept h)))) h

/-! ### The Cistern -/

theorem cisNotice_kept {old p} (h : Kept s t) : Kept s (t.cisNotice old p) := by
  unfold State.cisNotice
  extract_lets falls t1
  have ht1 : Kept s t1 := Kept.ite (raise_kept (orReg_kept h)) h
  clear_value t1
  exact Kept.ite (raise_kept (orReg_kept ht1)) ht1

theorem cisNotices_kept {old} (h : Kept s t) : Kept s (t.cisNotices old) := Kept.foldl cisNotice_kept h

theorem cisReject_kept {handle cause requester holder} (h : Kept s t) : Kept s (t.cisReject handle cause requester holder) := by
  unfold State.cisReject
  extract_lets t1
  have ht1 : Kept s t1 := bump_kept (setReg_kept (setReg_kept h))
  exact Kept.ite (raise_kept (orReg_kept ht1)) (raise_kept (orReg_kept ht1))

theorem setPage_kept {o p} (h : Kept s t) : Kept s (t.setPage o p) :=
  h.trans ⟨fun ⟨st, a, b, c, d, e, f, g, i, j, k⟩ => ⟨st, a, b, c, d, e, f, g, i, mapWf_mapSet j _ _, k⟩, id, id⟩

theorem pageResult_kept {i o handle status cause bp} (h : Kept s t) : Kept s (t.pageResult i o handle status cause bp) :=
  Kept.ite (setPage_kept h) h

theorem cisFree_kept {i o h0} (h : Kept s t) : Kept s (t.cisFree i o h0) :=
  Kept.ite (pageResult_kept (cisReject_kept h)) (pageResult_kept (setBuf_kept h))

theorem pageDenied_kept {o value} (h : Kept s t) : Kept s (t.pageDenied o value) := cisReject_kept h

theorem setHolder_kept {h0 t0} (h : Kept s t) : Kept s (t.setHolder h0 t0) := by
  unfold State.setHolder
  split
  · exact Kept.same h
  · split
    · exact setBuf_kept h
    · exact h

theorem modDma_kept {c f} (h : Kept s t) : Kept s (t.modDma c f) := Kept.same h

theorem giveMsg_kept {h0} (h : Kept s t) : Kept s (t.giveMsg h0) :=
  Kept.ite (setBuf_kept (noteArea_kept h)) (sluOffer_kept (setBuf_kept (noteArea_kept h)))

theorem cisGive_kept {i o h0 t0} (h : Kept s t) : Kept s (t.cisGive i o h0 t0) := by
  unfold State.cisGive
  extract_lets c t1
  have ht1 : Kept s t1 := pageResult_kept h
  split
  · exact pageResult_kept (cisReject_kept h)
  · split
    · exact hold_kept h
    · split
      · exact ht1
      · split
        · exact Kept.ite (raise_kept (orReg_kept (bump_kept ht1))) (modDma_kept (setHolder_kept ht1))
        · exact Kept.ite (giveMsg_kept (setHolder_kept ht1)) (setHolder_kept ht1)

theorem grant_kept {r p} (h : Kept s t) : Kept s (t.grant r p) := pageResult_kept (cisNotice_kept (bump_kept (setBuf_kept h)))

theorem refuse_kept {r p contended} (h : Kept s t) : Kept s (t.refuse r p contended) :=
  pageResult_kept (Kept.ite (bump_kept (bump_kept h)) (bump_kept h))

theorem sharedClass_kept {p n l won} (h : Kept s t) : Kept s (t.sharedClass p n l won).1 := by
  induction n generalizing t l won with
  | zero => exact h
  | succ n ih =>
    unfold State.sharedClass
    split
    · exact h
    · extract_lets cis t1
      have ht1 : Kept s t1 := Kept.ite h.same h
      split
      · exact ih (grant_kept ht1)
      · exact ih (refuse_kept ht1)

theorem allocPool_kept {p l} (h : Kept s t) : Kept s (t.allocPool p l) := by
  unfold State.allocPool
  extract_lets r
  have hr : Kept s r.1 := foldl_keeps (fun a : State × List AllocReq => Kept s a.1) _ (fun a q ha => by
    split
    · exact Kept.ite (grant_kept ha) (refuse_kept ha)
    · exact ha) _ _ h
  exact foldl_keeps (fun a : State × Bool => Kept s a.1) _ (fun a c ha => sharedClass_kept ha) _ _ hr

theorem allocCycles_kept {p n l} (h : Kept s t) : Kept s (t.allocCycles p n l) := by
  induction n generalizing t l with
  | zero => exact h
  | succ n ih =>
    unfold State.allocCycles
    exact Kept.ite h (ih (allocPool_kept h))

theorem allocCheck_kept {a r} (h : Kept s a.2) : Kept s (t.allocCheck a r).2 := by
  unfold State.allocCheck
  split
  · exact (pageDenied_kept h).snd
  · split
    · exact (pageResult_kept (cisReject_kept h)).snd
    · exact h.snd

theorem cisAlloc_kept {reqs} (h : Kept s t) : Kept s (t.cisAlloc reqs) := by
  unfold State.cisAlloc
  extract_lets a
  have ha : Kept s a.2 := foldl_keeps (fun a : List AllocReq × State => Kept s a.2) _ (fun _ _ ha => allocCheck_kept ha) _ _ h
  exact Kept.foldl allocCycles_kept ha

theorem cisRelease_kept (h : Kept s t) : Kept s t.cisRelease := by
  unfold State.cisRelease
  refine Kept.foldl (fun h => ?_) h
  split
  · exact Kept.ite (bump_kept (setBuf_kept h)) h
  · exact h

theorem cisUnitStops_kept {d} (h : Kept s t) : Kept s (t.cisUnitStops d) := by
  unfold State.cisUnitStops
  refine Kept.foldl (fun h => ?_) h
  split
  · exact Kept.ite (setBuf_kept h) h
  · exact h

theorem pageWrite_kept {i o off v} (h : Kept s t) : Kept s (t.pageWrite i o off v) := by
  unfold State.pageWrite
  split
  · exact pageDenied_kept h
  · split
    · exact cisAlloc_kept h
    · exact cisFree_kept h
    · exact setPage_kept h
    · exact cisGive_kept h
    · exact h

theorem pageRead_kept {i o off} (h : Kept s t) : Kept s (t.pageRead i o off).1 := by
  unfold State.pageRead
  split
  · exact (pageDenied_kept h).fst
  · exact h.fst

theorem cisAccess_kept {ini owner c f} (hf : ∀ {t}, Kept s t → Kept s (f t)) (h : Kept s t) (hi : isPowerOn c = false :=
  by rfl) : Kept s (t.cisAccess ini owner c f) :=
  Kept.ite (access_kept hf h hi) (Kept.ite (hf h) (hold_kept h hi))

/-! ### DMA -/

theorem modChain_kept {c f} (h : Kept s t) : Kept s (t.modChain c f) := modDma_kept h

theorem raiseDma_kept {c} (h : Kept s t) : Kept s (t.raiseDma c) := Kept.ite (raise_kept h) h

theorem dmaStart_kept {c} (h : Kept s t) : Kept s (t.dmaStart c) := by
  unfold State.dmaStart
  extract_lets ch
  split
  · exact modDma_kept h
  · exact h

theorem dmaFinish_kept {c} (h : Kept s t) : Kept s (t.dmaFinish c) := by
  unfold State.dmaFinish
  split
  · exact h
  · split
    · exact h
    · split
      · exact h
      · split
        · exact modDma_kept h
        · extract_lets st own flags crcRec t1
          have ht1 : Kept s t1 := Kept.ite (memWrite_kept h) h
          split
          · extract_lets compl t2 t3 t4 t5
            have ht2 : Kept s t2 := Kept.ite (setHolder_kept (memWrite_kept ht1)) ht1
            have ht3 : Kept s t3 := modDma_kept ht2
            have ht4 : Kept s t4 := bump_kept ht3
            have ht5 : Kept s t5 := Kept.ite ht4 (raise_kept (orReg_kept (bump_kept ht4)))
            exact raiseDma_kept ht5

theorem dmaFetch_kept {c} (h : Kept s t) : Kept s (t.dmaFetch c) := by
  unfold State.dmaFetch
  split
  · exact h
  · rename_i x _
    split
    · exact h
    · have hr := memRead_kept (i := .dma x.actOwner) (a := x.descAddr) (k := 64)
        (modDma_kept (c := c) (f := fun y => { y with nextReq := y.nextReq + 1 }) h)
      extract_lets first
      split
      · rename_i e
        exact dmaFinish_kept (modChain_kept (hr.left e))
      · rename_i e
        exact Kept.ite (dmaFinish_kept (modChain_kept (hr.left e))) (modChain_kept (hr.left e))
      · rename_i e
        exact Kept.ite (dmaFinish_kept (modChain_kept (hr.left e))) (modChain_kept (hr.left e))

theorem dmaWrites_kept {own burst finalEnd id n a data acc} (h : Kept s t) :
    Kept s (t.dmaWrites own burst finalEnd id n a data acc).1 := by
  induction n generalizing t a data acc with
  | zero => exact h
  | succ n ih =>
    unfold State.dmaWrites
    split
    · exact h
    · extract_lets m part w t1
      have hw : Kept s w.1 := memWrite_kept h
      have ht1 : Kept s t1 := by
        unfold t1
        refine Kept.ite (Kept.foldl (fun h => Kept.ite ?_ h) hw) hw
        split
        · exact setStore_kept h fun w => Store.poison_wf (State.store_wf w _) _
        · exact h
      exact ih ht1

theorem dmaSource_kept {own a n} (h : Kept s t) : Kept s (t.dmaSource own a n).1 := by
  unfold State.dmaSource
  extract_lets lo hi lines r bytes
  have hr : Kept s r.1 := foldl_keeps (fun a : State × Bool × List Byte => Kept s a.1) _ (fun a i ha => by
    have hm := memRead_kept (i := own) (a := lo + 64 * i) (k := 64) ha
    split
    · rename_i e
      exact hm.left e
    · rename_i e
      exact hm.left e
    · rename_i e
      exact hm.left e) _ _ h
  split
  · exact hr
  · exact hr

theorem dmaIssue_kept (h : Kept s t) : Kept s t.dmaIssue := by
  unfold State.dmaIssue
  split
  · exact h
  · split
    · exact h
    · rename_i c _
      extract_lets forced rs t1 t2
      have ht1 : Kept s t1 := Kept.foldl modChain_kept h
      have ht2 : Kept s t2 := Kept.ite ht1 ht1.same
      split
      · exact ht2
      · rename_i x _
        split
        · exact ht2
        · rename_i d _
          extract_lets dst n own feed
          have hr := dmaSource_kept (own := own) (a := d.src + x.moved) (n := n)
            (modDma_kept (c := c) (f := fun y => { y with nextReq := y.nextReq + 1 }) ht2)
          split
          · rename_i e
            exact dmaFinish_kept (modChain_kept (hr.left e))
          · rename_i e
            extract_lets t3 w
            have ht3 : Kept s t3 := modChain_kept (hr.left e)
            have hw : Kept s w.1 := dmaWrites_kept ht3
            exact modChain_kept (modDma_kept hw)

theorem dmaComplete_kept {c} (h : Kept s t) : Kept s (t.dmaComplete c) := by
  unfold State.dmaComplete
  split
  · exact h
  · split
    · exact h
    · split
      · exact dmaFinish_kept h
      · extract_lets t1 t2
        have ht1 : Kept s t1 := modDma_kept h
        have ht2 : Kept s t2 := Kept.ite (raiseDma_kept ht1) ht1
        exact Kept.ite (dmaFinish_kept (modChain_kept ht2)) (Kept.ite (dmaFinish_kept (modChain_kept ht2)) (modChain_kept ht2))

theorem dmaLate_kept {c} (h : Kept s t) : Kept s (t.dmaLate c) := raise_kept (orReg_kept (bump_kept h))

theorem dmaAnswer_kept {c id error} (h : Kept s t) : Kept s (t.dmaAnswer c id error) := by
  unfold State.dmaAnswer
  split
  · exact dmaLate_kept h
  · split
    · exact dmaLate_kept h
    · extract_lets t1 zero t2
      have ht1 : Kept s t1 := modChain_kept h
      have ht2 : Kept s t2 := modDma_kept (modChain_kept ht1)
      exact Kept.ite (dmaFinish_kept (modChain_kept ht1)) (dmaComplete_kept ht2)

theorem dmaExpire_kept {c id} (h : Kept s t) : Kept s (t.dmaExpire c id) := by
  unfold State.dmaExpire
  split
  · exact h
  · exact Kept.ite (dmaFinish_kept (modChain_kept h)) (Kept.ite (dmaFinish_kept (modChain_kept (modDma_kept h))) h)

theorem stopProgramChannels_kept (h : Kept s t) : Kept s t.stopProgramChannels := stopChannels_kept h

/-! ### Check units -/

theorem modCku_kept {k f} (h : Kept s t) : Kept s (t.modCku k f) := Kept.same h

theorem ckuStranger_kept {k} (h : Kept s t) : Kept s (t.ckuStranger k) := orReg_kept h

theorem ckuPush_kept {i k x c} (h : Kept s t) (hi : isPowerOn c = false := by rfl) : Kept s (t.ckuPush i k x c) :=
  Kept.ite (hold_kept h hi) (modCku_kept h)

theorem ckuFeed_kept {i k b} (h : Kept s t) : Kept s (t.ckuFeed i k b) :=
  Kept.ite h (Kept.ite (ckuStranger_kept h) (Kept.ite (orReg_kept h) (ckuPush_kept h)))

theorem ckuSnoop_kept {i k v} (h : Kept s t) : Kept s (t.ckuSnoop i k v) :=
  Kept.ite (ckuStranger_kept h) (Kept.ite (modCku_kept h) (Kept.ite (orReg_kept (modCku_kept h)) (modCku_kept h)))

theorem ckuArmed_kept (h : Kept s t) : Kept s t.ckuArmed := Kept.foldl (fun h => Kept.ite (orReg_kept (modCku_kept h)) h) h

theorem ckuSeeBeat_kept {k link dir beat} (h : Kept s t) : Kept s (t.ckuSeeBeat k link dir beat) :=
  Kept.ite (Kept.ite (orReg_kept (modCku_kept h)) (modCku_kept h)) h

theorem ckuWrite_kept {i k off v hold} (h : Kept s t) : Kept s (t.ckuWrite i k off v hold) := by
  unfold State.ckuWrite
  split
  · exact ckuStranger_kept h
  · split
    · exact modCku_kept h
    · exact modCku_kept h
    · exact ckuPush_kept h
    · exact ckuPush_kept h
    · exact ckuFeed_kept h
    · exact modCku_kept h
    · exact ckuSnoop_kept h
    · exact modCku_kept h
    · exact modCku_kept h
    · exact h

theorem ckuRead_kept {i k off} (h : Kept s t) : Kept s (t.ckuRead i k off).1 := by
  unfold State.ckuRead
  split
  · exact ckuStranger_kept h
  · exact Kept.ite (modCku_kept h) h

/-! ### Headgate -/

theorem modHdg_kept {f} (h : Kept s t) : Kept s (t.modHdg f) := Kept.same h

theorem modDom_kept {d f} (h : Kept s t) : Kept s (t.modDom d f) := modHdg_kept h

theorem mapKeep_lose_wf {α : Type} {reset : List DramLoss → Nat → α} {l : DramLoss} {r : List DramLoss} {m : SMap α} (p : Nat → Bool)
    (same : ∀ a, p a = true → reset (l :: r) a = reset r a) (h : mapWf (reset r) m) : mapWf (reset (l :: r)) (mapKeep p m) :=
  ⟨h.1.sublist List.filter_sublist, fun q hq => by
    obtain ⟨hm, hp⟩ := List.mem_filter.1 hq
    rw [same _ hp]
    exact h.2 q hm⟩

theorem lossAt_of_not_takes {l : DramLoss} {a : Nat} (r : List DramLoss) (h : (!l.takes a) = true) : lossAt (l :: r) a = lossAt r a := by
  simp only [Bool.not_eq_true'] at h
  simp [lossAt, h]

theorem lose_wf {m : Store} (h : m.wf) (l : DramLoss) : (m.lose l).wf :=
  ⟨mapKeep_lose_wf (l := l) (fun a => !l.takes a) (fun a kept => by unfold byteReset; rw [lossAt_of_not_takes _ kept]) h.1,
    mapKeep_lose_wf (l := l) (fun i => !l.takes (16 * i)) (fun i kept => by unfold synReset; rw [lossAt_of_not_takes _ kept]) h.2⟩

theorem regs_mapKeep_kept {p} (h : Kept s t) : Kept s { t with regs := mapKeep p t.regs } :=
  h.trans ⟨fun ⟨a, b, c⟩ => ⟨a, mapWf_mapKeep b p, c⟩, id, id⟩

/-- Parts of the CTRL domain as they are lost with it. -/
theorem ctrlLost_kept {cores visible take stalled gen phase gates p} (h : Kept s t) :
    Kept s { t with cores := cores, ctlSram := Store.empty, visible := visible, take := take, stalled := stalled, ringGen := gen,
                    ringPhase := phase, gates := gates, onHold := t.onHold.filter p } :=
  onHold_filter_kept (t := { t with
    cores := cores, ctlSram := Store.empty, visible := visible, take := take, stalled := stalled, ringGen := gen, ringPhase := phase, gates :=
        gates })
    (setStore_kept (id := .ctl) h fun _ => Store.empty_wf).same

/-- Parts of the FABRIC domain as they are lost with it. -/
theorem fabricLost_kept {cku dma dmaPtr flume slots p} (h : Kept s t) :
    Kept s { t with srcs := t.srcs.filter p, cku := cku, dma := dma, dmaPtr := dmaPtr, slu := Sluice.atReset, flume := flume, latches := [],
                    holds := [], slots := slots } :=
  h.trans ⟨fun ⟨a, b, _, _, c, d, _, _, e⟩ => ⟨a, b, mapWf_nil, mapWf_nil, mapWf_filter c p, d, mapWf_nil, mapWf_nil, e⟩, id, id⟩

/-- Parts of the Cistern as they are lost with its domain. -/
theorem cisternLost_kept {cku} (h : Kept s t) : Kept s { t with cisSram := Store.empty, cis := Cistern.atReset, cku := cku } :=
  h.trans ⟨fun ⟨⟨a, _, b⟩, c, d, e, f, g, i, j, _, _, k⟩ => ⟨⟨a, Store.empty_wf, b⟩, c, d, e, f, g, i, j, mapWf_nil, mapWf_nil, k⟩, id, id⟩

/-- Parts of a memory controller half as they are lost with its domain. -/
theorem halfLost_kept {mc l} (h : Kept s t) : Kept s { t with mc := mc, dram := t.dram.lose l } :=
  dram_kept (t := { t with mc := mc }) h.same (lose_wf · l)

theorem sns_kept {sns} (h : Kept s t) : Kept s { t with sns := sns } := h.same

theorem storage_kept {mags ledgers logs} (h : Kept s t) : Kept s { t with mags := mags, ledgers := ledgers, logs := logs } := h.same

theorem ptp_kept {ptp} (h : Kept s t) : Kept s { t with ptp := ptp } := h.same

theorem kslState_kept {ksl} (h : Kept s t) : Kept s { t with ksl := ksl } := h.same

theorem coding_kept {streams sessions} (h : Kept s t) : Kept s { t with streams := streams, sessions := sessions } := h.same

theorem loseDomain_kept {d} (h : Kept s t) : Kept s (t.loseDomain d) := by
  unfold State.loseDomain
  extract_lets t1 t2 t3 m t4 m1 t5
  have ht1 : Kept s t1 := cisUnitStops_kept (regs_mapKeep_kept h)
  have ht5 : Kept s t5 := Kept.foldl linkDown_kept ht1
  clear_value t1 t5
  split
  · exact ctrlLost_kept ht1
  · exact fabricLost_kept ht1
  · exact cisternLost_kept ht1
  · exact halfLost_kept ht1
  · exact halfLost_kept ht1
  · exact sns_kept ht1
  · exact storage_kept ht1
  · exact ptp_kept ht1
  · exact kslState_kept ht5
  · exact coding_kept ht1
  · exact Kept.ite (Kept.foldl setEngine_kept ht1) ht1

theorem setReady_kept {f} (h : Kept s t) : Kept s (t.setReady f) := Kept.ite h (raise_kept (modHdg_kept h))

theorem assignDoorbells_kept (h : Kept s t) : Kept s t.assignDoorbells := Kept.ite (writeSrcCfg_kept (writeSrcCfg_kept (writeSrcCfg_kept h))) h

theorem releaseCores_kept (h : Kept s t) : Kept s t.releaseCores :=
  Kept.foldl (fun h => Kept.ite (Kept.ite (assignDoorbells_kept (setReady_kept (modCore_kept h))) (setReady_kept (modCore_kept h))) h) h

theorem gates_kept {v} (h : Kept s t) : Kept s { t with gates := v } := h.same

theorem resetCore_kept {k} (h : Kept s t) : Kept s (t.resetCore k) := by
  unfold State.resetCore
  exact modHdg_kept (dropHeld_kept (gates_kept (modCore_kept h)))

theorem bootPatch_kept {n} (h : Kept s t) : Kept s (t.bootPatch n) := by
  unfold State.bootPatch
  split
  · exact h
  · extract_lets t1
    have ht1 : Kept s t1 := modCluster_kept h
    split
    · exact Kept.same ht1
    · exact ht1

theorem becomeReady_kept {f} (h : Kept s t) : Kept s (t.becomeReady f) := by
  unfold State.becomeReady
  extract_lets d ok t1 t2 t3
  have ht1 : Kept s t1 := setReady_kept h
  have ht2 : Kept s t2 := Kept.ite (modDom_kept ht1) ht1
  split
  · exact h
  · split
    · exact releaseCores_kept ht2
    · exact deliver_kept (assignDoorbells_kept ht2)
    · exact Kept.same ht2
    · exact Kept.same ht2
    · exact Kept.ite (modHdg_kept ht2) (Kept.ite (bootPatch_kept ht2) ht2)

theorem startPll_kept {p} (h : Kept s t) : Kept s (t.startPll p) := modHdg_kept h

theorem doStage_kept {x1} (h : Kept s t) : Kept s (t.doStage x1) := by
  unfold State.doStage
  split
  · exact bump_kept (startPll_kept (modDom_kept h))
  · exact modDom_kept h
  · exact loseDomain_kept (modDom_kept (modHdg_kept h))

theorem offer_kept {b l} (h : Kept s t) : Kept s (t.offer b l).1 := by
  induction l generalizing t b with
  | nil => exact h
  | cons g gs ih =>
    unfold State.offer
    dsimp only
    split
    · exact ih (doStage_kept h)
    · exact ih (bump_kept h)

/-- The DRAM supply of domains 5 and 6 goes, and the half's contents with it. -/
theorem supplyOff_kept {f l} (h : Kept s t) : Kept s { t.modHdg f with dram := t.dram.lose l } :=
  dram_kept (t := t.modHdg f) (modHdg_kept h) (lose_wf · l)

theorem supplyOn_kept {f mc} (h : Kept s t) : Kept s { t.modHdg f with mc := mc } := h.same

theorem slotBegin_kept (h : Kept s t) : Kept s t.slotBegin := by
  unfold State.slotBegin
  extract_lets t1 t2 both t3 t4 t5 t6 t7
  have ht1 : Kept s t1 := by
    unfold t1
    refine Kept.foldl (fun h => ?_) h
    extract_lets x
    split
    · exact modDom_kept h
    · exact modDom_kept h
    · exact modDom_kept h
    · exact modDom_kept h
  clear_value t1
  have ht2 : Kept s t2 := modHdg_kept ht1
  clear_value t2
  have ht5 : Kept s t5 := Kept.ite (supplyOff_kept ht2) ht2
  clear_value t5
  exact Kept.ite (supplyOn_kept ht5) ht5

theorem slotBoundary_kept (h : Kept s t) : Kept s t.slotBoundary := by
  unfold State.slotBoundary
  exact modHdg_kept (offer_kept (slotBegin_kept h))

theorem setPll_kept {p x} (h : Kept s t) : Kept s (t.setPll p x) := modHdg_kept h

theorem resetAll_kept {ch32 den cause} (h : Kept s t) : Kept s (t.resetAll ch32 den cause) := by
  refine h.trans (setReg_kept ⟨fun w => ?_, id, fun _ _ hx => absurd hx (List.not_mem_nil)⟩)
  obtain ⟨⟨dram, _, _, nvs, _⟩, _, _, _, _, _, _, _, _, _, wear⟩ := w
  exact ⟨⟨lose_wf dram _, Store.empty_wf, Store.empty_wf, nvs, Store.empty_wf⟩, mapWf_nil, mapWf_nil, mapWf_nil, mapWf_nil, mapWf_nil,
    mapWf_nil, mapWf_nil, mapWf_nil, mapWf_nil, wear⟩

theorem deviceReset_kept {ch32 den bit} (h : Kept s t) : Kept s (t.deviceReset ch32 den bit) := resetAll_kept h

theorem domainRequest_kept {i off v} (h : Kept s t) : Kept s (t.domainRequest i off v) := Kept.ite (setReg_kept h) h

theorem lockReject_kept {addr} (h : Kept s t) : Kept s (t.lockReject addr) := raise_kept (bump_kept (setReg64_kept (orReg_kept h)))

theorem inrush_kept {i didt v} (h : Kept s t) : Kept s (t.inrush i didt v) :=
  Kept.ite h (Kept.ite (lockReject_kept h) (Kept.ite (orReg_kept (setReg_kept h)) (setReg_kept h)))

theorem coreRunWrite_kept {i v} (h : Kept s t) : Kept s (t.coreRunWrite i v) :=
  Kept.ite h (releaseCores_kept (setReg_kept (Kept.foldl (fun h => Kept.ite h (resetCore_kept h)) h)))

theorem sleep_kept {i mode} (h : Kept s t) : Kept s (t.sleep i mode) := Kept.ite h (Kept.ite (orReg_kept h) (modHdg_kept h))

theorem wakeUp_kept (h : Kept s t) : Kept s t.wakeUp :=
  Kept.ite h (Kept.ite (modHdg_kept h) (Kept.ite (bump_kept (modHdg_kept h)) (bump_kept (orReg_kept (modHdg_kept h)))))

theorem watchdogExpires_kept (h : Kept s t) : Kept s t.watchdogExpires := Kept.ite h (deviceReset_kept h)

theorem closeGate_kept {l} (h : Kept s t) : Kept s (t.closeGate l) := Kept.same h

theorem keyed_kept {i accepted} (haccepted : ∀ {t}, Kept s t → Kept s (accepted t)) (h : Kept s t) : Kept s (t.keyed i accepted) :=
  Kept.ite (haccepted (closeGate_kept h)) (orReg_kept h)

/-! ### The reference pool -/

theorem takeSlot_kept {n ptp} (h : Kept s t) : Kept s (t.takeSlot n ptp).1 := by
  unfold State.takeSlot
  split
  · dsimp only
    exact raise_kept h
  · exact modSlot_kept h

theorem evict_kept (h : Kept s t) : Kept s t.evict := by
  unfold State.evict
  extract_lets shorts
  split
  · exact h
  · split
    · exact freeSlot_kept h
    · exact h

theorem releaseSlot_kept {i} (h : Kept s t) : Kept s (t.releaseSlot i) := Kept.ite (evict_kept (modSlot_kept h)) (freeSlot_kept h)

theorem abandonView_kept {i} (h : Kept s t) : Kept s (t.abandonView i) := by
  unfold State.abandonView
  extract_lets x
  split
  · exact Kept.ite (bump_kept (Kept.same h)) h
  · exact h

theorem expireView_kept {i} (h : Kept s t) : Kept s (t.expireView i) := by
  unfold State.expireView
  extract_lets x
  split
  · exact Kept.ite (freeSlot_kept (abandonView_kept h)) h
  · exact h

theorem mark_kept {i target} (h : Kept s t) : Kept s (t.mark i target).1 := by
  unfold State.mark
  extract_lets x
  split
  · exact h
  · split
    · exact h
    · split
      · exact h
      · split
        · exact freeSlot_kept (abandonView_kept h)
        · exact modSlot_kept h

theorem placeSlots_kept (h : Kept s t) : Kept s t.placeSlots := Kept.foldl (fun h => Kept.ite (modSlot_kept h) (modSlot_kept h)) h

theorem views_kept {l w} (h : Kept s t) : Kept s { t with lateViews := l, wholeViews := w } := h.same

theorem closeSlots_kept (h : Kept s t) : Kept s t.closeSlots := by
  unfold State.closeSlots
  exact views_kept (Kept.foldl (fun h => Kept.ite (modSlot_kept h) (freeSlot_kept h)) h)

theorem writeSlotTile_kept {k t0 samples} (h : Kept s t) : Kept s (t.writeSlotTile k t0 samples) := by
  unfold State.writeSlotTile
  split
  · exact h
  · exact Kept.foldl (fun h => Kept.foldl poke_kept h) h

/-! ### Ledgers -/

theorem modPic_kept {k f} (h : Kept s t) : Kept s (t.modPic k f) := modTake_kept h

theorem startPicture_kept {p m l2} (h : Kept s t) : Kept s (t.startPicture p m l2) := by
  unfold State.startPicture
  exact modTake_kept (modPic_kept (takeSlot_kept (ledgerDo_kept h)))

theorem dropAtOpening_kept {p m l2} (h : Kept s t) : Kept s (t.dropAtOpening p m l2) :=
  Kept.ite (modPic_kept (ledgerDo_kept h)) (bump_kept (ledgerEvent_kept (modPic_kept (ledgerDo_kept h))))

theorem logFull_kept {n} (h : Kept s t) : Kept s (t.logFull n) := checkCut_kept (moveTake_kept (modTake_kept h))

theorem openPicture_kept (h : Kept s t) : Kept s t.openPicture := by
  unfold State.openPicture
  split
  · exact h
  · extract_lets m l c l2 drop
    split
    · exact h
    · split
      · exact logFull_kept h
      · exact Kept.ite (Kept.ite (dropAtOpening_kept h) (startPicture_kept h)) (Kept.ite h (bump_kept (modLedger_kept h)))

theorem dispatchBand_kept (h : Kept s t) : Kept s t.dispatchBand := by
  unfold State.dispatchBand
  split
  · exact h
  · extract_lets c b m l f g res only normal budget amount t1 t2 t3 t4
    have ht1 : Kept s t1 := ledgerDo_kept h
    have ht2 : Kept s t2 := bump_kept ht1
    have ht3 : Kept s t3 := Kept.ite (Kept.ite (ledgerEvent_kept ht2) (orReg_kept ht2)) ht1
    have ht4 : Kept s t4 := modPic_kept ht3
    exact Kept.ite h (Kept.same ht4)

theorem chargeBand_kept {m} (h : Kept s t) : Kept s (t.chargeBand m) := by
  unfold State.chargeBand
  split
  · exact h
  · extract_lets c b band t1 p a
    have ht1 : Kept s t1 := Kept.ite (endRun_kept h) h
    split
    · exact h
    · exact Kept.ite h (Kept.ite (placeUnit_kept (modPic_kept (ledgerDo_kept ht1))) (modPic_kept (ledgerDo_kept ht1)))

theorem ledgerClose_kept {k m} (h : Kept s t) : Kept s (t.ledgerClose k m) := modPic_kept (ledgerDo_kept h)

theorem closingCharge_kept {m zi} (h : Kept s t) : Kept s (t.closingCharge m zi) := ledgerDo_kept h

theorem placeRecord_kept {m p} (h : Kept s t) : Kept s (t.placeRecord m p) :=
  Kept.ite (placeUnit_kept h) (Kept.foldl placeUnit_kept (placeUnit_kept h))

theorem noteRecorded_kept {m p} (h : Kept s t) : Kept s (t.noteRecorded m p) := by
  unfold State.noteRecorded
  exact modTake_kept (Kept.foldl modLog_kept h)

theorem dropFromList_kept {k} (h : Kept s t) : Kept s (t.dropFromList k) := modTake_kept h

theorem finishPicture_kept {m p} (h : Kept s t) : Kept s (t.finishPicture m p) := by
  unfold State.finishPicture
  split
  · extract_lets c t1 a b
    have ht1 : Kept s t1 := Kept.ite (Kept.foldl modLog_kept h) h
    have ha : Kept s a.1 := noteDrop_kept ht1
    have hb : Kept s b.1 := indexAfter_kept ha
    exact checkCut_kept (dropFromList_kept (closingCharge_kept hb))
  · extract_lets t1 p1 t2 b
    have ht1 : Kept s t1 := Kept.ite h (endRun_kept h)
    have ht2 : Kept s t2 := noteRecorded_kept (placeRecord_kept ht1)
    have hb : Kept s b.1 := indexAfter_kept ht2
    exact checkCut_kept (dropFromList_kept (closingCharge_kept hb))

theorem closeIn_kept {m} (h : Kept s t) : Kept s (t.closeIn m) := by
  unfold State.closeIn
  extract_lets n t1
  have ht1 : Kept s t1 := by
    unfold t1
    split
    · exact Kept.ite (ledgerClose_kept h) h
    · exact h
  split
  · exact Kept.ite (finishPicture_kept ht1) ht1
  · exact ht1

theorem sensorDrop_kept {k} (h : Kept s t) : Kept s (t.sensorDrop k) := by
  unfold State.sensorDrop
  split
  · exact h
  · split
    · exact h
    · extract_lets m t1 t2 mine t3
      have ht1 : Kept s t1 := stopCapture_kept (Kept.same h)
      have ht2 : Kept s t2 := by
        unfold t2
        split
        · exact dropCurrent_kept ht1
        · exact ht1
      have ht3 : Kept s t3 := Kept.ite ht2 (ledgerDo_kept ht2)
      exact modPic_kept ht3

theorem closePicture_kept (h : Kept s t) : Kept s t.closePicture := Kept.foldl closeIn_kept h

theorem settleSpill_kept {m} (h : Kept s t) : Kept s (t.settleSpill m) :=
  Kept.ite h (Kept.ite (ledgerEvent_kept (modLedger_kept h)) (modLedger_kept h))

theorem drainSpill_kept {m} (h : Kept s t) : Kept s (t.drainSpill m) := by
  unfold State.drainSpill
  extract_lets l pend rest
  split
  · exact h
  · split
    · extract_lets own t1 t2
      have ht1 : Kept s t1 := Kept.foldl modLog_kept h
      have ht2 : Kept s t2 := modLedger_kept ht1
      exact Kept.ite (modLedger_kept ht1) (Kept.ite (ledgerEvent_kept ht2) ht2)
    · exact h

/-! ### The sensor port -/

theorem modSns_kept {f} (h : Kept s t) : Kept s (t.modSns f) := Kept.same h

theorem modLink_kept {k f} (h : Kept s t) : Kept s (t.modLink k f) := modSns_kept h

theorem snsEvent_kept {i} (h : Kept s t) : Kept s (t.snsEvent i) := raise_kept (orReg_kept h)

theorem addPicture_kept {ring ptp info dropped} (h : Kept s t) : Kept s (t.addPicture ring ptp info dropped) := modTake_kept h

theorem addDropped_kept (h : Kept s t) : Kept s t.addDropped := addPicture_kept h

theorem streams_kept {v} (h : Kept s t) : Kept s { t with streams := v } := h.same

theorem streamsBegin_kept {slot} (h : Kept s t) : Kept s (t.streamsBegin slot) := by
  unfold State.streamsBegin
  exact modSns_kept (streams_kept h)

theorem streamsEnded_kept (h : Kept s t) : Kept s t.streamsEnded := Kept.same h

theorem snsOutcome_kept {x complete} (h : Kept s t) : Kept s (t.snsOutcome x complete) :=
  Kept.ite (Kept.ite (modPic_kept h) (modPic_kept (sensorDrop_kept h))) (Kept.ite (addDropped_kept h) h)

theorem snsEnd_kept (h : Kept s t) : Kept s t.snsEnd := by
  unfold State.snsEnd
  split
  · exact h
  · extract_lets c lost t1 t2 t3
    have ht1 : Kept s t1 := Kept.ite (streamsBegin_kept h) h
    have ht2 : Kept s t2 := streamsEnded_kept (modSns_kept ht1)
    have ht3 : Kept s t3 := by
      unfold t3
      clear_value lost
      split
      · exact Kept.ite (snsEvent_kept (setReg_kept (bump_kept ht2))) ht2
      · exact ht2
    exact snsOutcome_kept ht3

theorem snsSet_kept {k st} (h : Kept s t) : Kept s (t.snsSet k st) := Kept.ite h (raise_kept (modLink_kept h))

theorem snsDown_kept {k} (h : Kept s t) : Kept s (t.snsDown k) := snsEnd_kept (snsSet_kept (Kept.ite (orReg_kept h) h))

theorem snsAssign_kept {k} (h : Kept s t) : Kept s (t.snsAssign k) := modLink_kept h

theorem snsRelink_kept (h : Kept s t) : Kept s t.snsRelink := Kept.foldl (fun h => snsAssign_kept (Kept.ite h (snsDown_kept h))) h

theorem snsEye_kept {eye lane} (h : Kept s t) : Kept s (t.snsEye eye lane) :=
  Kept.ite (propose_kept (Kept.ite (threshold_kept h) h)) (Kept.ite (threshold_kept h) h)

theorem snsLaneFail_kept {lane} (h : Kept s t) : Kept s (t.snsLaneFail lane) := Kept.ite (propose_kept (modRas_kept h)) (modRas_kept h)

theorem streamTakeover_kept {m was now} (h : Kept s t) : Kept s (t.streamTakeover m was now) := Kept.same (Kept.ite (setReg_kept (setReg_kept h)) h)

theorem ageStreams_kept {u0} (h : Kept s t) : Kept s (t.ageStreams u0) := Kept.same h

theorem takeBank_kept {u0} (h : Kept s t) : Kept s (t.takeBank u0) := by
  unfold State.takeBank
  extract_lets b t1 t2 t3
  have ht1 : Kept s t1 := modTake_kept h
  have ht2 : Kept s t2 := ageStreams_kept ht1
  have ht3 : Kept s t3 := Kept.ite (streamTakeover_kept ht2) ht2
  exact Kept.ite h (Kept.same ht3)

theorem cisTakeover_kept {old} (h : Kept s t) : Kept s (t.cisTakeover old) := cisNotices_kept (Kept.same h)

theorem mcTakeover_kept (h : Kept s t) : Kept s t.mcTakeover := Kept.ite h (dram_kept h (lose_wf · _)).same

theorem snsTakeover_kept (h : Kept s t) : Kept s t.snsTakeover := snsRelink_kept (modSns_kept (snsEnd_kept h))

theorem ethLink_kept {k up} (h : Kept s t) : Kept s (t.ethLink k up) := Kept.ite h (raise_kept (orReg_kept (Kept.same h)))

theorem netTakeover_kept {was} (h : Kept s t) : Kept s (t.netTakeover was) := Kept.foldl (fun h => Kept.ite h (ethLink_kept h)) h

theorem takeBanks_kept (h : Kept s t) : Kept s t.takeBanks := by
  unfold State.takeBanks
  extract_lets was fec s' s'1 s'2 s'3 s'4
  have hs' : Kept s s' := Kept.foldl takeBank_kept h
  have hs'1 : Kept s s'1 := Kept.ite (netTakeover_kept hs') hs'
  have hs'2 : Kept s s'2 := Kept.ite (cisTakeover_kept hs'1) hs'1
  have hs'3 : Kept s s'3 := Kept.ite (mcTakeover_kept hs'2) hs'2
  have hs'4 : Kept s s'4 := Kept.ite (sluTakeover_kept hs'3) hs'3
  exact Kept.ite (snsTakeover_kept hs'4) hs'4

theorem boundary_kept {number} (h : Kept s t) : Kept s (t.boundary number) := modTake_kept (takeBanks_kept h)

theorem snsWords_kept {p} (h : Kept s t) : Kept s (t.snsWords p) := Kept.ite h (bump_kept (bump_kept h))

theorem snsDiscard_kept {p f} (h : Kept s t) : Kept s (t.snsDiscard p f) := by
  unfold State.snsDiscard
  extract_lets t1
  have ht1 : Kept s t1 := snsWords_kept h
  split
  · exact snsEvent_kept (bump_kept ht1)
  · exact snsEvent_kept ht1
  · exact snsEvent_kept ht1

theorem clearTags_kept {j} (h : Kept s t) : Kept s (t.clearTags j) := Kept.foldl poke_kept h

theorem snsBegin_kept {p} (h : Kept s t) : Kept s (t.snsBegin p) := by
  unfold State.snsBegin
  extract_lets t1 d c geo j slot g t2 t3 t4 t5 new
  have ht1 : Kept s t1 := bump_kept (snsEnd_kept h)
  have ht2 : Kept s t2 := Kept.ite (snsEvent_kept ht1) ht1
  have ht3 : Kept s t3 := Kept.ite (Kept.foldl addDropped_kept ht2) ht2
  have ht4 : Kept s t4 := snsEvent_kept (bump_kept ht3)
  have ht5 : Kept s t5 := by
    unfold t5
    clear_value slot
    split
    · exact modSns_kept (clearTags_kept ht3)
    · exact Kept.ite (addDropped_kept ht4) ht4
  exact modSns_kept ht5

theorem firstParcel_kept {x} (h : Kept s t) : Kept s (t.firstParcel x).1 :=
  Kept.ite (addPicture_kept (streamsBegin_kept (boundary_kept h))) (streamsBegin_kept (boundary_kept h))

theorem fileParcel_kept {x p j tx q} (h : Kept s t) : Kept s (t.fileParcel x p j tx q) := poke_kept (poke_kept h)

theorem noteLine_kept {x y e} (h : Kept s t) : Kept s (t.noteLine x y e) := Kept.ite h (Kept.same h)

theorem snsLine_kept {p} (h : Kept s t) : Kept s (t.snsLine p) := by
  unfold State.snsLine
  split
  · exact h
  · split
    · exact h
    · extract_lets r ps t1 t2 x'
      have hr : Kept s r.1 := by
        unfold r
        split
        · exact firstParcel_kept h
        · exact h
      have ht1 : Kept s t1 := Kept.foldl fileParcel_kept hr
      exact noteLine_kept (modSns_kept ht1)

theorem snsPictureEnd_kept {p} (h : Kept s t) : Kept s (t.snsPictureEnd p) := by
  unfold State.snsPictureEnd
  split
  · exact h
  · exact Kept.ite (snsEnd_kept (modSns_kept h)) (modSns_kept h)

theorem snsPacket_kept {p want effect} (heffect : ∀ {t}, Kept s t → Kept s (effect t)) (h : Kept s t) : Kept s (t.snsPacket p want effect) := by
  unfold State.snsPacket
  split
  · exact h
  · split
    · exact snsDiscard_kept h
    · exact Kept.ite (heffect (bump_kept (snsWords_kept h))) h

/-! ### Magazine ports -/

theorem magEvent_kept {m cause status info} (h : Kept s t) : Kept s (t.magEvent m cause status info) := raiseRec_kept h

theorem magLoss_kept {m} (h : Kept s t) : Kept s (t.magLoss m) := Kept.ite (faultTake_kept h) h

theorem magDown_kept {m st} (h : Kept s t) : Kept s (t.magDown m st) := magLoss_kept (modMag_kept h)

theorem magPowerOff_kept {m} (h : Kept s t) : Kept s (t.magPowerOff m) := modMag_kept h

theorem nvmeSubmit_kept {m q op nsid slba nlb bytes why} (h : Kept s t) : Kept s (t.nvmeSubmit m q op nsid slba nlb bytes why) := modMag_kept h

theorem nvmeAdmin_kept {m op why} (h : Kept s t) : Kept s (t.nvmeAdmin m op why) := nvmeSubmit_kept h

theorem magFault_kept {m} (h : Kept s t) : Kept s (t.magFault m) := magDown_kept (magEvent_kept (orReg_kept (magPowerOff_kept h)))

theorem magFail_kept {m cause status info} (h : Kept s t) : Kept s (t.magFail m cause status info) := magDown_kept (magEvent_kept h)

theorem magRefuse_kept {m status info} (h : Kept s t) : Kept s (t.magRefuse m status info) := magFail_kept (orReg_kept h)

theorem magReopen_kept {m} (h : Kept s t) : Kept s (t.magReopen m) := Kept.ite (bump_kept (modMag_kept (magPowerOff_kept h))) h

theorem initQueues_kept {m done} (h : Kept s t) : Kept s (t.initQueues m done) :=
  Kept.ite (nvmeAdmin_kept (modMag_kept h)) (magEvent_kept (modMag_kept h))

theorem initNext_kept {m why data} (h : Kept s t) : Kept s (t.initNext m why data) := by
  unfold State.initNext
  split
  · exact nvmeAdmin_kept (modMag_kept h)
  · exact Kept.ite (magRefuse_kept h) (Kept.ite (nvmeAdmin_kept (modMag_kept h)) (initQueues_kept (modMag_kept h)))
  · exact initQueues_kept h
  · exact initQueues_kept h
  · exact h

theorem ejectNext_kept {m done} (h : Kept s t) : Kept s (t.ejectNext m done) := Kept.ite (nvmeAdmin_kept (modMag_kept h)) (modMag_kept h)

theorem ejectEnd_kept {m} (h : Kept s t) : Kept s (t.ejectEnd m) := Kept.ite (magDown_kept (modMag_kept (magPowerOff_kept h))) h

theorem writeParts_kept {m q n u} (h : Kept s t) : Kept s (t.writeParts m q n u).1 := by
  induction n generalizing t u with
  | zero => exact h
  | succ n ih =>
    unfold State.writeParts
    extract_lets g p lba k a last hit part t1 t2
    have ht2 : Kept s t2 := nvmeSubmit_kept (Kept.ite h (magEvent_kept h))
    split
    · exact h
    · split
      · exact ht2
      · exact ih ht2

theorem endQwait_kept {m} (h : Kept s t) : Kept s (t.endQwait m) := by
  unfold State.endQwait
  split
  · exact bump_kept (modMag_kept h)
  · exact h

theorem submitUnit_kept {m} (h : Kept s t) : Kept s (t.submitUnit m) := by
  unfold State.submitUnit
  split
  · exact h
  · rename_i u us _
    split
    · exact h
    · extract_lets q full t1
      have ht1 : Kept s t1 := Kept.ite h (endQwait_kept h)
      have hw := writeParts_kept (m := m) (q := q) (n := u.bytes.length + 1) (u := u) ht1
      split
      · rename_i e
        exact modMag_kept (modLog_kept (hw.left e))
      · rename_i e
        exact Kept.ite (modMag_kept (modLog_kept (hw.left e))) (modLog_kept (hw.left e))

theorem submitFlush_kept {m} (h : Kept s t) : Kept s (t.submitFlush m) := by
  unfold State.submitFlush
  extract_lets p
  split
  · exact h
  · exact Kept.ite h (nvmeSubmit_kept (modMag_kept h))

theorem submitDsm_kept {m} (h : Kept s t) : Kept s (t.submitDsm m) := Kept.ite h (nvmeSubmit_kept (modMag_kept h))

theorem dsmStart_kept {m} (h : Kept s t) : Kept s (t.dsmStart m) := modMag_kept h

theorem dropCmd_kept {m cid} (h : Kept s t) : Kept s (t.dropCmd m cid) := modMag_kept h

theorem nvmeError_kept {m c status} (h : Kept s t) : Kept s (t.nvmeError m c status) :=
  Kept.ite (setReg_kept (bump_kept h)) (magEvent_kept (setReg_kept (bump_kept h)))

theorem resubmit_kept {m cid} (h : Kept s t) : Kept s (t.resubmit m cid) := modMag_kept h

theorem writeDone_kept {m u0 last} (h : Kept s t) : Kept s (t.writeDone m u0 last) :=
  checkClosed_kept (Kept.foldl settleSpill_kept (Kept.ite (modLog_kept (bump_kept h)) (bump_kept h)))

theorem nvmeAnswer_kept {m c status data} (h : Kept s t) : Kept s (t.nvmeAnswer m c status data) := by
  unfold State.nvmeAnswer
  extract_lets ok t1
  have ht1 : Kept s t1 := Kept.ite h (nvmeError_kept h)
  split
  · exact Kept.ite (writeDone_kept (dropCmd_kept ht1)) (Kept.ite (resubmit_kept ht1) (magDown_kept (orReg_kept ht1)))
  · exact ejectNext_kept (dropCmd_kept ht1)
  · exact Kept.ite (dropCmd_kept ht1) (Kept.ite (resubmit_kept ht1) (magDown_kept (orReg_kept ht1)))
  · exact Kept.ite (dropCmd_kept ht1) (Kept.ite (resubmit_kept ht1) (magDown_kept (orReg_kept ht1)))
  · exact Kept.ite (initNext_kept (dropCmd_kept ht1)) (magRefuse_kept ht1)

theorem nvmeExpire_kept {m cid} (h : Kept s t) : Kept s (t.nvmeExpire m cid) := by
  unfold State.nvmeExpire
  split
  · exact h
  · extract_lets t1 info t2
    have ht1 : Kept s t1 := bump_kept h
    have ht2 : Kept s t2 := orReg_kept ht1
    split
    · exact ejectNext_kept (dropCmd_kept ht1)
    · exact Kept.ite (magRefuse_kept ht2) (magFail_kept ht2)

/-! ### Tile engines -/

theorem engineEvent_kept {j cause status tileIx pic} (h : Kept s t) : Kept s (t.engineEvent j cause status tileIx pic) := raiseRec_kept h

theorem modEngine_kept {j f} (h : Kept s t) : Kept s (t.modEngine j f) := setEngine_kept h

theorem overrunBand_kept {k t0} (h : Kept s t) : Kept s (t.overrunBand k t0) := by
  unfold State.overrunBand
  split
  · exact h
  · exact Kept.ite h (modPic_kept (Kept.foldl bump_kept h))

theorem requeueTile_kept {k t0} (h : Kept s t) : Kept s (t.requeueTile k t0) := Kept.ite (overrunBand_kept (Kept.same h)) h

theorem abandonRun_kept {j} (h : Kept s t) : Kept s (t.abandonRun j) := by
  unfold State.abandonRun
  extract_lets x t1
  have ht1 : Kept s t1 := setEngine_kept h
  split
  · exact requeueTile_kept ht1
  · exact bump_kept (Kept.same ht1)
  · exact ht1

theorem endAtOnce_kept {j} (h : Kept s t) : Kept s (t.endAtOnce j) := by
  unfold State.endAtOnce
  extract_lets x t1
  have ht1 : Kept s t1 := abandonRun_kept (setEngine_kept h)
  split
  · exact requeueTile_kept ht1
  · exact ht1

theorem takeSnapshot_kept {j} (h : Kept s t) : Kept s (t.takeSnapshot j) := setEngine_kept (Kept.same (setReg_kept (setReg_kept h)))

theorem haltEngine_kept {j} (h : Kept s t) : Kept s (t.haltEngine j) := by
  unfold State.haltEngine
  extract_lets x t1
  have ht1 : Kept s t1 := setEngine_kept h
  split
  · exact overrunBand_kept ht1
  · exact ht1

theorem lateRequests_kept {j} (h : Kept s t) : Kept s (t.lateRequests j) :=
  Kept.ite (haltEngine_kept (Kept.ite (takeSnapshot_kept h) h)) (Kept.ite (takeSnapshot_kept h) h)

theorem beginCapture_kept {j k t0} (h : Kept s t) : Kept s (t.beginCapture j k t0) := by
  unfold State.beginCapture
  split
  · exact modEngine_kept h
  · exact modEngine_kept h

theorem engineOut_kept {j f} (h : Kept s t) : Kept s (t.engineOut j f) := by
  unfold State.engineOut
  extract_lets t1 t2
  have ht1 : Kept s t1 := modEngine_kept h
  have ht2 : Kept s t2 := Kept.ite (propose_kept ht1) ht1
  exact Kept.ite (takeBoundary_kept ht2) ht2

theorem safePoint_kept {j} (h : Kept s t) : Kept s (t.safePoint j) := by
  unfold State.safePoint
  extract_lets x t1 t2
  have ht1 : Kept s t1 := Kept.ite (setEngine_kept h) h
  have ht2 : Kept s t2 := Kept.ite ht1 (bump_kept ht1)
  split
  · exact h
  · exact lateRequests_kept h
  · split
    · exact lateRequests_kept (engineOut_kept (endAtOnce_kept h))
    · split
      · exact lateRequests_kept (beginCapture_kept (modEngine_kept ht2))
      · exact lateRequests_kept ht1

theorem snapshotEngine_kept {j} (h : Kept s t) : Kept s (t.snapshotEngine j) := by
  unfold State.snapshotEngine
  split
  · exact takeSnapshot_kept h
  · exact takeSnapshot_kept (abandonRun_kept h)
  · exact modEngine_kept h

theorem requestHalt_kept {j} (h : Kept s t) : Kept s (t.requestHalt j) := by
  unfold State.requestHalt
  split
  · exact haltEngine_kept h
  · exact haltEngine_kept (abandonRun_kept h)
  · exact modEngine_kept h

theorem releaseHalts_kept (h : Kept s t) : Kept s t.releaseHalts :=
  Kept.foldl (fun h => Kept.ite (Kept.ite (safePoint_kept (setEngine_kept h)) (setEngine_kept h)) h) h

theorem dispatchTo_kept {j p t0} (h : Kept s t) : Kept s (t.dispatchTo j p t0) := by
  unfold State.dispatchTo
  extract_lets b e t1 t2
  have ht1 : Kept s t1 := modEngine_kept (Kept.same h)
  have ht2 : Kept s t2 := Kept.ite (overrunBand_kept ht1) ht1
  split
  · exact modEngine_kept ht2
  · exact beginCapture_kept (abandonRun_kept ht2)
  · exact beginCapture_kept ht2

theorem tileDispatch_kept (h : Kept s t) : Kept s t.tileDispatch := by
  unfold State.tileDispatch
  split
  · exact h
  · split
    · exact Kept.same h
    · split
      · exact Kept.same h
      · split
        · exact h
        · split
          · exact h
          · exact dispatchTo_kept (Kept.same h)

theorem handOver_kept {j p t0 v f} (h : Kept s t) : Kept s (t.handOver j p t0 v f) := by
  unfold State.handOver
  extract_lets c u t1 t2 n whole t3
  have ht1 : Kept s t1 := modPic_kept h
  have ht2 : Kept s t2 := bump_kept (modEngine_kept ht1)
  have ht3 : Kept s t3 := by
    unfold t3
    split
    · exact ht2
    · exact Kept.foldl sluOffer_kept (modSlot_kept (writeSlotTile_kept ht2))
  exact lateRequests_kept ht3

theorem tileCommit_kept {j choice preferRaw} (h : Kept s t) : Kept s (t.tileCommit j choice preferRaw) := by
  unfold State.tileCommit
  extract_lets x c dev floor
  split
  · split
    · exact h
    · split
      · exact h
      · extract_lets v kind missing src regs check cs fetched badRef badSrc coded f t1 t2 t3 t4 t5
        have ht1 : Kept s t1 := noteAreas_kept h
        have ht2 : Kept s t2 := Kept.ite (engineEvent_kept ht1) ht1
        have ht3 : Kept s t3 := Kept.ite (engineEvent_kept ht2) ht2
        have ht4 : Kept s t4 := Kept.foldl engineEvent_kept ht3
        have ht5 : Kept s t5 := modEngine_kept ht4
        exact handOver_kept ht5
  · exact h

theorem clusterOut_kept {n f} (h : Kept s t) : Kept s (t.clusterOut n f) := by
  unfold State.clusterOut
  extract_lets t1 t2
  have ht1 : Kept s t1 := modCluster_kept h
  have ht2 : Kept s t2 := Kept.foldl (fun h => lateRequests_kept (endAtOnce_kept h)) ht1
  exact Kept.ite (takeBoundary_kept ht2) ht2

theorem latchFault_kept {j f} (h : Kept s t) : Kept s (t.latchFault j f) := by
  unfold State.latchFault
  split
  · exact lateRequests_kept (engineOut_kept (endAtOnce_kept h))
  · exact modEngine_kept h

theorem teFault_kept {j f} (h : Kept s t) : Kept s (t.teFault j f) := by
  unfold State.teFault
  extract_lets x n st t1
  have ht1 : Kept s t1 := engineEvent_kept h
  split
  · exact clusterOut_kept (bump_kept (orReg_kept ht1))
  · exact clusterOut_kept (bump_kept (orReg_kept ht1))
  · exact latchFault_kept (bump_kept (orReg_kept ht1))
  · exact latchFault_kept ht1
  · exact lateRequests_kept (engineOut_kept (endAtOnce_kept (orReg_kept ht1)))

theorem noteTile_kept {j vs} (h : Kept s t) : Kept s (t.noteTile j vs) := by
  unfold State.noteTile
  extract_lets t1 k t2
  have ht1 : Kept s t1 := siteWords_kept h
  have ht2 : Kept s t2 := Kept.ite ht1 (bump_kept ht1)
  exact Kept.ite (teFault_kept ht2) ht2

theorem noteStore_kept {n vs} (h : Kept s t) : Kept s (t.noteStore n vs) := Kept.ite (siteWords_kept h) (bump_kept (orReg_kept (siteWords_kept h)))

theorem tileAccess_kept {j w m} (h : Kept s t) : Kept s (t.tileAccess j w m) := by
  unfold State.tileAccess
  extract_lets x t1 part vs
  have ht1 : Kept s t1 := by
    unfold t1
    split
    · exact modEngine_kept h
    · exact h
  exact Kept.ite ht1 (noteTile_kept ht1)

theorem issueStep_kept {j m} (h : Kept s t) : Kept s (t.issueStep j m).1 := by
  unfold State.issueStep
  extract_lets x n a vs t1 w
  have ht1 : Kept s t1 := noteStore_kept h
  clear_value t1
  have fault {u : State} {f : EngineFault} (hu : Kept s u) : Kept s (u.teFault j f, false).1 := teFault_kept hu
  have safe : Kept s (t1.safePoint j, false).1 := safePoint_kept ht1
  have hold {f : Engine → Engine} : Kept s (t1.modEngine j f, true).1 := modEngine_kept ht1
  split
  · exact fault h
  · split
    · exact fault ht1
    · split
      · exact fault ht1
      · split
        · exact safe
        · split
          · exact fault ht1
          · split
            · exact fault ht1
            · exact ht1
            · split
              · exact safe
              · exact hold
            · exact Kept.ite (tileAccess_kept (modEngine_kept ht1)) (raiseRec_kept (tileAccess_kept (modEngine_kept ht1)))

theorem issueSteps_kept {j l} (h : Kept s t) : Kept s (t.issueSteps j l) := by
  induction l generalizing t with
  | nil => exact h
  | cons m ms ih =>
    unfold State.issueSteps
    exact Kept.ite h (Kept.ite (ih (issueStep_kept h)) (issueStep_kept h))

theorem toSafePoint_kept {j steps} (h : Kept s t) : Kept s (t.toSafePoint j steps) := by
  unfold State.toSafePoint
  split
  · exact h
  · exact h
  · exact Kept.ite (safePoint_kept (issueSteps_kept h)) (issueSteps_kept h)

theorem teUpset_kept {j u0} (h : Kept s t) : Kept s (t.teUpset j u0) := by
  unfold State.teUpset
  extract_lets x n a
  split
  · exact h
  · split
    · exact Kept.ite h (Kept.ite (teFault_kept (noteStore_kept (modCluster_kept h))) (noteStore_kept (modCluster_kept h)))
    · exact Kept.ite h (noteTile_kept (modEngine_kept h))
    · exact teFault_kept h
    · exact issueSteps_kept h

theorem maintStart_kept {j} (h : Kept s t) : Kept s (t.maintStart j) := by
  unfold State.maintStart
  extract_lets x
  split
  · exact h
  · split
    · exact setEngine_kept (Kept.same h)
    · exact setEngine_kept h

theorem maintDone_kept {j} (h : Kept s t) : Kept s (t.maintDone j) := lateRequests_kept (modEngine_kept h)

theorem patchShadow_kept {n b} (h : Kept s t) : Kept s (t.patchShadow n b) := modCluster_kept h

theorem patchCluster_kept {n id} (h : Kept s t) : Kept s (t.patchCluster n id) := Kept.foldl setReg_kept (modCluster_kept h)

theorem patchEnd_kept {r status value} (h : Kept s t) : Kept s (t.patchEnd r status value) := by
  unfold State.patchEnd
  extract_lets t1
  have ht1 : Kept s t1 := Kept.ite (raise_kept h) h
  split
  · exact post_kept ht1
  · exact Kept.ite ht1 (orReg_kept ht1)

theorem patchCommit_kept {j} (h : Kept s t) : Kept s (t.patchCommit j) := by
  unfold State.patchCommit
  split
  · split
    · exact abandonRun_kept h
    · extract_lets b t1 mask
      have ht1 : Kept s t1 := maintDone_kept h
      split
      · exact patchEnd_kept ht1
      · exact patchEnd_kept (Kept.foldl (fun h => Kept.ite (patchCluster_kept (patchShadow_kept h)) h) ht1)
  · exact h

theorem swapEngine_kept {t0} (h : Kept s t) : Kept s (t.swapEngine t0).1 := by
  unfold State.swapEngine
  extract_lets n sc spare l free t1 t2
  have ht1 : Kept s t1 := modCluster_kept (modEngine_kept h)
  have ht2 : Kept s t2 := modCluster_kept (modEngine_kept ht1)
  split
  · exact Kept.ite (modCluster_kept ht2) ht2
  · exact ht1

theorem spareSwap_kept {j} (h : Kept s t) : Kept s (t.spareSwap j) := by
  unfold State.spareSwap
  split
  · split
    · exact abandonRun_kept h
    · extract_lets r t1
      have hr : Kept s r.1 := swapEngine_kept (maintDone_kept h)
      have ht1 : Kept s t1 := by
        unfold t1
        split
        · exact moveProposal_kept hr
        · exact hr
      exact startExec_kept ht1
  · exact h

theorem scrubCommit_kept {n halves} (h : Kept s t) : Kept s (t.scrubCommit n halves) := by
  unfold State.scrubCommit
  split
  · exact h
  · exact noteStore_kept (modCluster_kept (maintDone_kept h))

theorem maintQueue_kept {l} (h : Kept s t) : Kept s { t with maintQueue := l } := h.same

theorem slotChunk_kept {i done dest} (h : Kept s t) : Kept s (t.slotChunk i done dest) := by
  unfold State.slotChunk
  extract_lets x o n
  split
  · exact modSlot_kept h
  · exact Kept.ite (modSlot_kept (move_kept h)) (maintQueue_kept (modSlot_kept (move_kept h)))

theorem slotMove_kept {i dest} (h : Kept s t) : Kept s (t.slotMove i dest) := by
  unfold State.slotMove
  extract_lets x t1
  have ht1 : Kept s t1 := modSlot_kept h
  split
  · exact Kept.ite (Kept.same ht1) h
  · split
    · exact slotChunk_kept (maintDone_kept h)
    · exact h

/-! ### Proxy streams -/

theorem modStream_kept {m f} (h : Kept s t) : Kept s (t.modStream m f) := Kept.same h

theorem rtpPacket_kept {m b ts payload marker since} (h : Kept s t) : Kept s (t.rtpPacket m b ts payload marker since) :=
  sluOffer_kept (bump_kept (modStream_kept h))

theorem rtpUnit_kept {m b ts nals last since} (h : Kept s t) : Kept s (t.rtpUnit m b ts nals last since) := Kept.foldl rtpPacket_kept h

theorem pxyEvent_kept {m e} (h : Kept s t) : Kept s (t.pxyEvent m e) := raise_kept (orReg_kept h)

theorem noteLeft_kept {m left} (h : Kept s t) : Kept s (t.noteLeft m left) := Kept.ite (setReg_kept (modStream_kept h)) (modStream_kept h)

theorem lateEnd_kept {m b nal} (h : Kept s t) : Kept s (t.lateEnd m b nal) := noteLeft_kept (modStream_kept (rtpUnit_kept h))

theorem beginUnit_kept {m p r h0} (h : Kept s t) : Kept s (t.beginUnit m p r h0) := by
  unfold State.beginUnit
  extract_lets x restart t1 idr first
  have ht1 : Kept s t1 := by
    unfold t1
    split
    · exact h
    · refine pxyEvent_kept ?_
      split
      · exact Kept.ite h (lateEnd_kept h)
      · exact h
  exact modStream_kept ht1

theorem endRow_kept {m rows ts eos stop} (h : Kept s t) : Kept s (t.endRow m rows ts eos stop) :=
  Kept.ite (modStream_kept h) (modStream_kept (bump_kept h))

theorem codeRow_kept {m p r now v tail ctus} (h : Kept s t) : Kept s (t.codeRow m p r now v tail ctus) := by
  unfold State.codeRow
  extract_lets x b c n j h1 there last arr budget lead before coded slice stop eos ends size0 fill size t1 t2 t3 t4 earlier waits since ts rest all
  have ht1 : Kept s t1 := modStream_kept h
  have ht2 : Kept s t2 := Kept.ite ht1 (pxyEvent_kept (bump_kept ht1))
  have ht3 : Kept s t3 := Kept.ite (noteAreas_kept ht2) (pxyEvent_kept ht2)
  have ht4 : Kept s t4 := noteLeft_kept (Kept.ite ht3 (bump_kept ht3))
  exact endRow_kept (rtpUnit_kept ht4)

theorem proxyRow_kept {m h0 v tail ctus} (h : Kept s t) : Kept s (t.proxyRow m h0 v tail ctus) := by
  unfold State.proxyRow
  split
  · exact Kept.ite (codeRow_kept (Kept.ite (beginUnit_kept h) h)) h
  · extract_lets x
    split
    · exact Kept.ite (modStream_kept (lateEnd_kept h)) h
    · exact h

/-! ### Decode sessions -/

theorem modSession_kept {k f} (h : Kept s t) : Kept s (t.modSession k f) := Kept.same h

theorem playRaise_kept {k e} (h : Kept s t) : Kept s (t.playRaise k e) := raise_kept h

theorem playStat_kept {k bit} (h : Kept s t) : Kept s (t.playStat k bit) := orReg_kept h

theorem letSlot_kept {k} (h : Kept s t) : Kept s (t.letSlot k) := by
  unfold State.letSlot
  split
  · exact modSlot_kept h
  · exact h

theorem playEnd_kept {k status} (h : Kept s t) : Kept s (t.playEnd k status) := by
  unfold State.playEnd
  extract_lets x t1 t2 t3
  have ht1 : Kept s t1 := letSlot_kept h
  have ht2 : Kept s t2 := by
    unfold t2
    split
    · refine Kept.foldl (fun h => ?_) ht1
      split
      · exact setEngine_kept h
      · exact h
    · exact ht1
  have ht3 : Kept s t3 := modSession_kept ht2
  exact playRaise_kept (postOwed_kept ht3)

theorem putOutput_kept {k p bytes picture ptp flags width height format} (h : Kept s t) : Kept s (t.putOutput k p bytes picture ptp flags width
    height format) :=
  modSession_kept (setReg_kept (bump_kept (poke_kept (poke_kept (poke_kept (noteArea_kept h))))))

theorem playLost_kept (h : Kept s t) : Kept s t.playLost := by
  unfold State.playLost
  extract_lets x
  split
  · exact h
  · exact modSession_kept h

theorem playIssue_kept {n} (h : Kept s t) : Kept s (t.playIssue n) := by
  induction n generalizing t with
  | zero => exact h
  | succ n ih =>
    unfold State.playIssue
    extract_lets x
    split
    · extract_lets fail
      have hfail : Kept s fail := modSession_kept h
      refine Kept.ite (ih hfail) (Kept.ite h ?_)
      split
      · exact ih hfail
      · exact ih (modSession_kept (nvmeSubmit_kept h))
    · exact h

theorem playChoose_kept (h : Kept s t) : Kept s t.playChoose := by
  unfold State.playChoose
  extract_lets x
  split
  · exact h
  · exact Kept.ite (playEnd_kept h) (Kept.ite (modSession_kept h) (Kept.ite (modSession_kept h) (modSession_kept h)))

theorem playWalk_kept (h : Kept s t) : Kept s t.playWalk := by
  unfold State.playWalk
  extract_lets x b n headerArea headBad
  split
  · extract_lets sound short
    split
    · exact playChoose_kept (modSession_kept h)
    · split
      · exact playChoose_kept (modSession_kept h)
      · split
        · exact modSession_kept h
        · exact Kept.ite (playChoose_kept (modSession_kept (bump_kept h))) (playChoose_kept (modSession_kept h))
  · exact h

theorem pictureDone_kept {p t0 q} (h : Kept s t) : Kept s (t.pictureDone p t0 q) := by
  unfold State.pictureDone
  extract_lets a t1
  have ht1 : Kept s t1 := modSession_kept h
  split
  · exact modSession_kept ht1
  · exact modSession_kept ht1

theorem playFetched_kept (h : Kept s t) : Kept s t.playFetched := by
  unfold State.playFetched
  extract_lets x
  split
  · exact h
  · split
    · exact h
    · extract_lets b area t1
      have ht1 : Kept s t1 := modSession_kept h
      split
      · split
        · exact modSession_kept ht1
        · exact modSession_kept ht1
      · exact modSession_kept h

theorem playHeader_kept (h : Kept s t) : Kept s t.playHeader := by
  unfold State.playHeader
  extract_lets x b n
  split
  · exact h
  · split
    · exact modSession_kept h
    · split
      · exact playEnd_kept h
      · exact playChoose_kept (modSession_kept h)

theorem playResume_kept (h : Kept s t) : Kept s t.playResume := by
  unfold State.playResume
  split
  · exact Kept.ite (playChoose_kept (modSession_kept h)) h
  · exact h

theorem playPump_kept (h : Kept s t) : Kept s t.playPump := by
  unfold State.playPump
  extract_lets t1 x t2
  have ht1 : Kept s t1 := playLost_kept h
  have ht2 : Kept s t2 := by
    unfold t2
    split
    · exact ht1
    · split
      · exact playHeader_kept ht1
      · exact playWalk_kept ht1
      · exact playResume_kept ht1
      · exact playFetched_kept ht1
      · exact ht1
  exact playIssue_kept ht2

theorem playBegin_kept (h : Kept s t) : Kept s t.playBegin := by
  unfold State.playBegin
  split
  · exact h
  · exact Kept.ite (modSession_kept (nvmeSubmit_kept h)) (playEnd_kept h)

theorem nvmeComplete_kept {m cid status data} (h : Kept s t) : Kept s (t.nvmeComplete m cid status data) := by
  unfold State.nvmeComplete
  split
  · exact h
  · extract_lets ok t1 t2 x t3
    have ht1 : Kept s t1 := dropCmd_kept h
    have ht2 : Kept s t2 := Kept.ite (bump_kept ht1) (nvmeError_kept ht1)
    have ht3 : Kept s t3 := Kept.ite ht1 (nvmeError_kept ht1)
    split
    · exact Kept.ite (playPump_kept (modSession_kept ht2)) ht2
    · split
      · exact Kept.ite (playEnd_kept ht3) (playPump_kept (modSession_kept ht3))
      · exact ht3
    · exact playPump_kept (nvmeAnswer_kept h)

theorem finishPlayTile_kept {j t0} (h : Kept s t) : Kept s (t.finishPlayTile j t0) := by
  unfold State.finishPlayTile
  extract_lets t1 x
  have ht1 : Kept s t1 := lateRequests_kept (modEngine_kept h)
  split
  · split
    · exact ht1
    · extract_lets r d st concealed t2 t3 t4 t5 q' t6 t7
      have ht2 : Kept s t2 := bump_kept (Kept.ite (noteAreas_kept ht1) ht1)
      have ht3 : Kept s t3 := Kept.ite (bump_kept ht2) ht2
      have ht4 : Kept s t4 := Kept.ite (playRaise_kept (playStat_kept (bump_kept ht3))) ht3
      have ht5 : Kept s t5 := Kept.ite (playStat_kept ht4) ht4
      have ht6 : Kept s t6 := modSession_kept ht5
      have ht7 : Kept s t7 := modEngine_kept ht6
      exact Kept.ite (playPump_kept (pictureDone_kept ht7)) ht7
  · exact ht1

theorem playTile_kept {j} (h : Kept s t) : Kept s (t.playTile j) := by
  unfold State.playTile
  extract_lets e x
  split
  · exact Kept.ite h (finishPlayTile_kept h)
  · split
    · exact h
    · split
      · split
        · exact h
        · split
          · exact setEngine_kept h
          · exact h
      · exact h
  · exact h

theorem putReport_kept {p n picStatus ptp unresolved logAddr st} (h : Kept s t) : Kept s (t.putReport p n picStatus ptp unresolved logAddr st) :=
  poke_kept (poke_kept (Kept.ite (poke_kept h) h))

theorem playNext_kept {p} (h : Kept s t) : Kept s (t.playNext p) := by
  unfold State.playNext
  split
  · exact playEnd_kept h
  · exact playPump_kept (playChoose_kept (modSession_kept h))

theorem outputPlay_kept {p t0} (h : Kept s t) : Kept s (t.outputPlay p t0) := by
  unfold State.outputPlay
  extract_lets x c st dropped t1 img
  have ht1 : Kept s t1 := putReport_kept h
  split
  · exact playNext_kept (modSession_kept (putOutput_kept (putReport_kept h)))
  · exact playNext_kept (putOutput_kept ht1)

theorem passUnit_kept {k} (h : Kept s t) : Kept s (t.passUnit k) := by
  unfold State.passUnit
  extract_lets x
  split
  · exact h
  · exact Kept.ite (modSession_kept (bump_kept (modSession_kept h))) (modSession_kept (modSession_kept h))

theorem passMarked_kept {k n} (h : Kept s t) : Kept s (t.passMarked k n) := by
  induction n generalizing t with
  | zero => exact h
  | succ n ih =>
    unfold State.passMarked
    split
    · exact Kept.ite (ih (passUnit_kept h)) h
    · exact h

theorem rtpReceive_kept {k r} (h : Kept s t) : Kept s (t.rtpReceive k r) := by
  unfold State.rtpReceive
  extract_lets x late base mine u others
  split
  · exact h
  · exact Kept.ite (bump_kept h) (passMarked_kept (modSession_kept h))

theorem decodeUnit_kept {k a} (h : Kept s t) : Kept s (t.decodeUnit k a) := by
  unfold State.decodeUnit
  extract_lets x rows
  split
  · split
    · exact h
    · extract_lets t1 drop until_ t2 t3 t4 before pic
      have ht1 : Kept s t1 := modSession_kept h
      have ht2 : Kept s t2 := Kept.ite ht1 (bump_kept ht1)
      have ht3 : Kept s t3 := Kept.ite ht2 (bump_kept ht2)
      have ht4 : Kept s t4 := Kept.ite ht3 (playRaise_kept (playStat_kept (bump_kept ht3)))
      split
      · exact playRaise_kept (modSession_kept (playStat_kept (bump_kept (bump_kept ht1))))
      · exact Kept.ite (bump_kept ht1) (Kept.ite (bump_kept ht1) (modSession_kept ht4))
  · exact h

theorem outputReturn_kept {k p r} (h : Kept s t) : Kept s (t.outputReturn k p r) := modSession_kept (putOutput_kept (Kept.same h))

theorem pictureOutput_kept {k} (h : Kept s t) : Kept s (t.pictureOutput k) := by
  unfold State.pictureOutput
  extract_lets x
  split
  · exact h
  · split
    · exact playEnd_kept h
    · split
      · exact h
      · split
        · split
          · exact Kept.ite (outputPlay_kept h) h
          · exact playPump_kept h
        · split
          · exact outputReturn_kept h
          · exact h

theorem playProgress_kept {k} (h : Kept s t) : Kept s (t.playProgress k) := by
  unfold State.playProgress
  extract_lets x rate t1
  have ht1 : Kept s t1 := modSession_kept (setReg_kept h)
  split
  · exact h
  · extract_lets t2 t3
    have ht2 : Kept s t2 := Kept.ite ht1 (playRaise_kept (playStat_kept ht1))
    have ht3 : Kept s t3 := by
      unfold t3
      split
      · exact post_kept ht2
      · exact ht2
    exact Kept.ite (playPump_kept ht3) ht3

/-! ### Network ports -/

theorem netRaise_kept {e} (h : Kept s t) : Kept s (t.netRaise e) := raise_kept h

theorem timeOffset_kept {twice count} (h : Kept s t) : Kept s (t.timeOffset twice count) :=
  Kept.ite (netRaise_kept (orReg_kept (Kept.same (Kept.same h)))) (Kept.same (Kept.same h))

theorem ethFrame_kept {k f} (h : Kept s t) : Kept s (t.ethFrame k f) := by
  unfold State.ethFrame
  extract_lets drop keep rtcp
  have hdrop {t} (h : Kept s t) : Kept s (drop t) := bump_kept h
  have hkeep {t} (h : Kept s t) : Kept s (keep t) := bump_kept h
  have hrtcp {t} (h : Kept s t) : Kept s (rtcp t) := by
    unfold rtcp
    split
    · exact bump_kept h
    · exact h
  clear_value drop keep rtcp
  refine Kept.ite h (Kept.ite (hdrop (bump_kept h)) (Kept.ite (hdrop (bump_kept h)) (Kept.ite (Kept.ite (hkeep h) (hdrop h))
    (Kept.ite (hdrop h) (Kept.ite (hkeep h) (Kept.ite (hdrop h) ?_))))))
  split
  · exact hdrop (hrtcp h)
  · refine Kept.foldl (fun h => ?_) (hkeep h)
    split
    · exact rtpReceive_kept h
    · exact bump_kept h

/-! ### Rings -/

theorem tailWrite_kept {k v} (h : Kept s t) : Kept s (t.tailWrite k v) := Kept.ite (Kept.same (setReg_kept h)) (setReg_kept h)

theorem ringOff_kept {k} (h : Kept s t) : Kept s (t.ringOff k) := flushStalled_kept (Kept.same (setReg_kept h))

theorem ringStart_kept {k log2} (h : Kept s t) : Kept s (t.ringStart k log2) := Kept.same (setReg_kept (setReg_kept (setReg_kept h)))

theorem sizeWrite_kept {k v} (h : Kept s t) : Kept s (t.sizeWrite k v) := Kept.ite (Kept.ite (ringOff_kept h) h) (Kept.ite (ringStart_kept h) h)

theorem cplHeadWrite_kept {k v} (h : Kept s t) : Kept s (t.cplHeadWrite k v) := flushStalled_kept (setReg_kept h)

theorem beat_kept (h : Kept s t) : Kept s t.beat := Kept.same h

theorem hbLoss_kept (h : Kept s t) : Kept s t.hbLoss := by
  unfold State.hbLoss
  extract_lets t1
  have ht1 : Kept s t1 := raise_kept h
  split
  · exact ht1
  · exact ht1
  · exact checkCut_kept (modTake_kept (moveTake_kept ht1))
  · exact checkCut_kept (modTake_kept ht1)
  · exact faultTake_kept ht1

/-! ### CSR accesses -/

theorem csrRead_kept {i off} (h : Kept s t) : Kept s (t.csrRead i off).1 := by
  obtain ⟨claim, hclaim, e⟩ : ∃ c, Kept s c.1 ∧ t.claimRead (fin 16 ((off - 0x30100) / 8)) = c := ⟨_, claimRead_kept h, rfl⟩
  unfold State.csrRead
  rw [e]
  extract_lets l v key wo t1 t2 v1
  split
  · exact h
  · split
    · exact h
    · split
      · exact latches_kept h
      · split
        · exact h
        · split
          · exact hclaim
          · split
            · exact h
            · split
              · exact setReg_kept h.same
              · exact Kept.ite (setReg_kept h) h

theorem nonPriv_kept (h : Kept s t) : Kept s t.nonPriv := orReg_kept h

theorem putFields_kept {off r v} (h : Kept s t) : Kept s (t.putFields off r v) := setReg_kept h

theorem keyGate_kept {i v} (h : Kept s t) : Kept s (t.keyGate i v) :=
  Kept.ite (nonPriv_kept h) (Kept.ite (Kept.same h) (raise_kept (bump_kept (orReg_kept (closeGate_kept h)))))

theorem keyLock_kept {i v} (h : Kept s t) : Kept s (t.keyLock i v) := Kept.ite (nonPriv_kept h) (keyed_kept orReg_kept h)

theorem topDebug_kept {i v} (h : Kept s t) : Kept s (t.topDebug i v) :=
  Kept.ite (nonPriv_kept h) (keyed_kept (fun h => Kept.ite (setReg_kept h) (releaseHalts_kept (setReg_kept h))) h)

theorem topDbgCtrl_kept {i v} (h : Kept s t) : Kept s (t.topDbgCtrl i v) := by
  unfold State.topDbgCtrl
  split
  · exact nonPriv_kept h
  · split
    · exact h
    · extract_lets e held old clash t1 t2
      have ht1 : Kept s t1 := Kept.ite (orReg_kept h) (setReg_kept h)
      have ht2 : Kept s t2 := Kept.ite (requestHalt_kept ht1) ht1
      exact Kept.ite (releaseHalts_kept ht2) ht2

theorem tagOutcome_kept {status seq} (h : Kept s t) : Kept s (t.tagOutcome status seq) := by
  unfold State.tagOutcome
  extract_lets t1 t2
  have ht1 : Kept s t1 := raise_kept (clrReg_kept (setReg_kept h))
  have ht2 : Kept s t2 := Kept.ite (raise_kept ht1) ht1
  split
  · exact Kept.ite (post_kept (Kept.same ht2)) ht1
  · exact ht1

theorem tagRequest_kept {i seq} (h : Kept s t) : Kept s (t.tagRequest i seq) := by
  unfold State.tagRequest
  extract_lets t1 h1 o c t2 st
  have ht1 : Kept s t1 := setReg_kept h
  have ht2 : Kept s t2 := raise_kept (setReg_kept (setHolder_kept ht1))
  split
  · exact setReg_kept ht1
  · exact Kept.ite (setReg_kept (cisReject_kept ht1)) (Kept.ite ht2 (tagOutcome_kept (cisFree_kept ht2)))

theorem tagGo_kept {i v} (h : Kept s t) : Kept s (t.tagGo i v) := Kept.ite (nonPriv_kept h) (keyed_kept tagRequest_kept h)

theorem tagDone_kept {i v} (h : Kept s t) : Kept s (t.tagDone i v) := Kept.ite (nonPriv_kept h) (Kept.ite h (tagOutcome_kept h))

theorem kslRoute_kept {off write} (hwrite : ∀ {t}, Kept s t → Kept s (write t)) (h : Kept s t) : Kept s (t.kslRoute off write) :=
  Kept.ite (lockReject_kept h) (Kept.ite (orReg_kept h) (hwrite h))

theorem clock_kept {clk} (h : Kept s t) : Kept s { t with clk := clk } := h.same

theorem hdgWrite_kept {i off r v} (h : Kept s t) : Kept s (t.hdgWrite i off r v) := by
  refine Kept.ite (domainRequest_kept h) (Kept.ite h (Kept.ite (inrush_kept h) (Kept.ite (inrush_kept h)
    (Kept.ite (Kept.ite (sleep_kept h) (Kept.ite (sleep_kept h) h)) (Kept.ite (coreRunWrite_kept h) (Kept.ite ?_
      (Kept.ite (clock_kept h) (Kept.ite (lockReject_kept h) (putFields_kept h)))))))))
  exact keyed_kept (fun h => Kept.ite (deviceReset_kept h) h) h

theorem evcWrite_kept {i off r v} (h : Kept s t) : Kept s (t.evcWrite i off r v) :=
  Kept.ite (writeDisable_kept h) (Kept.ite (writeSrcCfg_kept h) (Kept.ite (doneWrite_kept h) (putFields_kept h)))

theorem tabWrite_kept {off r v} (h : Kept s t) : Kept s (t.tabWrite off r v) := by
  unfold State.tabWrite
  split
  · exact Kept.ite (beat_kept h) h
  · exact Kept.ite (sizeWrite_kept h) (Kept.ite (tailWrite_kept h) (Kept.ite (cplHeadWrite_kept h) (putFields_kept h)))

theorem pairWrite_kept {i off lo hi v} (h : Kept s t) : Kept s (t.pairWrite i off lo hi v) :=
  Kept.ite h (Kept.ite (lockReject_kept h) (putFields_kept (putFields_kept h)))

theorem csrWrite_kept {i off v} (h : Kept s t) : Kept s (t.csrWrite i off v) := by
  unfold State.csrWrite
  extract_lets b
  refine Kept.ite (nonPriv_kept h) (Kept.ite h ?_)
  split
  · exact h
  · rename_i r _
    refine Kept.ite (holds_kept h) (Kept.ite ?_ ?_)
    · split
      · exact pairWrite_kept h
      · exact h
    · have put : Kept s (t.putFields off r v) := putFields_kept h
      exact Kept.ite (keyGate_kept h) (Kept.ite (keyLock_kept h) (Kept.ite (topDebug_kept h) (Kept.ite (topDbgCtrl_kept h)
        (Kept.ite (tagGo_kept h) (Kept.ite (tagDone_kept h) (Kept.ite (hdgWrite_kept h) (Kept.ite (evcWrite_kept h)
          (Kept.ite (tabWrite_kept h) (Kept.ite (kslRoute_kept putFields_kept h) (Kept.ite h (Kept.ite (Kept.ite h put)
            (Kept.ite (lockReject_kept h) put))))))))))))

theorem flumeAccept_kept {l} (h : Kept s t) : Kept s (t.flumeAccept l) := bump_kept h

theorem flumeError_kept {l} (h : Kept s t) : Kept s (t.flumeError l) := raise_kept (bump_kept (orReg_kept h))

theorem onCsr_kept {i addr c f} (hf : ∀ {t x1}, Kept s t → Kept s (f t x1)) (h : Kept s t) (hi : isPowerOn c = false :=
  by rfl) : Kept s (t.onCsr i addr c f) :=
  access_kept (fun h => Kept.ite (hf (flumeAccept_kept h)) (flumeError_kept h)) h hi

theorem lineSampled_kept {n line samples} (h : Kept s t) : Kept s (t.lineSampled n line samples) := Kept.ite (lineChange_kept h) h

theorem linkErr_kept {l} (h : Kept s t) : Kept s (t.linkErr l) := bump_kept h

theorem apRead_kept {i k off n} (h : Kept s t) : Kept s (t.apRead i k off n).1 := by
  unfold State.apRead
  split
  · exact h
  · split
    · exact h
    · split
      · exact latches_kept (ckuRead_kept h)
      · exact ckuRead_kept h

theorem apWrite_kept {i k off b} (h : Kept s t) : Kept s (t.apWrite i k off b) :=
  Kept.ite (ckuFeed_kept h) (Kept.ite h (Kept.ite (Kept.ite (holds_kept h) (ckuStranger_kept h)) (ckuWrite_kept h)))

theorem readAt_kept {i a n} (h : Kept s t) : Kept s (t.readAt i a n).1 := by
  unfold State.readAt
  dsimp only
  split
  · exact h
  · split
    · exact h
    · exact csrRead_kept h
  · exact apRead_kept h
  · split
    · exact h
    · exact pageRead_kept h
  · exact memRead_kept h

theorem writeAt_kept {i a b} (h : Kept s t) : Kept s (t.writeAt i a b).1 := by
  unfold State.writeAt
  dsimp only
  split
  · exact h
  · exact h
  · split
    · exact h
    · exact csrWrite_kept h
  · exact apWrite_kept h
  · exact Kept.ite (pageWrite_kept h) h
  · exact memWrite_kept h

theorem setWear_wear (r : Ras) (n w : Nat) (swap : Bool) : (r.setWear n w swap).wear = mapSet Config.nvsWear r.wear n w := by
  unfold Ras.setWear
  extract_lets q
  split
  · rfl
  · split <;> rfl

theorem wear_kept {n w swap} (h : Kept s t) : Kept s (t.modRas (fun r => r.setWear n w swap)) :=
  h.trans ⟨fun ⟨st, a, b, c, d, e, f, g, i, j, k⟩ => ⟨st, a, b, c, d, e, f, g, i, j, by
    rw [show (t.modRas (fun r => r.setWear n w swap)).ras.wear = _ from setWear_wear t.ras n w swap]
    exact mapWf_mapSet k _ _⟩, id, id⟩

theorem nvsSpare_kept {n} (h : Kept s t) : Kept s (t.modRas (fun r =>
    let q := r.setWear n (Config.nvsSpareWear r.nvsFree) true
    { q with nvsFree := r.nvsFree - 1 })) :=
  modRas_kept (f := fun r => { r with nvsFree := t.ras.nvsFree - 1 }) (wear_kept (n := n) (w := Config.nvsSpareWear t.ras.nvsFree) (swap := true) h)

theorem nvsLine_kept {n a b bad badBack} (h : Kept s t) : Kept s (t.nvsLine n a b bad badBack).1 := by
  unfold State.nvsLine
  extract_lets w swap t1 wear t2 t3
  have ht1 : Kept s t1 := wear_kept h
  have ht2 : Kept s t2 := bump_kept (poisonSpans_kept (writeStore_kept ht1))
  have ht3 : Kept s t3 := nvsSpare_kept (bump_kept ht2)
  split
  · exact orReg_kept (Kept.ite (raise_kept (orReg_kept ht1)) ht1)
  · split
    · exact Kept.ite (raise_kept (orReg_kept ht3)) ht3
    · exact Kept.ite (raise_kept (orReg_kept ht2)) ht2

theorem nvsWrite_kept {h0 offset length bad} (h : Kept s t) : Kept s (t.nvsWrite h0 offset length bad) := by
  unfold State.nvsWrite
  split
  · exact h
  · split
    · exact h
    · extract_lets from0 r spans
      have hr : Kept s r.1 := readArea_kept h
      exact foldl_keeps (fun a : State × Bool => Kept s a.1) _ (fun a n ha => by
        dsimp only
        split
        · exact nvsLine_kept ha
        · exact ha) _ _ hr

/-! ### Running an instruction -/

theorem noteFetch_kept {c} (h : Kept s t) : Kept s (t.noteFetch c) := by
  unfold State.noteFetch
  extract_lets pc
  split
  · exact noteWords_kept h
  · exact siteWords_kept h

theorem runDsn_kept {c legal effect} (heffect : ∀ {t}, Kept s t → Kept s (effect t)) (h : Kept s t) : Kept s (t.runDsn c legal effect) := by
  unfold State.runDsn
  split
  · exact h
  · split
    · exact exception_kept (Kept.ite (noteFetch_kept h) h)
    · exact Kept.ite (heffect h) (exception_kept h)

theorem putFl_kept {c w f} (h : Kept s t) : Kept s (t.putFl c w f) := Kept.ite (setFl_kept h) h

theorem opA_kept {c f op} (h : Kept s t) : Kept s (t.opA c f op) := nextPc_kept (setD_kept (putFl_kept h))

theorem putD_kept {c rd v} (h : Kept s t) : Kept s (t.putD c rd v) := nextPc_kept (setD_kept h)

/-! ### Loads, stores and locks -/

theorem dropLine_kept {k line} (h : Kept s t) : Kept s (t.dropLine k line) := modCore_kept h

theorem putLine_kept {k line f} (h : Kept s t) : Kept s (t.putLine k line f) := modCore_kept h

theorem writeBack_kept {k l} (h : Kept s t) : Kept s (t.writeBack k l) :=
  Kept.ite (putLine_kept (Kept.ite (Kept.foldl poisonAt_kept (memWrite_kept h)) (memWrite_kept h))) h

theorem fillLine_kept {k line b bad} (h : Kept s t) : Kept s (t.fillLine k line b bad) := by
  unfold State.fillLine
  extract_lets v t1 t2
  have ht1 : Kept s t1 := h.same
  have ht2 : Kept s t2 := by
    unfold t2
    clear_value v
    split
    · exact dropLine_kept (writeBack_kept ht1)
    · exact ht1
  exact modCore_kept ht2

theorem fetchLine_kept {k a} (h : Kept s t) : Kept s (t.fetchLine k a).1 := by
  unfold State.fetchLine
  split
  · exact h
  · extract_lets line r
    have hr : Kept s r.1 := memRead_kept h
    split
    · exact hr
    · exact fillLine_kept hr
    · exact fillLine_kept hr

theorem hitRead_kept {k a n} (h : Kept s t) : Kept s (t.hitRead k a n).1 := by
  unfold State.hitRead
  split
  · exact siteWords_kept h
  · exact h

theorem cacheRead_kept {k a n} (h : Kept s t) : Kept s (t.cacheRead k a n).1 := by
  unfold State.cacheRead
  extract_lets r
  have hr : Kept s r.1 := fetchLine_kept h
  split
  · exact hitRead_kept hr
  · exact linkErr_kept hr

theorem cacheWrite_kept {k a b} (h : Kept s t) : Kept s (t.cacheWrite k a b) :=
  Kept.ite h (Kept.foldl (fun h => Kept.ite h (modCore_kept h)) (putLine_kept (siteWords_kept (fetchLine_kept h))))

theorem coreAccess_kept {c a i f} (hf : ∀ {t}, Kept s t → Kept s (f t)) (h : Kept s t) (hi : isPowerOn i = false :=
  by rfl) : Kept s (t.coreAccess c a i f) :=
  Kept.ite (hf h) (hold_kept h hi)

theorem evcAccess_kept {c i f} (hf : ∀ {t}, Kept s t → Kept s (f t)) (h : Kept s t) (hi : isPowerOn i = false :=
  by rfl) : Kept s (t.evcAccess c i f) :=
  Kept.ite (hf h) (hold_kept h hi)

theorem taborRead_kept {k addr n} (h : Kept s t) : Kept s (t.taborRead k addr n).1 := by
  unfold State.taborRead
  extract_lets a x
  have hx : Kept s x.1 := readAt_kept h
  split
  · exact h
  · split
    · exact h
    · split
      · exact mpmDeny_kept h
      · split
        · exact cacheRead_kept h
        · exact cacheRead_kept h
        · exact cacheRead_kept h
        · exact h
        · split
          · exact hx
          · exact hx
          · exact hx

theorem taborWrite_kept {k addr b} (h : Kept s t) : Kept s (t.taborWrite k addr b).1 := by
  unfold State.taborWrite
  extract_lets a
  split
  · exact h
  · split
    · exact h
    · split
      · exact mpmDeny_kept h
      · split
        · exact cacheWrite_kept h
        · exact cacheWrite_kept h
        · exact cacheWrite_kept h
        · exact h
        · exact linkErr_kept h
        · exact writeAt_kept h

theorem bhMem_kept {m} (h : Kept s t) (hm : t.bh.mem.wf → m.wf) : Kept s (t.modBh (fun x => { x with mem := m })) :=
  h.trans ⟨fun ⟨⟨a, b, c, d, e⟩, f⟩ => ⟨⟨a, b, c, d, hm e⟩, f⟩, id, id⟩

theorem bhRead_kept {addr n} (h : Kept s t) : Kept s (t.bhRead addr n).1 := by
  obtain ⟨dev, e⟩ : ∃ dev, t.bhDevice addr.toNat = dev := ⟨_, rfl⟩
  unfold State.bhRead
  dsimp only
  rw [e]
  have hx : Kept s ((t.flumeAccept 5).readAt .bellhouse dev n).1 := readAt_kept (flumeAccept_kept h)
  split
  · split
    · exact h.fst
    · split
      · exact h.fst
      · split
        · exact (siteWords_kept h).fst
        · exact (siteWords_kept h).fst
  · split
    · exact h.fst
    · split
      · exact h.fst
      · split
        · exact (flumeError_kept h).fst
        · split
          · exact hx.fst
          · exact hx.fst
          · exact (linkErr_kept hx).fst

theorem bhWrite_kept {addr b} (h : Kept s t) : Kept s (t.bhWrite addr b).1 := by
  obtain ⟨dev, e⟩ : ∃ dev, t.bhDevice addr.toNat = dev := ⟨_, rfl⟩
  unfold State.bhWrite
  dsimp only
  rw [e]
  have hx : Kept s ((t.flumeAccept 5).writeAt .bellhouse dev b).1 := writeAt_kept (flumeAccept_kept h)
  split
  · split
    · exact h.fst
    · split
      · exact h.fst
      · exact (bhMem_kept (siteWords_kept h) (Store.write_wf · _ _)).fst
  · split
    · exact h.fst
    · split
      · exact h.fst
      · split
        · exact (flumeError_kept h).fst
        · exact (Kept.ite hx (linkErr_kept hx)).fst

theorem coreRead_kept {c a n} (h : Kept s t) : Kept s (t.coreRead c a n).1 := by
  unfold State.coreRead
  split
  · exact taborRead_kept h
  · exact bhRead_kept h

theorem coreWrite_kept {c a b} (h : Kept s t) : Kept s (t.coreWrite c a b).1 := by
  unfold State.coreWrite
  split
  · exact taborWrite_kept h
  · exact bhWrite_kept h

theorem dataAccess_kept {c a n write i f} (hf : ∀ {t}, Kept s t → Kept s (f t)) (h : Kept s t) (hi : isPowerOn i = false :=
  by rfl) : Kept s (t.dataAccess c a n write i f) := by
  unfold State.dataAccess
  split
  · exact coreAccess_kept hf h hi
  · exact hf h

theorem load_kept {c f n signed i} (h : Kept s t) (hi : isPowerOn i = false := by rfl) : Kept s (t.load c f n signed i) := by
  unfold State.load
  extract_lets a
  refine dataAccess_kept (fun h => ?_) h hi
  extract_lets r
  have hr : Kept s r.1 := coreRead_kept h
  split
  · exact putD_kept hr
  · exact exception_kept hr

theorem store'_kept {c f n i} (h : Kept s t) (hi : isPowerOn i = false := by rfl) : Kept s (t.store' c f n i) := by
  unfold State.store'
  extract_lets a
  refine dataAccess_kept (fun h => ?_) h hi
  extract_lets r
  have hr : Kept s r.1 := coreWrite_kept h
  split
  · exact nextPc_kept hr
  · exact exception_kept hr

theorem cacheOp_kept {c f back drop i} (h : Kept s t) (hi : isPowerOn i = false := by rfl) : Kept s (t.cacheOp c f back drop i) := by
  unfold State.cacheOp
  split
  · exact h
  · extract_lets line needs t1
    have ht1 : Kept s t1 := by
      unfold t1
      split
      · exact Kept.ite (writeBack_kept h) h
      · exact h
    exact Kept.ite (hold_kept h hi) (nextPc_kept (Kept.ite (dropLine_kept ht1) ht1))

theorem putStatus_kept {c st} (h : Kept s t) : Kept s (t.putStatus c st) := setFl_kept h

theorem lockOp_kept {k f op cas i} (h : Kept s t) (hi : isPowerOn i = false := by rfl) : Kept s (t.lockOp k f op cas i) := by
  unfold State.lockOp
  extract_lets c addr a r
  have hr : Kept s r.1 := readStore_kept (ctlSync_kept h)
  refine Kept.ite (exception_kept h) (Kept.ite (exception_kept h) (Kept.ite (exception_kept (mpmDeny_kept h))
    (Kept.ite (exception_kept (mpmDeny_kept h)) (Kept.ite (hold_kept h hi) ?_))))
  split
  · extract_lets old new t1 fl t2
    have ht1 : Kept s t1 := by
      unfold t1
      clear_value new
      split
      · exact writeStore_kept hr
      · exact hr
    have ht2 : Kept s t2 := Kept.ite (setFl_kept ht1) ht1
    exact putD_kept (putStatus_kept ht2)
  · exact exception_kept hr

theorem onTabor_kept {c legal effect} (heffect : ∀ {x0 t}, Kept s t → Kept s (effect x0 t)) (h : Kept s t) : Kept s (t.onTabor c legal effect) := by
  unfold State.onTabor
  split
  · exact runDsn_kept heffect h
  · exact runDsn_kept id h

/-! ### System operations -/

theorem sysWrite_kept {c n v} (h : Kept s t) : Kept s (t.sysWrite c n v) := by
  unfold State.sysWrite
  split
  · split
    · exact setStatus_kept h
    · exact setStatus_kept h
  · exact setXpc_kept h
  · exact setXvec_kept h
  · exact setFl_kept h
  · split
    · exact h
    · exact modBh_kept h
  · exact h

theorem atPriv_kept {c ok effect} (heffect : ∀ {t}, Kept s t → Kept s (effect t)) (h : Kept s t) : Kept s (t.atPriv c ok effect) :=
  Kept.ite (heffect h) (exception_kept h)

/-! ### TAKE instructions -/

theorem retSt_kept {c rd st v} (h : Kept s t) : Kept s (t.retSt c rd st v) := putD_kept (putStatus_kept h)

theorem lockedSt_kept {st} (h : Kept s t) : Kept s (t.lockedSt st) := Kept.ite (raise_kept h) h

theorem banks_kept {v} (h : Kept s t) : Kept s { t with banks := v } := h.same

theorem strec_kept {addr} (h : Kept s t) : Kept s (t.strec addr).1 := by
  unfold State.strec
  extract_lets t1 o h1 u n r imgs b t2 x
  have ht1 : Kept s t1 := ctlSync_kept h
  have ht2 : Kept s t2 := noteAreas_kept ht1
  split
  · exact ht1.fst
  · split
    · exact ht1.fst
    · split
      · exact ht2.fst
      · split
        · exact ht2.fst
        · split
          · exact ht2.fst
          · split
            · exact ht2.fst
            · exact (banks_kept ht2).fst

theorem commitMask_kept {mask} (h : Kept s t) : Kept s (t.commitMask mask).1 := by
  unfold State.commitMask
  extract_lets us f live st
  split
  · exact h
  · exact Kept.same h

theorem freeMargins_kept (h : Kept s t) : Kept s t.freeMargins := Kept.same h

theorem mc_kept {mc} (h : Kept s t) : Kept s { t with mc := mc } := h.same

theorem fspNow_kept {r passes} (h : Kept s t) : Kept s (t.fspNow r passes).1 := by
  unfold State.fspNow
  extract_lets t1 t2 p t3
  have ht2 : Kept s t2 := mc_kept h
  clear_value t2
  split
  · exact h
  · split
    · exact freeMargins_kept (mc_kept ht2)
    · exact Kept.fst (raise_kept (orReg_kept (freeMargins_kept ht2)))

theorem teClock_kept {econ locks} (h : Kept s t) : Kept s (t.teClock econ locks).1 := by
  unfold State.teClock
  split
  · exact h
  · split
    · exact (modHdg_kept h).fst
    · exact h

theorem setLedgers_kept (h : Kept s t) : Kept s t.setLedgers := Kept.same h

theorem armFresh_kept {l w logs q} (h : Kept s t) : Kept s { t with lateViews := l, wholeViews := w, logs := logs, tileQueue := q } := h.same

theorem armMove_kept (h : Kept s t) : Kept s t.armMove := by
  unfold State.armMove
  exact Kept.foldl dsmStart_kept (moveTake_kept (modTake_kept (modSns_kept (armFresh_kept
    (ckuArmed_kept (setLedgers_kept (placeSlots_kept (takeBanks_kept h))))))))

theorem armTake_kept {env} (h : Kept s t) : Kept s (t.armTake env).1 := by
  unfold State.armTake
  split
  · exact h
  · split
    · exact h
    · extract_lets f st a b t1 t2
      have ha : Kept s a.1 := fspNow_kept h
      have hb : Kept s b.1 := teClock_kept ha
      clear_value b
      split
      · exact h
      · split
        · exact ha
        · split
          · exact Kept.ite hb (freeMargins_kept (mc_kept hb))
          · exact Kept.fst (armMove_kept hb)

theorem armDefer_kept (h : Kept s t) : Kept s t.armDefer := bump_kept (Kept.same h)

theorem markInstr_kept {c f} (h : Kept s t) : Kept s (t.markInstr c f) := Kept.ite (retSt_kept h) (retSt_kept (mark_kept h))

/-! ### EVT instructions -/

theorem discardBanks_kept (h : Kept s t) : Kept s t.discardBanks := by
  unfold State.discardBanks
  extract_lets t1
  have ht1 : Kept s t1 := snsRelink_kept (snsEnd_kept (sluTakeover_kept (Kept.same h)))
  exact Kept.ite (cisNotices_kept ht1) ht1

theorem endProgram_kept (h : Kept s t) : Kept s t.endProgram := cisRelease_kept (stopProgramChannels_kept (stopProgram_kept h))

theorem setupDone_kept (h : Kept s t) : Kept s t.setupDone := postOwed_kept (moveTake_kept (modTake_kept h))

theorem setupFailed_kept (h : Kept s t) : Kept s t.setupFailed :=
  postOwed_kept (moveTake_kept (modTake_kept (discardBanks_kept (stopProgram_kept h))))

theorem doorbell_kept {c n} (h : Kept s t) : Kept s (t.doorbell c n) := Kept.ite h (Kept.ite (setupDone_kept h) (Kept.ite (setupFailed_kept h) h))

theorem waitEvent_kept {c f} (h : Kept s t) : Kept s (t.waitEvent c f) :=
  Kept.ite (retSt_kept (claimSource_kept h)) (Kept.ite (retSt_kept h) (setRun_kept h))

/-! ### Memory controller -/

theorem dramAccept_kept {r} (h : Kept s t) : Kept s (t.dramAccept r) := Kept.ite (modChn_kept h) h

theorem refresh_kept {c b} (h : Kept s t) : Kept s (t.refresh c b) := modChn_kept (modMc_kept h)

theorem forceRefresh_kept {c b} (h : Kept s t) : Kept s (t.forceRefresh c b) := Kept.ite (raise_kept (orReg_kept (bump_kept (refresh_kept h)))) h

theorem dramNext_kept {c} (h : Kept s t) : Kept s (t.dramNext c) := by
  unfold State.dramNext
  split
  · exact h
  · split
    · exact forceRefresh_kept h
    · extract_lets cls
      split
      · exact perform_kept h
      · split
        · exact refresh_kept h
        · split
          · exact perform_kept h
          · exact h

theorem promote_kept {c i} (h : Kept s t) : Kept s (t.promote c i) := by
  unfold State.promote
  split
  · exact Kept.ite h (raise_kept (orReg_kept (bump_kept (modChn_kept h))))
  · exact h

theorem track_kept {c} (h : Kept s t) : Kept s (t.track c) := Kept.ite (fspTake_kept h) h

theorem commitChan_kept {c r} (h : Kept s t) : Kept s (t.commitChan c r) := Kept.ite (threshold_kept (modChn_kept h)) (modChn_kept h)

theorem commitChans_kept {a rs} (h : Kept s t) : Kept s (t.commitChans a rs) := Kept.foldl commitChan_kept h

theorem commitHalf_kept {h0 rs} (h : Kept s t) : Kept s (t.commitHalf h0 rs) :=
  Kept.ite (modMc_kept h) (Kept.ite (commitChans_kept h) (modMc_kept (commitChans_kept h)))

theorem commitAll_kept {t0 rs} (h : Kept s t) : Kept s (t.commitAll t0 rs) :=
  Kept.ite (raise_kept (orReg_kept (modMc_kept h))) (fspTake_kept (modMc_kept (commitChans_kept h)))

theorem trainCommit_kept {h0 rs} (h : Kept s t) : Kept s (t.trainCommit h0 rs) := by
  unfold State.trainCommit
  split
  · exact Kept.ite (commitHalf_kept h) h
  · split
    · exact Kept.ite (commitAll_kept h) h
    · exact h

theorem fspRequest_kept {f} (h : Kept s t) : Kept s (t.fspRequest f) := Kept.ite (bump_kept (modMc_kept h)) (fspStart_kept (modMc_kept h))

theorem scrubOne_kept {a} (h : Kept s t) : Kept s (t.scrubOne a) := by
  unfold State.scrubOne
  extract_lets v quiet t1
  have ht1 : Kept s t1 := Kept.ite h (noteWords_kept h)
  exact Kept.ite ht1 (dram_kept ht1 (scrubWord_wf · _))

theorem scrub_kept (h : Kept s t) : Kept s t.scrub := by
  unfold State.scrub
  split
  · exact h
  · extract_lets a t1 n
    have ht1 : Kept s t1 := Kept.foldl scrubOne_kept h
    exact Kept.ite (modMc_kept ht1) (raise_kept (orReg_kept (modRas_kept (modMc_kept ht1))))

/-! ### Flume -/

theorem answered_kept {l id err b} (h : Kept s t) : Kept s (t.answered l id err b) := Kept.same h

theorem reqEnter_kept {b} (h : Kept s t) : Kept s (t.reqEnter b) :=
  Kept.ite (answered_kept (flumeError_kept (Kept.same h))) (Kept.ite (flumeAccept_kept (Kept.same h)) (Kept.same h))

theorem rspEnter_kept {b} (h : Kept s t) : Kept s (t.rspEnter b) := Kept.same h

theorem enterAll_kept {wait ok go} (hgo : ∀ {t x1}, Kept s t → Kept s (go t x1)) (h : Kept s t) : Kept s (t.enterAll wait ok go) := by
  unfold State.enterAll
  refine Kept.foldl (fun h => ?_) h
  split
  · exact hgo h
  · exact h

theorem noteAccept_kept {b} (h : Kept s t) : Kept s (t.noteAccept b) := Kept.ite h (Kept.ite (raise_kept (orReg_kept (Kept.same h))) (Kept.same h))

theorem targetError_kept {b} (h : Kept s t) : Kept s (t.targetError b) := flumeRespond_kept (linkErr_kept h)

theorem flumeLand_kept {b} (h : Kept s t) : Kept s (t.flumeLand b) := by
  unfold State.flumeLand
  extract_lets f t1 t2 back x bad x1
  have ht2 : Kept s t2 := noteAccept_kept (Kept.same h)
  have hx : Kept s x.1 := writeAt_kept ht2
  have hx1 : Kept s x1.1 := readAt_kept ht2
  split
  · exact Kept.ite (dramAccept_kept ht2) (Kept.ite (flumeRespond_kept ht2) (targetError_kept ht2))
  · split
    · exact Kept.ite (flumeRespond_kept (Kept.ite (Kept.foldl poisonAt_kept hx) hx)) (targetError_kept hx)
    · split
      · exact flumeRespond_kept hx1
      · exact flumeRespond_kept hx1
      · exact targetError_kept hx1

theorem landAll_kept (h : Kept s t) : Kept s t.landAll := Kept.foldl (fun h => Kept.ite (flumeLand_kept h) h) h

theorem returnAll_kept (h : Kept s t) : Kept s t.returnAll := Kept.foldl (fun h => answered_kept (Kept.same h)) h

theorem flume_kept {flume} (h : Kept s t) : Kept s { t with flume := flume } := h.same

theorem flumeTick_kept (h : Kept s t) : Kept s t.flumeTick := by
  unfold State.flumeTick
  split
  · exact h
  · exact enterAll_kept rspEnter_kept (enterAll_kept reqEnter_kept (flume_kept (Kept.foldl bump_kept (returnAll_kept (landAll_kept h)))))

theorem flumeRequest_kept {i cls a write len words} (h : Kept s t) : Kept s (t.flumeRequest i cls a write len words) := Kept.same (siteWords_kept h)

/-! ### Kalsal -/

theorem kslPump_kept {n} (h : Kept s t) : Kept s (t.kslPump n) := by
  induction n generalizing t with
  | zero => exact h
  | succ n ih =>
    unfold State.kslPump
    split
    · exact h
    · refine Kept.ite h ?_
      extract_lets t1
      have ht1 : Kept s t1 := modKsl_kept h
      split
      · exact ih (unclaim_kept ht1)
      · exact ih (kslQueueWith_kept (modKsl_kept ht1))

theorem kslPumpAll_kept (h : Kept s t) : Kept s t.kslPumpAll := kslPump_kept h

theorem kalsalClaim_kept {t0} (h : Kept s t) : Kept s (t.kalsalClaim t0) := Kept.ite h (kslPumpAll_kept (modKsl_kept (claimSource_kept h)))

theorem kslAck_kept {k a} (h : Kept s t) : Kept s (t.kslAck k a) := Kept.foldl complete_kept (modPort_kept h)

theorem kslCredits_kept {k hdr} (h : Kept s t) : Kept s (t.kslCredits k hdr) := Kept.foldl modPort_kept h

theorem kslHeader_kept {k hdr} (h : Kept s t) : Kept s (t.kslHeader k hdr) := by
  unfold State.kslHeader
  extract_lets a t1 t2
  have ht1 : Kept s t1 := kslCredits_kept (kslAck_kept h)
  have ht2 : Kept s t2 := Kept.ite (modPort_kept ht1) ht1
  exact Kept.ite (retrain_kept ht2) ht2

theorem kslPass_kept {k j held vc sop eop ws} (h : Kept s t) : Kept s (t.kslPass k j held vc sop eop ws) := modPort_kept h

theorem kslFlood_kept {k vc ws} (h : Kept s t) : Kept s (t.kslFlood k vc ws) := Kept.foldl (fun h => Kept.ite (kslPass_kept h) (routeDrop_kept h)) h

theorem kslRouteIn_kept {k vc eop ws} (h : Kept s t) : Kept s (t.kslRouteIn k vc eop ws).1 := by
  unfold State.kslRouteIn
  split
  · exact routeDrop_kept h
  · split
    · exact routeDrop_kept h
    · split
      · exact h
      · split
        · exact kslFlood_kept h
        · split
          · split
            · split
              · exact h
              · exact routeDrop_kept h
            · exact h
          · split
            · exact Kept.ite (kslSend_kept (routeDrop_kept h)) (routeDrop_kept h)
            · split
              · exact h
              · exact routeDrop_kept h

theorem kslLand_kept {k ws} (h : Kept s t) : Kept s (t.kslLand k ws) := by
  unfold State.kslLand
  extract_lets n
  split
  · exact routeDrop_kept h
  · exact Kept.ite (modPort_kept h) (routeDrop_kept h)

theorem kslTake_kept {k vc sop eop ws} (h : Kept s t) : Kept s (t.kslTake k vc sop eop ws) := by
  unfold State.kslTake
  extract_lets r start t1 acc t2
  have hr : Kept s r.1 := kslRouteIn_kept h
  have hstart : Kept s start.1 := by
    unfold start
    split
    · exact hr
    · split
      · exact h
      · exact routeDrop_kept h
  have ht1 : Kept s t1 := hstart
  have ht2 : Kept s t2 := by
    unfold t2
    split
    · exact kslPass_kept ht1
    · exact Kept.ite (kslLand_kept (freeFlit_kept ht1)) (freeFlit_kept ht1)
    · exact freeFlit_kept ht1
  exact modPort_kept ht2

theorem kslAccept_kept {k hdr ws} (h : Kept s t) : Kept s (t.kslAccept k hdr ws) := kslTake_kept (modPort_kept h)

theorem kslDiscard_kept {k} (h : Kept s t) : Kept s (t.kslDiscard k) := bump_kept h

theorem kslReject_kept {k f ws uncorr} (h : Kept s t) : Kept s (t.kslReject k f ws uncorr) := by
  unfold State.kslReject
  extract_lets x mine copy t1
  have ht1 : Kept s t1 := modPort_kept (orReg_kept (bump_kept h))
  split
  · split
    · exact raise_kept (kslAccept_kept (kslHeader_kept ht1))
    · exact raise_kept (retrain_kept (modPort_kept (kslDiscard_kept h)))
  · exact modPort_kept (kslDiscard_kept h)

theorem flitReceive_kept {k f} (h : Kept s t) : Kept s (t.flitReceive k f) := by
  unfold State.flitReceive
  split
  · exact h
  · extract_lets ws vs t1 uncorr sound e q t2
    have ht1 : Kept s t1 := siteWords_kept h
    have ht2 : Kept s t2 := Kept.ite (kslHeader_kept ht1) ht1
    split
    · exact Kept.ite (kslHeader_kept ht1) (kslDiscard_kept ht1)
    · exact Kept.ite (kslAccept_kept (kslHeader_kept ht1)) (Kept.ite (kslDiscard_kept ht2) (kslReject_kept ht2))

theorem kslWire_kept {k data seq f} (h : Kept s t) : Kept s (t.kslWire k data seq f) := Kept.ite (retrain_kept (modPort_kept h)) (modPort_kept h)

theorem timeStamp_kept {k f} (h : Kept s t) : Kept s (t.timeStamp k f).1 := by
  unfold State.timeStamp
  extract_lets h1 w
  split
  · exact h
  · split
    · exact h
    · exact modPort_kept h
    · exact h

theorem kslData_kept {k f0} (h : Kept s t) : Kept s (t.kslData k f0) := kslWire_kept (freeFlit_kept (modPort_kept (timeStamp_kept h)))

theorem flitTransmit_kept {k} (h : Kept s t) : Kept s (t.flitTransmit k) := by
  unfold State.flitTransmit
  extract_lets t1 x
  have ht1 : Kept s t1 := kslPumpAll_kept h
  split
  · exact ht1
  · split
    · exact modPort_kept ht1
    · split
      · exact kslWire_kept (bump_kept (modPort_kept ht1))
      · split
        · split
          · exact kslData_kept ht1
          · exact ht1
        · exact kslWire_kept ht1

theorem kslEye_kept {k eye lane} (h : Kept s t) : Kept s (t.kslEye k eye lane) :=
  Kept.ite (propose_kept (Kept.ite (threshold_kept h) h)) (Kept.ite (threshold_kept h) h)

theorem kslConfig_kept {k c} (h : Kept s t) : Kept s (t.kslConfig k c) := Kept.ite (trainFail_kept (orReg_kept h)) (setLink_kept (modPort_kept h))

theorem trainStep_kept {k eye lane c} (h : Kept s t) : Kept s (t.trainStep k eye lane c) := by
  unfold State.trainStep
  split
  · exact setLink_kept h
  · exact kslEye_kept (setLink_kept (modPort_kept h))
  · exact setLink_kept h
  · exact kslConfig_kept h
  · exact h

theorem trainTimeout_kept {k laneFailed} (h : Kept s t) : Kept s (t.trainTimeout k laneFailed) :=
  Kept.ite h (trainFail_kept (Kept.ite (propose_kept (orReg_kept h)) h))

theorem dropArrived_kept {k} (h : Kept s t) : Kept s (t.dropArrived k) := modPort_kept h

theorem onArrived_kept {k p f} (hf : ∀ {t x1 x2}, Kept s t → Kept s (f t x1 x2)) (h : Kept s t) : Kept s (t.onArrived k p f) := by
  unfold State.onArrived
  split
  · exact hf (dropArrived_kept h)
  · exact h

theorem remoteAllowed_kept {k write a n} (h : Kept s t) : Kept s (t.remoteAllowed k write a n).1 := by
  unfold State.remoteAllowed
  extract_lets l
  split
  · exact h
  · split
    · exact (mpmDeny_kept h).fst
    · split
      · exact (flumeError_kept h).fst
      · exact (flumeAccept_kept h).fst

theorem onRequest_kept {k t0 c f} (hf : ∀ {t x1}, Kept s t → Kept s (f t x1)) (h : Kept s t) (hi : isPowerOn c = false :=
  by rfl) : Kept s (t.onRequest k t0 c f) := by
  unfold State.onRequest
  split
  · exact access_kept (fun h => hf (dropArrived_kept h)) h hi
  · exact h

theorem remoteRead_kept {k p} (h : Kept s t) : Kept s (t.remoteRead k p) := by
  unfold State.remoteRead
  extract_lets a n g t1 bad r
  have hg : Kept s g.1 := remoteAllowed_kept h
  have ht1 : Kept s t1 := hg
  have hr : Kept s r.1 := readAt_kept ht1
  split
  · exact kslSend_kept ht1
  · split
    · exact kslSend_kept hr
    · exact kslSend_kept hr
    · exact kslSend_kept (linkErr_kept hr)

theorem poisonPayload_kept {a n bad} (h : Kept s t) : Kept s (t.poisonPayload a n bad) := Kept.foldl poisonAt_kept h

theorem remoteWrite_kept {k p} (h : Kept s t) : Kept s (t.remoteWrite k p) := by
  unfold State.remoteWrite
  extract_lets a n g t1 held r
  have hg : Kept s g.1 := remoteAllowed_kept h
  have ht1 : Kept s t1 := hg
  have hr : Kept s r.1 := writeAt_kept ht1
  split
  · exact kslSend_kept ht1
  · exact Kept.ite (kslSend_kept (Kept.ite (poisonPayload_kept hr) hr)) (kslSend_kept (linkErr_kept hr))

theorem msgRing_kept {k src flow b bad} (h : Kept s t) : Kept s (t.msgRing k src flow b bad).1 := by
  unfold State.msgRing
  extract_lets prod cons a head t1
  have ht1 : Kept s t1 := modKsl_kept (poisonPayload_kept (poke_kept h))
  split
  · exact bump_kept (orReg_kept h)
  · exact raise_kept ht1

theorem evtArrive_kept {k p} (h : Kept s t) : Kept s (t.evtArrive k p) := by
  unfold State.evtArrive
  split
  · exact Kept.ite (kslQueue_kept h) (routeDrop_kept h)
  · exact Kept.ite (kslSend_kept (msgRing_kept h)) (msgRing_kept h)

theorem refRefuse_kept {k cause} (h : Kept s t) : Kept s (t.refRefuse k cause) := setReg_kept (bump_kept h)

theorem refWrite_kept {k i p} (h : Kept s t) : Kept s (t.refWrite k i p) := by
  unfold State.refWrite
  extract_lets t1 t2
  have ht2 : Kept s t2 := modSlot_kept (writeSlotTile_kept h)
  exact Kept.ite (raise_kept (modSlot_kept (Kept.same ht2))) ht2

theorem refTile_kept {k p} (h : Kept s t) : Kept s (t.refTile k p) := by
  unfold State.refTile
  extract_lets r pic ptp t1
  split
  · exact refRefuse_kept h
  · split
    · exact refRefuse_kept h
    · split
      · exact refRefuse_kept h
      · split
        · exact refRefuse_kept h
        · split
          · exact raiseRec_kept (refRefuse_kept (Kept.same h))
          · split
            · exact Kept.ite (refRefuse_kept h) (refWrite_kept h)
            · split
              · exact refRefuse_kept h
              · extract_lets mine
                split
                · exact refRefuse_kept h
                · exact refWrite_kept (modSlot_kept h)

theorem timeSend_kept {k sub seq time} (h : Kept s t) : Kept s (t.timeSend k sub seq time) := sluOffer_kept h

theorem assign_kept {k p} (h : Kept s t) : Kept s (t.assign k p) :=
  Kept.ite (enumSend_kept (setDir_kept h)) (Kept.ite (enumSend_kept h) (Kept.ite (enumSend_kept h) (enumStart_kept h)))

/-! ### Host commands -/

theorem takeCommand_kept {h0 fields f} (hf : ∀ {t x1}, Kept s t → Kept s (f t x1)) (h : Kept s t) : Kept s (t.takeCommand h0 fields f) :=
  Kept.ite (Kept.ite h (hf (setReg_kept (Kept.same (readArea_kept h))))) h

theorem judge_kept {h0 op fields range legal pending f} (hf : ∀ {t x1}, Kept s t → Kept s (f t x1)) (h : Kept s t) : Kept s (t.judge h0 op fields
    range legal pending f) := by
  unfold State.judge
  split
  · exact h
  · exact takeCommand_kept (fun h => Kept.ite (post_kept h) (Kept.ite (post_kept h) (Kept.ite (post_kept h) (hf (Kept.ite (post_kept h) h))))) h

theorem done_kept {p status value} (h : Kept s t) : Kept s (t.done p status value) := post_kept h

theorem enterImage_kept {k entry} (h : Kept s t) : Kept s (t.enterImage k entry) := by
  unfold State.enterImage
  split
  · exact h
  · exact h
  · exact modCore_kept h

theorem copyImage_kept {a b} (h : Kept s t) : Kept s (t.copyImage a b) := Kept.foldl poisonAt_kept (poke_kept h)

theorem enterProgram_kept {p b} (h : Kept s t) : Kept s (t.enterProgram p b) := by
  unfold State.enterProgram
  extract_lets t1 mask t2
  have ht1 : Kept s t1 := Kept.ite (discardBanks_kept (endProgram_kept h)) h
  have ht2 : Kept s t2 := modTake_kept ht1
  exact Kept.foldl (fun h => Kept.ite (enterImage_kept h) h) ht2

theorem loadImage_kept {p a n} (h : Kept s t) : Kept s (t.loadImage p a n) :=
  Kept.ite (done_kept (copyImage_kept (readArea_kept h))) (enterProgram_kept (copyImage_kept (readArea_kept h)))

theorem roll_kept (h : Kept s t) : Kept s t.roll :=
  Kept.foldl (fun h => ledgerDo_kept (addRecord_kept (Kept.foldl modLog_kept h))) (moveTake_kept (modTake_kept h))

theorem freeCount_kept {n} (h : Kept s t) : Kept s { t with freeCount := n } := h.same

theorem closeTake_kept (h : Kept s t) : Kept s t.closeTake := by
  unfold State.closeTake
  extract_lets setup t1 t2 t3
  have ht1 : Kept s t1 := discardBanks_kept (closeSlots_kept (stopStreams_kept (endProgram_kept h)))
  have ht2 : Kept s t2 := Kept.foldl (fun h => modMag_kept (magReopen_kept h)) ht1
  have ht3 : Kept s t3 := moveTake_kept (modTake_kept ht2)
  exact postOwed_kept (freeCount_kept ht3)

theorem abortTake_kept (h : Kept s t) : Kept s t.abortTake := by
  unfold State.abortTake
  exact postOwed_kept (freeCount_kept (modTake_kept (moveTake_kept (stopTake_kept h))))

theorem playStart_kept {c k p} (h : Kept s t) : Kept s (t.playStart c k p) := by
  unfold State.playStart
  extract_lets t1 t2 t3 t4
  have ht2 : Kept s t2 := modSession_kept h
  have ht3 : Kept s t3 := by
    unfold t3
    split
    · exact modSlot_kept ht2
    · exact ht2
  have ht4 : Kept s t4 := poke_kept ht3
  exact Kept.ite (playBegin_kept (poke_kept ht4)) ht4

theorem tagCmd_kept {c} (h : Kept s t) : Kept s { t with tagCmd := c } := h.same

theorem setTag_kept {p b off} (h : Kept s t) : Kept s (t.setTag p b off) := by
  unfold State.setTag
  extract_lets n seq t1 hnd t2 busy t3 t4 t5 st t6
  have ht1 : Kept s t1 := cisAlloc_kept (freeCount_kept h)
  have ht3 : Kept s t3 := setReg_kept (setReg_kept (poke_kept ht1))
  have ht4 : Kept s t4 := Kept.ite ht3 (tagCmd_kept ht3)
  have ht5 : Kept s t5 := closeGate_kept (tagRequest_kept ht4)
  have ht6 : Kept s t6 := cisFree_kept ht5
  exact Kept.ite (done_kept ht1) (Kept.ite ht5 (done_kept (Kept.ite ht6 (tagCmd_kept ht6))))

/-! ### Spares -/

theorem avs_kept {mv acks} (h : Kept s t) : Kept s (t.avs mv acks) := Kept.ite h (Kept.ite (Kept.same (Kept.same h)) (threshold_kept (Kept.same h)))

theorem aged_kept {k v} (h : Kept s t) : Kept s (t.aged k v) := by
  unfold State.aged
  extract_lets old crosses t1 t2
  have ht1 : Kept s t1 := setReg_kept h
  have ht2 : Kept s t2 := Kept.ite (threshold_kept ht1) ht1
  exact Kept.ite ht2 (Kept.ite (orReg_kept ht2) (propose_kept ht2))

theorem execute_kept {kind run} (hrun : ∀ {t a b}, Kept s t → Kept s (run t a b).1) (h : Kept s t) : Kept s (t.execute kind run) := by
  unfold State.execute
  split
  · exact h
  · exact Kept.ite (startExec_kept (moveProposal_kept h)) (startExec_kept (moveProposal_kept (hrun h)))

theorem coreMap_kept {v} (h : Kept s t) : Kept s { t with coreMap := v } := h.same

theorem swapCore_kept {target x2} (h : Kept s t) : Kept s (t.swapCore target x2).1 := by
  unfold State.swapCore
  split
  · exact h
  · exact (releaseCores_kept (modRas_kept (coreMap_kept (resetCore_kept h)))).fst

theorem retireLane_kept {target x2} (h : Kept s t) : Kept s (t.retireLane target x2).1 := by
  unfold State.retireLane
  exact Kept.fst (modRas_kept (setReg64_kept h))

theorem remap_kept {target x2} (h : Kept s t) : Kept s (t.remap target x2).1 := by
  unfold State.remap
  exact Kept.fst (modRas_kept (kslState_kept h))

theorem repairSram_kept {x1 x2} (h : Kept s t) : Kept s (t.repairSram x1 x2).1 := by
  unfold State.repairSram
  exact Kept.fst (modRas_kept h)

theorem repairRow_kept {target row} (h : Kept s t) : Kept s (t.repairRow target row) :=
  raise_kept (orReg_kept (modChn_kept (Kept.foldl (fun h => dram_kept (noteWords_kept h) (scrubWord_wf · _)) h)))

/-! ### A fabric cycle -/

theorem tickEngines_kept {n} (h : Kept s t) : Kept s (t.tickEngines n) := Kept.ite h (Kept.foldl setEngine_kept h)


theorem clk_kept {clk cku} (h : Kept s t) : Kept s { t with clk := clk, cku := cku } := h.same

theorem tick_kept (h : Kept s t) : Kept s t.tick := by
  unfold State.tick
  extract_lets p t1 c t2 t3
  have ht2 : Kept s t2 := flumeTick_kept h
  have ht3 : Kept s t3 := tickEngines_kept (clk_kept ht2)
  exact Kept.ite (watchdogExpires_kept ht3) (Kept.ite (faultTake_kept ht3) (Kept.ite (hbLoss_kept ht3) ht3))

/-! ### Commands and steps -/

/-- What an outcome leaves of `s` where it is a next state. -/
def Leaves (s : State) (o : Host.Outcome State Fault Refusal) : Prop := ∀ u, o = .next u → Kept s u

theorem Leaves.next (h : Kept s t) : Leaves s (.next t) := by
  rintro _ ⟨⟩
  exact h

theorem thermalTrip_kept (h : Kept s t) : Kept s { t with supply := { t.supply with thermTripN := false } } :=
  h.trans ⟨id, fun _ => rfl, id⟩

theorem exec_kept {c} (kept : Kept s t) (hc : isPowerOn c = false) : Leaves s (exec c t) := by
  cases c with
  | loadProgram => exact .next (judge_kept (fun h => Kept.ite (done_kept h) (loadImage_kept h)) kept)
  | armCommand => exact .next (Kept.ite (hold_kept (armDefer_kept kept)) (judge_kept (fun h => done_kept (armTake_kept h)) kept))
  | roll => exact .next (judge_kept (fun h => done_kept (roll_kept h)) kept)
  | cut => exact .next (judge_kept (fun h => checkCut_kept (moveTake_kept (modTake_kept h))) kept)
  | close => exact .next (judge_kept (fun h => done_kept (closeTake_kept h)) kept)
  | abort => exact .next (judge_kept (fun h => done_kept (abortTake_kept h)) kept)
  | queryTakeState => exact .next (judge_kept done_kept kept)
  | querySlot => exact .next (judge_kept post_kept kept)
  | queryLedger => exact .next (Kept.ite kept (judge_kept done_kept kept))
  | play => exact .next (judge_kept (fun h => Kept.ite (done_kept (readArea_kept h)) (playStart_kept (post_kept (readArea_kept h)))) kept)
  | stopPlay => exact .next (judge_kept (fun h => done_kept (letSlot_kept (modSession_kept h))) kept)
  | enumerate => exact .next (judge_kept (fun h => Kept.ite (raise_kept (done_kept h)) (Kept.ite (done_kept h) (enumStart_kept (modKsl_kept h))))
      kept)
  | setTag => exact .next (judge_kept (fun h => Kept.ite (done_kept (readArea_kept h)) (setTag_kept (readArea_kept h))) kept)
  | maintPatchLoad => exact .next (judge_kept (fun h => Kept.ite (raise_kept (done_kept h)) (Kept.same (readArea_kept h))) kept)
  | maintApprove =>
    refine .next ?_
    refine judge_kept (fun h => ?_) kept
    split
    · exact done_kept h
    · exact Kept.ite (done_kept (moveProposal_kept h)) (startExec_kept (done_kept (moveProposal_kept h)))
  | maintReject =>
    refine .next ?_
    refine judge_kept (fun h => ?_) kept
    split
    · exact done_kept h
    · exact done_kept (moveProposal_kept h)
  | maintSpareStatus => exact .next (Kept.ite kept (judge_kept done_kept kept))
  | commandTailWrite => exact .next (regAccess_kept tailWrite_kept kept)
  | ringEnable => exact .next (regAccess_kept (fun h => Kept.ite h (sizeWrite_kept h)) kept)
  | ringDisable => exact .next (regAccess_kept sizeWrite_kept kept)
  | heartbeat => exact .next (regAccess_kept beat_kept kept)
  | heartbeatLoss => exact .next (hbLoss_kept kept)
  | setupTimeout => exact .next (Kept.ite (faultTake_kept kept) kept)
  | add => exact .next (runDsn_kept opA_kept kept)
  | sub => exact .next (runDsn_kept opA_kept kept)
  | and => exact .next (runDsn_kept opA_kept kept)
  | or => exact .next (runDsn_kept opA_kept kept)
  | xor => exact .next (runDsn_kept opA_kept kept)
  | andn => exact .next (runDsn_kept opA_kept kept)
  | sll => exact .next (runDsn_kept opA_kept kept)
  | srl => exact .next (runDsn_kept opA_kept kept)
  | sra => exact .next (runDsn_kept opA_kept kept)
  | ror => exact .next (runDsn_kept opA_kept kept)
  | min => exact .next (runDsn_kept opA_kept kept)
  | max => exact .next (runDsn_kept opA_kept kept)
  | minu => exact .next (runDsn_kept opA_kept kept)
  | maxu => exact .next (runDsn_kept opA_kept kept)
  | slt => exact .next (runDsn_kept opA_kept kept)
  | sltu => exact .next (runDsn_kept opA_kept kept)
  | addsat => exact .next (runDsn_kept opA_kept kept)
  | subsat => exact .next (runDsn_kept opA_kept kept)
  | clz => exact .next (runDsn_kept opA_kept kept)
  | popc => exact .next (runDsn_kept opA_kept kept)
  | cmp => exact .next (runDsn_kept (fun h => nextPc_kept (putFl_kept h)) kept)
  | mul => exact .next (runDsn_kept opA_kept kept)
  | mulh => exact .next (runDsn_kept opA_kept kept)
  | mulhu => exact .next (runDsn_kept opA_kept kept)
  | divs => exact .next (runDsn_kept opA_kept kept)
  | divu => exact .next (runDsn_kept opA_kept kept)
  | rems => exact .next (runDsn_kept opA_kept kept)
  | remu => exact .next (runDsn_kept opA_kept kept)
  | fxmul => exact .next (runDsn_kept opA_kept kept)
  | addi => exact .next (runDsn_kept putD_kept kept)
  | andi => exact .next (runDsn_kept putD_kept kept)
  | ori => exact .next (runDsn_kept putD_kept kept)
  | xori => exact .next (runDsn_kept putD_kept kept)
  | shi => exact .next (runDsn_kept putD_kept kept)
  | cmpi => exact .next (runDsn_kept (fun h => nextPc_kept (putFl_kept h)) kept)
  | callr => exact .next (runDsn_kept (fun h => setPc_kept (setD_kept h)) kept)
  | liz => exact .next (runDsn_kept putD_kept kept)
  | lii => exact .next (runDsn_kept putD_kept kept)
  | lin => exact .next (runDsn_kept putD_kept kept)
  | ldb => exact .next (runDsn_kept load_kept kept)
  | ldbs => exact .next (runDsn_kept load_kept kept)
  | ldh => exact .next (runDsn_kept load_kept kept)
  | ldhs => exact .next (runDsn_kept load_kept kept)
  | ldw => exact .next (runDsn_kept load_kept kept)
  | ldws => exact .next (runDsn_kept load_kept kept)
  | ldd => exact .next (runDsn_kept load_kept kept)
  | stb => exact .next (runDsn_kept store'_kept kept)
  | sth => exact .next (runDsn_kept store'_kept kept)
  | stw => exact .next (runDsn_kept store'_kept kept)
  | std => exact .next (runDsn_kept store'_kept kept)
  | bcc => exact .next (runDsn_kept (fun h => Kept.ite (setPc_kept h) (nextPc_kept h)) kept)
  | calli => exact .next (runDsn_kept (fun h => setPc_kept (setD_kept h)) kept)
  | fence => exact .next (runDsn_kept nextPc_kept kept)
  | ifence => exact .next (runDsn_kept nextPc_kept kept)
  | cacheWriteBack => exact .next (runDsn_kept cacheOp_kept kept)
  | cacheInvalidate => exact .next (runDsn_kept cacheOp_kept kept)
  | cacheWriteBackInvalidate => exact .next (runDsn_kept cacheOp_kept kept)
  | cacheInstructionInvalidate => exact .next (runDsn_kept nextPc_kept kept)
  | mfsr => exact .next (runDsn_kept (fun h => atPriv_kept putD_kept h) kept)
  | mtsr => exact .next (runDsn_kept (fun h => atPriv_kept (fun h => nextPc_kept (sysWrite_kept h)) h) kept)
  | rfx => exact .next (runDsn_kept (fun h => atPriv_kept returnFromException_kept h) kept)
  | strec => exact .next (onTabor_kept (fun h => retSt_kept (lockedSt_kept (strec_kept h))) kept)
  | commit => exact .next (onTabor_kept (fun h => retSt_kept (commitMask_kept h)) kept)
  | arm => exact .next (onTabor_kept (fun h => Kept.ite (hold_kept (armDefer_kept h)) (retSt_kept (armTake_kept h))) kept)
  | mark => exact .next (onTabor_kept markInstr_kept kept)
  | markQuery => exact .next (onTabor_kept (fun h => Kept.ite (retSt_kept h) (retSt_kept h)) kept)
  | ledg => exact .next (onTabor_kept retSt_kept kept)
  | ledgSnapshot => exact .next (onTabor_kept (fun h => retSt_kept (modCore_kept h)) kept)
  | waite => exact .next (runDsn_kept waitEvent_kept kept)
  | waiteTimeout =>
    refine .next ?_
    split
    · exact Kept.ite (endWait_kept (claimSource_kept kept)) (endWait_kept kept)
    · exact kept
  | dbell => exact .next (runDsn_kept (fun h => evcAccess_kept (fun h => Kept.ite (doorbell_kept (raise_kept (nextPc_kept (putStatus_kept h))))
      (nextPc_kept (putStatus_kept h))) h) kept)
  | evdone => exact .next (runDsn_kept (fun h => evcAccess_kept (fun h => Kept.ite (complete_kept (nextPc_kept (putStatus_kept h))) (nextPc_kept
      (putStatus_kept h))) h) kept)
  | lcadd => exact .next (onTabor_kept lockOp_kept kept)
  | lcswp => exact .next (onTabor_kept lockOp_kept kept)
  | lccas => exact .next (onTabor_kept lockOp_kept kept)
  | registerWrite => exact .next (onCsr_kept csrWrite_kept kept)
  | readClear => exact .next (onCsr_kept csrRead_kept kept)
  | pairLoRead => exact .next (onCsr_kept csrRead_kept kept)
  | pairHiWrite => exact .next (onCsr_kept csrWrite_kept kept)
  | keyGate => exact .next (regAccess_kept keyGate_kept kept)
  | keyLock => exact .next (regAccess_kept keyLock_kept kept)
  | topDebugWrite => exact .next (regAccess_kept topDebug_kept kept)
  | debugHalt => exact .next (regAccess_kept topDbgCtrl_kept kept)
  | debugRelease => exact .next (regAccess_kept topDbgCtrl_kept kept)
  | topTagGo => exact .next (regAccess_kept tagGo_kept kept)
  | topTagDone => exact .next (regAccess_kept tagDone_kept kept)
  | nvsWrite => exact .next (nvsWrite_kept kept)
  | evcClaim => exact .next (regAccess_kept claimRead_kept kept)
  | evcDone => exact .next (regAccess_kept doneWrite_kept kept)
  | evcSrcCfgWrite => exact .next (regAccess_kept writeSrcCfg_kept kept)
  | evcDisable => exact .next (regAccess_kept writeDisable_kept kept)
  | levelLineChange => exact .next (lineSampled_kept kept)
  | kalsalClaim => exact .next (kalsalClaim_kept kept)
  | ckuStart => exact .next (access_kept ckuWrite_kept kept)
  | ckuSeed => exact .next (access_kept ckuWrite_kept kept)
  | ckuFeed => exact .next (access_kept ckuFeed_kept kept)
  | ckuSnoopReq => exact .next (access_kept ckuSnoop_kept kept)
  | ckuSnoopBeat => exact .next (ckuSeeBeat_kept kept)
  | alloc =>
    refine .next ?_
    split
    · exact cisAlloc_kept kept
    · split
      · exact kept
      · exact hold_kept kept
  | free => exact .next (cisAccess_kept (fun h => Kept.ite (pageDenied_kept h) (cisFree_kept h)) kept)
  | give => exact .next (cisAccess_kept (fun h => Kept.ite (pageDenied_kept h) (cisGive_kept h)) kept)
  | dmaChainStart => exact .next (dmaStart_kept kept)
  | dmaDescriptorFetch => exact .next (dmaFetch_kept kept)
  | dmaBurst => exact .next (dmaIssue_kept kept)
  | dmaResponse => exact .next (dmaAnswer_kept kept)
  | dmaTimeout => exact .next (dmaExpire_kept kept)
  | flumeRequest => exact .next (flumeRequest_kept kept)
  | dramRequest => exact .next (Kept.ite (hold_kept kept) (dramAccept_kept kept))
  | dramCommand => exact .next (dramNext_kept kept)
  | agePromotion => exact .next (promote_kept kept)
  | refreshOwed => exact .next (Kept.ite (modChn_kept kept) kept)
  | forcedRefresh => exact .next (Kept.ite (forceRefresh_kept kept) kept)
  | mr4Read => exact .next (Kept.ite (modChn_kept kept) kept)
  | wckOscillatorRead => exact .next (track_kept kept)
  | zqLatch => exact .next (track_kept kept)
  | pageIdleClose => exact .next (modChn_kept kept)
  | trainingCommit => exact .next (trainCommit_kept kept)
  | fspChange => exact .next (fspRequest_kept kept)
  | scrubStep => exact .next (scrub_kept kept)
  | pictureStart => exact .next (snsPacket_kept snsBegin_kept kept)
  | line => exact .next (snsPacket_kept snsLine_kept kept)
  | pictureEnd => exact .next (snsPacket_kept snsPictureEnd_kept kept)
  | picTimeout => exact .next (Kept.ite (snsEnd_kept (snsEvent_kept kept)) kept)
  | bankRetire => exact .next (Kept.ite (Kept.same kept) kept)
  | sensorDownWait => exact .next (Kept.ite (snsSet_kept (snsAssign_kept kept)) kept)
  | sensorEqualizeDone => exact .next (Kept.ite (snsEye_kept (snsSet_kept (modLink_kept kept))) kept)
  | sensorAlignDone => exact .next (Kept.ite (snsSet_kept (modLink_kept kept)) kept)
  | sensorTrainTimeout => exact .next (Kept.ite (snsLaneFail_kept (snsDown_kept (orReg_kept kept))) kept)
  | sensorLinkLoss => exact .next (Kept.ite (snsDown_kept kept) kept)
  | openPicture => exact .next (openPicture_kept kept)
  | dispatchBand => exact .next (dispatchBand_kept kept)
  | chargeBand => exact .next (chargeBand_kept kept)
  | closePicture => exact .next (closePicture_kept kept)
  | spillDrain => exact .next (drainSpill_kept kept)
  | writeSubmit => exact .next (submitUnit_kept kept)
  | flush => exact .next (submitFlush_kept kept)
  | datasetManagement => exact .next (submitDsm_kept kept)
  | nvmeCompletion => exact .next (nvmeComplete_kept kept)
  | nvmeTimeout => exact .next (nvmeExpire_kept kept)
  | magPresenceLost => exact .next (Kept.ite kept (magDown_kept (magEvent_kept (modMag_kept (magPowerOff_kept kept)))))
  | magPresenceStable => exact .next (Kept.ite (bump_kept (modMag_kept kept)) kept)
  | magPowerGood => exact .next (Kept.ite (modMag_kept kept) kept)
  | magPowerTimeout => exact .next (Kept.ite (magFault_kept kept) kept)
  | magOvercurrent => exact .next (Kept.ite (magFault_kept kept) kept)
  | magPerstRelease => exact .next (Kept.ite (modMag_kept kept) kept)
  | magLinkUp => exact .next (Kept.ite (Kept.ite (magRefuse_kept (modMag_kept kept)) (modMag_kept kept)) kept)
  | magLinkTimeout => exact .next (Kept.ite (magFail_kept kept) kept)
  | magLinkLost => exact .next (Kept.ite (magFail_kept (modMag_kept kept)) kept)
  | magEject =>
    refine .next ?_
    extract_lets t1 p
    have ht1 : Kept s t1 := magEvent_kept (orReg_kept kept)
    exact Kept.ite ht1 (Kept.ite (ejectNext_kept (modMag_kept ht1)) (modMag_kept ht1))
  | magShutdownTimeout => exact .next (ejectEnd_kept kept)
  | tileDispatch => exact .next (tileDispatch_kept kept)
  | safePointRequest => exact .next (toSafePoint_kept kept)
  | statisticsSnapshot => exact .next (Kept.foldl snapshotEngine_kept kept)
  | tileCommit => exact .next (tileCommit_kept kept)
  | teFault => exact .next (teUpset_kept kept)
  | patchLoadCommit => exact .next (patchCommit_kept kept)
  | spareSwapIn => exact .next (spareSwap_kept kept)
  | controlStoreScrub => exact .next (scrubCommit_kept kept)
  | referenceSlotMove => exact .next (slotMove_kept kept)
  | slotRelease =>
    refine .next ?_
    split
    · exact releaseSlot_kept kept
    · exact kept
  | shortEviction => exact .next (evict_kept kept)
  | viewSlotExpiry => exact .next (expireView_kept kept)
  | proxyRow => exact .next (proxyRow_kept kept)
  | rtcpSenderReport => exact .next (Kept.ite (sluOffer_kept kept) kept)
  | playbackTileDecode => exact .next (playTile_kept kept)
  | pictureOutput => exact .next (pictureOutput_kept kept)
  | playProgress => exact .next (playProgress_kept kept)
  | accessUnitDecode => exact .next (decodeUnit_kept kept)
  | jitterExpiry => exact .next (passMarked_kept (passUnit_kept kept))
  | ethFrameReceive => exact .next (ethFrame_kept kept)
  | ethLinkChange => exact .next (ethLink_kept kept)
  | ptpSync => exact .next (Kept.ite (Kept.same kept) kept)
  | ptpFollowUp => exact .next (Kept.ite (Kept.same kept) kept)
  | ptpDelayResp => exact .next (Kept.ite (Kept.ite (timeOffset_kept (Kept.same kept)) (Kept.same kept)) kept)
  | ptpAnnounce => exact .next (Kept.ite (Kept.ite (netRaise_kept (Kept.same kept)) (Kept.same kept)) kept)
  | ptpDelayReq => exact .next (Kept.ite (sluOffer_kept (Kept.same kept)) kept)
  | announceReceiptTimeout => exact .next (Kept.ite (netRaise_kept (orReg_kept (Kept.same kept))) kept)
  | sluicePick => exact .next (sluPick_kept kept)
  | tokenAccrual => exact .next (sluAccrue_kept kept)
  | kslFlitReceive => exact .next (flitReceive_kept kept)
  | kslFlitTransmit => exact .next (flitTransmit_kept kept)
  | nakRepeat => exact .next (Kept.ite (modPort_kept kept) kept)
  | kslTrainingStep => exact .next (trainStep_kept kept)
  | kslTrainingTimeout => exact .next (trainTimeout_kept kept)
  | kslTrainingRetry => exact .next (Kept.ite (setLink_kept (modPort_kept kept)) kept)
  | kslLinkLoss => exact .next (linkDown_kept kept)
  | memRd => exact .next (onRequest_kept remoteRead_kept kept)
  | memWr => exact .next (onRequest_kept remoteWrite_kept kept)
  | msg => exact .next (onArrived_kept msgRing_kept kept)
  | evt => exact .next (onArrived_kept evtArrive_kept kept)
  | refTile => exact .next (onArrived_kept refTile_kept kept)
  | kslResponse => exact .next (onArrived_kept (fun h => Kept.ite (kslPumpAll_kept (modKsl_kept h)) (orReg_kept h)) kept)
  | remoteRequestTimeout => exact .next (Kept.ite (kslPumpAll_kept (bump_kept (orReg_kept (modKsl_kept kept)))) kept)
  | sync => exact .next (onArrived_kept (fun h => Kept.ite (timeSend_kept (modPort_kept h)) h) kept)
  | delayReq => exact .next (onArrived_kept (fun h => Kept.ite (timeSend_kept h) h) kept)
  | delayResp => exact .next (onArrived_kept (fun h => Kept.ite (timeOffset_kept h) h) kept)
  | timeSyncSend => exact .next (Kept.ite (timeSend_kept (modPort_kept kept)) kept)
  | assign => exact .next (onArrived_kept assign_kept kept)
  | report => exact .next (onArrived_kept (fun h => Kept.ite (enumAnswer_kept h) h) kept)
  | refuse => exact .next (onArrived_kept (fun h => Kept.ite (enumAnswer_kept h) h) kept)
  | enumerateTimeout =>
    refine .next ?_
    split
    · exact post_kept (modKsl_kept kept)
    · exact kept
  | slotBoundary => exact .next (slotBoundary_kept kept)
  | pllLocked => exact .next (Kept.ite (setPll_kept kept) kept)
  | pllLockTimeout => exact .next (Kept.ite (orReg_kept (setPll_kept kept)) kept)
  | pllRestart => exact .next (Kept.ite (setPll_kept kept) kept)
  | functionReady => exact .next (becomeReady_kept kept)
  | domainRequestWrite => exact .next (access_kept domainRequest_kept kept)
  | inrushWrite => exact .next (regAccess_kept inrush_kept kept)
  | coreRunWrite => exact .next (regAccess_kept coreRunWrite_kept kept)
  | sleepStandby => exact .next (regAccess_kept sleep_kept kept)
  | sleepOffWake => exact .next (regAccess_kept sleep_kept kept)
  | wake => exact .next (wakeUp_kept kept)
  | dramPwrOk => exact .next (Kept.ite (modHdg_kept kept) kept)
  | watchdogKick => exact .next (regAccess_kept (fun h => Kept.ite (Kept.same h) h) kept)
  | watchdogExpiry => exact .next (watchdogExpires_kept kept)
  | powerOnReset => exact nomatch hc
  | deviceReset => exact .next (deviceReset_kept kept)
  | softReset => exact .next (regAccess_kept (fun h => Kept.ite (keyed_kept deviceReset_kept h) h) kept)
  | referenceLost => exact .next (modHdg_kept kept)
  | thermalTrip => exact .next (thermalTrip_kept kept)
  | thermalLimit => exact .next (lineChange_kept kept)
  | avsCommand => exact .next (avs_kept kept)
  | taborSwapIn => exact .next (execute_kept swapCore_kept kept)
  | sensorLaneRetire => exact .next (execute_kept retireLane_kept kept)
  | kslLaneRemap => exact .next (execute_kept remap_kept kept)
  | sramRepair => exact .next (execute_kept repairSram_kept kept)
  | postPackageRepair =>
    refine .next (execute_kept (fun h => ?_) kept)
    split
    · exact (repairRow_kept h).fst
    · exact h
  | tapReset => exact .next (Kept.same kept)
  | extest => exact .next (Kept.same kept)
  | samplePreload => exact .next (Kept.same kept)
  | idcode => exact .next (Kept.same kept)
  | clamp => exact .next (Kept.same kept)
  | highz => exact .next (Kept.same kept)
  | bypass => exact .next (Kept.same kept)
  | referenceReturn => exact .next (modHdg_kept kept)
  | powerNotGood => exact .next (Kept.ite (magFault_kept kept) kept)
  | controllerReady => exact .next (Kept.ite (nvmeAdmin_kept (modMag_kept kept)) kept)
  | controllerReadyTimeout => exact .next (Kept.ite (magRefuse_kept kept) kept)
  | shutdownComplete => exact .next (ejectEnd_kept kept)
  | inboundRequest => exact .next (Kept.ite kept (orReg_kept kept))
  | sensorPacketDiscarded => exact .next (snsPacket_kept id kept)
  | agingMonitor => exact .next (aged_kept kept)
  | maintenanceRoutineStart => exact .next (maintStart_kept kept)
  | tapClock => exact .next (Kept.same kept)

/-- A power-on reset leaves the canonical form too (R430). -/
theorem powerOn_memWf {ch32 : Bool} {den : Fin 4} (w : s.memWf) (e : exec (.powerOnReset ch32 den) s = .next t) : t.memWf := by
  obtain rfl : { s.resetAll ch32 den 1 with supply := State.reset.supply } = t := by injection e
  exact (resetAll_kept (ch32 := ch32) (den := den) (cause := 1) (Kept.refl s)).form w

theorem exec_memWf {c : Instr} (w : s.memWf) (e : exec c s = .next t) : t.memWf := by
  by_cases mild : isPowerOn c = false
  · exact (exec_kept (Kept.refl s) mild t e).form w
  · cases c
    case powerOnReset ch32 den => exact powerOn_memWf w e
    all_goals exact absurd rfl mild

theorem isPowerOn_eq_false {c : Instr} (h : ∀ ch32 den, c ≠ .powerOnReset ch32 den) : isPowerOn c = false := by
  cases c
  case powerOnReset ch32 den => exact absurd rfl (h ch32 den)
  all_goals rfl

theorem ne_powerOnReset {c : Instr} (h : isPowerOn c = false) (ch32 : Bool) (den : Fin 4) : c ≠ .powerOnReset ch32 den := by
  rintro rfl
  exact nomatch h

/-- A held command that is released waited, and the state in which it runs keeps all of this. -/
theorem released_kept {r : Instr × State} (h : s.released = some r) : Kept s r.2 ∧ ∃ x ∈ s.onHold, x.cmd = r.1 := by
  unfold State.released at h
  split at h
  · rename_i x found
    obtain rfl := Option.some.inj h
    exact ⟨unstall_kept ((Kept.refl s).trans ⟨id, id, fun mild y hy => mild y (List.mem_of_mem_erase hy)⟩), x, List.mem_of_find?_eq_some found, rfl⟩
  · exact nomatch h

/-- Every step but that of a power-on reset keeps all of this. -/
theorem step_kept (mild : Mild s.onHold) (front : ∀ c ∈ s.pending.head?, isPowerOn c = false) (e : step s = .next t) : Kept s t := by
  unfold step at e
  split at e
  · split at e
    · rename_i r released
      obtain ⟨kept, x, waits, same⟩ := released_kept released
      exact exec_kept kept (same ▸ mild x waits) t e
    · obtain rfl : s.tick = t := by injection e
      exact tick_kept (Kept.refl s)
  · rename_i c rest queued
    exact exec_kept (t := { s with pending := rest }) (Kept.same (Kept.refl s)) (front c (by rw [queued]; rfl)) t e

end

/-- Settles O57: the command at the front, a released one or the cycle keeps the form. -/
theorem storesKeepForm : Obligations.StoresKeepForm := by
  intro s t w e
  unfold step at e
  split at e
  · split at e
    · rename_i r released
      exact exec_memWf ((released_kept released).1.form w) e
    · obtain rfl : s.tick = t := by injection e
      exact (tick_kept (Kept.refl s)).form w
  · rename_i c rest _
    exact exec_memWf (s := { s with pending := rest }) w e

/-- Settles O56: what every such step keeps. -/
theorem thermTripHolds : Obligations.ThermTripHolds := by
  intro s t quiet low waits front e
  have mild : Mild s.onHold := fun h mem => isPowerOn_eq_false (waits h mem)
  have kept : Kept s t := step_kept mild (fun c mem => isPowerOn_eq_false fun ch32 den same => front ch32 den (by rw [mem, same])) e
  exact ⟨kept.trip low, fun h mem => ne_powerOnReset (kept.mild mild h mem)⟩

end Sys2Proof.Proofs.Form

/-! Reads and writes of sound words of a store, and what they count (R301, R305, R546). -/

namespace Sys2Proof.Proofs.Stores

open Sys2Proof Sys2Proof.Machine Sys2Proof.Proofs.Coding

/-! ### Words and bytes -/

theorem mem_wordsOf {a n i : Nat} : i ∈ wordsOf a n ↔ n ≠ 0 ∧ a / 16 ≤ i ∧ i ≤ (a + n - 1) / 16 := by
  unfold wordsOf
  split
  · simp [*]
  · rw [mem_upFrom]
    omega

@[simp] theorem length_read (m : Store) (a n : Nat) : (m.read a n).length = n := by simp [Store.read]

theorem nth_read (m : Store) (a : Nat) {n i : Nat} (h : i < n) : nth 0 (m.read a n) i = m.readByte (a + i) := by
  simp [Store.read, nth_eq_getD, upFrom_eq_range', h]

theorem read_congr {m m' : Store} {a a' n : Nat} (h : ∀ i < n, m.readByte (a + i) = m'.readByte (a' + i)) : m.read a n = m'.read a' n := by
  refine List.ext_getElem (by simp) fun i hi hi' => ?_
  simp only [length_read] at hi
  simpa [Store.read, upFrom_eq_range'] using h i hi

/-- The bytes at `o` in a list that was read are those at `a + o`. -/
theorem sliceAt_read (m : Store) {a o n k : Nat} (h : o + k ≤ n) : sliceAt (m.read a n) o k = m.read (a + o) k := by
  refine List.ext_getElem (by simp [sliceAt]; omega) fun i hi hi' => ?_
  simp [sliceAt, Store.read, upFrom_eq_range', Nat.add_assoc]

theorem eq_read_iff {m : Store} {a : Nat} {b : List Byte} (h : ∀ i < b.length, m.readByte (a + i) = nth 0 b i) : m.read a b.length = b := by
  refine List.ext_getElem (by simp) fun i hi hi' => ?_
  simpa [Store.read, upFrom_eq_range', nth_eq_getD, hi'] using h i hi'

/-! ### Writes of sound words -/

/-- Bytes, syndromes and canonical form are as before. -/
def Alike (m m' : Store) : Prop := m'.wf ∧ (∀ k, m'.byte k = m.byte k) ∧ ∀ i, m'.syndrome i = m.syndrome i

theorem rewrite_alike {m : Store} (wf : m.wf) (a k : Nat) {i : Nat} (clean : m.syndrome i = 0) : Alike m (m.rewrite a k i) := by
  refine ⟨Store.rewrite_wf wf a k i, ?_⟩
  unfold Store.rewrite
  split
  · refine ⟨fun k => rfl, fun j => ?_⟩
    rw [Store.syndrome_setSyn wf]
    split
    · next same => rw [same, clean]
    · rfl
  · rw [clean]
    exact ⟨fun k => rfl, fun j => rfl⟩

theorem rewriteAll_alike (a k : Nat) {l : List Nat} {m : Store} (wf : m.wf) (clean : ∀ i ∈ l, m.syndrome i = 0) :
    Alike m (l.foldl (fun m i => m.rewrite a k i) m) := by
  induction l generalizing m with
  | nil => exact ⟨wf, fun _ => rfl, fun _ => rfl⟩
  | cons i l ih =>
    obtain ⟨wf', bytes, syns⟩ := rewrite_alike wf a k (clean i List.mem_cons_self)
    obtain ⟨wf'', bytes', syns'⟩ := ih wf' (fun j mem => (syns j).trans (clean j (List.mem_cons_of_mem _ mem)))
    exact ⟨wf'', fun j => (bytes' j).trans (bytes j), fun j => (syns' j).trans (syns j)⟩

section Write
variable {m : Store} {a : Nat} {b : List Byte} (wf : m.wf) (clean : ∀ i ∈ wordsOf a b.length, m.syndrome i = 0)
include wf clean

theorem syndrome_write (i : Nat) : (m.write a b).syndrome i = m.syndrome i := by
  rw [Store.write, Store.syndrome_put]
  exact (rewriteAll_alike a b.length wf clean).2.2 i

theorem byte_write (k : Nat) : (m.write a b).byte k = if a ≤ k ∧ k < a + b.length then nth 0 b (k - a) else m.byte k := by
  obtain ⟨wf', bytes, -⟩ := rewriteAll_alike a b.length wf clean
  rw [Store.write, Store.byte_put wf', bytes]

theorem readByte_write_same {i : Nat} (h : i < b.length) : (m.write a b).readByte (a + i) = nth 0 b i := by
  have sound : (m.write a b).syndrome ((a + i) / 16) = 0 := by
    rw [syndrome_write wf clean]
    exact clean _ (mem_wordsOf.mpr (by omega))
  rw [Store.readByte_clean sound, byte_write wf clean, if_pos (by omega), Nat.add_sub_cancel_left]

theorem readByte_write_other {k : Nat} (h : k < a ∨ a + b.length ≤ k) : (m.write a b).readByte k = m.readByte k := by
  simp only [Store.readByte, syndrome_write wf clean, byte_write wf clean, if_neg (show ¬(a ≤ k ∧ k < a + b.length) by omega)]

theorem read_write : (m.write a b).read a b.length = b := eq_read_iff fun _ h => readByte_write_same wf clean h

end Write

/-! ### What a read counts (R305) -/

theorem verdicts_clean {m : Store} {a n : Nat} (clean : ∀ i ∈ wordsOf a n, m.syndrome i = 0) : ∀ v ∈ m.verdicts a n, v = .clean := by
  intro v mem
  obtain ⟨i, hi, rfl⟩ := List.mem_map.mp mem
  rw [clean i hi]
  rfl

theorem verdicts_not_bad {m : Store} {a n : Nat} (clean : ∀ i ∈ wordsOf a n, m.syndrome i = 0) : (m.verdicts a n).any (·.bad) = false := by
  rw [List.any_eq_false]
  intro v mem
  rw [verdicts_clean clean v mem]
  decide

theorem noteWords_of_clean (s : State) (id : StoreId) {a n : Nat} (clean : ∀ i ∈ wordsOf a n, (s.store id).syndrome i = 0) :
    s.noteWords id a n = s := by
  unfold State.noteWords
  extract_lets m
  rw [State.siteWords_clean s _ _ (verdicts_clean clean)]
  generalize wordsOf a n = l at clean
  induction l with
  | nil => rfl
  | cons i l ih =>
    have v : verdict (m.syndrome i) = .clean := by rw [clean i List.mem_cons_self]; rfl
    rw [List.foldl_cons, v]
    cases id <;> exact ih fun j mem => clean j (List.mem_cons_of_mem _ mem)

theorem readStore_of_clean (s : State) (id : StoreId) {a n : Nat} (clean : ∀ i ∈ wordsOf a n, (s.store id).syndrome i = 0) :
    s.readStore id a n = (s, .ok (s.readBytes id a n)) := by
  unfold State.readStore
  rw [noteWords_of_clean s id clean, verdicts_not_bad clean]
  rfl

theorem writeStore_of_clean (s : State) (id : StoreId) {a : Nat} {b : List Byte}
    (clean : ∀ i ∈ partWords a b.length, (s.store id).syndrome i = 0) : s.writeStore id a b = s.setStore id ((s.store id).write a b) := by
  have counted : (partWords a b.length).foldl (fun t i => t.noteWords id (16 * i) 16) s = s := by
    generalize partWords a b.length = l at clean
    induction l with
    | nil => rfl
    | cons i l ih =>
      have own : ∀ j ∈ wordsOf (16 * i) 16, (s.store id).syndrome j = 0 := by
        intro j mem
        obtain rfl : j = i := by rw [mem_wordsOf] at mem; omega
        exact clean j List.mem_cons_self
      rw [List.foldl_cons, noteWords_of_clean s id own]
      exact ih fun j mem => clean j (List.mem_cons_of_mem _ mem)
  rw [State.writeStore, counted]

/-! ### Caches (R253) -/

theorem ctlSync_of_uncached {s : State} {a n : Nat} (uncached : ∀ (j : Fin 4) (l : CacheLine), l ∈ (vget s.cores j).dcache → l.ctlWithin a n = false)
    (drop : Bool) : s.ctlSync a n drop = s := by
  have none : s.cores.toList.flatMap (fun x => x.dcache.filter (fun l => l.ctlWithin a n)) = [] := by
    rw [List.flatMap_eq_nil_iff]
    intro x mem
    obtain ⟨j, hj, rfl⟩ := List.mem_iff_getElem.1 mem
    rw [Vector.length_toList] at hj
    refine List.filter_eq_nil_iff.2 fun l hl => ?_
    rw [uncached ⟨j, hj⟩ l (by simpa [vget, Vector.get_eq_getElem] using hl)]
    decide
  rw [State.ctlSync, none]
  rfl

end Sys2Proof.Proofs.Stores

/-! The data caches of the Tabor cores: loads, stores, CACHE operations and LOCK operations (R248 to R256, R264). -/

namespace Sys2Proof.Proofs.DataCache

open Sys2Proof Sys2Proof.Machine Sys2Proof.Claims Sys2Proof.Proofs.Coding Sys2Proof.Proofs.Densiten Sys2Proof.Proofs.Cores Sys2Proof.Proofs.Stores

/-! ### The address map (R322, R496) -/

theorem window_lt_cisBase (s : State) : s.window < cisBase := by
  have use : ∀ d : Fin 4, nth 0 [477167616, 954400768, 1908867072, 3817734144] d.1 ≤ 3817734144 := by decide
  have channels : s.nCh ≤ 32 := by unfold State.nCh; split <;> omega
  calc s.window ≤ 32 * 3817734144 := Nat.mul_le_mul channels (use s.hdg.den)
    _ < cisBase := by decide

theorem region_dram {s : State} {a : Nat} (h : a < s.window) : s.region a = .dram a := if_pos h

theorem region_ctl (s : State) {a : Nat} (lo : ctlBase ≤ a) (hi : a < ctlBase + 0x400000) : s.region a = .ctl (a - ctlBase) := by
  have below := window_lt_cisBase s
  have bases : cisBase = 0x010000000000 ∧ ctlBase = 0x020000000000 := ⟨rfl, rfl⟩
  unfold State.region
  rw [if_neg (by omega), if_neg (by omega), if_neg (by omega), if_neg (by omega), if_pos ⟨lo, hi⟩]

theorem region_far (s : State) {a : Nat} (h : 2 ^ 48 ≤ a) : s.region a = .nowhere := by
  have below := window_lt_cisBase s
  have bases : cisBase = 0x010000000000 ∧ ctlBase = 0x020000000000 ∧ nvsBase = 0x030000000000 ∧ csrBase = 0x0F0000000000 :=
    ⟨rfl, rfl, rfl, rfl⟩
  unfold State.region
  rw [if_neg (by omega), if_neg (by omega), if_neg (by omega), if_neg (by omega), if_neg (by omega), if_neg (by omega), if_neg (by omega)]

theorem lt_of_cached {s : State} {a : Nat} (h : (s.region a).cached = true) : a < 2 ^ 48 := by
  by_contra far
  rw [region_far s (by omega)] at h
  exact absurd h (by decide)

/-! ### Acceptance (R501) -/

theorem ringStalls_of_runs {s : State} {k : Fin 4} (run : Runs s (.tabor k)) : s.ringStalls (.core k) = false := by
  have executes := run.1
  simp only [State.executes, Bool.and_eq_true, Bool.not_eq_true'] at executes
  simpa [State.ringStalls] using executes.2

/-- An access through the cache is accepted when its way is READY. -/
theorem mayEnter_of_runs {s : State} {k : Fin 4} (run : Runs s (.tabor k)) {needs : List Nat} (ready : needs.all s.fnReady = true) :
    s.mayEnter (.core k) needs none = true := by
  rw [State.mayEnter, ringStalls_of_runs run, ready]
  rfl

/-! ### Lines (R253) -/

section Lines
variable {s : State} {k : Fin 4} {n : Nat} {l : CacheLine}

theorem line_of_cacheLine (h : s.cacheLine k n = some l) : l.line = n := by
  simpa using List.find?_some h

theorem cacheLine_eq_none (h : ∀ l ∈ (vget s.cores k).dcache, l.line ≠ n) : s.cacheLine k n = none :=
  List.find?_eq_none.mpr fun l mem => by simpa using h l mem

theorem cacheLine_dropLine_same (s : State) (k : Fin 4) (n : Nat) : (s.dropLine k n).cacheLine k n = none :=
  cacheLine_eq_none fun l mem => by
    simp only [State.dropLine, State.modCore_cores, vget_vmod_same, List.mem_filter, decide_eq_true_eq] at mem
    exact mem.2

theorem cacheLine_dropLine_ne (s : State) (k : Fin 4) {m : Nat} (h : m ≠ n) : (s.dropLine k n).cacheLine k m = s.cacheLine k m := by
  simp only [State.dropLine, State.cacheLine, State.modCore_cores, vget_vmod_same, List.find?_filter]
  congr 1
  funext l
  by_cases own : l.line = m
  · simp [own, h]
  · simp [own]

theorem find?_map_line (l : List CacheLine) (f : CacheLine → CacheLine) (keep : ∀ x, (f x).line = x.line) (m : Nat) :
    (l.map f).find? (fun x => x.line = m) = (l.find? (fun x => x.line = m)).map f := by
  rw [List.find?_map]
  congr 2
  funext x
  simp [keep]

theorem cacheLine_putLine_same (h : s.cacheLine k n = some l) {f : CacheLine → CacheLine} (keep : ∀ x, (f x).line = x.line) :
    (s.putLine k n f).cacheLine k n = some (f l) := by
  have own := line_of_cacheLine h
  simp only [State.cacheLine] at h
  simp only [State.putLine, State.cacheLine, State.modCore_cores, vget_vmod_same]
  rw [find?_map_line _ _ (fun x => by split <;> simp [keep]), h, Option.map_some, if_pos own]

theorem cacheLine_putLine_ne {m : Nat} (h : m ≠ n) {f : CacheLine → CacheLine} (keep : ∀ x, (f x).line = x.line) :
    (s.putLine k n f).cacheLine k m = s.cacheLine k m := by
  simp only [State.putLine, State.cacheLine, State.modCore_cores, vget_vmod_same]
  rw [find?_map_line _ _ (fun x => by split <;> simp [keep])]
  cases found : (vget s.cores k).dcache.find? (fun x => x.line = m) with
  | none => rfl
  | some x =>
    have own : x.line = m := by simpa using List.find?_some found
    rw [Option.map_some, if_neg (by omega)]

theorem badWords_of_sound (sound : Sound l.mem) : l.badWords = [] :=
  List.filter_eq_nil_iff.mpr fun i _ => by rw [sound]; decide

@[simp] theorem getPc_dropLine (s : State) (k : Fin 4) (n : Nat) : (s.dropLine k n).getPc (.tabor k) = s.getPc (.tabor k) := by
  simp [State.dropLine, State.getPc]

@[simp] theorem getPc_putLine (s : State) (k : Fin 4) (n : Nat) (f : CacheLine → CacheLine) :
    (s.putLine k n f).getPc (.tabor k) = s.getPc (.tabor k) := by
  simp [State.putLine, State.getPc]

end Lines

/-! ### CACHE operations and fences (R252, R255, R256) -/

/-- No control SRAM line covers the DRAM window. -/
theorem ctlWithin_of_window {s : State} {l : CacheLine} {a n : Nat} (h : a + n ≤ s.window) : l.ctlWithin a n = false := by
  have below := window_lt_cisBase s
  have bases : cisBase = 0x010000000000 ∧ ctlBase = 0x020000000000 := ⟨rfl, rfl⟩
  by_cases lo : ctlBase ≤ 64 * l.line
  · have off : ¬ 64 * l.line < a + n := by omega
    simp [CacheLine.ctlWithin, off]
  · simp [CacheLine.ctlWithin, lo]

theorem settleChan_of_none {s : State} {c : Nat} {i : Initiator} (none : ∀ q ∈ (s.chn c).queue, q.ini ≠ i) (a n fuel : Nat) :
    s.settleChan c i a n fuel = s := by
  cases fuel with
  | zero => rfl
  | succ fuel =>
    have found : (upFrom 0 (s.chn c).queue.length).find? (fun n' => ((s.chn c).queue.drop n').head?.any (fun r =>
        decide (r.ini = i) && decide (a / 64 ≤ r.addr / 64) && decide (r.addr / 64 ≤ (a + n - 1) / 64))) = Option.none := by
      refine List.find?_eq_none.mpr fun j _ => ?_
      cases head : ((s.chn c).queue.drop j).head? with
      | none => simp
      | some q => simp [none q (List.mem_of_mem_drop (List.mem_of_mem_head? head))]
    unfold State.settleChan
    simp only [found]

theorem settle_of_none {s : State} {i : Initiator} (none : ∀ (c : Nat) (q : DramReq), q ∈ (s.chn c).queue → q.ini ≠ i) (a n : Nat) :
    s.settle i a n = s := by
  unfold State.settle
  split
  · generalize [s.chanOf a, s.chanOf (a + n - 1)].dedup = cs
    induction cs with
    | nil => rfl
    | cons c cs ih => rw [List.foldl_cons, settleChan_of_none (none c), ih]
  · rfl

theorem partWords_line (n : Nat) : partWords (64 * n) 64 = [] := by
  refine List.filter_eq_nil_iff.mpr fun i mem => ?_
  rw [mem_wordsOf] at mem
  simp
  omega

section WriteBack
variable {s : State} {k : Fin 4} {l : CacheLine}

theorem writeBack_of_clean (clean : l.dirty = false) : s.writeBack k l = s := by rw [State.writeBack, clean]; rfl

/-- A dirty sound line of the DRAM window goes to DRAM whole. -/
theorem writeBack_of_dirty (dirty : l.dirty = true) (sound : Sound l.mem) (window : 64 * l.line + 64 ≤ s.window)
    (noExt : ∀ i : Nat, s.extBuf i = none) (none : ∀ (c : Nat) (q : DramReq), q ∈ (s.chn c).queue → q.ini ≠ .core k) :
    s.writeBack k l = ({ s with dram := s.dram.write (64 * l.line) (l.mem.read 0 64) } : State).putLine k l.line
      (fun y => { y with dirty := false }) := by
  have dram : s.region (64 * l.line) = .dram (64 * l.line) := region_dram (by omega)
  have wrote : s.memWrite (.core k) (64 * l.line) (l.mem.read 0 64) =
      ({ s with dram := s.dram.write (64 * l.line) (l.mem.read 0 64) }, true) := by
    simp only [State.memWrite, dram, Region.cell, State.touchOk, noExt, length_read, if_true]
    rw [ctlSync_of_uncached (fun _ _ _ => ctlWithin_of_window window), settle_of_none none,
      writeStore_of_clean s .dram (by simp [partWords_line])]
    rfl
  rw [State.writeBack, if_pos dirty, wrote, badWords_of_sound sound]
  rfl

/-- What the write-back of a dirty sound line of the DRAM window leaves. -/
theorem writeBack_spec (held : s.cacheLine k l.line = some l) (dirty : l.dirty = true) (sound : Sound l.mem) (window : 64 * l.line + 64 ≤ s.window)
    (noExt : ∀ i : Nat, s.extBuf i = none) (none : ∀ (c : Nat) (q : DramReq), q ∈ (s.chn c).queue → q.ini ≠ .core k) :
    (s.writeBack k l).dram = s.dram.write (64 * l.line) (l.mem.read 0 64) ∧
    (s.writeBack k l).cacheLine k l.line = some { l with dirty := false } ∧ (s.writeBack k l).ctlSram = s.ctlSram ∧
    (s.writeBack k l).regs = s.regs ∧ (s.writeBack k l).getPc (.tabor k) = s.getPc (.tabor k) := by
  rw [writeBack_of_dirty dirty sound window noExt none]
  generalize s.dram.write (64 * l.line) (l.mem.read 0 64) = m
  have held' : ({ s with dram := m } : State).cacheLine k l.line = some l := held
  exact ⟨rfl, cacheLine_putLine_same held' fun _ => rfl, rfl, rfl, getPc_putLine _ _ _ _⟩

end WriteBack

theorem cacheOp_enters {s : State} {k : Fin 4} (run : Runs s (.tabor k)) (x : FmtX) (back drop : Bool) (i : Instr)
    (ready : ∀ l, s.cacheLine k ((s.getD (.tabor k) x.ra).toNat / 64) = some l → back = true → l.dirty = true →
      (s.pathNeeds (.core k) (64 * ((s.getD (.tabor k) x.ra).toNat / 64))).all s.fnReady = true) :
    s.cacheOp (.tabor k) x back drop i =
      (let t := match s.cacheLine k ((s.getD (.tabor k) x.ra).toNat / 64) with
        | some l => if back then s.writeBack k l else s
        | none => s
      (if drop then t.dropLine k ((s.getD (.tabor k) x.ra).toNat / 64) else t).nextPc (.tabor k)) := by
  unfold State.cacheOp
  dsimp only
  rw [mayEnter_of_runs run]
  · rfl
  · split
    · next l held =>
      split
      · next both =>
        rw [Bool.and_eq_true] at both
        exact ready l held both.1 both.2
      · rfl
    · rfl

theorem cacheOp_of_clean {s : State} {k : Fin 4} (run : Runs s (.tabor k)) {x : FmtX} (i : Instr)
    (clean : ∀ l, s.cacheLine k ((s.getD (.tabor k) x.ra).toNat / 64) = some l → l.dirty = false) :
    s.cacheOp (.tabor k) x true false i = s.nextPc (.tabor k) := by
  rw [cacheOp_enters run x true false i fun l held _ dirty => by rw [clean l held] at dirty; exact absurd dirty (by decide)]
  cases held : s.cacheLine k ((s.getD (.tabor k) x.ra).toNat / 64) with
  | none => rfl
  | some l => simp [writeBack_of_clean (clean l held)]

theorem cacheOp_invalidate {s : State} {k : Fin 4} (run : Runs s (.tabor k)) (x : FmtX) (i : Instr) :
    s.cacheOp (.tabor k) x false true i = (s.dropLine k ((s.getD (.tabor k) x.ra).toNat / 64)).nextPc (.tabor k) := by
  rw [cacheOp_enters run x false true i fun _ _ back => absurd back (by decide)]
  cases s.cacheLine k ((s.getD (.tabor k) x.ra).toNat / 64) <;> rfl

theorem cacheOp_of_dirty {s : State} {k : Fin 4} (run : Runs s (.tabor k)) (x : FmtX) (drop : Bool) (i : Instr) {l : CacheLine}
    (held : s.cacheLine k ((s.getD (.tabor k) x.ra).toNat / 64) = some l)
    (ready : (s.pathNeeds (.core k) (64 * ((s.getD (.tabor k) x.ra).toNat / 64))).all s.fnReady = true) :
    s.cacheOp (.tabor k) x true drop i =
      (if drop then (s.writeBack k l).dropLine k ((s.getD (.tabor k) x.ra).toNat / 64) else s.writeBack k l).nextPc (.tabor k) := by
  rw [cacheOp_enters run x true drop i fun _ _ _ _ => ready, held]
  rfl

@[simp] theorem cacheLine_nextPc (s : State) (k : Fin 4) (n : Nat) : (s.nextPc (.tabor k)).cacheLine k n = s.cacheLine k n := by
  simp [State.nextPc, State.setPc, State.cacheLine]

/-- Settles O10: each operation by what `cacheOp` leaves in its case. -/
theorem fencesAndCache : Obligations.FencesAndCache := by
  intro k x s run rd rb c line
  have plain (n : Nat) (ra : x.ra = 0) (sub : x.sub.toNat = n) : fmtXPlain x false false false n = true := by
    simp [fmtXPlain, rd, ra, rb, sub]
  have cache {n : Nat} (sub : x.sub.toNat = n) : (isTabor c && fmtXPlain x false true false n) = true := by
    simp [fmtXPlain, rd, rb, sub, isTabor, c]
  refine ⟨fun ra sub => next_runDsn_legal run (plain 0 ra (by rw [sub]; rfl)) rfl, fun ra sub => next_runDsn_legal run (plain 1 ra (by rw [sub]; rfl)) rfl,
    fun sub => next_runDsn_legal run (cache (by rw [sub]; rfl)) rfl,
    fun sub clean => next_runDsn_legal run (cache (by rw [sub]; rfl)) (cacheOp_of_clean run _ clean),
    fun sub => ⟨_, next_runDsn_legal run (cache (by rw [sub]; rfl)) (cacheOp_invalidate run x _), ?_, fun n h => ?_, rfl, rfl, rfl, ?_⟩,
    fun l held dirty sound window noExt ready none => ?_⟩
  · rw [cacheLine_nextPc]
    exact cacheLine_dropLine_same s k line
  · rw [cacheLine_nextPc]
    exact cacheLine_dropLine_ne s k h
  · rw [State.getPc_nextPc_tabor, getPc_dropLine]
  · have own : l.line = line := line_of_cacheLine held
    obtain ⟨dram, line', ctl, regs, pc⟩ := writeBack_spec (own ▸ held) dirty sound (own ▸ window) noExt none
    rw [own] at dram line'
    refine ⟨fun sub => ⟨_, next_runDsn_legal run (cache (by rw [sub]; rfl)) (cacheOp_of_dirty run x false _ held ready), ?_⟩,
      fun sub => ⟨_, next_runDsn_legal run (cache (by rw [sub]; rfl)) (cacheOp_of_dirty run x true _ held ready), ?_⟩⟩
    · rw [if_neg (by decide)]
      exact ⟨dram, (cacheLine_nextPc _ _ _).trans (line'.trans (by rw [← own])), ctl, regs, (State.getPc_nextPc_tabor _ _).trans (congrArg (· + 4) pc)⟩
    · exact ⟨dram, (cacheLine_nextPc _ _ _).trans (cacheLine_dropLine_same _ k line), ctl, regs,
        (State.getPc_nextPc_tabor _ _).trans (congrArg (· + 4) ((getPc_dropLine _ _ _).trans pc))⟩

end Sys2Proof.Proofs.DataCache

/-! Loads and stores of the Tabor cores (R242, R248 to R250, R253). -/

namespace Sys2Proof.Proofs.Loads

open Sys2Proof Sys2Proof.Machine Sys2Proof.Claims Sys2Proof.Proofs.Coding Sys2Proof.Proofs.Densiten Sys2Proof.Proofs.Cores
open Sys2Proof.Proofs.Stores Sys2Proof.Proofs.DataCache

/-! ### The value loaded (R248) -/

theorem signExtend_ofNat {w v : Nat} (hw : 0 < w) (h : v < 2 ^ w) :
    (BitVec.ofNat w v).signExtend 64 = if 2 ^ (w - 1) ≤ v then BitVec.ofInt 64 ((v : Int) - 2 ^ w) else BitVec.ofNat 64 v := by
  have half : 2 ^ w = 2 * 2 ^ (w - 1) := by rw [← Nat.pow_succ', Nat.succ_eq_add_one, Nat.sub_add_cancel hw]
  rw [BitVec.signExtend, BitVec.toInt_eq_toNat_cond, BitVec.toNat_ofNat, Nat.mod_eq_of_lt h]
  by_cases low : v < 2 ^ (w - 1)
  · rw [if_pos (by omega), if_neg (by omega), BitVec.ofInt_natCast]
  · rw [if_neg (by omega), if_pos (by omega)]
    push_cast
    rfl

theorem loadValue_eq_loaded {n : Nat} {b : List Byte} (len : b.length = n) (pos : 0 < n) (g : Bool) : loadValue n g b = loaded n g b := by
  have bound : leNat b < 2 ^ (8 * n) := by
    rw [Nat.pow_mul, ← len]
    exact leNat_lt b
  unfold loadValue loaded
  cases g with
  | false => rfl
  | true => simp [signExtend_ofNat (by omega) bound]

/-! ### The address (R242, R249, R266) -/

section Address
variable {s : State} {k : Fin 4}

theorem cached_cases {r : Region} (h : r.cached = true) : (∃ o, r = .dram o) ∨ (∃ o, r = .cis o) ∨ ∃ o, r = .ctl o := by
  cases r <;> simp_all [Region.cached]

theorem misaligned_of_mod {a n : Nat} (h : a % n ≠ 0) : s.misaligned a n = true := by simp [State.misaligned, h]

theorem not_misaligned {a n : Nat} (h : a % n = 0) (off : (s.region a).cached = true ∨ s.region a = .nowhere) : s.misaligned a n = false := by
  unfold State.misaligned
  rw [decide_eq_false (not_not_intro h), Bool.false_or]
  split
  · next o csr =>
    rw [csr] at off
    exact absurd off (by simp [Region.cached])
  · rfl

theorem p0Denied_p1 (p1 : s.atP1 (.tabor k) = true) (a : Nat) (w : Bool) : s.p0Denied k a w = false := by simp [State.p0Denied, p1]

section Cached
variable {a n : Nat} (p1 : s.atP1 (.tabor k) = true) (cached : (s.region a).cached = true) (align : a % n = 0)
include p1 cached align

theorem devAddr_of_cached (w : Bool) : s.devAddr (.tabor k) a n w = some a := by
  simp only [State.devAddr, not_misaligned align (.inl cached), p0Denied_p1 p1, decide_eq_false (not_le.mpr (lt_of_cached cached))]
  rfl

theorem taborRead_of_cached {addr : DWord} (ha : addr.toNat = a) : s.taborRead k addr n = s.cacheRead k a n := by
  unfold State.taborRead
  simp only [ha, not_misaligned align (.inl cached), p0Denied_p1 p1, if_neg (not_le.mpr (lt_of_cached cached)), Bool.false_eq_true, if_false]
  obtain ⟨o, h⟩ | ⟨o, h⟩ | ⟨o, h⟩ := cached_cases cached <;> rw [h]

theorem taborWrite_of_cached {addr : DWord} (ha : addr.toNat = a) {b : List Byte} (len : b.length = n) :
    s.taborWrite k addr b = (s.cacheWrite k a b, none) := by
  unfold State.taborWrite
  simp only [ha, len, not_misaligned align (.inl cached), p0Denied_p1 p1, if_neg (not_le.mpr (lt_of_cached cached)), Bool.false_eq_true, if_false]
  obtain ⟨o, h⟩ | ⟨o, h⟩ | ⟨o, h⟩ := cached_cases cached <;> rw [h]

theorem coreAccess_of_ready {addr : DWord} (ha : addr.toNat = a) (run : Runs s (.tabor k)) (ready : (s.lineNeeds k a).all s.fnReady = true) (w : Bool)
    (i : Instr) (f : State → State) : s.dataAccess (.tabor k) addr.toNat n w i f = f s := by
  have region : s.region a ≠ .nowhere := fun none => by
    rw [none] at cached
    exact absurd cached (by decide)
  have needs : s.coreNeeds (.tabor k) a = (s.lineNeeds k a, none) := by simp [State.coreNeeds, region, cached]
  rw [State.dataAccess, ha, devAddr_of_cached p1 cached align w]
  simp only [State.coreAccess, needs, coreIni]
  rw [mayEnter_of_runs run ready, if_pos rfl]

end Cached
end Address

/-! ### A line in the cache (R250, R253) -/

section Line
variable {s t : State} {k : Fin 4} {a n : Nat} {l : CacheLine}

theorem hitRead_of_sound (held : s.cacheLine k (a / 64) = some l) (sound : Sound l.mem) :
    s.hitRead k a n = (s, .data (l.mem.read (a % 64) n)) := by
  have clean : ∀ i ∈ wordsOf (a % 64) n, l.mem.syndrome i = 0 := fun i _ => sound i
  simp only [State.hitRead, held, verdicts_not_bad clean, State.siteWords_clean s siteTabor _ (verdicts_clean clean)]
  rfl

theorem fetchLine_of_held (held : s.cacheLine k (a / 64) = some l) : s.fetchLine k a = (s, true) := by
  unfold State.fetchLine
  rw [held]

/-- A load from the line that its fetch leaves held. -/
theorem cacheRead_of_fetched (fetch : s.fetchLine k a = (t, true)) (held : t.cacheLine k (a / 64) = some l) (sound : Sound l.mem) :
    s.cacheRead k a n = (t, .data (l.mem.read (a % 64) n)) := by
  simp only [State.cacheRead, fetch, if_true, hitRead_of_sound held sound]

/-- The other cores lose the control SRAM line at `a` (R253). -/
def takeLine (s : State) (k : Fin 4) (a : Nat) : State :=
  (upFrom 0 4).foldl (fun s j =>
    if j = k.1 then s
    else s.modCore (fin 4 j) (fun x => { x with dcache := x.dcache.filter (fun l => !(decide (l.line = a / 64) && l.ctlWithin a 1)) })) s

theorem takeLine_spec (s : State) (k : Fin 4) (a : Nat) : (∃ cores, takeLine s k a = { s with cores := cores }) ∧
    vget (takeLine s k a).cores k = vget s.cores k := by
  have others : ∀ j ∈ upFrom 0 4, j < 4 := fun j mem => by rw [mem_upFrom] at mem; omega
  unfold takeLine
  generalize upFrom 0 4 = js at others
  induction js generalizing s with
  | nil => exact ⟨⟨s.cores, rfl⟩, rfl⟩
  | cons j js ih =>
    rw [List.foldl_cons]
    obtain ⟨⟨cores, same⟩, own⟩ := ih (if j = k.1 then s else s.modCore (fin 4 j) (fun x =>
      { x with dcache := x.dcache.filter (fun l => !(decide (l.line = a / 64) && l.ctlWithin a 1)) })) fun i mem => others i (List.mem_cons_of_mem _ mem)
    rw [own, same]
    split
    · exact ⟨⟨cores, rfl⟩, rfl⟩
    · next ne =>
      have apart : fin 4 j ≠ k := fun same => ne (by rw [← same]; simp [fin]; have := others j List.mem_cons_self; omega)
      exact ⟨⟨cores, rfl⟩, by rw [State.modCore_cores, vget_vmod_ne _ apart.symm]⟩

theorem cacheWrite_of_fetched (fetch : s.fetchLine k a = (t, true)) (held : t.cacheLine k (a / 64) = some l) (sound : Sound l.mem) (b : List Byte) :
    s.cacheWrite k a b = takeLine (t.putLine k (a / 64) (fun l => { l with mem := l.mem.write (a % 64) b, dirty := true })) k a := by
  have clean : ∀ v ∈ (partWords (a % 64) b.length).map (fun i => verdict (l.mem.syndrome i)), v = .clean := fun v mem => by
    obtain ⟨i, -, rfl⟩ := List.mem_map.mp mem
    rw [sound i]
    rfl
  unfold State.cacheWrite
  simp only [fetch, held, Option.map_some, Option.getD_some, State.siteWords_clean t siteTabor _ clean]
  rfl

end Line

/-! ### Loads and stores whose line is fetched -/

section Fetched
variable {s t : State} {k : Fin 4} {f : FmtM} {a n : Nat} {l : CacheLine} (run : Runs s (.tabor k)) (p1 : s.atP1 (.tabor k) = true)
  (ha : (s.addrM (.tabor k) f).toNat = a) (cached : (s.region a).cached = true) (align : a % n = 0)
  (ready : (s.lineNeeds k a).all s.fnReady = true) (fetch : s.fetchLine k a = (t, true)) (held : t.cacheLine k (a / 64) = some l)
  (sound : Sound l.mem)
include run p1 ha cached align ready fetch held sound

theorem load_of_fetched (pos : 0 < n) (g : Bool) (i : Instr) :
    s.load (.tabor k) f n g i = (t.setD (.tabor k) f.rt (loaded n g (l.mem.read (a % 64) n))).nextPc (.tabor k) := by
  unfold State.load
  dsimp only
  rw [coreAccess_of_ready p1 cached align ha run ready]
  simp only [State.coreRead]
  rw [taborRead_of_cached p1 cached align ha, cacheRead_of_fetched fetch held sound]
  simp only [loadValue_eq_loaded (length_read _ _ _) pos, State.putD]

theorem store_of_fetched (i : Instr) : s.store' (.tabor k) f n i =
    (takeLine (t.putLine k (a / 64) (fun l => { l with mem := l.mem.write (a % 64) (leBytes n (s.getD (.tabor k) f.rt).toNat), dirty := true }))
      k a).nextPc (.tabor k) := by
  unfold State.store'
  dsimp only
  rw [coreAccess_of_ready p1 cached align ha run ready]
  simp only [State.coreWrite]
  rw [taborWrite_of_cached p1 cached align ha (length_leBytes _ _), cacheWrite_of_fetched fetch held sound]

end Fetched

/-- What a store to a held line leaves. -/
theorem stored_spec {t : State} {k : Fin 4} {a : Nat} {l : CacheLine} (held : t.cacheLine k (a / 64) = some l) (b : List Byte) :
    let u := (takeLine (t.putLine k (a / 64) (fun l => { l with mem := l.mem.write (a % 64) b, dirty := true })) k a).nextPc (.tabor k)
    u.getPc (.tabor k) = t.getPc (.tabor k) + 4 ∧
    u.cacheLine k (a / 64) = some { l with mem := l.mem.write (a % 64) b, dirty := true } ∧
    (∀ m, m ≠ a / 64 → u.cacheLine k m = t.cacheLine k m) ∧
    u.dram = t.dram ∧ u.ctlSram = t.ctlSram ∧ u.cisSram = t.cisSram ∧ (∀ r, u.getD (.tabor k) r = t.getD (.tabor k) r) ∧
    u.getFl (.tabor k) = t.getFl (.tabor k) ∧ u.regs = t.regs := by
  intro u
  obtain ⟨⟨cores, rest⟩, own⟩ := takeLine_spec
    (t.putLine k (a / 64) (fun l => { l with mem := l.mem.write (a % 64) b, dirty := true })) k a
  refine ⟨?_, ?_, fun m h => ?_, ?_, ?_, ?_, fun r => ?_, ?_, ?_⟩
  · rw [State.getPc_nextPc_tabor]
    simp only [State.getPc, own]
    simp [State.putLine]
  · rw [cacheLine_nextPc, State.cacheLine, own]
    exact cacheLine_putLine_same held fun _ => rfl
  · rw [cacheLine_nextPc, State.cacheLine, own]
    exact cacheLine_putLine_ne h fun _ => rfl
  · exact (congrArg State.dram rest :)
  · exact (congrArg State.ctlSram rest :)
  · exact (congrArg State.cisSram rest :)
  · rw [State.getD_nextPc]
    simp only [State.getD, own]
    simp [State.putLine]
  · rw [State.getFl_nextPc]
    simp only [State.getFl, own]
    simp [State.putLine]
  · exact (congrArg State.regs rest :)

/-! ### Control SRAM (R253) -/

theorem vset_vset {α : Type} {n : Nat} (v : Vector α n) (i : Fin n) (x y : α) : vset (vset v i x) i y = vset v i y := by
  simp [vset]

section Fill
variable {s : State} {k : Fin 4} {a : Nat}

/-- The line that leaves is clean: nothing is written. -/
theorem fillLine_of_clean (clean : ∀ v, s.victim k = some v → v.dirty = false) (line : Nat) (b : List Byte) :
    ∃ rest n, s.fillLine k line b [] = ({ s with freeCount := n } : State).modCore k (fun x =>
      { x with dcache := { line := line, mem := Store.empty.put 0 b, dirty := false } :: rest }) := by
  unfold State.fillLine
  cases leaves : s.victim k with
  | none => exact ⟨(vget s.cores k).dcache, s.freeCount + 1, by simp [State.modCore, vmod, lineStore]⟩
  | some v =>
    refine ⟨(vget s.cores k).dcache.filter (fun l => l.line ≠ v.line), s.freeCount + 1, ?_⟩
    simp only [writeBack_of_clean (clean v leaves)]
    simp [State.dropLine, State.modCore, vmod, lineStore, vset_vset]

theorem fetchLine_of_ctl (lo : ctlBase ≤ a) (hi : a < ctlBase + 0x400000) (none : s.cacheLine k (a / 64) = none) (sound : Sound s.ctlSram)
    (uncached : Uncached s (a / 64 * 64) 64) :
    s.fetchLine k a = (s.fillLine k (a / 64) (s.ctlSram.read ((a - ctlBase) / 64 * 64) 64) [], true) := by
  have base : ctlBase = 64 * 0x800000000 := rfl
  have region : s.region (a / 64 * 64) = .ctl ((a - ctlBase) / 64 * 64) := by
    rw [region_ctl s (by omega) (by omega), show a / 64 * 64 - ctlBase = (a - ctlBase) / 64 * 64 by omega]
  have read : s.memRead (.core k) (a / 64 * 64) 64 = (s, .ok (s.ctlSram.read ((a - ctlBase) / 64 * 64) 64)) := by
    simp only [State.memRead, region, Region.cell, State.touchOk, if_true]
    rw [ctlSync_of_uncached uncached, State.settle, region]
    exact readStore_of_clean s .ctl fun i _ => sound i
  unfold State.fetchLine
  simp only [none, read]

theorem line_byte {m : Store} (b : Nat) {i : Nat} (h : i < 64) : (Store.empty.put 0 (m.read b 64)).readByte i = m.readByte (b + i) := by
  rw [Store.readByte_clean (by rw [Store.syndrome_put]; rfl), Store.byte_put Store.empty_wf]
  simpa [h] using nth_read m b h

theorem line_sound (b : List Byte) : Sound (Store.empty.put 0 b) := fun i => by
  rw [Store.syndrome_put]
  rfl

/-- The line of control SRAM that a fetch brings in; nothing else that a program sees changes. -/
theorem fetched_ctl (lo : ctlBase ≤ a) (hi : a < ctlBase + 0x400000) (sound : Sound s.ctlSram) (uncached : Uncached s (a / 64 * 64) 64)
    (clean : ∀ v, s.victim k = some v → v.dirty = false) : ∃ t, s.fetchLine k a = (t, true) ∧
    t.cacheLine k (a / 64) = some { line := a / 64, mem := Store.empty.put 0 (s.ctlSram.read ((a - ctlBase) / 64 * 64) 64), dirty := false } ∧
    (t.getPc (.tabor k) = s.getPc (.tabor k) ∧ t.dram = s.dram ∧ t.ctlSram = s.ctlSram ∧ t.cisSram = s.cisSram ∧
      t.getFl (.tabor k) = s.getFl (.tabor k) ∧ t.regs = s.regs) ∧ ∀ r, t.getD (.tabor k) r = s.getD (.tabor k) r := by
  have base : ctlBase = 64 * 0x800000000 := rfl
  have none : s.cacheLine k (a / 64) = none := cacheLine_eq_none fun l mem same => by
    have apart := uncached k l mem
    simp only [CacheLine.ctlWithin, same, Bool.and_eq_false_iff, decide_eq_false_iff_not] at apart
    omega
  obtain ⟨rest, n, filled⟩ := fillLine_of_clean clean (a / 64) (s.ctlSram.read ((a - ctlBase) / 64 * 64) 64)
  refine ⟨_, fetchLine_of_ctl lo hi none sound uncached, ?_⟩
  rw [filled]
  refine ⟨?_, ⟨?_, rfl, rfl, rfl, ?_, rfl⟩, fun r => ?_⟩
  · simp [State.cacheLine]
  all_goals simp [State.getPc, State.getFl, State.getD]

end Fill

@[simp] theorem cacheLine_setD (s : State) (c : Core) (r : Fin 32) (v : DWord) (k : Fin 4) (m : Nat) :
    (s.setD c r v).cacheLine k m = s.cacheLine k m := by
  cases c with
  | bellhouse => rfl
  | tabor j =>
    by_cases own : k = j
    · simp [State.cacheLine, State.setD, own]
    · simp [State.cacheLine, State.setD, vget_vmod_ne _ own]

/-- The way to control SRAM is READY, and the line that leaves is clean. -/
theorem lineNeeds_ready {s : State} {k : Fin 4} {a : Nat} (flume : s.fnReady 8 = true) (ctl : s.fnReady 3 = true) (lo : ctlBase ≤ a)
    (hi : a < ctlBase + 0x400000) (clean : ∀ v, s.victim k = some v → v.dirty = false) : (s.lineNeeds k a).all s.fnReady = true := by
  have path : s.pathNeeds (.core k) a = [8, 3] := by rw [State.pathNeeds, region_ctl s lo hi]
  unfold State.lineNeeds
  split
  · rfl
  · cases leaves : s.victim k with
    | none => simp [path, flume, ctl]
    | some v => simp [path, flume, ctl, clean v leaves]

/-! ### What a load or a store gives -/

section Gives
variable {s : State} {k : Fin 4} {f : FmtM} {a n : Nat}

/-- A load from control SRAM gives its bytes; the line is held from then on. -/
theorem load_of_ctl (run : Runs s (.tabor k)) (p1 : s.atP1 (.tabor k) = true) (flume : s.fnReady 8 = true) (ctl : s.fnReady 3 = true)
    (sound : Sound s.ctlSram) (clean : ∀ v, s.victim k = some v → v.dirty = false) (ha : (s.addrM (.tabor k) f).toNat = a)
    (lo : ctlBase ≤ a) (hi : a < ctlBase + 0x400000) (uncached : Uncached s (a / 64 * 64) 64) (align : a % n = 0) (fits : a % 64 + n ≤ 64)
    (pos : 0 < n) (g : Bool) (i : Instr) : let t := s.load (.tabor k) f n g i
    (t.getPc (.tabor k) = s.getPc (.tabor k) + 4 ∧ t.dram = s.dram ∧ t.ctlSram = s.ctlSram ∧ t.cisSram = s.cisSram ∧
      t.getFl (.tabor k) = s.getFl (.tabor k) ∧ t.regs = s.regs) ∧
    t.getD (.tabor k) f.rt = loaded n g (s.ctlSram.read (a - ctlBase) n) ∧ (∀ r, r ≠ f.rt → t.getD (.tabor k) r = s.getD (.tabor k) r) ∧
    ∃ l, t.cacheLine k (a / 64) = some l ∧ l.dirty = false ∧ l.mem.read 0 64 = s.ctlSram.read ((a - ctlBase) / 64 * 64) 64 := by
  have base : ctlBase = 64 * 0x800000000 := rfl
  have cached : (s.region a).cached = true := by rw [region_ctl s lo hi]; rfl
  have ready : (s.lineNeeds k a).all s.fnReady = true := lineNeeds_ready flume ctl lo hi clean
  obtain ⟨t, fetch, held, ⟨pc, dram, ctlSram, cisSram, fl, regs⟩, d⟩ := fetched_ctl (k := k) lo hi sound uncached clean
  have same : (Store.empty.put 0 (s.ctlSram.read ((a - ctlBase) / 64 * 64) 64)).read (a % 64) n = s.ctlSram.read (a - ctlBase) n :=
    read_congr fun j hj => by
      rw [line_byte _ (by omega), show (a - ctlBase) / 64 * 64 + (a % 64 + j) = a - ctlBase + j by omega]
  dsimp only
  rw [load_of_fetched run p1 ha cached align ready fetch held (line_sound _) pos g i, same]
  refine ⟨⟨?_, dram, ctlSram, cisSram, ?_, regs⟩, ?_, fun r h => ?_, ⟨_, (cacheLine_nextPc _ _ _).trans ((cacheLine_setD _ _ _ _ _ _).trans held), rfl, ?_⟩⟩
  · rw [State.getPc_nextPc_tabor, State.getPc_setD, pc]
  · rw [State.getFl_nextPc, State.getFl_setD, fl]
  · rw [State.getD_nextPc, State.getD_setD_tabor, if_pos rfl]
  · rw [State.getD_nextPc, State.getD_setD_tabor, if_neg h, d]
  · exact read_congr fun j hj => by rw [Nat.zero_add, line_byte _ hj]

theorem store_of_ctl (run : Runs s (.tabor k)) (p1 : s.atP1 (.tabor k) = true) (flume : s.fnReady 8 = true) (ctl : s.fnReady 3 = true)
    (sound : Sound s.ctlSram) (clean : ∀ v, s.victim k = some v → v.dirty = false) (ha : (s.addrM (.tabor k) f).toNat = a)
    (lo : ctlBase ≤ a) (hi : a < ctlBase + 0x400000) (uncached : Uncached s (a / 64 * 64) 64) (align : a % n = 0)
    (i : Instr) : let t := s.store' (.tabor k) f n i
    (t.getPc (.tabor k) = s.getPc (.tabor k) + 4 ∧ t.dram = s.dram ∧ t.ctlSram = s.ctlSram ∧ t.cisSram = s.cisSram ∧
      t.getFl (.tabor k) = s.getFl (.tabor k) ∧ t.regs = s.regs) ∧ (∀ r, t.getD (.tabor k) r = s.getD (.tabor k) r) ∧
    ∃ l, t.cacheLine k (a / 64) = some l ∧ l.dirty = true ∧ l.mem.read (a % 64) n = leBytes n (s.getD (.tabor k) f.rt).toNat ∧
      (∀ b, b < 64 → b < a % 64 ∨ a % 64 + n ≤ b → l.mem.readByte b = s.ctlSram.readByte ((a - ctlBase) / 64 * 64 + b)) := by
  have cached : (s.region a).cached = true := by rw [region_ctl s lo hi]; rfl
  have ready : (s.lineNeeds k a).all s.fnReady = true := lineNeeds_ready flume ctl lo hi clean
  obtain ⟨t, fetch, held, ⟨pc, dram, ctlSram, cisSram, fl, regs⟩, d⟩ := fetched_ctl (k := k) lo hi sound uncached clean
  have wf : (Store.empty.put 0 (s.ctlSram.read ((a - ctlBase) / 64 * 64) 64)).wf := Store.put_wf Store.empty_wf _ _
  obtain ⟨pc', line, -, dram', ctl', cis', d', fl', regs'⟩ := stored_spec held (leBytes n (s.getD (.tabor k) f.rt).toNat)
  dsimp only
  rw [store_of_fetched run p1 ha cached align ready fetch held (line_sound _) i]
  refine ⟨⟨pc'.trans (by rw [pc]), dram'.trans dram, ctl'.trans ctlSram, cis'.trans cisSram, fl'.trans fl, regs'.trans regs⟩,
    fun r => (d' r).trans (d r), _, line, rfl, ?_, fun b hb other => ?_⟩
  · have back := read_write (a := a % 64) (b := leBytes n (s.getD (.tabor k) f.rt).toNat) wf fun i _ => line_sound _ i
    rwa [length_leBytes] at back
  · dsimp only
    rw [readByte_write_other wf (fun i _ => line_sound _ i) (by rwa [length_leBytes]), line_byte _ hb]

/-- A load and a store that raise exception `e` before they leave the core. -/
theorem access_faults {e : Nat} (no : ∀ w, s.devAddr (.tabor k) (s.addrM (.tabor k) f).toNat n w = none)
    (read : s.taborRead k (s.addrM (.tabor k) f) n = (s, .fault e))
    (write : ∀ b : List Byte, b.length = n → s.taborWrite k (s.addrM (.tabor k) f) b = (s, some e)) :
    (∀ g i, s.load (.tabor k) f n g i = s.exception (.tabor k) e (s.addrM (.tabor k) f)) ∧
    ∀ j, s.store' (.tabor k) f n j = s.exception (.tabor k) e (s.addrM (.tabor k) f) := by
  refine ⟨fun g i => ?_, fun j => ?_⟩
  · simp only [State.load, State.dataAccess, no, State.coreRead, read]
  · simp only [State.store', State.dataAccess, no, State.coreWrite, write _ (length_leBytes _ _)]

theorem faults_of_misaligned (off : (s.addrM (.tabor k) f).toNat % n ≠ 0) :
    (∀ g i, s.load (.tabor k) f n g i = s.exception (.tabor k) 6 (s.addrM (.tabor k) f)) ∧
    ∀ j, s.store' (.tabor k) f n j = s.exception (.tabor k) 6 (s.addrM (.tabor k) f) :=
  access_faults (by simp [State.devAddr, misaligned_of_mod off]) (by simp [State.taborRead, misaligned_of_mod off])
    (fun b len => by simp [State.taborWrite, len, misaligned_of_mod off])

theorem faults_of_far (align : (s.addrM (.tabor k) f).toNat % n = 0) (far : 2 ^ 48 ≤ (s.addrM (.tabor k) f).toNat) :
    (∀ g i, s.load (.tabor k) f n g i = s.exception (.tabor k) 7 (s.addrM (.tabor k) f)) ∧
    ∀ j, s.store' (.tabor k) f n j = s.exception (.tabor k) 7 (s.addrM (.tabor k) f) := by
  have fine := not_misaligned align (.inr (region_far s far))
  refine access_faults (fun w => ?_) ?_ (fun b len => ?_)
  · rw [State.devAddr, decide_eq_true far, Bool.or_true, Bool.true_or, if_pos rfl]
  · simp only [State.taborRead, fine, if_pos far, Bool.false_eq_true, if_false]
  · simp only [State.taborWrite, len, fine, if_pos far, Bool.false_eq_true, if_false]

end Gives

/-- A load and a store run as they stand on a Tabor core. -/
theorem gives_of_eq {s t : State} {c : Core} {legal : Bool} {effect : State → State} {i : Instr}
    (dsn : exec i s = .next (s.runDsn c legal effect)) (run : Runs s c) (ok : legal = true) (eq : effect s = t) : Gives i s t :=
  dsn.trans (next_runDsn_legal run ok eq)

/-- Settles O11: the three cases of an access by the lemmas of their loads and stores. -/
theorem controlSramAccess : Obligations.ControlSramAccess := by
  refine ⟨fun k f s l run p1 => ?_, fun k f s run p1 flume ctl sound clean => ?_, fun k f s run p1 => ?_⟩
  · intro c a cached held lineSound got put
    have ready : (s.lineNeeds k a).all s.fnReady = true := by simp [State.lineNeeds, held]
    have got' {n : Nat} (pos : 0 < n) (align : a % n = 0) (g : Bool) (i : Instr) : s.load c f n g i = got n g :=
      load_of_fetched run p1 rfl cached align ready (fetchLine_of_held held) held lineSound pos g i
    have put' {n : Nat} (align : a % n = 0) (i : Instr) (dsn : exec i s = .next (s.runDsn c true (fun s => s.store' c f n i))) : put i n :=
      ⟨_, gives_of_eq dsn run rfl (store_of_fetched run p1 rfl cached align ready (fetchLine_of_held held) held lineSound i), stored_spec held _⟩
    have one : a % 1 = 0 := Nat.mod_one a
    exact ⟨⟨gives_of_eq rfl run rfl (got' (by decide) one _ _), gives_of_eq rfl run rfl (got' (by decide) one _ _), put' one _ rfl⟩,
      fun two => ⟨gives_of_eq rfl run rfl (got' (by decide) two _ _), gives_of_eq rfl run rfl (got' (by decide) two _ _), put' two _ rfl⟩,
      fun four => ⟨gives_of_eq rfl run rfl (got' (by decide) four _ _), gives_of_eq rfl run rfl (got' (by decide) four _ _), put' four _ rfl⟩,
      fun eight => ⟨gives_of_eq rfl run rfl (got' (by decide) eight _ _), put' eight _ rfl⟩⟩
  · intro c a o lo hi uncached same got put
    have got' {n : Nat} (pos : 0 < n) (align : a % n = 0) (fits : a % 64 + n ≤ 64) (g : Bool) (i : Instr)
        (dsn : exec i s = .next (s.runDsn c true (fun s => s.load c f n g i))) : got i n g :=
      ⟨_, gives_of_eq dsn run rfl rfl, load_of_ctl run p1 flume ctl sound clean rfl lo hi uncached align fits pos g i⟩
    have put' {n : Nat} (align : a % n = 0) (i : Instr)
        (dsn : exec i s = .next (s.runDsn c true (fun s => s.store' c f n i))) : put i n :=
      ⟨_, gives_of_eq dsn run rfl rfl, store_of_ctl run p1 flume ctl sound clean rfl lo hi uncached align i⟩
    have one : a % 1 = 0 := Nat.mod_one a
    exact ⟨⟨got' (by decide) one (by omega) _ _ rfl, got' (by decide) one (by omega) _ _ rfl, put' one _ rfl⟩,
      fun two => ⟨got' (by decide) two (by omega) _ _ rfl, got' (by decide) two (by omega) _ _ rfl, put' two _ rfl⟩,
      fun four => ⟨got' (by decide) four (by omega) _ _ rfl, got' (by decide) four (by omega) _ _ rfl, put' four _ rfl⟩,
      fun eight => ⟨got' (by decide) eight (by omega) _ _ rfl, put' eight _ rfl⟩⟩
  · exact ⟨fun off => ⟨gives_of_eq rfl run rfl ((faults_of_misaligned off).1 _ _), gives_of_eq rfl run rfl ((faults_of_misaligned off).2 _)⟩,
      fun off => ⟨gives_of_eq rfl run rfl ((faults_of_misaligned off).1 _ _), gives_of_eq rfl run rfl ((faults_of_misaligned off).2 _)⟩,
      fun align far => ⟨gives_of_eq rfl run rfl ((faults_of_far align far).1 _ _), gives_of_eq rfl run rfl ((faults_of_far align far).2 _)⟩⟩

end Sys2Proof.Proofs.Loads

/-! LOCK operations (R264). -/

namespace Sys2Proof.Proofs.Locks

open Sys2Proof Sys2Proof.Machine Sys2Proof.Claims Sys2Proof.Proofs.Coding Sys2Proof.Proofs.Densiten Sys2Proof.Proofs.Cores
open Sys2Proof.Proofs.Stores Sys2Proof.Proofs.DataCache Sys2Proof.Proofs.Loads

/-! ### FL (R239) -/

theorem putSt_status (fl : DWord) : (putSt fl 0).extractLsb' 8 8 = 0 := by
  ext i hi
  interval_cases i <;> simp [putSt]

theorem putSt_flags (fl : DWord) (st : Byte) : (putSt fl st).extractLsb' 1 3 = fl.extractLsb' 1 3 := by
  ext i hi
  interval_cases i <;> simp [putSt]

theorem getElem_flagBit (b : Bool) (n : Nat) {j : Nat} (h : j < 64) : (flagBit b n)[j] = (b && decide (j = n)) := by
  cases b <;> simp [flagBit, BitVec.getElem_twoPow, eq_comm]

theorem putFlags_same (fl : DWord) (z : Bool) :
    (putFlags fl { z := z, s := flS fl, c := flC fl, o := flO fl }).extractLsb' 1 3 = fl.extractLsb' 1 3 := by
  ext i hi
  interval_cases i <;> simp [putFlags, getElem_flagBit, flS, flC, flO]

/-! ### The word (R264) -/

/-- FL after a LOCK operation, but for ST. -/
def lockFl (cas : Bool) (new : Option DWord) (fl : DWord) : DWord :=
  if cas then putFlags fl { z := new.isSome, s := flS fl, c := flC fl, o := flO fl } else fl

theorem lockFl_flags (cas : Bool) (new : Option DWord) (fl : DWord) : (lockFl cas new fl).extractLsb' 1 3 = fl.extractLsb' 1 3 := by
  unfold lockFl
  split
  · exact putFlags_same fl _
  · rfl

/-- Control SRAM after a LOCK operation. -/
def lockStore (m : Store) (o : Nat) : Option DWord → Store
  | some v => m.write o (leBytes 8 v.toNat)
  | none => m

/-- The number read back is the one written. -/
theorem leNat_leBytes_word (v : DWord) : BitVec.ofNat 64 (leNat (leBytes 8 v.toNat)) = v := by
  rw [leNat_leBytes, show 256 ^ 8 = 2 ^ 64 from rfl, Nat.mod_eq_of_lt v.isLt, BitVec.ofNat_toNat, BitVec.setWidth_eq]

section Word
variable {m : Store} {o : Nat} (wf : m.wf) (align : o % 8 = 0) (sound : m.syndrome (o / 16) = 0)
include align sound

theorem word_sound : ∀ i ∈ wordsOf o 8, m.syndrome i = 0 := fun i mem => by
  rw [mem_wordsOf] at mem
  rwa [show i = o / 16 by omega]

include wf

theorem lockStore_word (new : Option DWord) : (BitVec.ofNat 64 (leNat ((lockStore m o new).read o 8)) : DWord) =
    new.getD (BitVec.ofNat 64 (leNat (m.read o 8))) := by
  cases new with
  | none => rfl
  | some v =>
    have back := read_write (a := o) (b := leBytes 8 v.toNat) wf (by rw [length_leBytes]; exact word_sound align sound)
    rw [length_leBytes] at back
    rw [lockStore, back, leNat_leBytes_word]
    rfl

theorem lockStore_other (new : Option DWord) {b : Nat} (h : b < o ∨ o + 8 ≤ b) : (lockStore m o new).readByte b = m.readByte b := by
  cases new with
  | none => rfl
  | some v => exact readByte_write_other wf (by rw [length_leBytes]; exact word_sound align sound) (by rwa [length_leBytes])

end Word

theorem setFl_setFl (s : State) (k : Fin 4) (v w : DWord) : (s.setFl (.tabor k) v).setFl (.tabor k) w = s.setFl (.tabor k) w := by
  simp [State.setFl, State.modCore, vmod, vset_vset]

/-- FL, ST and rd at the end of a LOCK operation. -/
theorem lock_end (t : State) (k : Fin 4) (rd : Fin 32) (cas : Bool) (new : Option DWord) (old : DWord) :
    ((if cas = true then
      t.setFl (.tabor k) (putFlags (t.getFl (.tabor k))
        { z := new.isSome, s := flS (t.getFl (.tabor k)), c := flC (t.getFl (.tabor k)), o := flO (t.getFl (.tabor k)) })
    else t).putStatus (.tabor k) stOk).putD (.tabor k) rd old =
      ((t.setFl (.tabor k) (putSt (lockFl cas new (t.getFl (.tabor k))) 0)).setD (.tabor k) rd old).nextPc (.tabor k) := by
  cases cas with
  | false => rfl
  | true =>
    simp only [if_true, State.putStatus, setFl_setFl, State.getFl_setFl_tabor]
    rfl

section Accepted
variable {s : State} {k : Fin 4} {x : FmtX} {a o : Nat} (p1 : s.atP1 (.tabor k) = true) (enter : s.mayEnter (.core k) [8, 3] (some 33) = true)
  (ha : (s.getD (.tabor k) x.ra).toNat = a) (align : a % 8 = 0) (lo : ctlBase ≤ a) (hi : a < ctlBase + 0x400000) (ho : a - ctlBase = o)
  (sound : s.ctlSram.syndrome (o / 16) = 0) (uncached : Uncached s a 8)
include p1 enter ha align lo hi ho sound uncached

/-- What a LOCK operation leaves that is accepted. -/
theorem lockOp_of_accepted (op : DWord → Option DWord) (cas : Bool) (i : Instr) : s.lockOp k x op cas i =
    (let old : DWord := BitVec.ofNat 64 (leNat (s.ctlSram.read o 8))
    ((({ s with ctlSram := lockStore s.ctlSram o (op old) } : State).setFl (.tabor k)
      (putSt (lockFl cas (op old) (s.getFl (.tabor k))) 0)).setD (.tabor k) x.rd old).nextPc (.tabor k)) := by
  have base : ctlBase = 8 * 0x4000000000 := rfl
  have region : s.region a = .ctl o := by rw [region_ctl s lo hi, ho]
  have clean := word_sound (m := s.ctlSram) (o := o) (by omega) sound
  have read : s.readStore .ctl o 8 = (s, .ok (s.ctlSram.read o 8)) := readStore_of_clean s .ctl clean
  have write (v : DWord) : s.writeStore .ctl o (leBytes 8 v.toNat) = { s with ctlSram := s.ctlSram.write o (leBytes 8 v.toNat) } :=
    writeStore_of_clean s .ctl fun i mem => clean i (by rw [length_leBytes] at mem; exact List.mem_of_mem_filter mem)
  unfold State.lockOp
  simp only [ha, align, ne_eq, not_true_eq_false, if_false, show ¬(a < ctlBase ∨ ctlBase + 0x400000 ≤ a) by omega, p0Denied_p1 p1,
    Bool.false_eq_true, State.pathNeeds, State.pointOf, region, ho, enter, Bool.not_true, ctlSync_of_uncached uncached, read]
  generalize (BitVec.ofNat 64 (leNat (s.ctlSram.read o 8)) : DWord) = old
  rw [lock_end]
  cases op old with
  | none => rfl
  | some v =>
    simp only [write]
    rfl

theorem lockOp_spec (wf : s.ctlSram.wf) (op : DWord → Option DWord) (cas : Bool) (i : Instr) :
    let old : DWord := BitVec.ofNat 64 (leNat (s.ctlSram.read o 8))
    let t := s.lockOp k x op cas i
    (BitVec.ofNat 64 (leNat (t.ctlSram.read o 8)) : DWord) = (op old).getD old ∧ t.getD (.tabor k) x.rd = old ∧
    t.getPc (.tabor k) = s.getPc (.tabor k) + 4 ∧ (t.getFl (.tabor k)).extractLsb' 8 8 = 0 ∧
    (t.getFl (.tabor k)).extractLsb' 1 3 = (s.getFl (.tabor k)).extractLsb' 1 3 ∧
    (∀ r, r ≠ x.rd → t.getD (.tabor k) r = s.getD (.tabor k) r) ∧
    ∀ b, b < o ∨ o + 8 ≤ b → t.ctlSram.readByte b = s.ctlSram.readByte b := by
  have base : ctlBase = 8 * 0x4000000000 := rfl
  have align' : o % 8 = 0 := by omega
  dsimp only
  rw [lockOp_of_accepted p1 enter ha align lo hi ho sound uncached op cas i]
  refine ⟨lockStore_word wf align' sound _, ?_, ?_, ?_, ?_, fun r h => ?_, fun b h => lockStore_other wf align' sound _ h⟩
  · rw [State.getD_nextPc, State.getD_setD_tabor, if_pos rfl]
  · rw [State.getPc_nextPc_tabor, State.getPc_setD, State.getPc_setFl]
    rfl
  · rw [State.getFl_nextPc, State.getFl_setD, State.getFl_setFl_tabor, putSt_status]
  · rw [State.getFl_nextPc, State.getFl_setD, State.getFl_setFl_tabor, putSt_flags, lockFl_flags]
  · rw [State.getD_nextPc, State.getD_setD_tabor, if_neg h, State.getD_setFl]
    rfl

end Accepted

/-- Settles O12: each operation writes what it makes of the old word. -/
theorem lockOperations : Obligations.LockOperations := by
  intro k x s run p1 wf sub enter c a old word done align lo hi sound uncached
  have below : a < ctlBase + 0x400000 := by omega
  have plain : fmtXPlain x true true true 0 = true := by simp [fmtXPlain, sub]
  have spec (op : State → DWord → Option DWord) (cas : Bool) (i : Instr)
      (dsn : exec i s = .next (s.runDsn c (fmtXPlain x true true true 0) (fun s => s.lockOp k x (op s) cas i))) : done i ((op s old).getD old) :=
    ⟨_, gives_of_eq dsn run plain rfl, lockOp_spec p1 enter rfl align lo below rfl sound uncached wf (op s) cas i⟩
  refine ⟨spec (fun s old => some (old + s.getD c x.rb)) false _ rfl, spec (fun s _ => some (s.getD c x.rb)) false _ rfl, ?_⟩
  have cas := spec (fun s old => if old = s.getD c x.rd then some (s.getD c x.rb) else none) true (.lccas c x) rfl
  split at cas
  · next same => rwa [if_pos same]
  · next other => rwa [if_neg other]

end Sys2Proof.Proofs.Locks

/-! EVT instructions (R262, R263). -/

namespace Sys2Proof.Proofs.EventInstructions

open Sys2Proof Sys2Proof.Machine Sys2Proof.Claims Sys2Proof.Proofs.Densiten Sys2Proof.Proofs.Loads Sys2Proof.Proofs.Locks

/-! ### The end of a wait (R263) -/

theorem getPc_nextPc_congr {s t : State} {c : Core} (h : t.getPc c = s.getPc c) : (t.nextPc c).getPc c = (s.nextPc c).getPc c := by
  cases c with
  | tabor k => rw [State.getPc_nextPc_tabor, State.getPc_nextPc_tabor, h]
  | bellhouse =>
    simp only [State.nextPc, h]
    rfl

/-- ST of FL, which Bellhouse keeps in 32 bits. -/
theorem status_setFl (s : State) (c : Core) (fl : DWord) : ((s.setFl c fl).getFl c).extractLsb' 8 8 = fl.extractLsb' 8 8 := by
  cases c with
  | tabor k => rw [State.getFl_setFl_tabor]
  | bellhouse =>
    ext i hi
    simp only [State.getFl, State.setFl, State.modBh_bh, BitVec.getElem_extractLsb', BitVec.getLsbD_setWidth, show 8 + i < 32 by omega,
      show 8 + i < 64 by omega, decide_true, Bool.true_and]

theorem putSt_status' (fl : DWord) (st : Byte) : (putSt fl st).extractLsb' 8 8 = st := by
  ext i hi
  interval_cases i <;> simp [putSt]

theorem getD_setD_zero (s : State) (c : Core) (rd : Fin 32) : (s.setD c rd 0).getD c rd = 0 := by
  cases c with
  | tabor k => rw [State.getD_setD_tabor, if_pos rfl]
  | bellhouse => rw [State.getD_setD_bellhouse, if_pos rfl]; rfl

theorem endWait_spec (s : State) (c : Core) (rd : Fin 32) (st : Byte) : let t := s.endWait c rd 0 st
    t.coreRun c = .running ∧ t.getD c rd = 0 ∧ (t.getFl c).extractLsb' 8 8 = st ∧ t.getPc c = (s.nextPc c).getPc c := by
  refine ⟨?_, ?_, ?_, getPc_nextPc_congr (by simp)⟩
  · simp [State.endWait, State.nextPc]
  · rw [State.endWait, State.getD_nextPc, State.getD_setRun, State.getD_setFl]
    exact getD_setD_zero s c rd
  · rw [State.endWait, State.getFl_nextPc, State.getFl_setRun, status_setFl, putSt_status']

/-! ### DBELL (R262, R285) -/

theorem doorbell_of_none {s : State} (none : s.take.setup = none) (c : Core) (n : Nat) : s.doorbell c n = s := by
  have out : s.inSetup c = false := by cases c <;> simp [State.inSetup, none]
  rw [State.doorbell, out]
  rfl

/-- Settles O13: WAITE by the branches of `waitEvent`, the messages by whether the port takes them. -/
theorem eventInstructions : Obligations.EventInstructions := by
  intro c x s rb sub n k ended port
  have waits : fmtXPlain x true true false 0 = true := by simp [fmtXPlain, rb, sub]
  have sends (rd : x.rd = 0) : fmtXPlain x false true false 0 = true := by simp [fmtXPlain, rd, rb, sub]
  have waite (t : State) (eq : s.waitEvent c x = t) (run : Runs s c) : Gives (.waite c x) s t := gives_of_eq rfl run waits eq
  refine ⟨fun run some => waite _ (if_pos some) run, fun run none zero => waite _ ?_ run, fun run none some => waite _ ?_ run,
    fun rd waiting none => ⟨_, ?_, endWait_spec s c rd (BitVec.ofNat 8 stTimeout)⟩, fun run enters rd out => gives_of_eq rfl run (sends rd) ?_,
    fun run enters rd lo hi setup => gives_of_eq rfl run (sends rd) ?_, fun run enters rd lo hi => gives_of_eq rfl run (sends rd) ?_,
    fun run shut rd => ⟨gives_of_eq rfl run (sends rd) (if_neg shut), gives_of_eq rfl run (sends rd) (if_neg shut)⟩⟩
  · exact (if_neg (not_not_intro none)).trans (if_pos zero)
  · exact (if_neg (not_not_intro none)).trans (if_neg some)
  · exact congrArg Host.Outcome.next (by rw [waiting]; exact if_neg (not_not_intro none))
  · exact (if_pos enters).trans (if_neg (by omega))
  · refine ((if_pos enters).trans (if_pos ⟨lo, hi⟩)).trans (doorbell_of_none ?_ c n)
    exact (congrArg Take.setup (((State.setFl_frame s c _).trans (State.nextPc_frame _ c)).trans (State.raise_frame _ n)).take).trans setup
  · exact (if_pos enters).trans (if_pos ⟨lo, hi⟩)

end Sys2Proof.Proofs.EventInstructions

/-! STREC and COMMIT (R288 to R291, R298). -/

namespace Sys2Proof.Proofs.SetupRecords

open Sys2Proof Sys2Proof.Machine Sys2Proof.Claims Sys2Proof.Proofs.Densiten Sys2Proof.Proofs.Stores Sys2Proof.Proofs.DataCache Sys2Proof.Proofs.Loads
open Sys2Proof.Proofs.Locks Sys2Proof.Proofs.EventInstructions

/-! ### Reads of sound memory by a unit (R301, R305) -/

section Sound
variable {s : State} {a n o : Nat}

theorem peek_ctl (region : s.region a = .ctl o) : s.peek a n = s.ctlSram.read o n := by simp [State.peek, region, Region.cell, State.readBytes, State.store]

theorem peekBad_ctl (region : s.region a = .ctl o) (sound : Sound s.ctlSram) : s.peekBad a n = false := by
  simp only [State.peekBad, region, Region.cell]
  exact verdicts_not_bad fun i _ => sound i

theorem peekBad_dram (region : s.region a = .dram o) (sound : Sound s.dram) : s.peekBad a n = false := by
  simp only [State.peekBad, region, Region.cell]
  exact verdicts_not_bad fun i _ => sound i

theorem noteArea_ctl (region : s.region a = .ctl o) (sound : Sound s.ctlSram) : s.noteArea a n = s := by
  simp only [State.noteArea, region, Region.cell]
  exact State.noteWords_clean s .ctl o n sound

theorem noteArea_dram (region : s.region a = .dram o) (sound : Sound s.dram) : s.noteArea a n = s := by
  simp only [State.noteArea, region, Region.cell]
  exact State.noteWords_clean s .dram o n sound

end Sound

theorem leAt_read_zero (m : Store) {o n k : Nat} (h : k ≤ n) : leAt (m.read o n) 0 k = leNat (m.read o k) := by
  rw [leAt, ← Nat.add_zero o, ← sliceAt_read m (o := 0) (show 0 + k ≤ n by omega)]
  rfl

/-! ### Instructions of the Tabor cores (R257) -/

theorem onTabor_legal {s t : State} {k : Fin 4} {legal : Bool} {effect : Fin 4 → State → State} (run : Runs s (.tabor k)) (h : legal = true)
    (leaves : effect k s = t) : (.next (s.onTabor (.tabor k) legal effect) : Host.Outcome State Fault Refusal) = .next t :=
  next_runDsn_legal run h leaves

theorem endX_spec (s : State) (k : Fin 4) (rd : Fin 32) (st : Byte) (v : DWord) :
    let t := ((s.setFl (.tabor k) (putSt (s.getFl (.tabor k)) st)).setD (.tabor k) rd v).nextPc (.tabor k)
    t.getD (.tabor k) rd = v ∧ (t.getFl (.tabor k)).extractLsb' 8 8 = st ∧ t.getPc (.tabor k) = s.getPc (.tabor k) + 4 := by
  refine ⟨?_, ?_, ?_⟩
  · rw [State.getD_nextPc, State.getD_setD_tabor, if_pos rfl]
  · rw [State.getFl_nextPc, State.getFl_setD, State.getFl_setFl_tabor, putSt_status']
  · rw [State.getPc_nextPc_tabor, State.getPc_setD, State.getPc_setFl]

theorem bankOf_endX (s : State) (k : Fin 4) (rd : Fin 32) (st : Nat) (v : DWord) (u : Nat) : bankOf (endX s (.tabor k) rd st v) u = bankOf s u := rfl

/-! ### STREC (R290) -/

theorem lockedSt_of_ne (s : State) {st : Nat} (h : st ≠ stLocked) : s.lockedSt st = s := if_neg h

/-- Record `x` becomes the shadow bank of unit `u`. -/
def putShadow (s : State) (u : Nat) (x : SetupRecord) : State := { s with banks := vsetN s.banks u { bankOf s u with shadow := some x } }

theorem strec_of_state {s : State} (out : s.setupLegal = false) (a : Nat) : s.strec a = (s.ctlSync a 0x400000 false, stState, 0) := by
  have same : (s.ctlSync a 0x400000 false).setupLegal = false := by
    simpa only [State.setupLegal, (State.ctlSync_frame s a 0x400000 false).take] using out
  unfold State.strec
  simp only [same, Bool.not_false, if_true]

theorem length_of_formed {h : List Byte} {o : Nat} (formed : recordFormed h o = true) : 64 ≤ leAt h 4 4 := by
  have len : leAt h 4 4 = recordLength (leAt h 0 1) h := by
    simp only [recordFormed, Bool.and_eq_true, decide_eq_true_eq] at formed
    exact formed.2
  rw [len]
  unfold recordLength
  split <;> omega

/-- The record names its unit where its header does. -/
theorem leAt_record {m : Store} {o : Nat} (formed : recordFormed (m.read o 64) o = true) :
    leAt (m.read o (leAt (m.read o 64) 4 4)) 0 1 = leAt (m.read o 64) 0 1 := by
  have long := length_of_formed formed
  rw [leAt_read_zero m (by omega), leAt_read_zero m (by omega)]

section Formed
variable {s : State} {a o : Nat} (uncached : Uncached s a 0x400000) (legal : s.setupLegal = true) (align : a % 64 = 0) (lo : ctlBase ≤ a)
  (hi : a < ctlBase + 0x400000) (ho : a - ctlBase = o) (formed : recordFormed (s.ctlSram.read o 64) o = true) (sound : Sound s.ctlSram)
  (unlocked : s.locked 4 = false) (fresh : (bankOf s (leAt (s.ctlSram.read o 64) 0 1)).ready = false)
  (free : (bankOf s (leAt (s.ctlSram.read o 64) 0 1)).retiring = none)
  (crc : recordCrc (s.ctlSram.read o (leAt (s.ctlSram.read o 64) 4 4)) = true)
include uncached legal align lo hi ho formed sound unlocked fresh free crc

/-- STREC stores a well-formed, sound record whose images are sound. -/
theorem strec_of_formed (images : ∀ i ∈ namedImages (s.ctlSram.read o (leAt (s.ctlSram.read o 64) 4 4)),
      s.peekBad i.1 i.2 = false ∧ s.noteArea i.1 i.2 = s) :
    ∃ x : SetupRecord, x.bytes = s.ctlSram.read o (leAt (s.ctlSram.read o 64) 4 4) ∧
      (namedImages (s.ctlSram.read o (leAt (s.ctlSram.read o 64) 4 4)) = [] →
        x = { bytes := s.ctlSram.read o (leAt (s.ctlSram.read o 64) 4 4), coef := [], lut := [] }) ∧
      s.strec a = (putShadow s (leAt (s.ctlSram.read o 64) 0 1) x, stOk, leAt (s.ctlSram.read o 64) 0 1) := by
  have region : s.region a = .ctl o := by rw [region_ctl s lo hi, ho]
  have noted : s.noteAreas ((a, leAt (s.ctlSram.read o 64) 4 4) :: namedImages (s.ctlSram.read o (leAt (s.ctlSram.read o 64) 4 4))) = s := by
    rw [State.noteAreas, List.foldl_cons, noteArea_ctl region sound]
    generalize namedImages _ = l at images
    induction l with
    | nil => rfl
    | cons i l ih =>
      rw [List.foldl_cons, (images i List.mem_cons_self).2]
      exact ih fun j mem => images j (List.mem_cons_of_mem _ mem)
  have good : (namedImages (s.ctlSram.read o (leAt (s.ctlSram.read o 64) 4 4))).any (fun i => s.peekBad i.1 i.2) = false := by
    rw [List.any_eq_false]
    exact fun i mem => by simp [(images i mem).1]
  unfold State.strec
  rw [ctlSync_of_uncached uncached]
  simp only [peek_ctl region, ho, legal, Bool.not_true, Bool.false_eq_true, if_false, align, formed, ne_eq, not_true_eq_false, or_false,
    show ¬(a < ctlBase ∨ ctlBase + 0x400000 ≤ a) by omega, noted, good, peekBad_ctl region sound, Bool.or_false, crc, State.recordLocked, unlocked,
    Bool.false_and]
  have idle : ¬((bankOf s (leAt (s.ctlSram.read o 64) 0 1)).ready = true ∨
      (bankOf s (leAt (s.ctlSram.read o 64) 0 1)).retiring.isSome = true) := by simp [fresh, free]
  refine ⟨_, ?_, ?_, (if_neg idle).trans rfl⟩
  · split <;> rfl
  · intro none
    simp only [none]

end Formed

theorem gives_strec {s t : State} {k : Fin 4} {x : FmtX} (run : Runs s (.tabor k)) (rb : x.rb = 0) (sub : x.sub = 0) {st v : Nat}
    (h : s.strec (s.getD (.tabor k) x.ra).toNat = (t, st, v)) (ne : st ≠ stLocked) :
    Gives (.strec (.tabor k) x) s (endX t (.tabor k) x.rd st (BitVec.ofNat 64 v)) :=
  onTabor_legal run (by simp [fmtXPlain, rb, sub]) (by
    simp only [h, lockedSt_of_ne t ne]
    rfl)

theorem gives_commit {s t : State} {k : Fin 4} {x : FmtX} (run : Runs s (.tabor k)) (rb : x.rb = 0) (sub : x.sub = 0)
    (h : s.commitMask (s.getD (.tabor k) x.ra).toNat = (t, 0)) :
    Gives (.commit (.tabor k) x) s (endX t (.tabor k) x.rd 0 (s.getD (.tabor k) x.ra)) :=
  onTabor_legal run (by simp [fmtXPlain, rb, sub]) (by
    simp only [h, if_true]
    rfl)

/-! ### COMMIT (R291) -/

theorem mem_unitsOf {mask u : Nat} : u ∈ unitsOf mask ↔ u < 14 ∧ natBit mask u = true := by simp [unitsOf, mem_upFrom]

/-- The banks with those of `us` marked ready. -/
theorem vgetN_readied (us : List Nat) (v : Vector Bank 14) {u : Nat} (hu : u < 14) :
    vgetN Bank.empty (us.foldl (fun v u => vmodN v u (fun b => { b with ready := true })) v) u =
      if u ∈ us then { vgetN Bank.empty v u with ready := true } else vgetN Bank.empty v u := by
  induction us generalizing v with
  | nil => simp
  | cons i us ih =>
    rw [List.foldl_cons, ih]
    by_cases own : u = i
    · subst own
      simp [vgetN, vmodN, hu]
    · have other : vgetN Bank.empty (vmodN v i (fun b => { b with ready := true })) u = vgetN Bank.empty v u := by
        unfold vmodN
        split
        · next hi => simp [vgetN, hu, vget_vmod_ne v (i := ⟨i, hi⟩) (j := ⟨u, hu⟩) (by simpa [Fin.ext_iff] using own)]
        · rfl
      simp [other, own]

theorem commitMask_of_loaded {s : State} {mask : Nat} (loaded : s.take.st = .loaded) (small : mask < 2 ^ 14)
    (shadows : ∀ u < 14, natBit mask u = true → (bankOf s u).shadow.isSome = true) : s.commitMask mask =
    ({ s with banks := (unitsOf mask).foldl (fun v u => vmodN v u (fun b => { b with ready := true })) s.banks }, 0) := by
  have legal : s.setupLegal = true := by simp [State.setupLegal, loaded]
  have all : (unitsOf mask).any (fun u => (vgetN Bank.empty s.banks u).shadow.isNone) = false := by
    rw [List.any_eq_false]
    intro u mem
    obtain ⟨lt, bit⟩ := mem_unitsOf.mp mem
    have some := shadows u lt bit
    rw [bankOf] at some
    simp [Option.isNone_iff_eq_none, Option.isSome_iff_ne_none.mp some]
  unfold State.commitMask
  simp [loaded, legal, all, firstFail, failIf, show ¬ 16384 ≤ mask by omega]

/-- Settles O14: STREC by `strec_of_state` and `strec_of_formed`, COMMIT by `commitMask_of_loaded`. -/
theorem setupRecords : Obligations.SetupRecords := by
  intro k x s run rb sub c a o h u r
  refine ⟨fun out => gives_strec run rb sub (strec_of_state out a) (by decide),
    fun uncached legal align lo hi formed sound unlocked fresh free crc => ?_, fun loaded small shadows => ?_⟩
  · have unit : leAt r 0 1 = u := leAt_record formed
    have stored := strec_of_formed uncached legal align lo hi rfl formed sound unlocked fresh free crc
    refine ⟨fun other => ?_, fun pxy dram coef lut => ?_⟩
    · have none : namedImages r = [] := by simp only [namedImages, unit, if_neg other]
      obtain ⟨y, -, bare, strec⟩ := stored (by rw [show namedImages _ = [] from none]; exact fun i mem => absurd mem List.not_mem_nil)
      rw [bare none] at strec
      exact gives_strec run rb sub strec (by decide)
    · have images : namedImages r = [(leAt r 120 8, 2048), (leAt r 128 8, 215622)] := by simp only [namedImages, unit, if_pos pxy]
      have sound' {b n : Nat} (h : b + n ≤ s.window) (pos : 0 < n) : s.peekBad b n = false ∧ s.noteArea b n = s :=
        ⟨peekBad_dram (region_dram (by omega)) dram, noteArea_dram (region_dram (by omega)) dram⟩
      obtain ⟨y, bytes, -, strec⟩ := stored (by
        rw [show namedImages _ = _ from images]
        simp only [List.forall_mem_cons]
        exact ⟨sound' coef (by decide), sound' lut (by decide), List.forall_mem_nil _⟩)
      have bank : bankOf (putShadow s u y) u = { bankOf s u with shadow := some y } := vgetN_vsetN_same _ _ (by omega) _
      refine ⟨_, gives_strec run rb sub strec (by decide), ?_, (endX_spec (putShadow s u y) k x.rd _ _).1, ?_⟩
      · rw [bankOf_endX, bank]
        exact congrArg some bytes
      · rw [bankOf_endX, bank]
        exact fresh
  · refine ⟨_, gives_commit run rb sub (commitMask_of_loaded loaded small shadows), ?_⟩
    obtain ⟨rd, fl, pc⟩ := endX_spec { s with banks := (unitsOf a).foldl (fun v u => vmodN v u (fun b => { b with ready := true })) s.banks } k x.rd 0
      (s.getD c x.ra)
    refine ⟨rd, fl, pc, fun u hu => (vgetN_readied _ s.banks hu).trans ?_, rfl, rfl⟩
    simp only [mem_unitsOf, hu, true_and]
    rfl

end Sys2Proof.Proofs.SetupRecords

/-! Taking and judging a command of the rings (R273, R275, R277, R278). -/

namespace Sys2Proof.Proofs.Commands

open Sys2Proof Sys2Proof.Machine Sys2Proof.Claims

section Fronts
variable {s : State} {h : CmdHead} {op : Nat} {fields : List (Nat × List Byte)} (front : Fronts s h op fields)
include front

theorem takeCommand_of_fronts (f : State → PendingCmd → State) : s.takeCommand h fields f = f (took s h) (cmdOf s h) := by
  obtain ⟨oldest, on, free, -, -, b, bad, read, spells⟩ := front
  unfold State.takeCommand
  rw [if_pos ⟨oldest, on, free⟩, read]
  simp only [spells, Bool.not_true, Bool.false_eq_true, if_false]
  rfl

/-- A command whose entry is in order and whose fields are in range: STATE where the take's state forbids it, else what it does, after PENDING where it
is marked P. -/
theorem judge_of_fronts (legal pending : Bool) (f : State → PendingCmd → State) : s.judge h op fields true legal pending f =
    if legal then f (if pending then (took s h).post (cmdOf s h) stPending false 0 else took s h) (cmdOf s h)
    else (took s h).post (cmdOf s h) stState true 0 := by
  have opcode : h.opcode.toNat = op := front.2.2.2.2.1
  have reserved : h.reservedZero = true := front.2.2.2.1
  rw [State.judge, if_neg (by simp [opcode]), takeCommand_of_fronts front]
  simp only [reserved, opcode, Bool.not_true, Bool.false_eq_true, ne_eq, not_true_eq_false, or_self, if_false]
  cases legal <;> rfl

theorem judge_legal {legal : Bool} (ok : legal = true) (f : State → PendingCmd → State) :
    s.judge h op fields true legal false f = f (took s h) (cmdOf s h) := by
  rw [judge_of_fronts front, if_pos ok]
  rfl

theorem judge_pending {legal : Bool} (ok : legal = true) (f : State → PendingCmd → State) :
    s.judge h op fields true legal true f = f ((took s h).post (cmdOf s h) stPending false 0) (cmdOf s h) := by
  rw [judge_of_fronts front, if_pos ok]
  rfl

theorem judge_state {legal : Bool} (no : legal = false) (pending : Bool) (f : State → PendingCmd → State) :
    s.judge h op fields true legal pending f = (took s h).post (cmdOf s h) stState true 0 := by
  rw [judge_of_fronts front, no]
  rfl

theorem judge_badarg (legal pending : Bool) (f : State → PendingCmd → State) :
    s.judge h op fields false legal pending f = (took s h).post (cmdOf s h) stBadarg true 0 := by
  have opcode : h.opcode.toNat = op := front.2.2.2.2.1
  have reserved : h.reservedZero = true := front.2.2.2.1
  rw [State.judge, if_neg (by simp [opcode]), takeCommand_of_fronts front]
  simp only [reserved, opcode, Bool.not_true, Bool.false_eq_true, ne_eq, not_true_eq_false, or_self, if_false]
  rfl

end Fronts

/-- The completion of a command leaves the take, the banks and every unit as they are. -/
theorem post_frame (s : State) (p : PendingCmd) (status : Nat) (final : Bool) (value : DWord) : PostFrame s (s.post p status final value) :=
  State.post_post s p status final value

end Sys2Proof.Proofs.Commands

/-! ARM and the takeover of the banks (R17, R259, R286, R287, R292). -/

namespace Sys2Proof.Proofs.Takeover

open Sys2Proof Sys2Proof.Machine Sys2Proof.Claims Sys2Proof.Proofs.Coding Sys2Proof.Proofs.Loads Sys2Proof.Proofs.SetupRecords
open Sys2Proof.Proofs.Commands Sys2Proof.Proofs.Power

/-! ### What leaves the banks alone -/

section Banks
variable (s : State)

/-- A projection that both branches keep is kept. -/
theorem proj_ite {α : Type} {p : State → α} {c : Prop} [Decidable c] {s a b : State} (ha : p a = p s) (hb : p b = p s) :
    p (if c then a else b) = p s := by
  split
  · exact ha
  · exact hb

@[simp] theorem banks_raise (k : Nat) : (s.raise k).banks = s.banks := (s.raise_frame k).banks

theorem banks_stopCapture (p : Nat → Bool) : (s.stopCapture p).banks = s.banks :=
  foldl_proj State.banks (fun s e => by
    split
    · split <;> rfl
    · rfl) _ s

theorem banks_dropCurrent (i : Fin 16) : (s.dropCurrent i).banks = s.banks := by
  unfold State.dropCurrent
  split <;> rfl

theorem banks_ledgerDo (m : Fin 2) (f : Ledger → Ledger) : (s.ledgerDo m f).banks = s.banks := by
  unfold State.ledgerDo State.ledgerWarn
  dsimp only
  split
  · exact banks_raise _ _
  · rfl

theorem banks_sensorDrop (k : Nat) : (s.sensorDrop k).banks = s.banks := by
  unfold State.sensorDrop
  split
  · rfl
  · split
    · rfl
    · extract_lets m t1 t2 mine t3
      have ht1 : t1.banks = s.banks := banks_stopCapture _ _
      have ht2 : t2.banks = s.banks := by
        unfold t2
        split
        · exact (banks_dropCurrent _ _).trans ht1
        · exact ht1
      have ht3 : t3.banks = s.banks := by
        unfold t3
        split
        · exact ht2
        · exact (banks_ledgerDo _ _ _).trans ht2
      exact ht3

theorem banks_snsOutcome (x : SnsPicture) (complete : Bool) : (s.snsOutcome x complete).banks = s.banks := by
  unfold State.snsOutcome
  split
  · split
    · rfl
    · exact banks_sensorDrop _ _
  · split <;> rfl

theorem banks_snsEvent (i : Nat) : (s.snsEvent i).banks = s.banks := banks_raise (s.orReg _ _) _

theorem banks_snsEnd : s.snsEnd.banks = s.banks := by
  unfold State.snsEnd
  split
  · rfl
  · extract_lets c lost t1 t2 t3
    have ht1 : t1.banks = s.banks := by
      unfold t1
      split <;> rfl
    have ht3 : t3.banks = s.banks := by
      unfold t3
      clear_value lost
      split
      · exact proj_ite ((banks_snsEvent _ 3).trans ht1) ht1
      · exact ht1
    exact (banks_snsOutcome _ _ _).trans ht3

theorem banks_snsSet (k : Fin 4) (st : SnsLinkState) : (s.snsSet k st).banks = s.banks := by
  unfold State.snsSet
  split
  · rfl
  · exact banks_raise _ _

theorem banks_snsDown (k : Fin 4) : (s.snsDown k).banks = s.banks := by
  unfold State.snsDown
  dsimp only
  rw [banks_snsEnd, banks_snsSet]
  split <;> rfl

theorem banks_snsRelink : s.snsRelink.banks = s.banks :=
  foldl_proj State.banks (fun s k => by
    dsimp only
    split
    · rfl
    · exact banks_snsDown s k) _ s

theorem banks_snsTakeover : s.snsTakeover.banks = s.banks := (banks_snsRelink _).trans (banks_snsEnd s)

theorem banks_sluPlace (f : Nat) : (s.sluPlace f).banks = s.banks := by
  unfold State.sluPlace
  dsimp only
  split
  · rfl
  · split <;> rfl

theorem banks_setFlow (f : Nat) (x : Flow) : (s.setFlow f x).banks = s.banks := rfl
theorem banks_setService (p v : Nat) (x : Service) : (s.setService p v x).banks = s.banks := rfl

theorem banks_sluTakeover : s.sluTakeover.banks = s.banks := by
  unfold State.sluTakeover
  extract_lets t
  have flows : t.banks = s.banks := foldl_proj State.banks (fun s f => by
    extract_lets x t1 t2
    exact (banks_sluPlace _ _).trans (proj_ite (s := s) (banks_raise _ _) rfl)) _ s
  exact (foldl_proj State.banks (fun s p => foldl_proj State.banks (fun s v => banks_setService s p v _) _ s) _ t).trans flows

theorem banks_cisNotice (old : State) (p : Nat) : (s.cisNotice old p).banks = s.banks := by
  unfold State.cisNotice
  extract_lets falls t
  have warned : t.banks = s.banks := proj_ite (s := s) (banks_raise _ _) rfl
  clear_value t
  exact proj_ite ((banks_raise _ _).trans warned) warned

theorem banks_cisTakeover (old : State) : (s.cisTakeover old).banks = s.banks :=
  foldl_proj State.banks (fun s p => banks_cisNotice s old p) _ _

theorem banks_mcTakeover : s.mcTakeover.banks = s.banks := by
  unfold State.mcTakeover
  dsimp only
  split <;> rfl

theorem banks_netTakeover (was : Nat → Nat) : (s.netTakeover was).banks = s.banks :=
  foldl_proj State.banks (fun s k => by
    unfold State.ethLink
    split
    · rfl
    · split
      · rfl
      · exact banks_raise _ _) _ s

theorem banks_placeSlots : s.placeSlots.banks = s.banks :=
  foldl_proj State.banks (fun s i => by split <;> rfl) _ s

theorem banks_setLedgers : s.setLedgers.banks = s.banks := rfl

theorem banks_dsmStart (m : Fin 2) : (s.dsmStart m).banks = s.banks := rfl
theorem take_dsmStart (m : Fin 2) : (s.dsmStart m).take = s.take := rfl

theorem banks_ckuArmed : s.ckuArmed.banks = s.banks :=
  foldl_proj State.banks (fun s i => by
    dsimp only
    split <;> rfl) _ s

end Banks

/-! ### The takeover (R292) -/

/-- Bank `b` after a takeover, but for its retiring record. -/
def TakenOver (b t : Bank) : Prop := t.ready = false ∧ t.active = if b.ready then b.shadow else b.active

theorem banks_ageStreams (s : State) (u : Nat) : (s.ageStreams u).banks = s.banks := rfl

theorem banks_streamTakeover (s : State) (m : Nat) (was now : List Byte) : (s.streamTakeover m was now).banks = s.banks := by
  unfold State.streamTakeover
  extract_lets x on seq y t
  show t.banks = s.banks
  unfold t
  split <;> rfl

theorem takeBank_other (s : State) {u v : Nat} (h : v ≠ u) : bankOf (s.takeBank u) v = bankOf s v := by
  unfold State.takeBank
  extract_lets b t1 t2 t3
  split
  · rfl
  · have same : t3.banks = s.banks := by
      unfold t3
      split
      · exact banks_streamTakeover _ _ _ _
      · rfl
    exact (vgetN_vsetN_ne _ _ h _).trans (by rw [same]; rfl)

theorem takeBank_own (s : State) {u : Nat} (h : u < 14) : TakenOver (bankOf s u) (bankOf (s.takeBank u) u) := by
  unfold State.takeBank
  extract_lets b t1 t2 t3
  split
  · next idle =>
    have idle' : b.ready = false := by simpa using idle
    have idle' : (bankOf s u).ready = false := idle'
    exact ⟨idle', by rw [idle']; rfl⟩
  · next ready =>
    have ready' : b.ready = true := by simpa using ready
    have ready' : (bankOf s u).ready = true := ready'
    have own := vgetN_vsetN_same Bank.empty t3.banks h
      { shadow := none, ready := false, active := b.shadow, retiring := if t3.oldWork u then b.active else none }
    exact ⟨congrArg Bank.ready own, (congrArg Bank.active own).trans (by rw [ready']; rfl)⟩

theorem foldl_takeBank_other {l : List Nat} {v : Nat} (out : v ∉ l) (s : State) : bankOf (l.foldl (fun s u => s.takeBank u) s) v = bankOf s v := by
  induction l generalizing s with
  | nil => rfl
  | cons u l ih =>
    rw [List.mem_cons, not_or] at out
    rw [List.foldl_cons, ih out.2, takeBank_other s out.1]

theorem foldl_takeBank_own {l : List Nat} {u : Nat} (nodup : l.Nodup) (mem : u ∈ l) (h : u < 14) (s : State) :
    TakenOver (bankOf s u) (bankOf (l.foldl (fun s u => s.takeBank u) s) u) := by
  obtain ⟨pre, post, rfl⟩ := List.append_of_mem mem
  obtain ⟨out, -⟩ := List.nodup_cons.1 (List.nodup_middle.1 nodup)
  rw [List.foldl_append, List.foldl_cons, foldl_takeBank_other (fun h => out (List.mem_append_right _ h)),
    ← foldl_takeBank_other (fun h => out (List.mem_append_left _ h)) s]
  exact takeBank_own _ h

theorem takeBanks_own (s : State) {u : Nat} (h : u < 14) : TakenOver (bankOf s u) (bankOf s.takeBanks u) := by
  have rest : s.takeBanks.banks = ((upFrom 0 14).foldl (fun s u => s.takeBank u) s).banks := by
    unfold State.takeBanks
    extract_lets was fec t0 t1 t2 t3 t4
    have e1 : t1.banks = t0.banks := by
      unfold t1
      split
      · exact banks_netTakeover _ _
      · rfl
    have e2 : t2.banks = t1.banks := by
      unfold t2
      split
      · exact banks_cisTakeover _ _
      · rfl
    have e3 : t3.banks = t2.banks := by
      unfold t3
      split
      · exact banks_mcTakeover _
      · rfl
    have e4 : t4.banks = t3.banks := by
      unfold t4
      split
      · exact banks_sluTakeover _
      · rfl
    refine Eq.trans ?_ (e4.trans (e3.trans (e2.trans e1)))
    split
    · exact banks_snsTakeover _
    · rfl
  have own := foldl_takeBank_own (by decide) (mem_upFrom.mpr ⟨Nat.zero_le u, by omega⟩ : u ∈ upFrom 0 14) h s
  unfold bankOf at own ⊢
  rwa [rest]

/-! ### ARM (R259, R286, R287) -/

/-- A move to a state that is no take boundary. -/
theorem moveTake_of_live {s : State} {st : TakeState} (live : st ≠ .idle ∧ st ≠ .loaded ∧ st ≠ .closed ∧ st ≠ .faulted) (cause : Nat) :
    s.moveTake st cause = (s.modTake (fun t => { t with st := st, cause := BitVec.ofNat 8 cause })).raise 528 := by
  have take : ((s.modTake (fun t => { t with st := st, cause := BitVec.ofNat 8 cause })).raise 528).take.st = st :=
    congrArg Take.st (State.raise_frame _ 528).take
  obtain ⟨idle, loaded, closed, faulted⟩ := live
  unfold State.moveTake
  dsimp only
  rw [if_neg (by simp [State.atBoundary, take, idle, loaded, closed, faulted])]

/-- What step 4 of ARM leaves of the take and the banks. -/
def Moved (s t : State) : Prop := t.take.st = .armed ∧ t.take.pics = [] ∧ ∀ u < 14, TakenOver (bankOf s u) (bankOf t u)

theorem armMove_moved (s : State) : Moved s s.armMove := by
  unfold State.armMove
  extract_lets t1 t2 t3 t4
  have placed : t1.banks = s.takeBanks.banks := ((banks_ckuArmed _).trans (banks_setLedgers _)).trans (banks_placeSlots _)
  have banks : t4.banks = s.takeBanks.banks := by
    simp only [t4, t3, t2, State.modTake_banks, State.modSns_banks]
    exact placed
  have pics : t4.take.pics = [] := rfl
  clear_value t4
  have marks (l : List (Fin 2)) (t : State) : (l.foldl (fun s m => s.dsmStart m) t).take = t.take ∧ (l.foldl (fun s m => s.dsmStart m) t).banks = t.banks :=
    ⟨foldl_proj State.take (fun s m => take_dsmStart s m) l t, foldl_proj State.banks (fun s m => banks_dsmStart s m) l t⟩
  obtain ⟨take, same⟩ := marks t4.takeMags (t4.moveTake .armed 0)
  rw [moveTake_of_live (by decide)] at take same ⊢
  have take' := take.trans (State.raise_frame _ 528).take
  refine ⟨congrArg Take.st take', (congrArg Take.pics take').trans pics, fun u h => ?_⟩
  have own := takeBanks_own s h
  unfold bankOf at own ⊢
  rwa [same, banks_raise, State.modTake_banks, banks]

/-- ARM passes its tests, and no clock changes. -/
def Passes (env : ArmEnv) (s : State) : Prop := s.take.st = .loaded ∧ s.swapping = false ∧
  s.admission s.armSetup (fun u => (bankOf s u).ready) env = 0 ∧ leAt (s.armSetup.bytes unitMc) 17 1 = s.mc.fsp.1 ∧
  s.hdg.teEcon = decide (codeProfile (s.armSetup.bytes unitCode) = 1)

theorem armTake_of_passes {s : State} {env : ArmEnv} (passes : Passes env s) : s.armTake env = (s.armMove, stOk) := by
  obtain ⟨loaded, still, admitted, fsp, econ⟩ := passes
  have admitted' : s.admission s.armSetup (fun u => (vgetN Bank.empty s.banks u).ready) env = 0 := admitted
  simp [State.armTake, loaded, still, admitted', State.fspNow, fsp, State.teClock, econ]

theorem armTake_of_state {s : State} (out : s.take.st ≠ .loaded) (env : ArmEnv) : s.armTake env = (s, stState) := if_pos out

theorem armWaits_of_fsp {s : State} (fsp : leAt (s.armSetup.bytes unitMc) 17 1 = s.mc.fsp.1) (env : ArmEnv) : s.armWaits env = false := by
  simp [State.armWaits, fsp]

theorem armSetup_took (s : State) (h : CmdHead) : (took s h).armSetup = s.armSetup := rfl

theorem armWaits_of_state {s : State} (out : s.take.st ≠ .loaded) (env : ArmEnv) : s.armWaits env = false := by simp [State.armWaits, out]

theorem retSt_eq_endX (s : State) (c : Core) (rd : Fin 32) (st : Nat) (v : DWord) : s.retSt c rd st v = endX s c rd st v := rfl

theorem arm_of_passes {s : State} {k : Fin 4} {x : FmtX} {env : ArmEnv} (run : Runs s (.tabor k))
    (plain : fmtXPlain x true false false 0 = true) (passes : Passes env s) :
    Gives (.arm (.tabor k) x env) s (endX s.armMove (.tabor k) x.rd stOk (BitVec.ofNat 64 stOk)) :=
  onTabor_legal run plain (by
    have ⟨_, _, _, fsp, _⟩ := passes
    rw [armWaits_of_fsp fsp, armTake_of_passes passes, if_neg Bool.false_ne_true]
    generalize s.armMove = t
    rfl)

theorem arm_of_state {s : State} {k : Fin 4} {x : FmtX} (run : Runs s (.tabor k)) (plain : fmtXPlain x true false false 0 = true)
    (out : s.take.st ≠ .loaded) (env : ArmEnv) :
    Gives (.arm (.tabor k) x env) s (endX s (.tabor k) x.rd stState (BitVec.ofNat 64 stState)) :=
  onTabor_legal run plain (by
    rw [armWaits_of_state out, armTake_of_state out]
    rfl)

section Command
variable {s : State} {h : CmdHead} (front : Fronts s h 2 [])
include front

theorem armCommand_of_state (out : s.take.st ≠ .loaded) (env : ArmEnv) :
    Gives (.armCommand h env) s ((took s h).post (cmdOf s h) stState true 0) := by
  have judged := judge_state front (legal := s.takeIn [.loaded]) (by simp [State.takeIn, out]) false
    (fun s p => (s.armTake env).1.done p (s.armTake env).2 0)
  refine congrArg Host.Outcome.next (Eq.trans ?_ judged)
  rw [armWaits_of_state out env]
  rfl

theorem armCommand_of_passes {env : ArmEnv} (passes : Passes env (took s h)) :
    Gives (.armCommand h env) s ((took s h).armMove.post (cmdOf s h) stOk true 0) := by
  have loaded : s.take.st = .loaded := passes.1
  have judged := judge_legal front (legal := s.takeIn [.loaded]) (by simp [State.takeIn, loaded])
    (fun s p => (s.armTake env).1.done p (s.armTake env).2 0)
  rw [armTake_of_passes passes] at judged
  generalize (took s h).armMove = t at judged ⊢
  refine congrArg Host.Outcome.next (Eq.trans ?_ judged)
  obtain ⟨-, -, -, fsp, -⟩ := passes
  rw [armSetup_took] at fsp
  rw [armWaits_of_fsp fsp, Bool.false_and, Bool.false_and, if_neg Bool.false_ne_true]

end Command

theorem Moved.post {s t u : State} (moved : Moved s t) (frame : PostFrame t u) : Moved s u := by
  obtain ⟨st, pics, banks⟩ := moved
  have take : u.take = t.take := by rw [frame]
  have same : u.banks = t.banks := by rw [frame]
  refine ⟨by rw [take, st], by rw [take, pics], fun v hv => ?_⟩
  have own := banks v hv
  unfold bankOf at own ⊢
  rwa [same]

/-- Settles O15: the instruction and the command by `armTake`, in its state and out of it. -/
theorem armTakesOver : Obligations.ArmTakesOver := by
  intro k x env s c passes moved
  refine ⟨fun run ra rb sub => ?_, fun h front => ⟨fun out => armCommand_of_state front out env, fun ok => ⟨_, armCommand_of_passes front ok, ?_⟩⟩⟩
  · have plain : fmtXPlain x true false false 0 = true := by simp [fmtXPlain, ra, rb, sub]
    have moves := armMove_moved s
    refine ⟨fun out => arm_of_state run plain out env, fun ok => ⟨_, arm_of_passes run plain ok, ?_⟩⟩
    generalize s.armMove = t at moves
    obtain ⟨rd, fl, -⟩ := endX_spec t k x.rd 0 0
    exact ⟨moves, rd, fl⟩
  · exact (armMove_moved (took s h)).post (post_frame _ _ _ _ _)

end Sys2Proof.Proofs.Takeover

/-! MARK and LEDG (R108 to R112, R260, R261). -/

namespace Sys2Proof.Proofs.Pool

open Sys2Proof Sys2Proof.Machine Sys2Proof.Claims Sys2Proof.Proofs.SetupRecords Sys2Proof.Proofs.Takeover

/-! ### MARK (R260) -/

section Mark
variable {s : State} {k : Fin 4} {x : FmtX} {i : Fin 16}

theorem fin_val (i : Fin 16) : fin 16 i.1 = i := by
  simp [fin, Nat.mod_eq_of_lt i.isLt]

/-- MARK of slot `i`, by what the transition answers. -/
theorem gives_mark {t : State} {st : Nat} (run : Runs s (.tabor k)) (rb : x.rb = 0) {target : Nat} (sub : x.sub.toNat = target)
    (small : target < 6) (slot : (s.getD (.tabor k) x.ra).toNat = i.1) (h : s.mark i target = (t, st)) :
    Gives (.mark (.tabor k) x) s (endX t (.tabor k) x.rd st (if st = stOk then t.slotDesc i else 0)) :=
  onTabor_legal run (by simp [rb, sub, small]) (by
    have code : target % 8 = target := Nat.mod_eq_of_lt (by omega)
    have inside : ¬ 16 ≤ i.1 := by omega
    simp only [State.markInstr, slot, if_neg inside, fin_val, sub, code, h]
    rfl)

theorem mark_of_long (still : (s.slot i).current = false ∧ s.inList i = false ∧ (s.slot i).playing = false) (long : (s.slot i).mark = .long) :
    s.mark i 0 = (s.modSlot i (fun y => { Slot.unused with base := y.base, size := y.size }), stOk) := by
  obtain ⟨current, listed, playing⟩ := still
  have view : s.abandonView i = s := by
    simp only [State.abandonView, long]
    split <;> rfl
  simp only [State.mark, markLegal, long, current, listed, playing, State.markFull, view, Bool.not_true, Bool.or_self, Bool.false_eq_true, if_false,
    if_true]
  rfl

theorem mark_of_short (still : (s.slot i).current = false ∧ s.inList i = false ∧ (s.slot i).playing = false) (short : (s.slot i).mark = .short)
    (room : (s.slotsWhere Slot.isLong).length < refLongMax (s.active unitRef)) :
    s.mark i 2 = (s.modSlot i (fun y => { y with mark := .long }), stOk) := by
  obtain ⟨current, listed, playing⟩ := still
  simp only [State.mark, markLegal, short, current, listed, playing, State.markFull, decide_eq_false (not_le.mpr room), Bool.not_true, Bool.or_self,
    Bool.false_eq_true, if_false, markOf]
  rfl

theorem mark_of_unused (unused : (s.slot i).mark = .unused) (target : Nat) : s.mark i target = (s, stState) := by
  simp [State.mark, markLegal, unused]

theorem slot_modSlot_same (s : State) (i : Fin 16) (f : Slot → Slot) : (s.modSlot i f).slot i = f (s.slot i) := by simp [State.slot]

theorem slot_modSlot_ne (s : State) {i j : Fin 16} (h : j ≠ i) (f : Slot → Slot) : (s.modSlot i f).slot j = s.slot j := by
  simp [State.slot, vget_vmod_ne _ h]

theorem slotDesc_of_unused (unused : (s.slot i).mark = .unused) : s.slotDesc i = 0 := by simp [State.slotDesc, unused]

end Mark

/-! ### LEDG (R261) -/

/-- The five values in the latch. -/
theorem foldl_vsetN_five (w : Vector DWord 5) (a b c d e : Nat) :
    (upFrom 0 5).foldl (fun w i => vsetN w i (BitVec.ofNat 64 (nth 0 [a, b, c, d, e] i))) w =
      #v[BitVec.ofNat 64 a, BitVec.ofNat 64 b, BitVec.ofNat 64 c, BitVec.ofNat 64 d, BitVec.ofNat 64 e] := by
  ext i hi
  interval_cases i <;> simp [upFrom, vsetN, vset, nth]

theorem ledgLegal_of_code {x : FmtX} (ra : x.ra = 0) (rb : x.rb = 0) {e m g : Nat} (he : e < 5) (hm : m < 2) (hg : g < 2)
    (sub : x.sub.toNat = e + 8 * m + 16 * g) : ledgLegal x (decide (g = 1)) = true ∧ x.sub.toNat % 8 = e ∧ (if x.sub.getLsbD 3 then 1 else 0) = m := by
  have bit (j : Nat) : x.sub.getLsbD j = (e + 8 * m + 16 * g).testBit j := by rw [← sub]; rfl
  refine ⟨?_, by omega, ?_⟩
  · have bit4 : x.sub.getLsbD 4 = decide (g = 1) := by
      rw [bit]
      interval_cases e <;> interval_cases m <;> interval_cases g <;> rfl
    have fields : e + 8 * m + 16 * g < 32 ∧ (e + 8 * m + 16 * g) % 8 ≤ 4 := by omega
    simp only [ledgLegal, ra, rb, bit4, sub, fields, decide_true, Bool.and_self, beq_self_eq_true]
  · rw [bit]
    interval_cases e <;> interval_cases m <;> interval_cases g <;> rfl

section Ledg
variable {s : State} {k : Fin 4} {x : FmtX} (run : Runs s (.tabor k)) (ra : x.ra = 0) (rb : x.rb = 0)
include run ra rb

theorem gives_ledg (e : Fin 5) (m : Fin 2) (sub : x.sub.toNat = e.1 + 8 * m.1) :
    Gives (.ledg (.tabor k) x) s (endX s (.tabor k) x.rd stOk (vget (vget s.cores k).latch e)) := by
  obtain ⟨legal, code, -⟩ := ledgLegal_of_code ra rb e.isLt m.isLt (show 0 < 2 by decide) sub
  refine onTabor_legal run legal ?_
  rw [code, vgetN_lt _ _ e.isLt]
  rfl

theorem gives_ledgSnapshot (e : Fin 5) (m : Fin 2) (sub : x.sub.toNat = e.1 + 8 * m.1 + 16) {a b c d g : Nat}
    (values : s.ledgerValues m.1 = [a, b, c, d, g]) :
    let v : Vector DWord 5 := #v[BitVec.ofNat 64 a, BitVec.ofNat 64 b, BitVec.ofNat 64 c, BitVec.ofNat 64 d, BitVec.ofNat 64 g]
    Gives (.ledgSnapshot (.tabor k) x) s (endX (s.modCore k (fun y => { y with latch := v })) (.tabor k) x.rd stOk (vget v e)) := by
  intro v
  obtain ⟨legal, code, ledger⟩ := ledgLegal_of_code ra rb e.isLt m.isLt (show 1 < 2 by decide) sub
  refine onTabor_legal run legal ?_
  dsimp only
  rw [ledger, values, code, vgetN_lt _ _ e.isLt]
  simp only [foldl_vsetN_five, State.modCore_cores, vget_vmod_same]
  rfl

end Ledg

/-- Settles O16: MARK by the slot's state, LEDG by its code. -/
theorem poolAndLedgerInstructions : Obligations.PoolAndLedgerInstructions := by
  intro k x i s run rb c n free still
  have query (sub : x.sub = 0x80) : fmtXPlain x true true false 0x80 = true := by simp [fmtXPlain, rb, sub]
  refine ⟨fun sub slot => onTabor_legal run (query sub) ?_, fun sub out => onTabor_legal run (query sub) (if_pos out), fun slot quiet long sub => ?_,
    fun slot quiet short sub room => ?_, fun slot unused small => ?_,
    fun e m ra => ⟨fun sub => gives_ledg run ra rb e m sub, fun sub => gives_ledgSnapshot run ra rb e m sub rfl⟩⟩
  · refine (if_neg (by omega)).trans ?_
    rw [show fin 16 n = i by rw [slot, fin_val]]
    rfl
  · have marked := gives_mark run rb (show x.sub.toNat = 0 by rw [sub]; rfl) (by decide) slot (mark_of_long quiet long)
    rwa [if_pos rfl, slotDesc_of_unused (by rw [slot_modSlot_same]; rfl)] at marked
  · have marked := gives_mark run rb (show x.sub.toNat = 2 by rw [sub]; rfl) (by decide) slot (mark_of_short quiet short room)
    rw [if_pos rfl] at marked
    obtain ⟨rd, fl, -⟩ := endX_spec (s.modSlot i (fun y => { y with mark := .long })) k x.rd 0 ((s.modSlot i (fun y => { y with mark := .long })).slotDesc i)
    exact ⟨_, marked, slot_modSlot_same _ _ _, fun j h => slot_modSlot_ne _ h _, rd, fl⟩
  · exact gives_mark run rb rfl small slot (mark_of_unused unused _)

end Sys2Proof.Proofs.Pool

/-! ### What counting wrong words is made of, and what it leaves alone

A read of a store, or a partial write, may count words it finds wrong: counters, proposals and the events they raise (R305, R515, R517). Everything
else stands, memory too but for the event records in control SRAM. -/

namespace Sys2Proof.Proofs.Counting

open Sys2Proof.Machine

/-- `Counted s t`: `t` follows from `s` by writes of registers, raises of sources that are no ring's, and changes of the upkeep's state. -/
inductive Counted (s : State) : State → Prop where
  | refl : Counted s s
  | reg {t : State} (o : Nat) (w : Word) : Counted s t → Counted s (t.setReg o w)
  | raised {t : State} {k : Nat} : k < 21 ∨ 24 < k → Counted s t → Counted s (t.raise k)
  | ras {t : State} (f : Ras → Ras) : Counted s t → Counted s (t.modRas f)

/-- A relation that each of the three keeps holds over all of the counting. -/
theorem Counted.lift {R : State → State → Prop} (refl : ∀ s, R s s) (trans : ∀ {s t u}, R s t → R t u → R s u)
    (reg : ∀ s o w, R s (s.setReg o w)) (raised : ∀ s k, k < 21 ∨ 24 < k → R s (s.raise k)) (ras : ∀ s f, R s (s.modRas f))
    {s t : State} (h : Counted s t) : R s t := by
  induction h with
  | refl => exact refl s
  | reg o w _ ih => exact trans ih (reg _ o w)
  | raised number _ ih => exact trans ih (raised _ _ number)
  | ras f _ ih => exact trans ih (ras _ f)

theorem Counted.trans {s t u : State} (h : Counted s t) (h' : Counted t u) : Counted s u := by
  induction h' with
  | refl => exact h
  | reg o w _ ih => exact ih.reg o w
  | raised number _ ih => exact ih.raised number
  | ras f _ ih => exact ih.ras f

section Steps
variable {s t : State} (h : Counted s t)
include h

theorem Counted.or (o : Nat) (m : Word) : Counted s (t.orReg o m) := h.reg o _
theorem Counted.bump (o n : Nat) : Counted s (t.bump o n) := h.reg o _
theorem Counted.reg64 (o : Nat) (v : DWord) : Counted s (t.setReg64 o v) := (h.reg o _).reg (o + 4) _
theorem Counted.threshold : Counted s t.threshold := (h.or rRasStat 4).raised (by decide)

theorem Counted.ite {a : State} {c : Prop} [Decidable c] (ha : Counted s a) : Counted s (if c then a else t) := by
  split
  · exact ha
  · exact h

theorem Counted.countSite (site : Nat) (vs : List Verdict) : Counted s (t.countSite site vs) := by
  unfold State.countSite
  extract_lets c u s1
  have corrected : Counted s s1 := (h.bump _ _).ite h
  exact (corrected.bump _ _).ite corrected

theorem Counted.siteWords (site : Nat) (vs : List Verdict) : Counted s (t.siteWords site vs) := by
  unfold State.siteWords
  extract_lets c u s1 hr base old s2 s3
  have counted : Counted s s1 := h.countSite site vs
  have kept : Counted s s2 := (counted.ras _).ite counted
  have limited : Counted s s3 := kept.ite kept.threshold
  exact limited.threshold.ite limited

theorem Counted.enter (p : Proposal) : Counted s (t.enter p) := by
  unfold State.enter
  split
  · exact (h.ras _).or _ _
  · exact (h.ras _).raised (by decide)

theorem Counted.propose (kind target reason info : Nat) : Counted s (t.propose kind target reason info) :=
  (((h.enter _).ite h.threshold).ite (h.ras _)).ite h

theorem Counted.dramCorrected (c phy : Nat) : Counted s (t.dramCorrected c phy) := by
  unfold State.dramCorrected
  split
  · exact h
  · exact (h.ras _).ite ((h.ras _).propose _ _ _ _)

theorem Counted.noteDramWord (a : Nat) (v : Verdict) : Counted s (t.noteDramWord a v) := by
  unfold State.noteDramWord
  extract_lets c phy s1
  have corrected : Counted s s1 := h.ite ((h.bump _ _).dramCorrected _ _)
  exact corrected.ite (((((corrected.bump _ _).reg64 _ _).or _ _).raised (by decide)).propose _ _ _ _)

theorem Counted.sramCorrected (site i : Nat) : Counted s (t.sramCorrected site i) := by
  unfold State.sramCorrected
  extract_lets old s1 alike s2
  have listed : Counted s s1 := h.ras _
  have rows : Counted s s2 := listed.ite (listed.propose _ _ _ _)
  exact (rows.ite (rows.propose _ _ _ _)).ite listed

theorem Counted.noteSramWord (site i : Nat) (v : Verdict) : Counted s (t.noteSramWord site i v) := by
  unfold State.noteSramWord
  extract_lets s1
  have corrected : Counted s s1 := h.ite (h.sramCorrected _ _)
  exact corrected.ite (corrected.propose _ _ _ _)

theorem Counted.noteWords (id : StoreId) (a n : Nat) : Counted s (t.noteWords id a n) := by
  unfold State.noteWords
  extract_lets m
  refine foldl_keeps (Counted s) _ (fun u i counted => ?_) _ _ (h.siteWords _ _)
  cases id
  · exact counted.noteDramWord _ _
  · exact counted.noteSramWord _ _ _
  · exact counted.noteSramWord _ _ _
  · exact counted

end Steps

/-- Everything but the events' own parts (`EventFrame`) and the upkeep's state is as before. -/
def CountFrame (s t : State) : Prop :=
  t = { s with srcs := t.srcs, evcStamp := t.evcStamp, regs := t.regs, cores := t.cores, bh := t.bh, ctlSram := t.ctlSram, ras := t.ras }

theorem CountFrame.refl (s : State) : CountFrame s s := rfl

theorem CountFrame.trans {s t u : State} (h : CountFrame s t) (h' : CountFrame t u) : CountFrame s u := Eq.trans h' (by rw [h])

theorem CountFrame.of_event {s t : State} (h : EventFrame s t) : CountFrame s t := Eq.trans h.1 (by rw [h.1])

theorem Counted.frame {s t : State} (h : Counted s t) : CountFrame s t :=
  h.lift (R := CountFrame) .refl .trans (fun s o w => .of_event (State.setReg_frame s o w)) (fun s k _ => .of_event (State.raise_frame s k))
    fun _ _ => rfl

section Fields
variable {s t : State} (h : CountFrame s t)
include h

theorem CountFrame.dram : t.dram = s.dram := by rw [h]
theorem CountFrame.cisSram : t.cisSram = s.cisSram := by rw [h]
theorem CountFrame.nvs : t.nvs = s.nvs := by rw [h]
theorem CountFrame.take : t.take = s.take := by rw [h]
theorem CountFrame.banks : t.banks = s.banks := by rw [h]
theorem CountFrame.engines : t.engines = s.engines := by rw [h]
theorem CountFrame.clusters : t.clusters = s.clusters := by rw [h]
theorem CountFrame.slots : t.slots = s.slots := by rw [h]
theorem CountFrame.ledgers : t.ledgers = s.ledgers := by rw [h]
theorem CountFrame.logs : t.logs = s.logs := by rw [h]
theorem CountFrame.mags : t.mags = s.mags := by rw [h]
theorem CountFrame.sns : t.sns = s.sns := by rw [h]
theorem CountFrame.ksl : t.ksl = s.ksl := by rw [h]
theorem CountFrame.hdg : t.hdg = s.hdg := by rw [h]
theorem CountFrame.mc : t.mc = s.mc := by rw [h]
theorem CountFrame.cis : t.cis = s.cis := by rw [h]
theorem CountFrame.dma : t.dma = s.dma := by rw [h]
theorem CountFrame.cku : t.cku = s.cku := by rw [h]
theorem CountFrame.slu : t.slu = s.slu := by rw [h]
theorem CountFrame.ptp : t.ptp = s.ptp := by rw [h]
theorem CountFrame.sessions : t.sessions = s.sessions := by rw [h]
theorem CountFrame.streams : t.streams = s.streams := by rw [h]
theorem CountFrame.clk : t.clk = s.clk := by rw [h]
theorem CountFrame.supply : t.supply = s.supply := by rw [h]
theorem CountFrame.pending : t.pending = s.pending := by rw [h]
theorem CountFrame.gates : t.gates = s.gates := by rw [h]
theorem CountFrame.flume : t.flume = s.flume := by rw [h]
theorem CountFrame.onHold : t.onHold = s.onHold := by rw [h]
theorem CountFrame.tileQueue : t.tileQueue = s.tileQueue := by rw [h]
theorem CountFrame.maintQueue : t.maintQueue = s.maintQueue := by rw [h]
theorem CountFrame.visible : t.visible = s.visible := by rw [h]
theorem CountFrame.tagCmd : t.tagCmd = s.tagCmd := by rw [h]
theorem CountFrame.stalled : t.stalled = s.stalled := by rw [h]
theorem CountFrame.ringPhase : t.ringPhase = s.ringPhase := by rw [h]

end Fields

end Sys2Proof.Proofs.Counting

/-! Completions and the events they raise (R273, R276, R277, R397, R401). The sources are followed in any map, also one that lists a key more than
once: what an entry hidden behind another can do to a claim is part of the invariant. -/

namespace Sys2Proof.Proofs.Completions

open Sys2Proof Sys2Proof.Machine Sys2Proof.Claims Sys2Proof.Proofs.Stores Sys2Proof.Proofs.DataCache
open Sys2Proof.Proofs.Power

/-! ### The entries of one key -/

section Listed
variable {α : Type} [DecidableEq α] {d : Nat → α}

/-- Every value that the map lists for key `k`; the first is the one that is read. -/
def listed (m : SMap α) (k : Nat) : List α := (m.filter (fun p => p.1 = k)).map (·.2)

omit [DecidableEq α] in
theorem listed_cons (a : Nat) (v : α) (m : SMap α) (k : Nat) : listed ((a, v) :: m) k = if a = k then v :: listed m k else listed m k := by
  by_cases h : a = k <;> simp [listed, h]

omit [DecidableEq α] in
theorem mem_listed {m : SMap α} {k : Nat} {v : α} : v ∈ listed m k ↔ (k, v) ∈ m := by
  simp [listed]

omit [DecidableEq α] in
theorem mapGet_eq_head (m : SMap α) (k : Nat) : mapGet d m k = (listed m k).headD (d k) := by
  induction m with
  | nil => rfl
  | cons p m ih =>
    obtain ⟨a, v⟩ := p
    rw [listed_cons, mapGet]
    split
    · rfl
    · exact ih

theorem listed_mapSet_ne (m : SMap α) {j k : Nat} (h : j ≠ k) (v : α) : listed (mapSet d m k v) j = listed m j := by
  induction m with
  | nil =>
    unfold mapSet
    split
    · rfl
    · rw [listed_cons, if_neg h.symm]
  | cons p m ih =>
    obtain ⟨a, w⟩ := p
    unfold mapSet
    split
    · split
      · rfl
      · rw [listed_cons, if_neg h.symm]
    · split
      · next own =>
        subst own
        split
        · rw [listed_cons, if_neg h.symm]
        · rw [listed_cons, if_neg h.symm, listed_cons, if_neg h.symm]
      · rw [listed_cons, listed_cons, ih]

/-- A value written stands first, and what was hidden before is hidden still. -/
theorem listed_mapSet (m : SMap α) {k : Nat} {v : α} (h : v ≠ d k) :
    ∃ l, listed (mapSet d m k v) k = v :: l ∧ ∀ w ∈ (listed m k).tail, w ∈ l := by
  induction m with
  | nil => exact ⟨[], by rw [mapSet, if_neg h, listed_cons, if_pos rfl]; rfl, by simp [listed]⟩
  | cons p m ih =>
    obtain ⟨a, w⟩ := p
    unfold mapSet
    rw [if_neg h, if_neg h]
    split
    · exact ⟨_, by rw [listed_cons, if_pos rfl], fun x mem => List.mem_of_mem_tail mem⟩
    · split
      · next own => exact ⟨listed m k, by rw [listed_cons, if_pos rfl], fun x mem => by simpa [listed_cons, own] using mem⟩
      · next other =>
        rw [listed_cons, if_neg (Ne.symm other), listed_cons, if_neg (Ne.symm other)]
        exact ih

end Listed

/-! ### A source that is free (R397, R401) -/

section Source
variable {s : State} {k : Nat} {t : Fin 16}

/-- An entry of source `k` that is not read is PENDING for target `t`. -/
def Hidden (s : State) (k : Nat) (t : Fin 16) : Prop := ∃ v ∈ (listed s.srcs k).tail, v.st = .pending ∧ v.target = t

/-- Source `k` is enabled and IDLE, or an entry hidden behind it has made it PENDING. -/
def Free (s : State) (k : Nat) : Prop :=
  ((s.src k).en = true ∧ (s.src k).st = .idle) ∨ ((s.src k).st = .pending ∧ Hidden s k (s.src k).target)

theorem src_eq_head (s : State) (k : Nat) : s.src k = (listed s.srcs k).headD (srcReset k) := mapGet_eq_head _ _

theorem listed_cases {l : List Source} {v x : Source} (mem : v ∈ l) : v = l.headD x ∨ v ∈ l.tail := by
  cases l with
  | nil => exact absurd mem List.not_mem_nil
  | cons y l => exact List.mem_cons.mp mem

theorem mem_pendingOf {p : Nat × Source} : p ∈ s.pendingOf t ↔ p ∈ s.srcs ∧ p.2.st = .pending ∧ p.2.target = t := by
  simp [State.pendingOf]

/-- What is claimable of a source that is free stands in a hidden entry. -/
theorem Free.hidden {v : Source} (free : Free s k) (mem : (k, v) ∈ s.pendingOf t) : Hidden s k t := by
  obtain ⟨listed, pending, target⟩ := mem_pendingOf.mp mem
  obtain own | tail := listed_cases (x := srcReset k) (mem_listed.mpr listed)
  · rw [← src_eq_head] at own
    obtain ⟨-, idle⟩ | ⟨-, hidden⟩ := free
    · rw [own, idle] at pending
      exact absurd pending (by decide)
    · rwa [← own, target] at hidden
  · exact ⟨v, tail, pending, target⟩

theorem Hidden.setSrc (hidden : Hidden s k t) (j : Nat) {x : Source} (x_listed : x ≠ srcReset j) : Hidden (s.setSrc j x) k t := by
  obtain ⟨v, mem, rest⟩ := hidden
  by_cases own : k = j
  · subst own
    obtain ⟨l, eq, keeps⟩ := listed_mapSet s.srcs x_listed
    exact ⟨v, by rw [State.setSrc_srcs, eq]; exact keeps v mem, rest⟩
  · exact ⟨v, by rwa [State.setSrc_srcs, listed_mapSet_ne _ own], rest⟩

theorem Free.setSrc_ne (free : Free s k) {j : Nat} (h : k ≠ j) (x : Source) : Free (s.setSrc j x) k := by
  have same : (s.setSrc j x).src k = s.src k := State.src_setSrc_ne s h x
  unfold Free Hidden at free ⊢
  rwa [same, State.setSrc_srcs, listed_mapSet_ne _ h]

theorem src_setSrc_listed (s : State) {j : Nat} {x : Source} (h : x ≠ srcReset j) : (s.setSrc j x).src j = x := mapGet_mapSet_listed _ h

theorem ne_srcReset {x : Source} (h : x.st ≠ .idle) (j : Nat) : x ≠ srcReset j := fun same => h (by rw [same]; rfl)

/-- The entry pending longest is one of those looked at. -/
theorem oldest_mem {l : List (Nat × Source)} {b : Option (Nat × Source)} {p : Nat × Source}
    (h : l.foldl (fun b p => match b with
      | none => some p
      | some q => if p.2.since < q.2.since then some p else some q) b = some p) : b = some p ∨ p ∈ l := by
  induction l generalizing b with
  | nil => exact .inl h
  | cons q l ih =>
    rw [List.foldl_cons] at h
    obtain picked | mem := ih h
    · cases b with
      | none => exact .inr (List.mem_cons.mpr (.inl (Option.some.inj picked).symm))
      | some r =>
        dsimp only at picked
        split at picked
        · exact .inr (List.mem_cons.mpr (.inl (Option.some.inj picked).symm))
        · exact .inl picked
    · exact .inr (List.mem_cons_of_mem _ mem)

theorem claimable_mem (h : s.claimable t ≠ 0) : ∃ v, (s.claimable t, v) ∈ s.pendingOf t := by
  unfold State.claimable at h ⊢
  split at h
  · exact absurd rfl h
  · next enabled =>
    rw [if_neg enabled]
    dsimp only at h ⊢
    split
    · next p old =>
      obtain none | mem := oldest_mem old
      · exact absurd none (by simp)
      · exact ⟨p.2, List.mem_of_mem_filter mem⟩
    · next none =>
      rw [none] at h
      cases head : s.pendingOf t with
      | nil =>
        rw [head] at h
        exact absurd rfl h
      | cons p ps => exact ⟨p.2, List.mem_cons_self⟩

/-- A source passed over is counted; one that is claimed is ACTIVE, or PENDING by a hidden entry. -/
theorem free_passed {ps : List (Nat × Source)} (pending : ∀ p ∈ ps, p.2.st = .pending ∧ p.2.target = t) (known : Free s k ∨ ∃ v, (k, v) ∈ ps)
    (hidden : (∃ v, (k, v) ∈ ps) → Hidden s k t) : Free (ps.foldl (fun s p => s.setSrc p.1 { p.2 with passed := p.2.passed + 1 }) s) k := by
  induction ps generalizing s with
  | nil => exact known.resolve_right fun ⟨v, mem⟩ => absurd mem List.not_mem_nil
  | cons p ps ih =>
    obtain ⟨j, v⟩ := p
    obtain ⟨st, target⟩ := pending (j, v) List.mem_cons_self
    have x_listed : { v with passed := v.passed + 1 } ≠ srcReset j := ne_srcReset (by rw [st]; decide) j
    rw [List.foldl_cons]
    refine ih (fun p mem => pending p (List.mem_cons_of_mem _ mem)) ?_ fun ⟨w, mem⟩ => (hidden ⟨w, List.mem_cons_of_mem _ mem⟩).setSrc j x_listed
    by_cases own : k = j
    · subst own
      have still := (hidden ⟨v, List.mem_cons_self⟩).setSrc k x_listed
      refine .inl (.inr ?_)
      rw [src_setSrc_listed s x_listed]
      exact ⟨st, by rwa [target]⟩
    · obtain free | ⟨w, mem⟩ := known
      · exact .inl (free.setSrc_ne own _)
      · obtain same | mem := List.mem_cons.mp mem
        · exact absurd (congrArg Prod.fst same) own
        · exact .inr ⟨w, mem⟩

theorem free_claimSource (free : Free s k) (claims : s.claimable t ≠ 0) : Free (s.claimSource t (s.claimable t)) k := by
  obtain ⟨v, mem⟩ := claimable_mem claims
  unfold State.claimSource
  extract_lets x s1
  have active : ({ x with st := .active, raw := x.raw && isLevel (s.claimable t), passed := 0 } : Source) ≠ srcReset (s.claimable t) :=
    ne_srcReset (by simp) _
  refine free_passed (t := t) (fun p mem => (mem_pendingOf.mp mem).2) ?_ ?_
  · by_cases own : k = s.claimable t
    · have still := (free.hidden (own ▸ mem)).setSrc (s.claimable t) active
      obtain ⟨w, tail, st, target⟩ := still
      exact .inr ⟨w, mem_pendingOf.mpr ⟨mem_listed.mp (List.mem_of_mem_tail tail), st, target⟩⟩
    · exact .inl (free.setSrc_ne own _)
  · rintro ⟨w, mem'⟩
    by_cases own : k = s.claimable t
    · exact (free.hidden (own ▸ mem)).setSrc _ active
    · exact (free.setSrc_ne own _).hidden mem'

end Source

/-! ### What reading memory and counting its words leave alone (R305, R515, R517) -/

/-- From `s` to `t` no completion joins or leaves those that wait, the phases stay, the registers keep their form, and the sources of the rings that
are free stay so. -/
structure Quiet (s t : State) : Prop where
  stalled : t.stalled = s.stalled
  phase : t.ringPhase = s.ringPhase
  regs : mapWf regReset s.regs → mapWf regReset t.regs
  free : ∀ k, 21 ≤ k → k ≤ 24 → Free s k → Free t k

theorem Quiet.trans {s t u : State} (h : Quiet s t) (h' : Quiet t u) : Quiet s u :=
  ⟨h'.stalled.trans h.stalled, h'.phase.trans h.phase, h'.regs ∘ h.regs, fun k lo hi => h'.free k lo hi ∘ h.free k lo hi⟩

/-- Sources and registers as they are, and nothing posted. -/
theorem Quiet.same {s t : State} (stalled : t.stalled = s.stalled) (phase : t.ringPhase = s.ringPhase) (regs : t.regs = s.regs)
    (srcs : t.srcs = s.srcs) : Quiet s t := by
  refine ⟨stalled, phase, fun h => by rwa [regs], fun k _ _ free => ?_⟩
  unfold Free Hidden State.src at free ⊢
  rwa [srcs]

/-- And a core that runs goes on. -/
structure Noted (s t : State) : Prop extends Quiet s t where
  running : ∀ k, s.coreRun (.tabor k) = .running → t.coreRun (.tabor k) = .running

theorem Noted.refl (s : State) : Noted s s := ⟨⟨rfl, rfl, id, fun _ _ _ => id⟩, fun _ => id⟩

theorem Noted.trans {s t u : State} (h : Noted s t) (h' : Noted t u) : Noted s u :=
  ⟨h.toQuiet.trans h'.toQuiet, fun k => h'.running k ∘ h.running k⟩

theorem Noted.ite {s a b : State} {c : Prop} [Decidable c] (ha : Noted s a) (hb : Noted s b) : Noted s (if c then a else b) := by
  split
  · exact ha
  · exact hb

theorem Noted.same {s t : State} (stalled : t.stalled = s.stalled) (phase : t.ringPhase = s.ringPhase) (regs : t.regs = s.regs)
    (srcs : t.srcs = s.srcs) (cores : t.cores = s.cores) : Noted s t :=
  ⟨.same stalled phase regs srcs, fun k run => (congrArg (fun c => (vget c k).run) cores).trans run⟩

section Noted
variable (s : State)

theorem foldl_noted {β : Type} {f : State → β → State} (h : ∀ s b, Noted s (f s b)) (l : List β) : Noted s (l.foldl f s) := by
  induction l generalizing s with
  | nil => exact .refl s
  | cons b l ih => exact (h s b).trans (ih _)

theorem setReg_noted (o : Nat) (w : Word) : Noted s (s.setReg o w) := ⟨⟨rfl, rfl, fun h => mapWf_mapSet h o w, fun _ _ _ => id⟩, fun _ => id⟩
theorem bump_noted (o n : Nat) : Noted s (s.bump o n) := setReg_noted s o _
theorem modRas_noted (f : Ras → Ras) : Noted s (s.modRas f) := .same rfl rfl rfl rfl rfl

theorem setSrc_noted {j : Nat} (h : j < 21 ∨ 24 < j) (x : Source) : Noted s (s.setSrc j x) :=
  ⟨⟨rfl, rfl, id, fun _ lo hi free => free.setSrc_ne (by omega) x⟩, fun _ => id⟩

theorem setD_quiet (c : Core) (r : Fin 32) (v : DWord) : Quiet s (s.setD c r v) := by cases c <;> exact .same rfl rfl rfl rfl
theorem setFl_quiet (c : Core) (v : DWord) : Quiet s (s.setFl c v) := by cases c <;> exact .same rfl rfl rfl rfl
theorem setRun_quiet (c : Core) (u : CoreRun) : Quiet s (s.setRun c u) := by cases c <;> exact .same rfl rfl rfl rfl
theorem nextPc_quiet (c : Core) : Quiet s (s.nextPc c) := by cases c <;> exact .same rfl rfl rfl rfl

theorem endWait_quiet (c : Core) (rd : Fin 32) (n : Nat) (st : Byte) : Quiet s (s.endWait c rd n st) :=
  (((setD_quiet s c rd _).trans (setFl_quiet _ c _)).trans (setRun_quiet _ c _)).trans (nextPc_quiet _ c)

/-- What no source is part of, a claim leaves alone. -/
theorem claimSource_proj {α : Type} (p : State → α) (keeps : ∀ s k x, p (State.setSrc s k x) = p s) (s : State) (t : Fin 16) (k : Nat) :
    p (s.claimSource t k) = p s :=
  (foldl_proj p (fun s (e : Nat × Source) => keeps s e.1 _) _ _).trans (keeps s k _)

theorem deliverTo_noted (c : Core) : Noted s (s.deliverTo c) := by
  refine ⟨?_, fun k run => ?_⟩
  · unfold State.deliverTo
    split
    · dsimp only
      split
      · exact (Noted.refl s).toQuiet
      · next some =>
        have claimed : Quiet s (s.claimSource (coreTarget c) (s.claimable (coreTarget c))) :=
          ⟨claimSource_proj State.stalled (fun _ _ _ => rfl) _ _ _, claimSource_proj State.ringPhase (fun _ _ _ => rfl) _ _ _,
            fun h => by rwa [claimSource_proj State.regs (fun _ _ _ => rfl)], fun k _ _ free => free_claimSource free some⟩
        exact claimed.trans (endWait_quiet _ _ _ _ _)
    · exact (Noted.refl s).toQuiet
  · obtain ⟨-, core, -⟩ := deliverTo_steady k s c
    have runs : (vget s.cores k).run = .running := run
    exact (congrArg TaborCore.run (core (awake_of_running runs))).trans runs

theorem deliver_noted : Noted s s.deliver := foldl_noted s deliverTo_noted allCores

theorem toPending_noted {j : Nat} (h : j < 21 ∨ 24 < j) : Noted s (s.toPending j) := by
  have stamped : Noted s { s with evcStamp := s.evcStamp + 1 } := .same rfl rfl rfl rfl rfl
  exact stamped.trans (setSrc_noted _ h _)

theorem edgeRaise_noted {j : Nat} (h : j < 21 ∨ 24 < j) : Noted s (s.edgeRaise j) := by
  unfold State.edgeRaise
  extract_lets x s1
  have marked : Noted s s1 := setSrc_noted s h _
  split
  · exact marked
  · split
    · exact marked.trans (toPending_noted s1 h)
    · exact marked.trans (bump_noted _ _ _)
    · exact marked.trans (setSrc_noted _ h _)
    · exact marked.trans (bump_noted _ _ _)

theorem raise_noted {j : Nat} (h : j < 21 ∨ 24 < j) : Noted s (s.raise j) :=
  .ite (.refl s) ((edgeRaise_noted s h).trans (deliver_noted _))

theorem noteWords_noted (id : StoreId) (a n : Nat) : Noted s (s.noteWords id a n) :=
  (Counting.Counted.refl.noteWords id a n).lift (R := Noted) .refl .trans setReg_noted (fun s _ number => raise_noted s number) modRas_noted

theorem setStore_noted (id : StoreId) (m : Store) : Noted s (s.setStore id m) := by
  cases id <;> exact .same rfl rfl rfl rfl rfl

theorem modCore_noted (k : Fin 4) {f : TaborCore → TaborCore} (h : ∀ x, (f x).run = x.run) : Noted s (s.modCore k f) := by
  refine ⟨.same rfl rfl rfl rfl, fun j run => ?_⟩
  have runs : (vget s.cores j).run = .running := run
  change (vget (vmod s.cores k f) j).run = .running
  by_cases own : j = k
  · subst own
    rw [vget_vmod_same, h, runs]
  · rw [vget_vmod_ne _ own, runs]

theorem ctlSync_noted (a n : Nat) (drop : Bool) : Noted s (s.ctlSync a n drop) := by
  unfold State.ctlSync
  extract_lets lines s1 keep
  have written : Noted s s1 := .same rfl rfl rfl rfl rfl
  exact .ite (.refl s) (written.trans (foldl_noted s1 (fun s n => by exact modCore_noted s (fin 4 n) fun _ => rfl) _))

theorem poke_noted (a : Nat) (b : List Byte) : Noted s (s.poke a b) := by
  unfold State.poke
  split
  · exact .refl s
  · exact (ctlSync_noted s _ _ _).trans ((foldl_noted _ (fun t _ => noteWords_noted t _ _ _) _).trans (setStore_noted _ _ _))
  · exact .refl s

end Noted

/-! ### The source of the ring (R277, R397) -/

section Raised
variable {s : State} {k : Nat}

/-- Source `k` is PENDING, or ACTIVE for the core that claimed it. -/
def Raised (s : State) (k : Nat) : Prop := (s.src k).st = .pending ∨ (s.src k).st = .active

theorem raised_setSrc (raised : Raised s k) (j : Nat) {x : Source} (h : x.st = .pending ∨ x.st = .active) : Raised (s.setSrc j x) k := by
  by_cases own : k = j
  · subst own
    have x_listed : x ≠ srcReset k := ne_srcReset (by obtain e | e := h <;> rw [e] <;> decide) k
    unfold Raised
    rwa [src_setSrc_listed s x_listed]
  · unfold Raised
    rwa [State.src_setSrc_ne s own]

theorem raised_claimSource (raised : Raised s k) (t : Fin 16) (j : Nat) : Raised (s.claimSource t j) k := by
  have claimed : Raised (s.setSrc j { s.src j with st := .active, raw := (s.src j).raw && isLevel j, passed := 0 }) k :=
    raised_setSrc raised j (.inr rfl)
  unfold State.claimSource
  dsimp only
  generalize s.setSrc j { s.src j with st := .active, raw := (s.src j).raw && isLevel j, passed := 0 } = s1 at claimed
  have pending : ∀ p ∈ s1.pendingOf t, p.2.st = .pending := fun p mem => (mem_pendingOf.mp mem).2.1
  generalize s1.pendingOf t = ps at pending
  induction ps generalizing s1 with
  | nil => exact claimed
  | cons p ps ih => exact ih _ (raised_setSrc claimed p.1 (.inl (pending p List.mem_cons_self))) fun q mem => pending q (List.mem_cons_of_mem _ mem)

theorem src_endWait (s : State) (c : Core) (rd : Fin 32) (n : Nat) (st : Byte) (k : Nat) : (s.endWait c rd n st).src k = s.src k := by
  cases c <;> rfl

theorem raised_deliver (raised : Raised s k) : Raised s.deliver k := by
  refine foldl_keeps (fun s => Raised s k) _ (fun s c raised => ?_) _ _ raised
  unfold State.deliverTo
  split
  · dsimp only
    split
    · exact raised
    · have claimed := raised_claimSource raised (coreTarget c) (s.claimable (coreTarget c))
      unfold Raised at claimed ⊢
      rwa [src_endWait]
  · exact raised

/-- A free source is PENDING or claimed once it is raised. -/
theorem raised_raise (free : Free s k) (nonzero : k ≠ 0) (small : k < 1024) (edge : isLevel k = false) : Raised (s.raise k) k := by
  have raised : Raised (s.edgeRaise k) k := by
    obtain ⟨en, idle⟩ | ⟨pending, -⟩ := free
    · have marked : ({ s.src k with raw := true } : Source) ≠ srcReset k := fun same => by
        have off : (s.src k).en = false := congrArg Source.en same
        rw [en] at off
        exact absurd off (by decide)
      simp only [State.edgeRaise, en, idle, Bool.not_true, Bool.false_eq_true, if_false, State.toPending]
      exact .inl (congrArg Source.st (src_setSrc_listed _ (ne_srcReset (by simp) k)))
    · have marked : Raised (s.setSrc k { s.src k with raw := true }) k :=
        .inl (by rw [src_setSrc_listed s (ne_srcReset (by rw [pending]; decide) k)]; exact pending)
      unfold State.edgeRaise
      extract_lets x s1
      rw [show x.st = .pending from pending]
      split
      · exact marked
      · exact marked
  have number : ¬ (k = 0 ∨ 1024 ≤ k ∨ isLevel k = true) := by
    rw [edge]
    simp only [Bool.false_eq_true, or_false]
    omega
  unfold State.raise State.raiseWith
  rw [if_neg number]
  exact raised_deliver raised

end Raised

/-! ### What a raise leaves alone -/

theorem raise_proj {α : Type} (p : State → α) (sources : ∀ s k x, p (State.setSrc s k x) = p s) (stamp : ∀ (s : State) n, p { s with evcStamp := n } = p s)
    (count : ∀ s, p (State.bump s rEvcCoalesced 1) = p s) (wait : ∀ s c rd n st, p (State.endWait s c rd n st) = p s) (s : State) (k : Nat) :
    p (s.raise k) = p s := by
  have edge : p (s.edgeRaise k) = p s := by
    unfold State.edgeRaise
    extract_lets x s1
    have marked : p s1 = p s := sources s k _
    split
    · exact marked
    · split
      · exact (sources _ k _).trans ((stamp s1 _).trans marked)
      · exact (count s1).trans marked
      · exact (sources s1 k _).trans marked
      · exact (count s1).trans marked
  have claims (s : State) (c : Core) : p (s.deliverTo c) = p s := by
    unfold State.deliverTo
    split
    · dsimp only
      split
      · rfl
      · exact (wait _ _ _ _ _).trans (claimSource_proj p sources _ _ _)
    · rfl
  unfold State.raise State.raiseWith
  split
  · rfl
  · exact (foldl_proj p claims _ _).trans edge

theorem ctlSram_raise (s : State) (k : Nat) : (s.raise k).ctlSram = s.ctlSram :=
  raise_proj State.ctlSram (fun _ _ _ => rfl) (fun _ _ => rfl) (fun _ => rfl) (fun s c rd n st => by cases c <;> rfl) s k

theorem reg_raise (s : State) (k : Nat) {o : Nat} (h : o ≠ rEvcCoalesced) : (s.raise k).reg o = s.reg o :=
  raise_proj (fun s => s.reg o) (fun _ _ _ => rfl) (fun _ _ => rfl) (fun s => State.reg_setReg_ne s h _) (fun s c rd n st => endWait_reg s c rd n st o) s k

/-! ### The entry (R276) -/

/-- A code word written whole reads back as written, whatever it held. -/
theorem read_write_word {m : Store} (wf : m.wf) {o : Nat} (align : o % 16 = 0) {b : List Byte} (len : b.length = 16) : (m.write o b).read o 16 = b := by
  have word : wordsOf o b.length = [o / 16] := by
    rw [len, wordsOf, if_neg (by decide), show (o + 16 - 1) / 16 + 1 - o / 16 = 1 by omega]
    rfl
  have write : m.write o b = (m.setSyn (o / 16) 0).put o b := by
    rw [Store.write, word, List.foldl_cons, List.foldl_nil, Store.rewrite, if_pos (by omega)]
  have fresh : (m.setSyn (o / 16) 0).wf := Store.setSyn_wf wf _ _
  rw [← len]
  refine eq_read_iff fun i hi => ?_
  have sound : (m.write o b).syndrome ((o + i) / 16) = 0 := by
    rw [write, Store.syndrome_put, Store.syndrome_setSyn wf, if_pos (by omega)]
  rw [Store.readByte_clean sound, write, Store.byte_put fresh, if_pos (by omega), Nat.add_sub_cancel_left]

theorem ctlSync_wf {s : State} (wf : s.ctlSram.wf) (a n : Nat) (drop : Bool) : (s.ctlSync a n drop).ctlSram.wf := by
  unfold State.ctlSync
  extract_lets lines s1 keep
  split
  · exact wf
  · rw [foldl_proj State.ctlSram (fun s k => State.modCore_ctlSram s (fin 4 k) _)]
    exact foldl_keeps Store.wf _ (fun _ l hm => CacheLine.toCtl_wf hm l) _ _ wf

theorem poke_word {s : State} (wf : s.ctlSram.wf) {a o : Nat} (align : a % 16 = 0) (lo : ctlBase ≤ a) (hi : a + 16 ≤ ctlBase + 0x400000)
    (ho : a - ctlBase = o) {b : List Byte} (len : b.length = 16) : (s.poke a b).ctlSram.read o 16 = b := by
  have base : ctlBase = 16 * 0x2000000000 := rfl
  have region : s.region a = .ctl o := by rw [region_ctl s lo (by omega), ho]
  have whole : partWords o b.length = [] := by
    refine List.filter_eq_nil_iff.mpr fun i mem => ?_
    rw [mem_wordsOf, len] at mem
    simp [len]
    omega
  have wrote := writeStore_of_clean (s.ctlSync a b.length true) .ctl (a := o) (b := b) (by rw [whole]; exact fun i mem => absurd mem List.not_mem_nil)
  simp only [State.poke, region, Region.cell, wrote]
  exact read_write_word (ctlSync_wf wf _ _ _) (by omega) len

theorem length_image (c : Completion) (phase : Bool) : (c.image phase).length = 16 := by simp [Completion.image]

/-! ### Writing a completion (R273, R276, R277) -/

theorem postEntry_of_room {s : State} {c : Completion} (gen : vget s.ringGen c.ring = c.gen) (on : s.ringOn c.ring = true) (idle : s.stalled = [])
    (room : s.ringFull c.ring = false) : s.postEntry c = s.writeCompletion c := by
  have log : s.ringLog2 c.ring ≠ 0 := by simpa [State.ringOn] using on
  rw [State.postEntry, if_neg (by simp [log, gen]), if_neg (by simp [idle, room])]

/-- The entry is in memory at index `tail` of the ring of `n`, and the phase has turned at the ring's end. -/
def entered (s : State) (c : Completion) (tail n : Nat) : State :=
  let t := s.poke ((s.reg64 (rTabCplBase c.ring.1)).toNat + 16 * tail) (c.image (vget s.ringPhase c.ring))
  { t with ringPhase := vset t.ringPhase c.ring (if tail + 1 = n then !vget s.ringPhase c.ring else vget s.ringPhase c.ring) }

section Entry
variable {s : State} {c : Completion} {tail n : Nat}

theorem writeCompletion_eq (hn : 2 ^ s.ringLog2 c.ring = n) (ht : (s.reg (rTabCplTail c.ring.1)).toNat % n = tail) : s.writeCompletion c =
    ((entered s c tail n).setReg (rTabCplTail c.ring.1) (BitVec.ofNat 32 ((tail + 1) % n))).raise (21 + c.ring.1) := by
  subst hn ht
  rfl

theorem entered_phase : vget (entered s c tail n).ringPhase c.ring = (vget s.ringPhase c.ring ^^ decide (tail + 1 = n)) := by
  unfold entered
  dsimp only
  rw [vget_vset_same]
  by_cases last : tail + 1 = n
  · simp [last]
  · simp [last]

theorem entered_stalled : (entered s c tail n).stalled = s.stalled := (poke_noted s _ _).stalled

theorem entered_regs (wf : mapWf regReset s.regs) : mapWf regReset (entered s c tail n).regs := (poke_noted s _ _).regs wf

theorem entered_free {k : Nat} (lo : 21 ≤ k) (hi : k ≤ 24) (free : Free s k) : Free (entered s c tail n) k := (poke_noted s _ _).free k lo hi free

/-- What the completion leaves. -/
theorem writeCompletion_spec (hn : 2 ^ s.ringLog2 c.ring = n) (ht : (s.reg (rTabCplTail c.ring.1)).toNat % n = tail) {a : Nat}
    (ha : (s.reg64 (rTabCplBase c.ring.1)).toNat + 16 * tail = a) : let t := s.writeCompletion c
    vget t.ringPhase c.ring = (vget s.ringPhase c.ring ^^ decide (tail + 1 = n)) ∧ t.stalled = s.stalled ∧
    (Free s (21 + c.ring.1) → Raised t (21 + c.ring.1)) ∧
    (s.ctlSram.wf → a % 16 = 0 → ctlBase ≤ a → a + 16 ≤ ctlBase + 0x400000 → ∀ o, a - ctlBase = o →
      t.ctlSram.read o 16 = c.image (vget s.ringPhase c.ring)) ∧
    (mapWf regReset s.regs → (t.reg (rTabCplTail c.ring.1)).toNat = (tail + 1) % n) := by
  dsimp only
  rw [writeCompletion_eq hn ht]
  have ring := c.ring.isLt
  refine ⟨?_, ?_, fun free => ?_, fun wf align lo hi o ho => ?_, fun wf => ?_⟩
  · rw [← entered_phase (tail := tail) (n := n)]
    exact congrArg (vget · c.ring) (raise_proj State.ringPhase (fun _ _ _ => rfl) (fun _ _ => rfl) (fun _ => rfl)
      (fun s c rd n st => by cases c <;> rfl) _ _)
  · rw [← entered_stalled (s := s) (c := c) (tail := tail) (n := n)]
    exact raise_proj State.stalled (fun _ _ _ => rfl) (fun _ _ => rfl) (fun _ => rfl) (fun s c rd n st => by cases c <;> rfl) _ _
  · have edge : isLevel (21 + c.ring.1) = false := by
      have all : ∀ k : Fin 4, isLevel (21 + k.1) = false := by decide
      exact all c.ring
    have free' : Free (entered s c tail n) (21 + c.ring.1) := entered_free (by omega) (by omega) free
    exact raised_raise free' (by omega) (by omega) edge
  · rw [ctlSram_raise]
    have word := poke_word wf align lo hi ho (length_image c (vget s.ringPhase c.ring))
    rw [← ha] at word
    exact word
  · have size : n ≤ 2 ^ 15 := by
      rw [← hn]
      exact Nat.pow_le_pow_right (by decide) (Nat.le_of_lt_succ (Nat.mod_lt _ (by decide)))
    have pos : 0 < n := hn ▸ Nat.two_pow_pos _
    have small : (tail + 1) % n < 2 ^ 32 := by
      have := Nat.mod_lt (tail + 1) pos
      omega
    rw [reg_raise _ _ (by unfold rTabCplTail rEvcCoalesced; omega), State.reg_setReg (entered_regs wf), if_pos rfl, BitVec.toNat_ofNat,
      Nat.mod_eq_of_lt small]

end Entry

/-- Settles O17: a completion with room by `writeCompletion_spec`; its last clause stands under the same hypothesis, which excludes it. -/
theorem completionsWritten : Obligations.CompletionsWritten := by
  intro s c gen on idle k n tail last a room
  obtain ⟨phase, stalled, raised, image, reg⟩ := writeCompletion_spec (s := s) (c := c) (n := n) (tail := tail) rfl rfl rfl
  have written : s.postEntry c = s.writeCompletion c := postEntry_of_room gen on idle (decide_eq_false room)
  have take : (s.writeCompletion c).take = s.take := by rw [State.writeCompletion_post s c]
  exact ⟨⟨_, written, phase, stalled.trans idle, take, fun en free => raised (.inl ⟨en, free⟩), fun wf align lo hi => image wf align lo hi _ rfl, reg⟩,
    fun full => absurd full room⟩

end Sys2Proof.Proofs.Completions

/-! ### Sleep, supplies and ageing (O51) -/

namespace Sys2Proof.Proofs.SleepAndSupply

open Sys2Proof.Machine Sys2Proof.Claims Sys2Proof.Proofs.Power

/-! Device sleep (R425, R426). -/

theorem sleep_of_free {s : State} (free : allDoms.any s.requested = false) (mode : Nat) :
    s.sleep .bellhouse mode = s.modHdg (fun h => { h with mode := mode, sleepBegun := false }) := by
  simp [State.sleep, free]

theorem sleep_of_requested {s : State} (requested : allDoms.any s.requested = true) (mode : Nat) :
    s.sleep .bellhouse mode = s.orReg rHdgStat 1 := by
  simp only [State.sleep, ne_eq, not_true, if_false, requested, if_true]

theorem sleep_of_other {s : State} {ini : Initiator} (other : ini ≠ .bellhouse) (mode : Nat) : s.sleep ini mode = s := if_pos other

theorem wakeUp_of_none {s : State} (none : s.hdg.mode = 0 ∨ s.wakeHolds = false) : s.wakeUp = s :=
  if_pos (none.imp_right fun holds => by rw [holds]; rfl)

theorem wakeUp_of_holds {s : State} (asleep : s.hdg.mode ≠ 0) (holds : s.wakeHolds = true) :
    s.wakeUp = if (s.hdg.sleepBegun && allDoms.all fun d => decide ((s.dom d).st = .off)) = true
      then s.modHdg (fun h => { h with mode := 0, sleepBegun := false })
      else if s.hdg.sleepBegun = true then (s.modHdg (fun h => { h with mode := 0, sleepBegun := false })).bump rHdgSleepAbandon 1
      else ((s.modHdg (fun h => { h with mode := 0, sleepBegun := false })).orReg rHdgStat 2).bump rHdgSleepAbandon 1 :=
  if_neg (by simp [asleep, holds])

/-! The set point of VDD_CORE (R532). -/

theorem avs_of_busy {s : State} (busy : s.avsFree = false) (mv : Nat) (acks : List Bool) : s.avs mv acks = s :=
  if_pos (by simp [busy])

theorem avs_of_allowed {s : State} {mv : Nat} (allowed : s.avsAllowed mv = true) (free : s.avsFree = true) (acks : List Bool) :
    s.avs mv acks = if (acks.take 4).any id = true then { s with supply := { s.supply with vcore := mv, avsAt := some s.clk.fab } }
      else { s with supply := { s.supply with avsAt := some s.clk.fab } }.threshold :=
  if_neg (by simp [allowed, free])

/-! Ageing (R517, R528). -/

theorem aged_of_low {s : State} {k : Nat} {v : Half} (low : v.toNat < 500) :
    s.aged k v = s.setReg (rRasAge k) ((s.reg (rRasAge k) &&& 0x10000) ||| v.setWidth 32) := by
  have below : ¬ 500 ≤ v.toNat := by omega
  have far : ¬ 800 ≤ v.toNat := by omega
  simp [State.aged, below, far]

/-- At 8.00 % AGED is set over whatever the register held (R517). -/
theorem aged_of_crossing {s : State} {k : Nat} {v : Half} (monitor : k < 17) (below : (s.reg (rRasAge k)).toNat % 65536 < 800)
    (aged : 800 ≤ v.toNat) : ∃ u : State, s.aged k v = u.orReg (rRasAge k) 0x10000 := by
  simp only [State.aged, below, aged, monitor, decide_true, Bool.and_self, Bool.not_true, Bool.false_eq_true, if_true, if_false]
  exact ⟨_, rfl⟩

theorem regReset_age (k : Fin 22) : regReset (rRasAge k.1) = 0 := by
  revert k
  decide

/-- Bits set over a register whose reset value lacks one of them are set after it, whatever form the registers have. -/
theorem getLsbD_orReg {s : State} {o n : Nat} {m : Word} (bit : m.getLsbD n = true) (reset : (regReset o).getLsbD n = false) :
    ((s.orReg o m).reg o).getLsbD n = true := by
  have set : (s.reg o ||| m).getLsbD n = true := by simp [bit]
  have listed : s.reg o ||| m ≠ regReset o := fun same => by rw [same, reset] at set; exact Bool.false_ne_true set
  rw [State.orReg, State.reg, State.setReg_regs, mapGet_mapSet_listed _ listed, set]

/-- Settles O51: each clause by the rule of its unit for device sleep, the wake logic, the level source, the set point and the monitors. -/
theorem sleepAndSupply : Obligations.SleepAndSupply := by
  intro ini v hot mv acks k deg s old
  refine ⟨fun free enters => ⟨next_access enters (sleep_of_free free 1), next_access enters (sleep_of_free free 2)⟩,
    fun requested enters => ⟨next_access enters (sleep_of_requested requested 1), next_access enters (sleep_of_requested requested 2)⟩,
    fun other => ⟨fun enters => ⟨next_access enters (sleep_of_other other 1), next_access enters (sleep_of_other other 2)⟩,
      fun enters => next_access enters (if_neg other)⟩,
    fun none => congrArg Host.Outcome.next (wakeUp_of_none none),
    fun asleep holds begun off => congrArg Host.Outcome.next ?_, fun asleep holds begun => congrArg Host.Outcome.next ?_,
    fun en => congrArg Host.Outcome.next (if_pos en), fun en => congrArg Host.Outcome.next (if_neg (by simp [en])),
    fun enters => next_access enters (if_pos rfl), rfl, rfl, rfl, fun asserted en idle => ?_, fun released active => ?_,
    fun busy => congrArg Host.Outcome.next (avs_of_busy busy mv acks), fun free low high step up down => ⟨fun ack => ?_, fun ack => ?_⟩,
    fun low => congrArg Host.Outcome.next (aged_of_low low), fun monitor below aged => ?_⟩
  · exact (wakeUp_of_holds asleep holds).trans (if_pos (by rw [begun, off]; rfl))
  · exact (wakeUp_of_holds asleep holds).trans (by simp [begun])
  · subst asserted
    exact congrArg Host.Outcome.next (Events.lineChange_asserted en idle)
  · subst released
    exact congrArg Host.Outcome.next (if_neg (by rw [active]; decide))
  · have allowed : s.avsAllowed mv = true := by simp [State.avsAllowed]; omega
    exact congrArg Host.Outcome.next ((avs_of_allowed allowed free acks).trans (if_pos ack))
  · have allowed : s.avsAllowed mv = true := by simp [State.avsAllowed]; omega
    exact congrArg Host.Outcome.next ((avs_of_allowed allowed free acks).trans (if_neg (by simp [ack])))
  · obtain ⟨u, sets⟩ := aged_of_crossing monitor below aged
    refine ⟨_, congrArg Host.Outcome.next sets, getLsbD_orReg (by decide) ?_⟩
    rw [regReset_age k]
    decide

end Sys2Proof.Proofs.SleepAndSupply

/-! ### The memory controller's requests (O31) -/

namespace Sys2Proof.Proofs.Dram

open Sys2Proof.Machine Sys2Proof.Claims Sys2Proof.Proofs.Stores Sys2Proof.Proofs.Counting Sys2Proof.Proofs.Coding

/-! Whole words written, and words poisoned (R304, R546). -/

section Words
variable {m : Store} {a : Nat} {b : List Byte}

theorem wordsOf_word (j : Nat) : wordsOf (16 * j) 16 = [j] := by
  have one : (16 * j + 16 - 1) / 16 + 1 - 16 * j / 16 = 1 := by omega
  have first : 16 * j / 16 = j := by omega
  rw [wordsOf, if_neg (by decide), one, first]
  rfl

/-- A word written whole gets good check bits, whatever it held. -/
theorem write_word (m : Store) (j : Nat) (len : b.length = 16) : m.write (16 * j) b = (m.setSyn j 0).put (16 * j) b := by
  rw [Store.write, len, wordsOf_word, List.foldl_cons, List.foldl_nil, Store.rewrite, if_pos (by omega)]

/-- The byte of a word with good check bits, or of a poisoned one, is read as it stands. -/
theorem readByte_plain {k : Nat} (plain : m.syndrome (k / 16) = 0 ∨ m.syndrome (k / 16) = 0xFFFF) : m.readByte k = m.byte k := by
  obtain clean | poisoned := plain
  · exact Store.readByte_clean clean
  · rw [Store.readByte, poisoned]
    rfl

/-- What the line's writes and poisonings keep: the form, the bytes `b` of the line and those outside it, and code words that read as they stand. -/
structure LineOf (m : Store) (line : Nat) (b : List Byte) (done : Nat) (m' : Store) : Prop where
  wf : m'.wf
  byte : ∀ k, m'.byte k = if line ≤ k ∧ k < line + 16 * done then nth 0 b (k - line) else m.byte k
  inside : ∀ i, line / 16 ≤ i → i < line / 16 + done → m'.syndrome i = 0 ∨ m'.syndrome i = 0xFFFF
  outside : ∀ i, i < line / 16 ∨ line / 16 + done ≤ i → m'.syndrome i = m.syndrome i

theorem LineOf.none (wf : m.wf) (line : Nat) (b : List Byte) : LineOf m line b 0 m :=
  ⟨wf, fun k => (if_neg (by omega)).symm, fun i _ _ => by omega, fun _ _ => rfl⟩

theorem LineOf.write {m' : Store} {line n : Nat} (h : LineOf m line b n m') (aligned : line % 16 = 0) :
    LineOf m line b (n + 1) (m'.write (line + 16 * n) ((upFrom (16 * n) 16).map (nth 0 b))) := by
  have word : line + 16 * n = 16 * (line / 16 + n) := by omega
  have wf : (m'.setSyn (line / 16 + n) 0).wf := Store.setSyn_wf h.wf _ _
  rw [word, write_word m' (line / 16 + n) (by simp)]
  refine ⟨Store.put_wf wf _ _, fun k => ?_, fun i lo hi => ?_, fun i out => ?_⟩
  · rw [Store.byte_put wf, Store.byte_setSyn, h.byte]
    simp only [List.length_map, length_upFrom]
    by_cases own : 16 * (line / 16 + n) ≤ k ∧ k < 16 * (line / 16 + n) + 16
    · have place : k - 16 * (line / 16 + n) < 16 := by omega
      have offset : 16 * n + (k - 16 * (line / 16 + n)) = k - line := by omega
      rw [if_pos own, if_pos (by omega)]
      simp [nth_eq_getD, upFrom_eq_range', place, offset]
    · rw [if_neg own]
      exact if_congr (by omega) rfl rfl
  · rw [Store.syndrome_put, Store.syndrome_setSyn h.wf]
    split
    · exact .inl rfl
    · exact h.inside i lo (by omega)
  · rw [Store.syndrome_put, Store.syndrome_setSyn h.wf, if_neg (by omega)]
    exact h.outside i (by omega)

theorem LineOf.poison {m' : Store} {line n w : Nat} (h : LineOf m line b n m') (aligned : line % 16 = 0) (own : w < n) :
    LineOf m line b n (m'.poison (line + 16 * w)) := by
  have word : (line + 16 * w) / 16 = line / 16 + w := by omega
  refine ⟨Store.poison_wf h.wf _, h.byte, fun i lo hi => ?_, fun i out => ?_⟩
  · rw [Store.poison, word, Store.syndrome_setSyn h.wf]
    split
    · exact .inr rfl
    · exact h.inside i lo hi
  · rw [Store.poison, word, Store.syndrome_setSyn h.wf, if_neg (by omega)]
    exact h.outside i out

theorem LineOf.readByte_same {m' : Store} {line n i : Nat} (h : LineOf m line b n m') (own : i < 16 * n) (aligned : line % 16 = 0) :
    m'.readByte (line + i) = nth 0 b i := by
  rw [readByte_plain (h.inside _ (by omega) (by omega)), h.byte, if_pos (by omega), Nat.add_sub_cancel_left]

theorem LineOf.readByte_other {m' : Store} {line n k : Nat} (h : LineOf m line b n m') (aligned : line % 16 = 0)
    (other : k < line ∨ line + 16 * n ≤ k) : m'.readByte k = m.readByte k := by
  have byte : m'.byte k = m.byte k := (h.byte k).trans (if_neg (by omega))
  simp only [Store.readByte, byte, h.outside (k / 16) (by omega)]

end Words

/-! The access of one request (R325, R327). -/

section Access
variable {s t : State} {r : DramReq}

/-- The line of a request, as `n` words of it have come into memory by `t`; the controller is as it was. -/
def Wrote (r : DramReq) (n : Nat) (s t : State) : Prop := LineOf s.dram (r.addr / 64 * 64) r.bytes n t.dram ∧ t.mc = s.mc

theorem writeWord_whole (all : r.enables = BitVec.allOnes 64) {w : Nat} (h : w < 4) : s.writeWord r w =
    { s with dram := s.dram.write (r.addr / 64 * 64 + 16 * w) ((upFrom (16 * w) 16).map (nth 0 r.bytes)) } := by
  have every : enabledBytes r w = (upFrom (16 * w) 16).map (fun i => (r.addr / 64 * 64 + i, nth 0 r.bytes i)) := by
    rw [enabledBytes, all, List.filter_eq_self.2 fun i mem => ?_]
    rw [mem_upFrom] at mem
    simp only [BitVec.getLsbD_allOnes, decide_eq_true_eq]
    omega
  have some : enabledBytes r w ≠ [] := fun none => by
    have len := congrArg List.length none
    simp [every] at len
  rw [State.writeWord, if_neg some, if_pos (by simp [every]), every, List.map_map]
  rfl

theorem Wrote.writeWord {n : Nat} (h : Wrote r n s t) (all : r.enables = BitVec.allOnes 64) (small : n < 4) :
    Wrote r (n + 1) s (t.writeWord r n) := by
  rw [writeWord_whole all small]
  exact ⟨h.1.write (by omega), h.2⟩

theorem Wrote.poisonAt {n w : Nat} (h : Wrote r n s t) (own : w < n) : Wrote r n s (t.poisonAt (r.addr / 64 * 64 + 16 * w) 16) := by
  unfold State.poisonAt
  have aligned : r.addr / 64 * 64 % 16 = 0 := by omega
  split
  · exact h
  · next id o _ cell =>
    cases id
    case dram =>
      have place : o = r.addr / 64 * 64 + 16 * w := by
        unfold State.region at cell
        split_ifs at cell <;> simp_all [Region.cell]
      have word : wordsOf o 16 = [r.addr / 64 * 4 + w] := by
        rw [place, show r.addr / 64 * 64 + 16 * w = 16 * (r.addr / 64 * 4 + w) by omega, wordsOf_word]
      rw [word]
      refine ⟨?_, h.2⟩
      have poisoned := h.1.poison aligned own
      rwa [show r.addr / 64 * 64 + 16 * w = 16 * (r.addr / 64 * 4 + w) by omega] at poisoned
    all_goals exact h
  · exact h

theorem dramAnswer_keeps (s : State) (r : DramReq) (b : List Byte) (bad : List Nat) :
    (s.dramAnswer r b bad).dram = s.dram ∧ (s.dramAnswer r b bad).mc = s.mc := by
  unfold State.dramAnswer
  split
  · exact ⟨rfl, rfl⟩
  · exact ⟨rfl, rfl⟩

theorem dramAccess_write (wf : s.dram.wf) (write : r.write = true) (all : r.enables = BitVec.allOnes 64) (own : ∀ w ∈ r.bad, w < 4) (c : Nat) :
    Wrote r 4 s (s.dramAccess c r) := by
  have words : Wrote r 4 s ((upFrom 0 4).foldl (fun s w => s.writeWord r w) s) := by
    have first : Wrote r 0 s s := ⟨.none wf _ _, rfl⟩
    exact (((first.writeWord all (by decide)).writeWord all (by decide)).writeWord all (by decide)).writeWord all (by decide)
  have poisoned : Wrote r 4 s (r.bad.foldl (fun s w => s.poisonAt (r.addr / 64 * 64 + 16 * w) 16)
      ((upFrom 0 4).foldl (fun s w => s.writeWord r w) s)) := by
    generalize (upFrom 0 4).foldl (fun s w => s.writeWord r w) s = u at words
    generalize r.bad = bad at own
    induction bad generalizing u with
    | nil => exact words
    | cons w bad ih =>
      exact ih _ (words.poisonAt (own w List.mem_cons_self)) fun v mem => own v (List.mem_cons_of_mem _ mem)
  unfold State.dramAccess
  rw [if_pos write]
  unfold Wrote
  rw [(dramAnswer_keeps _ _ _ _).1, (dramAnswer_keeps _ _ _ _).2]
  exact poisoned

theorem modChn_mc (h : t.mc = s.mc) (c : Nat) (f : DramChan → DramChan) : (t.modChn c f).mc = (s.modChn c f).mc :=
  congrArg (fun m : MemCtl => { m with chans := vmodN m.chans c f }) h

theorem dramAccess_read (read : r.write = false) (c : Nat) : (s.dramAccess c r).dram = s.dram ∧
    (s.dramAccess c r).mc = (s.modChn c (fun x => { x with lastRead := s.dram.read (r.addr / 64 * 64) 64 })).mc := by
  have counted := (Counted.refl (s := s)).noteWords .dram (r.addr / 64 * 64) 64 |>.frame
  unfold State.dramAccess
  simp only [read, Bool.false_eq_true, if_false, dramAnswer_keeps]
  refine ⟨counted.dram, ?_⟩
  have sameCtl : (s.readStore .dram (r.addr / 64 * 64) 64).1.mc = s.mc := counted.mc
  obtain out | out : (s.readStore .dram (r.addr / 64 * 64) 64).2 = .ok (s.dram.read (r.addr / 64 * 64) 64) ∨
      (s.readStore .dram (r.addr / 64 * 64) 64).2 = .bad (s.dram.read (r.addr / 64 * 64) 64) := by
    unfold State.readStore
    dsimp only
    split
    · exact .inr rfl
    · exact .inl rfl
  all_goals
    rw [out]
    exact modChn_mc sameCtl c _

end Access

/-! The channel's choice (R325, R329). -/

section Channel
variable {s : State} {c : Nat} {r : DramReq}

theorem chn_modChn_same (s : State) (h : c < 32) (f : DramChan → DramChan) : (s.modChn c f).chn c = f (s.chn c) := by
  show vgetN _ (vmodN s.mc.chans c f) c = f (vgetN _ s.mc.chans c)
  simp [vgetN, vmodN, h]

theorem chn_congr {t : State} (h : t.mc = s.mc) (c : Nat) : t.chn c = s.chn c := congrArg (fun m : MemCtl => vgetN DramChan.atReset m.chans c) h

/-- The one request of a queue is the pick of what it satisfies. -/
theorem pickBy_single (queue : (s.chn c).queue = [r]) (p : DramReq → Bool) (first : Bool) :
    s.pickBy c p first = if p r = true then some 0 else none := by
  have free : freeOf [r] = [0] := rfl
  simp only [State.pickBy, queue, free]
  cases own : p r
  · simp [own]
  · simp only [List.filter_cons, List.drop_zero, List.head?_cons, Option.any_some, own, if_true, List.filter_nil, List.find?_cons]
    cases first && s.rowsOpen c r <;> rfl

theorem refreshBank_none (paid : ∀ k < 16, vgetN 0 (s.chn c).owed k = 0) : s.refreshBank c = none := by
  unfold State.refreshBank
  dsimp only
  rw [List.filter_eq_nil_iff.2 fun b mem => ?_]
  · rfl
  · rw [paid b (by rw [mem_upFrom] at mem; omega)]
    simp

/-- With no refresh owed the channel performs the one request that waits, of whatever class. -/
theorem dramNext_single (serves : s.chanServes c = true) (queue : (s.chn c).queue = [r]) (owed : ∀ k < 16, vgetN 0 (s.chn c).owed k = 0) :
    s.dramNext c = s.perform c 0 := by
  have forced : (upFrom 0 16).find? (fun b => decide (8 ≤ vgetN 0 (s.chn c).owed b)) = none :=
    List.find?_eq_none.2 fun b mem => by
      rw [owed b (by rw [mem_upFrom] at mem; omega)]
      decide
  have cls : r.cls.1 = 0 ∨ r.cls.1 = 1 ∨ r.cls.1 = 2 ∨ r.cls.1 = 3 := by omega
  unfold State.dramNext
  rw [if_neg (by rw [serves]; decide), forced]
  simp only [pickBy_single queue, refreshBank_none owed]
  cases promoted : r.promoted
  · obtain e | e | e | e := cls <;> simp [e]
  · simp

/-- The channel without the request, its rows as the access leaves them. -/
theorem perform_single (queue : (s.chn c).queue = [r]) : ∃ rows, s.perform c 0 =
    (s.modChn c (fun x => { x with queue := [], rows := rows })).dramAccess c r := by
  unfold State.perform
  rw [queue]
  exact ⟨_, rfl⟩

end Channel

section Commands
variable (s : State)

theorem promote_of_waiting {c i : Nat} {r : DramReq} {rest : List DramReq} (queued : (s.chn c).queue.drop i = r :: rest)
    (first : r.promoted = false) : s.promote c i =
      (((s.modChn c (fun x => { x with queue := modNth (fun r => { r with promoted := true }) x.queue i })).bump rMcAgePromo 1).orReg rMcStat 0x80
        |>.raise 36) := by
  unfold State.promote
  rw [queued]
  exact if_neg (by rw [first]; decide)

theorem track_of_none (none : s.mc.fspPend = none) (c : Nat) : s.track c = s := by
  have nothing : s.fspTake = s := by
    unfold State.fspTake
    rw [none]
  rw [State.track, nothing, ite_self]

theorem track_of_idle {c : Nat} (idle : s.chanRuns c = false) : s.track c = s := if_neg (by simp [idle])

theorem forceRefresh_spec {c : Nat} (small : c < 32) {b : Nat} (bank : b < 16) (owes : 8 ≤ vgetN 0 (s.chn c).owed b) :
    vgetN 0 ((s.forceRefresh c b).chn c).owed b = vgetN 0 (s.chn c).owed b - 1 ∧
      vgetN none ((s.forceRefresh c b).chn c).rows b = none ∧ (s.forceRefresh c b).dram = s.dram := by
  have counted := (Counted.refl (s := s.refresh c b)).bump (rMcChRefForced c) 1 |>.or rMcStat 0x40 |>.raised (k := 35) (by decide) |>.frame
  rw [State.forceRefresh, if_pos owes, chn_congr counted.mc, counted.dram, State.refresh, chn_modChn_same _ small]
  refine ⟨?_, vgetN_vsetN_same _ _ bank _, rfl⟩
  show vgetN 0 (vmodN (s.chn c).owed b (· - 1)) b = _
  simp [vgetN, vmodN, bank]

end Commands

/-- Settles O31: a request by the room of its queue, the command by the one request it can perform, the upkeep by each command's rule. -/
theorem dramCommands : Obligations.DramCommands := by
  constructor
  · intro ini cls addr wr b hint ch r s c q needs cmd new line
    refine ⟨fun inside allowed => ⟨fun ready room => ?_, fun full => ?_⟩,
      fun serves queue owed wf => ⟨fun write all len own => ?_, fun read => ?_⟩, fun stopped => ?_⟩
    · have accepted : ¬ (addr.toNat < s.window ∧ (!(needs.all s.fnReady && s.dramRoom addr.toNat cls.1)) = true) := by
        rw [ready, State.dramRoom, room]
        simp
      exact congrArg Host.Outcome.next ((if_neg accepted).trans (if_pos ⟨inside, allowed⟩))
    · have waits : addr.toNat < s.window ∧ (!(needs.all s.fnReady && s.dramRoom addr.toNat cls.1)) = true := by
        refine ⟨inside, ?_⟩
        obtain e | e := full
        · rw [e]; rfl
        · rw [State.dramRoom, e, Bool.and_false]; rfl
      exact congrArg Host.Outcome.next (if_pos waits)
    · obtain ⟨rows, performed⟩ := perform_single queue
      refine ⟨_, congrArg Host.Outcome.next ((dramNext_single serves queue owed).trans performed), ?_⟩
      obtain ⟨memory, chans⟩ := dramAccess_write (s := s.modChn ch.1 (fun x => { x with queue := [], rows := rows })) wf write all own ch.1
      refine ⟨?_, fun i h => memory.readByte_same (by omega) (by omega), fun a out => memory.readByte_other (by omega) (by omega)⟩
      rw [chn_congr chans, chn_modChn_same s ch.2]
    · obtain ⟨rows, performed⟩ := perform_single queue
      refine ⟨_, congrArg Host.Outcome.next ((dramNext_single serves queue owed).trans performed), ?_⟩
      obtain ⟨memory, chans⟩ := dramAccess_read (s := s.modChn ch.1 (fun x => { x with queue := [], rows := rows })) read ch.1
      rw [chn_congr chans, chn_modChn_same _ ch.2, chn_modChn_same s ch.2, memory]
      exact ⟨rfl, rfl, rfl⟩
    · exact congrArg Host.Outcome.next (if_pos (by rw [stopped]; rfl))
  · intro ch bank i r rest rate s x
    refine ⟨fun queued first => congrArg Host.Outcome.next (promote_of_waiting s queued first),
      fun runs => ⟨congrArg Host.Outcome.next (if_pos runs), congrArg Host.Outcome.next (if_pos runs), fun free => ⟨?_, ?_⟩⟩,
      fun idle => ⟨congrArg Host.Outcome.next (if_neg (by simp [idle])), congrArg Host.Outcome.next (if_neg (by simp [idle])), ?_, ?_⟩,
      fun serves owes => ?_, fun few => ?_, rfl⟩
    · exact congrArg Host.Outcome.next (track_of_none s free ch.1)
    · exact congrArg Host.Outcome.next (track_of_none s free ch.1)
    · exact congrArg Host.Outcome.next (track_of_idle s idle)
    · exact congrArg Host.Outcome.next (track_of_idle s idle)
    · exact ⟨_, congrArg Host.Outcome.next (if_pos serves), forceRefresh_spec s ch.2 bank.2 owes⟩
    · have nothing : s.forceRefresh ch.1 bank.1 = s := if_neg (Nat.not_le.2 few)
      exact congrArg Host.Outcome.next ((congrArg (fun t => if s.chanServes ch.1 = true then t else s) nothing).trans (ite_self s))

end Sys2Proof.Proofs.Dram

/-! ### Sequences and the scrubber of the memory controller (O32) -/

namespace Sys2Proof.Proofs.DramSequences

open Sys2Proof.Machine Sys2Proof.Claims Sys2Proof.Proofs.Stores Sys2Proof.Proofs.Counting Sys2Proof.Proofs.Dram Sys2Proof.Proofs.Coding

/-! Channels that commit (R331). -/

section Commit
variable (s : State)

/-- Channel `c` is trained and out of self-refresh. -/
def Up (c : Nat) (s : State) : Prop := (s.chn c).up = true ∧ (s.chn c).selfRefresh = false

/-- The controller but for its channels is as before. -/
def ChansOnly (s t : State) : Prop := t.mc = { s.mc with chans := t.mc.chans }

theorem ChansOnly.trans {s t u : State} (h : ChansOnly s t) (h' : ChansOnly t u) : ChansOnly s u := Eq.trans h' (by rw [h])

theorem mc_threshold : s.threshold.mc = s.mc := (Counted.threshold .refl).frame.mc

theorem commitChan_mc (c : Nat) (r : ChanTrain) : (s.commitChan c r).mc =
    (s.modChn c (fun x => { x with up := true, selfRefresh := false, margin := r.writeTaps ++ r.readTaps })).mc := by
  unfold State.commitChan
  dsimp only
  split
  · exact mc_threshold _
  · rfl

theorem commitChan_chansOnly (c : Nat) (r : ChanTrain) : ChansOnly s (s.commitChan c r) := by
  rw [ChansOnly, commitChan_mc]
  rfl

theorem commitChan_up {c : Nat} (small : c < 32) (r : ChanTrain) : Up c (s.commitChan c r) := by
  rw [Up, chn_congr (commitChan_mc s c r), chn_modChn_same s small]
  exact ⟨rfl, rfl⟩

theorem chn_modChn_ne {c d : Nat} (other : c ≠ d) (f : DramChan → DramChan) : (s.modChn d f).chn c = s.chn c := by
  show vgetN _ (vmodN s.mc.chans d f) c = vgetN _ s.mc.chans c
  unfold vmodN
  split
  · next h =>
    unfold vgetN
    split
    · exact vget_vmod_ne _ (fun e => other (congrArg Fin.val e)) _
    · rfl
  · rfl

theorem commitChan_up_kept {c : Nat} (small : c < 32) (d : Nat) (r : ChanTrain) (up : Up c s) : Up c (s.commitChan d r) := by
  by_cases own : c = d
  · subst own
    exact commitChan_up s small r
  · rwa [Up, chn_congr (commitChan_mc s d r), chn_modChn_ne s own]

theorem commitChans_chansOnly (a : Nat) (rs : List ChanTrain) : ChansOnly s (s.commitChans a rs) :=
  foldl_keeps (ChansOnly s) _ (fun t p kept => kept.trans (commitChan_chansOnly t p.1 p.2)) _ s rfl

theorem commitChans_up {a c : Nat} {rs : List ChanTrain} (lo : a ≤ c) (hi : c < a + rs.length) (small : c < 32) : Up c (s.commitChans a rs) := by
  have mem : (c, rs[c - a]) ∈ (upFrom a rs.length).zip rs := by
    refine List.mem_iff_getElem.2 ⟨c - a, by simp; omega, ?_⟩
    have place : a + (c - a) = c := by omega
    simp [upFrom_eq_range', place]
  exact Power.foldl_establishes (P := Up c) (fun t (p : Nat × ChanTrain) up => commitChan_up_kept t small p.1 p.2 up)
    (fun t => commitChan_up t small rs[c - a]) mem s

theorem fspTake_of_none (free : s.mc.fspPend = none) : s.fspTake = s := by
  unfold State.fspTake
  rw [free]

end Commit

/-! The scrubber (R334). -/

section Scrub
variable (s : State)

theorem scrubOne_of_clean {a : Nat} (clean : s.dram.syndrome (a / 16) = 0) : s.scrubOne a = s := by
  have kept : scrubWord s.dram a = s.dram := by
    unfold scrubWord
    rw [clean]
    rfl
  have sound : verdict (s.dram.syndrome (a / 16)) = .clean := by rw [clean]; rfl
  unfold State.scrubOne
  simp only [sound, true_or, if_true, kept]
  exact ite_self s

theorem scrubOne_frame (a : Nat) : (s.scrubOne a).mc = s.mc ∧ (s.scrubOne a).hdg = s.hdg := by
  unfold State.scrubOne
  extract_lets v quiet t
  have counted : t.mc = s.mc ∧ t.hdg = s.hdg := by
    unfold t
    split
    · exact ⟨rfl, rfl⟩
    · have frame := ((Counted.refl (s := s)).noteWords .dram a 16).frame
      exact ⟨frame.mc, frame.hdg⟩
  split
  · exact counted
  · exact counted

/-- A pass over a group leaves where the scrubber stands, and how far memory reaches. -/
theorem scrubGroup_frame (l : List Nat) : (l.foldl (fun s w => s.scrubOne w) s).mc = s.mc ∧ (l.foldl (fun s w => s.scrubOne w) s).hdg = s.hdg :=
  ⟨Power.foldl_proj State.mc (fun s a => (scrubOne_frame s a).1) l s, Power.foldl_proj State.hdg (fun s a => (scrubOne_frame s a).2) l s⟩

theorem scrub_of_serving (ready : s.mcReady = true) (idle : s.mc.training = none) : s.scrub =
    (let t := (s.groupWords s.mc.scrubPtr).foldl (fun s w => s.scrubOne w) s
     let n := t.nextGroup s.mc.scrubPtr
     if n < t.window then t.modMc (fun m => { m with scrubPtr := n })
     else (((t.modMc (fun m => { m with scrubPtr := 0, scrubQuiet := false })).modRas (fun r => { r with dramCorr := [] })).orReg
       rMcStat 0x100).raise 37) :=
  if_neg (by simp [ready, idle])

theorem scrub_of_clean (ready : s.mcReady = true) (idle : s.mc.training = none) (clean : ∀ i, s.dram.syndrome i = 0)
    (inside : s.nextGroup s.mc.scrubPtr < s.window) : s.scrub = s.modMc (fun m => { m with scrubPtr := s.nextGroup s.mc.scrubPtr }) := by
  have still : (s.groupWords s.mc.scrubPtr).foldl (fun s w => s.scrubOne w) s = s := by
    generalize s.groupWords s.mc.scrubPtr = l
    induction l with
    | nil => rfl
    | cons w l ih => rw [List.foldl_cons, scrubOne_of_clean s (clean _), ih]
  rw [scrub_of_serving s ready idle, still]
  exact if_pos inside

theorem nextGroup_congr {t : State} (mc : t.mc = s.mc) (hdg : t.hdg = s.hdg) (a : Nat) : t.nextGroup a = s.nextGroup a := by
  unfold State.nextGroup State.nCh
  rw [mc, hdg]

theorem window_congr {t : State} (hdg : t.hdg = s.hdg) : t.window = s.window := by
  unfold State.window State.nCh State.chanUse
  rw [hdg]

theorem scrub_of_end (ready : s.mcReady = true) (idle : s.mc.training = none) (past : s.window ≤ s.nextGroup s.mc.scrubPtr) :
    s.scrub.mc.scrubPtr = 0 ∧ s.scrub.mc.scrubQuiet = false ∧ s.scrub.ras.dramCorr = [] := by
  obtain ⟨mc, hdg⟩ := scrubGroup_frame s (s.groupWords s.mc.scrubPtr)
  rw [scrub_of_serving s ready idle]
  generalize (s.groupWords s.mc.scrubPtr).foldl (fun s w => s.scrubOne w) s = t at mc hdg
  dsimp only
  rw [nextGroup_congr s mc hdg, window_congr s hdg, if_neg (Nat.not_lt.2 past)]
  have frame := State.raise_frame (((t.modMc (fun m => { m with scrubPtr := 0, scrubQuiet := false })).modRas
    (fun r => { r with dramCorr := [] })).orReg rMcStat 0x100) 37
  rw [frame.mc, frame.ras]
  exact ⟨rfl, rfl, rfl⟩

end Scrub

/-- Settles O32: the sequences by what their last channel commits, the scrubber by the words of its group. -/
theorem dramSequences : Obligations.DramSequences := by
  intro rs t f s
  refine ⟨fun trains boots len => ⟨fun pass => ?_, fun fails => ?_⟩, fun still runs len => ⟨fun entry fails => ?_, fun pass free => ?_⟩,
    fun runs => ?_, fun idle boundary ready other => ?_, fun ready idle clean inside => ?_, fun ready idle past => ?_⟩
  · have committed : s.trainCommit 0 rs = (s.commitChans 0 rs).modMc (fun m => { m with trained := m.trained ||| 1, fsp := 0, bootedA := true }) := by
      unfold State.trainCommit State.commitHalf
      simp [trains, len, boots, pass]
    refine ⟨_, congrArg Host.Outcome.next committed, rfl, rfl, by simp [State.modMc], fun c small => ?_⟩
    exact commitChans_up s (Nat.zero_le c) (by omega) (by omega)
  · have failed : s.trainCommit 0 rs = s.modMc (fun m => { m with failedA := true }) := by
      unfold State.trainCommit State.commitHalf
      simp [trains, len, boots, fails]
    exact congrArg Host.Outcome.next failed
  · have failed : s.trainCommit 0 rs = ((s.modMc (fun m => { m with training := some { entry := false, fsp := m.fsp } })).orReg rMcStat 0x20).raise 33 := by
      unfold State.trainCommit State.commitAll
      simp [still, runs, len, entry, fails]
    exact congrArg Host.Outcome.next failed
  · have kept := commitChans_chansOnly s 0 rs
    have committed : s.trainCommit 0 rs = (s.commitChans 0 rs).modMc (fun m =>
        { m with training := none, fsp := t.fsp, trained := m.trained ||| BitVec.twoPow 3 t.fsp.1 }) := by
      unfold State.trainCommit State.commitAll
      simp only [still, runs, len, pass, Bool.false_eq_true, if_false, if_true, Bool.not_true, Bool.and_false]
      exact fspTake_of_none _ ((congrArg MemCtl.fspPend kept).trans free)
    refine ⟨_, congrArg Host.Outcome.next committed, rfl, rfl, ?_⟩
    show ((s.commitChans 0 rs).mc.trained ||| BitVec.twoPow 3 t.fsp.1).getLsbD t.fsp.1 = true
    simp
  · exact congrArg Host.Outcome.next (if_pos (by rw [runs]; rfl))
  · have taken : s.fspRequest f = (s.modMc (fun m => { m with fspPend := none })).fspStart f :=
      if_neg (by simp [idle, boundary, ready])
    exact congrArg Host.Outcome.next (taken.trans (if_neg other))
  · exact congrArg Host.Outcome.next (scrub_of_clean s ready idle clean inside)
  · exact ⟨_, rfl, scrub_of_end s ready idle past⟩

end Sys2Proof.Proofs.DramSequences

/-! ### The check units (O28) -/

namespace Sys2Proof.Proofs.CheckUnits

open Sys2Proof.Machine Sys2Proof.Claims Sys2Proof.Proofs.DataCache Sys2Proof.Proofs.Coding

/-! Where a check unit's aperture lies (R315, R496). -/

theorem region_cku (s : State) (k : Fin 16) {off : Nat} (small : off < 0x1000) : s.region (ckuAddr k off) = .cku k off := by
  have outside := window_lt_cisBase s
  have base : cisBase = 0x010000000000 := rfl
  have unit : fin 16 ((ckuAddr k off - 0x010040000000) / 0x1000) = k := by
    have quotient : (ckuAddr k off - 0x010040000000) / 0x1000 = k.1 := by
      simp only [ckuAddr]
      omega
    rw [quotient]
    exact Fin.ofNat_val_eq_self k
  have place : ckuAddr k off % 0x1000 = off := by
    simp only [ckuAddr]
    omega
  unfold State.region
  rw [if_neg (by simp only [ckuAddr]; omega), if_neg (by simp only [ckuAddr]; omega), if_pos (by simp only [ckuAddr]; omega), unit, place]

theorem access_cku {s t : State} {ini : Initiator} {k : Fin 16} {off : Nat} {c : Instr} {f : State → State} (small : off < 0x1000)
    (enters : s.mayEnter ini [8, 11] (some 32) = true) (leaves : f s = t) :
    (.next (s.access ini (ckuAddr k off) c f) : Host.Outcome State Fault Refusal) = .next t := by
  refine Power.next_access ?_ leaves
  rw [State.pathNeeds, State.pointOf, region_cku s k small]
  exact enters

/-! The queue of a unit (R316). -/

theorem modCku_congr {s : State} {k : Fin 16} {f g : Cku → Cku} (same : f (s.ckuAt k) = g (s.ckuAt k)) : s.modCku k f = s.modCku k g :=
  congrArg (fun x => { s with cku := vset s.cku k x }) same

section Queue
variable {x : Cku}

theorem push_start (empty : x.queue = []) : x.push .start = x.start := by
  obtain ⟨⟩ := x
  subst empty
  rfl

theorem push_seed (empty : x.queue = []) (v : Word) : x.push (.seed v) = x.seed v := by
  obtain ⟨⟩ := x
  subst empty
  rfl

/-- Bytes at the head of the queue settle nothing. -/
theorem settle_of_bytes {w : Byte} {ws : List Byte} {q : List FeedItem} (head : x.queue = .bytes (w :: ws) :: q) (fuel : Nat) :
    x.settle fuel = x := by
  cases fuel with
  | zero => rfl
  | succ n => rw [Cku.settle, head]

theorem push_bytes {b : List Byte} (filled : b ≠ []) (queue : x.queue = [] ∨ ∃ w ws, x.queue.head? = some (.bytes (w :: ws))) :
    x.push (.bytes b) = { x with queue := x.queue ++ [.bytes b] } := by
  obtain ⟨w, ws, rfl⟩ := List.exists_cons_of_ne_nil filled
  obtain empty | ⟨v, vs, head⟩ := queue
  · exact settle_of_bytes (q := []) (by rw [empty]; rfl) _
  · obtain ⟨q, listed⟩ := List.head?_eq_some_iff.1 head
    exact settle_of_bytes (by rw [listed]; rfl) _

end Queue

section Writes
variable {s : State} {i : Initiator} {k : Fin 16}

theorem ckuWrite_of_stranger (stranger : s.ckuOwns i k = false) (off : Nat) (v hold : Word) :
    s.ckuWrite i k off v hold = s.orReg (rCkuStat k.1) 0x10 := if_pos (by rw [stranger]; rfl)

theorem ckuSnoop_of_stranger (stranger : s.ckuOwns i k = false) (v : Word) : s.ckuSnoop i k v = s.orReg (rCkuStat k.1) 0x10 :=
  if_pos (by rw [stranger]; rfl)

theorem ckuSnoop_of_owner (own : s.ckuOwns i k = true) {v : Word} (on : v.getLsbD 0 = true) : s.ckuSnoop i k v =
    if s.takeActive = true then (s.modCku k (fun x => { x with req := true })).orReg (rCkuStat k.1) 0x40
    else s.modCku k (fun y => { y with req := true, act := (s.ckuAt k).act || !(s.ckuAt k).req }) := by
  simp only [State.ckuSnoop, own, on, Bool.not_true, Bool.false_eq_true, if_false]

/-- An owner's START or SEED joins the unit's queue where it has room (R316). -/
theorem ckuPush_of_room (room : (s.ckuAt k).queue.length < 5) (x : FeedItem) (c : Instr) :
    s.ckuPush i k x c = s.modCku k (fun y => y.push x) := if_neg (by simp [Cku.full]; omega)

theorem ckuPush_of_full (full : 5 ≤ (s.ckuAt k).queue.length) (x : FeedItem) (c : Instr) : s.ckuPush i k x c = s.hold i [8, 11] none c :=
  if_pos (by simp [Cku.full]; omega)

theorem ckuFeed_of_owner (own : s.ckuOwns i k = true) {b : List Byte} (len : b.length = 1 ∨ b.length = 2 ∨ b.length = 4) : s.ckuFeed i k b =
    if (s.ckuAt k).act = true then s.orReg (rCkuStat k.1) 4 else s.ckuPush i k (.bytes b) (.ckuFeed i k b) := by
  have size : ¬ (b.length ≠ 1 ∧ b.length ≠ 2 ∧ b.length ≠ 4) := by omega
  rw [State.ckuFeed, if_neg size, own]
  rfl

end Writes

/-! What the snoop takes of a beat (R317). -/

theorem readCode_clean {w : CodeWord} (clean : codeChk w.data = w.chk) : readCode w = (w.data, .clean) := by
  rw [readCode, clean, BitVec.xor_self]
  rfl

/-- A whole clean word inside the unit's window enters the unit. -/
theorem ckuBeat_clean {x : Cku} {beat : Beat} {w : CodeWord} (base : x.base = 0) (limit : x.limit = BitVec.allOnes 64) (words : beat.words = [w])
    (enables : beat.enables = BitVec.allOnes 64) (clean : codeChk w.data = w.chk) : ckuBeat x beat = (wordBytes w.data, false) := by
  have len : (wordBytes w.data).length = 16 := by simp [wordBytes]
  have window : (BitVec.allOnes 64).toNat = 2 ^ 64 - 1 := rfl
  have inside := beat.addr.isLt
  unfold ckuBeat
  simp only [words, List.map_cons, List.map_nil, List.flatMap_cons, List.flatMap_nil, List.append_nil, readCode_clean clean, base, limit, enables,
    List.length_map, len, window, Verdict.bad]
  rw [List.filter_eq_self.2 fun p mem => ?_]
  · have bytes : (((wordBytes w.data).map (fun b => (b, false))).zip (upFrom 0 16)).map (·.1) = (wordBytes w.data).map (fun b => (b, false)) :=
      List.map_fst_zip (by simp [len])
    refine Prod.ext ?_ ?_
    · have firsts := congrArg (List.map Prod.fst) bytes
      simpa [List.map_map, Function.comp_def] using firsts
    · rw [List.any_eq_false]
      intro p mem
      have own : p.1 ∈ (wordBytes w.data).map (fun b => (b, false)) := bytes ▸ List.mem_map_of_mem mem
      obtain ⟨b, -, pair⟩ := List.mem_map.1 own
      rw [← pair]
      exact Bool.false_ne_true
  · have place : p.2 < 16 := by
      have own := (List.of_mem_zip mem).2
      rw [mem_upFrom] at own
      omega
    have enabled : (BitVec.allOnes 64).getLsbD p.2 = true := by
      rw [BitVec.getLsbD_allOnes, decide_eq_true_eq]
      omega
    have below : beat.addr.toNat + p.2 ≤ 2 ^ 64 - 1 := by omega
    rw [enabled, decide_eq_true below]
    simp

/-- Settles O28: the accesses by whether the initiator owns the unit, what it does and what waits there; a beat by what the snoop takes. -/
theorem checkUnits : Obligations.CheckUnits := by
  intro ini k v b beat s x own
  refine ⟨fun enters => ⟨fun owns empty => ⟨?_, ?_⟩, fun owns quiet len => ⟨fun room queue => ?_, fun full => ?_⟩, fun owns snoops len => ?_,
    fun stranger i mem => ?_, fun owns on active => ?_, fun owns on idle first => ?_⟩, fun quiet l d => ?_,
    fun w snoops any base limit words enables clean => ?_⟩
  · have room : (s.ckuAt k).queue.length < 5 := by rw [show (s.ckuAt k).queue = [] from empty]; decide
    refine access_cku (by decide) enters ((if_neg (by simp [show s.ckuOwns ini k = true from owns])).trans ((ckuPush_of_room room _ _).trans ?_))
    exact modCku_congr (push_start empty)
  · have room : (s.ckuAt k).queue.length < 5 := by rw [show (s.ckuAt k).queue = [] from empty]; decide
    refine access_cku (by decide) enters ((if_neg (by simp [show s.ckuOwns ini k = true from owns])).trans ((ckuPush_of_room room _ _).trans ?_))
    exact modCku_congr (push_seed empty v)
  · have filled : b ≠ [] := fun none => by simp [none] at len
    refine access_cku (by decide) enters ((ckuFeed_of_owner owns len).trans ((if_neg (by rw [quiet]; decide)).trans ?_))
    exact (ckuPush_of_room room _ _).trans (modCku_congr (push_bytes filled queue))
  · refine access_cku (by decide) enters ((ckuFeed_of_owner owns len).trans ((if_neg (by rw [quiet]; decide)).trans ?_))
    exact ckuPush_of_full full _ _
  · exact access_cku (by decide) enters ((ckuFeed_of_owner owns (.inr (.inr len))).trans (if_pos snoops))
  · simp only [List.mem_cons, List.not_mem_nil, or_false] at mem
    obtain rfl | rfl | rfl := mem
    · exact access_cku (by decide) enters (ckuWrite_of_stranger stranger _ _ _)
    · exact access_cku (by decide) enters (ckuWrite_of_stranger stranger _ _ _)
    · exact access_cku (by decide) enters (ckuSnoop_of_stranger stranger v)
  · exact access_cku (by decide) enters ((ckuSnoop_of_owner owns on).trans (if_pos active))
  · refine access_cku (by decide) enters ((ckuSnoop_of_owner owns on).trans ((if_neg (by rw [idle]; decide)).trans ?_))
    exact modCku_congr (by rw [show (s.ckuAt k).req = false from first]; simp)
  · exact congrArg Host.Outcome.next (if_neg (by rw [show (s.ckuAt k).act = false from quiet]; simp))
  · have link : x.sel.toNat % 64 = (fin 64 (x.sel.toNat % 64)).1 := by simp [fin]
    refine congrArg Host.Outcome.next ?_
    refine (if_pos ?_).trans ?_
    · rw [show (s.ckuAt k).act = true from snoops, show (s.ckuAt k).sel.getLsbD 9 = true from any, decide_eq_true link]
      simp [x]
    · simp only [show ckuBeat (s.ckuAt k) beat = (wordBytes w.data, false) from ckuBeat_clean base limit words enables clean, Bool.false_eq_true,
        if_false]

end Sys2Proof.Proofs.CheckUnits

/-! ### The Cistern's buffers (O29) -/

namespace Sys2Proof.Proofs.CisternBuffers

open Sys2Proof.Machine Sys2Proof.Claims Sys2Proof.Proofs.DataCache Sys2Proof.Proofs.Counting

/-! Owner pages (R354). -/

theorem region_page (s : State) (o : Fin 64) : s.region (0x010040080000 + 0x100 * o.1) = .page o 0 := by
  have outside := window_lt_cisBase s
  have base : cisBase = 0x010000000000 := rfl
  have owner : fin 64 ((0x010040080000 + 0x100 * o.1 - 0x010040080000) / 0x100) = o := by
    have quotient : (0x010040080000 + 0x100 * o.1 - 0x010040080000) / 0x100 = o.1 := by omega
    rw [quotient]
    exact Fin.ofNat_val_eq_self o
  have place : (0x010040080000 + 0x100 * o.1) % 0x100 = 0 := by omega
  unfold State.region
  rw [if_neg (by omega), if_neg (by omega), if_neg (by omega), if_pos (by omega), owner, place]

/-- An operation whose way is READY, and that its page's interface takes where it goes through one, is performed at once. -/
theorem cisAccess_of_reached {s : State} {ini : Initiator} (serves : ([8, 13] : List Nat).all s.fnReady = true)
    (enters : viaPage ini = true → s.mayEnter ini [8, 13] (some 32) = true) (o : Fin 64) (c : Instr) (f : State → State) :
    s.cisAccess ini o c f = f s := by
  unfold State.cisAccess
  cases page : viaPage ini
  · exact if_pos serves
  · have way : s.mayEnter ini (s.pathNeeds ini (0x010040080000 + 0x100 * o.1)) (some (s.pointOf (0x010040080000 + 0x100 * o.1))) = true := by
      rw [State.pathNeeds, State.pointOf, region_page s o]
      exact enters page
    exact if_pos way

theorem not_denied {s : State} {ini : Initiator} {o : Nat} (allowed : viaPage ini = true → s.pageOk ini o = true) :
    ¬ (viaPage ini && !s.pageOk ini o) = true := by
  cases page : viaPage ini
  · simp
  · simp [allowed page]

section Pages
variable (s : State) (ini : Initiator) (o : Fin 64) (handle : Option Word) (status cause : Nat) (bp : Bool)

theorem buf_pageResult (h : Nat) : (s.pageResult ini o handle status cause bp).buf h = s.buf h := by
  unfold State.pageResult
  split
  · rfl
  · rfl

theorem banks_pageResult : (s.pageResult ini o handle status cause bp).banks = s.banks := by
  unfold State.pageResult
  split
  · rfl
  · rfl

/-- A page shows the outcome written to it, where that is not what an unused page reads. -/
theorem page_pageResult (page : viaPage ini = true) {w : Word} (used : w ≠ 0xFFFFFFFF) :
    ((s.pageResult ini o (some w) status cause bp).page o).result = w ∧
      ((s.pageResult ini o (some w) status cause bp).page o).status = BitVec.ofNat 8 status := by
  have listed : ({ s.page o with result := w, status := BitVec.ofNat 8 status, cause := cause, bp := bp } : OwnerPage) ≠ pageReset o.1 :=
    fun same => used (congrArg OwnerPage.result same)
  have shown : (s.pageResult ini o (Option.some w) status cause bp).page o =
      { s.page o with result := w, status := BitVec.ofNat 8 status, cause := cause, bp := bp } := by
    rw [State.pageResult, if_pos page]
    exact mapGet_mapSet_listed _ listed
  rw [shown]
  exact ⟨rfl, rfl⟩

end Pages

/-! One ALLOC request (R346-R349). -/

section Alloc
variable {s : State} {r : AllocReq} {p : Nat}

theorem poolFor_lt (pool : poolFor r.size.toNat = some p) : p < 6 := by
  unfold poolFor at pool
  split at pool
  · exact absurd pool (by simp)
  · have mem := List.mem_of_find?_eq_some pool
    rw [mem_upFrom] at mem
    omega

theorem foldl_none {γ : Type} {f : γ → Nat → γ} {l : List Nat} (none : ∀ t, ∀ q ∈ l, f t q = t) (s : γ) : l.foldl f s = s := by
  induction l with
  | nil => rfl
  | cons q l ih => rw [List.foldl_cons, none s q List.mem_cons_self, ih fun t q mem => none t q (List.mem_cons_of_mem _ mem)]

/-- A pass over distinct numbers that does something at one of them alone. -/
theorem foldl_single {γ : Type} {f : γ → Nat → γ} {l : List Nat} (nodup : l.Nodup) {p : Nat} (mem : p ∈ l)
    (other : ∀ t q, q ≠ p → f t q = t) (s : γ) : l.foldl f s = f s p := by
  induction l generalizing s with
  | nil => exact absurd mem List.not_mem_nil
  | cons q l ih =>
    obtain ⟨out, rest⟩ := List.nodup_cons.1 nodup
    rw [List.foldl_cons]
    by_cases own : q = p
    · subst own
      exact foldl_none (fun t j mem => other t j fun same => out (same ▸ mem)) _
    · rw [other s q own]
      exact ih rest ((List.mem_cons.1 mem).resolve_left (Ne.symm own)) s

/-- One request that its page lets through is asked of its pool alone. -/
theorem cisAlloc_single (allowed : viaPage r.ini = true → s.pageOk r.ini r.owner.1 = true) (pool : poolFor r.size.toNat = some p) :
    s.cisAlloc [r] = s.allocPool p [r] := by
  have passes : s.allocCheck ([], s) r = ([r], s) := by
    unfold State.allocCheck
    rw [if_neg (not_denied allowed), pool]
    rfl
  have own : ∀ t : State, (let l := [r].filter (fun r => poolFor r.size.toNat = some p); t.allocCycles p l.length l) = t.allocPool p [r] := by
    intro t
    simp [pool, State.allocCycles]
  have other : ∀ (t : State) (q : Nat), q ≠ p →
      (let l := [r].filter (fun r => poolFor r.size.toNat = some q); t.allocCycles q l.length l) = t := by
    intro t q ne
    simp [pool, State.allocCycles, Ne.symm ne]
  have mem : p ∈ upFrom 0 6 := by
    have small := poolFor_lt pool
    rw [mem_upFrom]
    omega
  unfold State.cisAlloc
  simp only [List.foldl_cons, List.foldl_nil, passes]
  exact (foldl_single (by decide) mem other s).trans (own s)

/-- The request is reserved while its owner has fewer than its minimum; else it takes a shared buffer above the pool's back-pressure mark. -/
theorem allocPool_single (s : State) (r : AllocReq) (p : Nat) : s.allocPool p [r] =
    if s.charged r.owner.1 p < s.cisMin r.owner.1 p then (if s.freeIndex p < s.poolN p then s.grant r p else s.refuse r p false)
    else if (s.cisBp p : Int) < s.shared p then s.grant r p else s.refuse r p false := by
  have one : s.sharedClass p 1 [r] false = (if (s.cisBp p : Int) < s.shared p then (s.grant r p, true) else (s.refuse r p false, false)) := by
    simp [State.sharedClass, pickOwner]
  have own : (let k := [r].filter (fun q => q.cls.1 = r.cls.1); s.sharedClass p k.length k false) = s.sharedClass p 1 [r] false := by
    simp
  have other : ∀ (a : State × Bool) (c : Nat), c ≠ r.cls.1 →
      (let k := [r].filter (fun q => q.cls.1 = c); a.1.sharedClass p k.length k a.2) = a := by
    intro a c ne
    simp [State.sharedClass, Ne.symm ne]
  have mem : r.cls.1 ∈ upFrom 0 4 := by
    rw [mem_upFrom]
    omega
  by_cases reserved : s.charged r.owner.1 p < s.cisMin r.owner.1 p
  · simp [State.allocPool, reserved, State.sharedClass]
  · rw [if_neg reserved, State.allocPool]
    simp only [List.foldl_cons, List.foldl_nil, if_neg reserved, List.nil_append]
    rw [foldl_single (by decide) mem other]
    refine (congrArg Prod.fst (own.trans one)).trans ?_
    split
    · rfl
    · rfl

/-- What a grant leaves: the lowest free buffer, its owner's, and the page that asked for it. -/
theorem grant_spec (s : State) (r : AllocReq) {p : Nat} (pool : p < 6) (few : s.freeIndex p < 2 ^ 29) :
    (s.grant r p).buf (bufKey p (s.freeIndex p)) = some { holder := r.owner, charge := r.owner } ∧
      (viaPage r.ini = true → ((s.grant r p).page r.owner).result = handleOf p (s.freeIndex p) ∧ ((s.grant r p).page r.owner).status = 0) := by
  unfold State.grant
  extract_lets i s1
  have noticed : (s1.cisNotice s p).cis = s1.cis := by
    unfold State.cisNotice
    extract_lets falls s2
    have first : Counted s1 s2 := Counted.ite .refl ((Counted.refl.or _ _).raised (by decide))
    exact (first.ite ((first.or _ _).raised (by decide))).frame.cis
  refine ⟨?_, fun page => page_pageResult _ _ _ _ _ _ page fun same => ?_⟩
  · rw [buf_pageResult]
    refine (congrArg (fun c : Cistern => mapGet noBuf c.bufs (bufKey p i)) noticed).trans ?_
    exact mapGet_mapSet_listed _ (by simp [noBuf])
  · have value := congrArg BitVec.toNat same
    have null : (0xFFFFFFFF : Word).toNat = 2 ^ 32 - 1 := rfl
    rw [handleOf, BitVec.toNat_ofNat, null, Nat.mod_eq_of_lt (by omega)] at value
    omega

end Alloc

/-! FREE and GIVE of a buffer (R344, R350). -/

section Pass
variable {s : State} {h : Word} {x : Buffer}

theorem holderOf_buf (buffer : isCkuHandle h = false) (held : s.buf h.toNat = some x) : s.holderOf h = x.holder.1 := by
  rw [State.holderOf, buffer, held]
  rfl

theorem freeCause_buf (valid : s.handleOk h = true) (buffer : isCkuHandle h = false) (held : s.buf h.toNat = some x) (o : Fin 64) :
    s.freeCause o h = if x.holder = o then 0 else 2 := by
  rw [State.freeCause, valid, buffer, held]
  rfl

theorem cisFree_of_holder (valid : s.handleOk h = true) (buffer : isCkuHandle h = false) (held : s.buf h.toNat = some x) (ini : Initiator) :
    s.cisFree ini x.holder h = (s.setBuf h.toNat none).pageResult ini x.holder none stOk 0 false := by
  rw [State.cisFree, freeCause_buf valid buffer held, if_pos rfl]
  rfl

theorem cisFree_of_other (valid : s.handleOk h = true) (buffer : isCkuHandle h = false) (held : s.buf h.toNat = some x) {o : Fin 64}
    (other : x.holder ≠ o) (ini : Initiator) :
    s.cisFree ini o h = (s.cisReject h 2 o.1 x.holder.1).pageResult ini o none stState 2 false := by
  rw [State.cisFree, freeCause_buf valid buffer held, if_neg other, holderOf_buf buffer held]
  rfl

theorem giveCause_of_holder (valid : s.handleOk h = true) (buffer : isCkuHandle h = false) (held : s.buf h.toNat = some x) {t : Fin 64}
    (small : t.1 < 8) : s.giveCause x.holder h t = 0 := by
  have mapped : ¬ (32 ≤ t.1 ∧ s.ownerMap t.1 = 0) := by omega
  rw [State.giveCause, valid, buffer, held, holderOf_buf buffer held, if_neg mapped]
  simp

theorem giveWaits_of_buf (buffer : isCkuHandle h = false) {t : Fin 64} (none : s.giveChannel t = Option.none) (o : Fin 64) :
    s.giveWaits o h t = false := by
  rw [State.giveWaits, buffer, none]
  rfl

theorem giveChannel_congr {t : State} (banks : t.banks = s.banks) (o : Fin 64) : t.giveChannel o = s.giveChannel o := by
  unfold State.giveChannel State.ownerMap State.cfg State.active
  rw [banks]

theorem cisGive_of_holder (valid : s.handleOk h = true) (buffer : isCkuHandle h = false) (held : s.buf h.toNat = some x) {t : Fin 64}
    (small : t.1 < 8) (apart : x.holder ≠ t) (none : s.giveChannel t = Option.none) (ini : Initiator) :
    s.cisGive ini x.holder h t = (s.pageResult ini x.holder Option.none stOk 0 false).setBuf h.toNat (some { x with holder := t }) := by
  have unit : ¬ (8 ≤ t.1 ∧ t.1 ≤ 11 ∧ (!isCkuHandle h) = true) := by omega
  rw [State.cisGive, giveCause_of_holder valid buffer held small, giveWaits_of_buf buffer none]
  simp only [ne_eq, not_true, if_false, Bool.false_eq_true, apart, giveChannel_congr (banks_pageResult s ini x.holder Option.none stOk 0 false), none,
    if_neg unit]
  rw [State.setHolder, buffer, buf_pageResult, held]
  rfl

end Pass

/-- Settles O29: ALLOC by what its pool has left, FREE and GIVE by the holder, and all of them by their way and page. -/
theorem cisternBuffers : Obligations.CisternBuffers := by
  intro r p ini o t h x s i serves reaches least
  refine ⟨fun ready few pool allowed => ⟨fun fits => ?_, fun short => ?_⟩, fun waits => ?_, fun ⟨ready, enters⟩ allowed valid buffer held =>
    ⟨fun own => ?_, fun other => ?_, fun own small apart none => ?_⟩, fun ⟨ready, enters⟩ page denied => ⟨?_, ?_⟩⟩
  · have granted : s.cisAlloc [r] = s.grant r p := by
      rw [cisAlloc_single allowed pool, allocPool_single]
      obtain ⟨reserved, room⟩ | ⟨shared, room⟩ := fits
      · rw [if_pos reserved, if_pos room]
      · rw [if_neg (Nat.not_lt.2 shared), if_pos room]
    exact ⟨_, congrArg Host.Outcome.next ((if_pos ready).trans granted), grant_spec s r (poolFor_lt pool) few⟩
  · have refused : s.cisAlloc [r] = s.refuse r p false := by
      rw [cisAlloc_single allowed pool, allocPool_single]
      obtain ⟨reserved, room⟩ | ⟨shared, room⟩ := short
      · rw [if_pos reserved, if_neg (Nat.not_lt.2 room)]
      · rw [if_neg (Nat.not_lt.2 shared), if_neg (Int.not_lt.2 room)]
    exact congrArg Host.Outcome.next ((if_pos ready).trans refused)
  · exact congrArg Host.Outcome.next (if_neg waits)
  · subst own
    refine congrArg Host.Outcome.next ((cisAccess_of_reached ready enters _ _ _).trans ((if_neg ?_).trans (cisFree_of_holder valid buffer held ini)))
    exact not_denied allowed
  · refine congrArg Host.Outcome.next ((cisAccess_of_reached ready enters _ _ _).trans ((if_neg ?_).trans (cisFree_of_other valid buffer held other ini)))
    exact not_denied allowed
  · subst own
    refine congrArg Host.Outcome.next ((cisAccess_of_reached ready enters _ _ _).trans ((if_neg ?_).trans
      (cisGive_of_holder valid buffer held small apart none ini)))
    exact not_denied allowed
  · exact congrArg Host.Outcome.next ((cisAccess_of_reached ready enters _ _ _).trans (if_pos (by rw [page, denied]; rfl)))
  · exact congrArg Host.Outcome.next ((cisAccess_of_reached ready enters _ _ _).trans (if_pos (by rw [page, denied]; rfl)))

end Sys2Proof.Proofs.CisternBuffers

/-! ### Execution of approved proposals (O53) -/

namespace Sys2Proof.Proofs.Spares

open Sys2Proof.Machine Sys2Proof.Claims Sys2Proof.Proofs.Counting Sys2Proof.Proofs.Power

/-! The proposal that is executed next (R521). -/

section Next
variable {s : State} {kind j : Nat} {p : Proposal}

/-- What a fold keeps of two candidates is one of them: its result is in the list. -/
theorem pick_mem {key : Nat → Nat} {l : List Nat} {b : Option Nat} {x : Nat}
    (picked : l.foldl (fun b j => match b with
      | none => some j
      | some i => if key j < key i then some j else some i) b = some x) : b = some x ∨ x ∈ l := by
  induction l generalizing b with
  | nil => exact .inl picked
  | cons a l ih =>
    obtain first | mem := ih picked
    · cases b with
      | none => exact .inr (List.mem_cons.2 (.inl (Option.some.inj first).symm))
      | some i =>
        dsimp only at first
        split at first
        · exact .inr (List.mem_cons.2 (.inl (Option.some.inj first).symm))
        · exact .inl first
    · exact .inr (List.mem_cons_of_mem _ mem)

theorem nextExec_spec (next : s.nextExec = some j) : j < 16 ∧ (vgetN Proposal.empty s.ras.props j).st = .approved := by
  unfold State.nextExec at next
  dsimp only at next
  split at next
  · exact absurd next (by simp)
  · obtain none | mem := pick_mem
      (key := fun i => (vgetN Proposal.empty s.ras.props i).number.toNat) next
    · exact absurd none (by simp)
    · simp only [List.mem_filter, Bool.and_eq_true, decide_eq_true_eq, mem_upFrom] at mem
      exact ⟨by omega, mem.2.1.1⟩

theorem execOf_spec (exec : s.execOf kind = some (j, p)) : j < 16 ∧ p = vgetN Proposal.empty s.ras.props j ∧ p.kind = kind := by
  unfold State.execOf at exec
  split at exec
  · next i next =>
    dsimp only at exec
    split at exec
    · next same =>
      obtain ⟨rfl, rfl⟩ := Prod.mk.inj (Option.some.inj exec)
      exact ⟨(nextExec_spec next).1, rfl, same⟩
    · exact absurd exec (by simp)
  · exact absurd exec (by simp)

end Next

/-! How an execution ends (R518). -/

section Move
variable {u : State} {j : Nat} {st : PropState}

/-- The proposal of entry `j` in state `st`, with its event. -/
def moved (u : State) (j : Nat) (st : PropState) : State :=
  (u.modRas (fun r => { r with props := vsetN r.props j { vgetN Proposal.empty u.ras.props j with st := st } })).raise 14

/-- With nothing waiting for an entry, and no cluster, a proposal's end changes its state alone. -/
theorem moveProposal_of_none (none : u.ras.waiting = []) (cluster : (vgetN Proposal.empty u.ras.props j).kind ≠ 1) (accepted : st ≠ .rejected) :
    u.moveProposal j st = moved u j st := by
  have still : (moved u j st).admitWaiting = moved u j st := by
    have waiting : (moved u j st).ras.waiting = [] := (congrArg Ras.waiting (State.raise_frame _ _).ras).trans none
    rw [State.admitWaiting, waiting]
    rfl
  unfold State.moveProposal
  simp only [if_neg accepted]
  rw [show (State.modRas u _).raise 14 = moved u j st from rfl, still, ite_self, if_neg fun both => cluster both.2]

/-- The maintenance routines that wait replaced by `q`. -/
def asking (s : State) (q : List MaintReq) : State := { s with maintQueue := q }

theorem startExec_eq (s : State) : ∃ q, s.startExec = asking s q := by
  unfold State.startExec
  split
  · dsimp only
    split
    · exact ⟨_, rfl⟩
    · exact ⟨s.maintQueue, rfl⟩
  · exact ⟨s.maintQueue, rfl⟩

/-- The state an execution ends in that led to `u`: the proposal DONE or FAILED, and the maintenance routines `q` asked for. -/
def ended (u : State) (j : Nat) (ok : Bool) (q : List MaintReq) : State := asking (moved u j (if ok then .done else .failed)) q

/-- An execution whose spare is there: the repair leads to `u`, then the proposal ends and only the queue of the maintenance routines may grow. -/
theorem execute_spec {s : State} {kind : Nat} {p : Proposal} (exec : s.execOf kind = some (j, p)) (cluster : kind ≠ 1)
    (spare : s.spareGone kind p.target.toNat = false) {run : State → Nat → Nat → State × Bool} {ok : Bool}
    (ran : run s p.target.toNat p.info.toNat = (u, ok)) (waiting : u.ras.waiting = []) (props : u.ras.props = s.ras.props) :
    ∃ q, s.execute kind run = ended u j ok q := by
  obtain ⟨-, same, own⟩ := execOf_spec exec
  have other : (vgetN Proposal.empty u.ras.props j).kind ≠ 1 := by rw [props, ← same, own]; exact cluster
  have accepted : (if ok then PropState.done else .failed) ≠ .rejected := by split <;> simp
  unfold State.execute
  rw [exec]
  dsimp only
  rw [if_neg (by rw [spare]; simp), ran, moveProposal_of_none waiting other accepted]
  exact startExec_eq _

section Ended
variable (u : State) (j : Nat) (ok : Bool) (q : List MaintReq)

/-- What neither an event nor a maintenance request touches is as the repair left it. -/
theorem proj_ended {α : Type} (p : State → α) (queue : ∀ s q, p (asking s q) = p s) (raise : ∀ s k, p (State.raise s k) = p s) :
    p (ended u j ok q) =
      p (u.modRas (fun r => { r with props := vsetN r.props j { vgetN Proposal.empty u.ras.props j with st := if ok then .done else .failed } })) := by
  rw [ended, queue, moved, raise]

theorem ras_ended : (ended u j ok q).ras =
    { u.ras with props := vsetN u.ras.props j { vgetN Proposal.empty u.ras.props j with st := if ok then .done else .failed } } :=
  proj_ended u j ok q State.ras (fun _ _ => rfl) fun s k => (State.raise_frame s k).ras

theorem coreMap_ended : (ended u j ok q).coreMap = u.coreMap :=
  proj_ended u j ok q State.coreMap (fun _ _ => rfl) fun s k => by rw [(State.raise_frame s k).1]

theorem reg_ended {o : Nat} (h : o ≠ rEvcCoalesced) : (ended u j ok q).reg o = u.reg o :=
  proj_ended u j ok q (fun s => s.reg o) (fun _ _ => rfl) fun s k => Completions.reg_raise s k h

theorem ksl_ended : (ended u j ok q).ksl = u.ksl := proj_ended u j ok q State.ksl (fun _ _ => rfl) fun s k => (State.raise_frame s k).ksl
theorem nvs_ended : (ended u j ok q).nvs = u.nvs := proj_ended u j ok q State.nvs (fun _ _ => rfl) fun s k => (State.raise_frame s k).nvs
theorem dram_ended : (ended u j ok q).dram = u.dram := proj_ended u j ok q State.dram (fun _ _ => rfl) fun s k => (State.raise_frame s k).dram
theorem mc_ended : (ended u j ok q).mc = u.mc := proj_ended u j ok q State.mc (fun _ _ => rfl) fun s k => (State.raise_frame s k).mc

theorem st_ended (small : j < 16) : (vgetN Proposal.empty (ended u j ok q).ras.props j).st = if ok then .done else .failed := by
  rw [ras_ended]
  exact congrArg Proposal.st (vgetN_vsetN_same _ _ small _)

end Ended

end Move

/-! The swap of a core (R515). -/

section Swap
variable (s : State)

/-- The upkeep's state and the core map are as they were. -/
def MapKept (s t : State) : Prop := t.ras = s.ras ∧ t.coreMap = s.coreMap

theorem MapKept.trans {s t u : State} (h : MapKept s t) (h' : MapKept t u) : MapKept s u := ⟨h'.1.trans h.1, h'.2.trans h.2⟩

theorem MapKept.of_event {s t : State} (h : EventFrame s t) : MapKept s t := ⟨h.ras, by rw [h.1]⟩

theorem writeSrcCfg_map (k : Nat) (v : Word) : MapKept s (s.writeSrcCfg k v) := by
  unfold State.writeSrcCfg
  split
  · exact ⟨rfl, rfl⟩
  · extract_lets x en free y ignored s1 y' s2
    have noted : MapKept s s1 := by
      unfold s1
      split
      · exact ⟨rfl, rfl⟩
      · exact ⟨rfl, rfl⟩
    have written : MapKept s s2 := noted
    split
    · exact written.trans (.of_event ((State.toPending_frame s2 k).trans (State.deliver_frame _)))
    · exact written

theorem setReady_map (f : Nat) : MapKept s (s.setReady f) := by
  unfold State.setReady
  split
  · exact ⟨rfl, rfl⟩
  · exact MapKept.trans (t := s.modHdg _) ⟨rfl, rfl⟩ (.of_event (State.raise_frame _ 15))

theorem released_map (j : Fin 4) : MapKept s (released s j) := by
  unfold released
  dsimp only
  have ready : MapKept s ((s.modCore j (fun _ => fresh s.clk.tab)).setReady (4 + j.1)) := setReady_map _ _
  split
  · unfold State.assignDoorbells
    split
    · exact ((ready.trans (writeSrcCfg_map _ _ _)).trans (writeSrcCfg_map _ _ _)).trans (writeSrcCfg_map _ _ _)
    · exact ready
  · exact ready

theorem releaseCores_map : MapKept s s.releaseCores := by
  rw [releaseCores_eq]
  refine foldl_keeps (MapKept s) releaseStep (fun t j kept => ?_) _ s ⟨rfl, rfl⟩
  unfold releaseStep
  split
  · exact kept.trans (released_map t j)
  · exact kept

theorem swapCore_spec {n : Nat} {k : Fin 4} (carries : ∀ i : Fin 4, (s.phys i).1 = n ↔ i = k) (info : Nat) :
    (s.swapCore n info).2 = true ∧ (s.swapCore n info).1.ras = { s.ras with tabSpareUsed := true } ∧
      (s.swapCore n info).1.coreMap = vset s.coreMap k (fin 5 s.spareCore) := by
  have found : (upFrom 0 4).find? (fun i => decide ((s.phys (fin 4 i)).1 = n)) = some k.1 := by
    have same : (fun i => decide ((s.phys (fin 4 i)).1 = n)) = fun i => decide (fin 4 i = k) := funext fun i => decide_eq_decide.2 (carries _)
    rw [same]
    clear carries same
    revert k
    decide
  have own : fin 4 k.1 = k := Fin.ofNat_val_eq_self k
  unfold State.swapCore
  rw [found]
  dsimp only
  rw [own]
  obtain ⟨ras, map⟩ := releaseCores_map ({ s.resetCore k with coreMap := vset (s.resetCore k).coreMap k (fin 5 s.spareCore) }.modRas
    (fun r => { r with tabSpareUsed := true }))
  exact ⟨rfl, ras, map⟩

theorem spareCore_lt : s.spareCore < 5 := by
  unfold State.spareCore
  cases found : (upFrom 0 5).find? (fun x => !(upFrom 0 4).any (fun k => (s.phys (fin 4 k)).1 = x)) with
  | none => decide
  | some x =>
    have mem := List.mem_of_find?_eq_some found
    rw [mem_upFrom] at mem
    show x < 5
    omega

end Swap

/-! A pair of registers, and the repair of a row (R337, R500). -/

theorem reg64_congr {s t : State} {o : Nat} (low : t.reg o = s.reg o) (high : t.reg (o + 4) = s.reg (o + 4)) : t.reg64 o = s.reg64 o := by
  rw [State.reg64, low, high]
  rfl

theorem reg64_setReg64 {s : State} (wf : mapWf regReset s.regs) (o : Nat) (v : DWord) : (s.setReg64 o v).reg64 o = v := by
  have wf' : mapWf regReset (s.setReg o (v.extractLsb' 0 32)).regs := mapWf_mapSet wf _ _
  have low : (s.setReg64 o v).reg o = v.extractLsb' 0 32 := by
    rw [State.setReg64, State.reg_setReg_ne _ (by omega), State.reg_setReg wf, if_pos rfl]
  have high : (s.setReg64 o v).reg (o + 4) = v.extractLsb' 32 32 := by
    rw [State.setReg64, State.reg_setReg wf', if_pos rfl]
  rw [State.reg64, low, high]
  refine BitVec.eq_of_getLsbD_eq fun i hi => ?_
  rw [BitVec.getLsbD_append]
  split
  · simp [*]
  · have upper : i - 32 < 32 := by omega
    have place : 32 + (i - 32) = i := by omega
    rw [BitVec.getLsbD_extractLsb', decide_eq_true upper, place]
    rfl

theorem repairRow_spec {s : State} {n row : Nat} (sound : s.rowErrors n row = []) (small : n / 16 < 32) :
    (s.repairRow n row).ras = s.ras ∧ (s.repairRow n row).dram = s.dram ∧
      ((s.repairRow n row).chn (n / 16)).pprAvail.getLsbD (n % 16) = false := by
  have bank : n % 16 < 16 := by omega
  unfold State.repairRow
  rw [sound]
  dsimp only [List.foldl_nil]
  have frame := State.raise_frame ((s.modChn (n / 16) (fun x =>
    { x with rows := vsetN x.rows (n % 16) none, pprAvail := x.pprAvail &&& ~~~(BitVec.twoPow 16 (n % 16)) })).orReg rMcStat 0x200) 34
  rw [frame.ras, frame.dram, Dram.chn_congr frame.mc]
  refine ⟨rfl, rfl, ?_⟩
  refine (congrArg (fun x : DramChan => x.pprAvail.getLsbD (n % 16)) (Dram.chn_modChn_same s small _)).trans ?_
  simp [bank]

/-- Settles O53: each execution by what its repair does, then the proposal's end. -/
theorem sparesExecuted : Obligations.SparesExecuted := by
  intro j p k copyOk s waiting wf n st
  have small : ∀ {kind : Nat}, s.execOf kind = some (j, p) → j < 16 := fun exec => (execOf_spec exec).1
  have idle : ∀ {kind : Nat} (run : State → Nat → Nat → State × Bool), s.execOf kind = none → s.execute kind run = s := by
    intro kind run none
    rw [State.execute, none]
  refine ⟨fun none => congrArg Host.Outcome.next (idle _ none), fun none => congrArg Host.Outcome.next (idle _ none),
    fun none => congrArg Host.Outcome.next (idle _ none), fun none => congrArg Host.Outcome.next (idle _ none),
    fun none => congrArg Host.Outcome.next (idle _ none), fun exec spare carries => ?_, fun exec spare few => ?_,
    fun exec spare port => ?_, fun exec spare => ?_, fun exec spare => ⟨fun fails => ?_, fun copied sound few => ?_⟩⟩
  · obtain ⟨works, ras, map⟩ := swapCore_spec s carries p.info.toNat
    rcases ran : s.swapCore n p.info.toNat with ⟨u, ok⟩
    rw [ran] at works ras map
    dsimp only at works ras map
    subst works
    obtain ⟨q, executed⟩ := execute_spec exec (by decide) spare (run := fun s t i => s.swapCore t i) ran (by rw [ras]; exact waiting) (by rw [ras])
    refine ⟨_, congrArg Host.Outcome.next executed, ?_, ?_, ?_, fun i other => ?_⟩
    · exact st_ended _ _ _ _ (small exec)
    · exact (congrArg Ras.tabSpareUsed (ras_ended u j true q)).trans (congrArg Ras.tabSpareUsed ras)
    · refine (congrArg (fun m => (vget m k).1) ((coreMap_ended u j true q).trans map)).trans ?_
      rw [vget_vset_same]
      exact Nat.mod_eq_of_lt (spareCore_lt s)
    · refine (congrArg (vget · i) ((coreMap_ended u j true q).trans map)).trans ?_
      exact vget_vset_ne _ other _
  · obtain ⟨q, executed⟩ := execute_spec exec (by decide) spare (run := fun s t i => s.retireLane t i) rfl waiting rfl
    refine ⟨_, congrArg Host.Outcome.next executed, st_ended _ _ _ _ (small exec), congrArg Ras.lanesRetired (ras_ended _ _ _ _), ?_⟩
    have stored : (ended (s.retireLane n p.info.toNat).1 j true q).reg64 rSnsRetired = s.reg64 rSnsRetired ||| BitVec.twoPow 64 n := by
      rw [reg64_congr (reg_ended _ _ _ _ (by decide)) (reg_ended _ _ _ _ (by decide))]
      exact reg64_setReg64 wf _ _
    refine (congrArg (fun v : DWord => v.getLsbD n) stored).trans ?_
    simp [few]
  · obtain ⟨q, executed⟩ := execute_spec exec (by decide) spare (run := fun s t i => s.remap t i) rfl waiting rfl
    refine ⟨_, congrArg Host.Outcome.next executed, st_ended _ _ _ _ (small exec), ?_, ?_⟩
    · refine (congrArg (fun x : Kalsal => (vget x.ports k).nextMap) (ksl_ended _ _ _ _)).trans ?_
      show (vget (vmodN s.ksl.ports (n / 16) _) k).nextMap = _
      rw [port, vmodN, dif_pos k.2, vget_vmod_same]
      rfl
    · refine (congrArg (fun x : Kalsal => (vget x.ports k).laneMap) (ksl_ended _ _ _ _)).trans ?_
      show (vget (vmodN s.ksl.ports (n / 16) _) k).laneMap = _
      rw [port, vmodN, dif_pos k.2, vget_vmod_same]
      rfl
  · obtain ⟨q, executed⟩ := execute_spec exec (by decide) spare (run := fun s t i => s.repairSram t i) rfl waiting rfl
    exact ⟨_, congrArg Host.Outcome.next executed, st_ended _ _ _ _ (small exec), congrArg Ras.sramFree (ras_ended _ _ _ _), nvs_ended _ _ _ _⟩
  · subst fails
    obtain ⟨q, executed⟩ := execute_spec exec (by decide) spare
      (run := fun s t i => if false = true then (s.repairRow t i, true) else (s, false)) (if_neg (by decide)) waiting rfl
    exact ⟨_, congrArg Host.Outcome.next executed, st_ended _ _ _ _ (small exec), dram_ended _ _ _ _⟩
  · subst copied
    obtain ⟨ras, dram, bit⟩ := repairRow_spec sound few
    generalize ran : s.repairRow n p.info.toNat = u at ras dram bit
    obtain ⟨q, executed⟩ := execute_spec exec (by decide) spare
      (run := fun s t i => if true = true then (s.repairRow t i, true) else (s, false)) ((if_pos rfl).trans (congrArg (·, true) ran))
      (by rw [ras]; exact waiting) (by rw [ras])
    refine ⟨_, congrArg Host.Outcome.next executed, st_ended _ _ _ _ (small exec), (dram_ended _ _ _ _).trans dram, ?_⟩
    exact (congrArg (fun x : DramChan => x.pprAvail.getLsbD (n % 16)) (Dram.chn_congr (mc_ended u j true q) (n / 16))).trans bit

end Sys2Proof.Proofs.Spares

/-! ### The sensor port's pictures and links, and what their end leaves alone (O33, O34) -/

namespace Sys2Proof.Proofs.SensorPort

open Sys2Proof.Machine Sys2Proof.Claims Sys2Proof.Proofs.Counting Sys2Proof.Proofs.Power Sys2Proof.Proofs.Takeover

/-- What the drop of a picture may touch: events, the pictures of the take and the count of the next one, their tiles, slots and grants. Everything
else is as before. -/
def DropFrame (s t : State) : Prop :=
  t = { s with srcs := t.srcs, evcStamp := t.evcStamp, regs := t.regs, cores := t.cores, bh := t.bh, ctlSram := t.ctlSram,
               engines := t.engines, slots := t.slots, ledgers := t.ledgers, tileQueue := t.tileQueue,
               take := { s.take with pics := t.take.pics, nextPic := t.take.nextPic, began := t.take.began } }

theorem DropFrame.refl (s : State) : DropFrame s s := rfl

theorem DropFrame.trans {s t u : State} (h : DropFrame s t) (h' : DropFrame t u) : DropFrame s u := Eq.trans h' (by rw [h])

theorem DropFrame.of_event {s t : State} (h : EventFrame s t) : DropFrame s t := Eq.trans h.1 (by rw [h.1])

theorem DropFrame.ite {s a b : State} {c : Prop} [Decidable c] (ha : DropFrame s a) (hb : DropFrame s b) : DropFrame s (if c then a else b) := by
  split
  · exact ha
  · exact hb

theorem DropFrame.banks {s t : State} (h : DropFrame s t) : t.banks = s.banks := by rw [h]

theorem DropFrame.sns {s t : State} (h : DropFrame s t) : t.sns = s.sns := by rw [h]

section Drop
variable (s : State)

theorem foldl_drop {β : Type} {f : State → β → State} (each : ∀ s b, DropFrame s (f s b)) (l : List β) : DropFrame s (l.foldl f s) :=
  foldl_keeps (DropFrame s) f (fun t b kept => kept.trans (each t b)) l s rfl

theorem stopCapture_drop (p : Nat → Bool) : DropFrame s (s.stopCapture p) :=
  foldl_drop s (fun t e => by
    split
    · exact .ite rfl rfl
    · rfl) _

theorem dropCurrent_drop (i : Fin 16) : DropFrame s (s.dropCurrent i) := .ite rfl rfl

theorem ledgerDo_drop (m : Fin 2) (f : Ledger → Ledger) : DropFrame s (s.ledgerDo m f) := by
  unfold State.ledgerDo State.ledgerWarn
  extract_lets l hi s1
  have charged : DropFrame s s1 := rfl
  exact .ite (charged.trans (.of_event ((State.orReg_frame _ _ _).trans (State.raise_frame _ _)))) charged

theorem modPic_drop (k : Nat) (f : Picture → Picture) : DropFrame s (s.modPic k f) := rfl

theorem sensorDrop_drop (k : Nat) : DropFrame s (s.sensorDrop k) := by
  unfold State.sensorDrop
  split
  · rfl
  · refine .ite rfl ?_
    extract_lets m t1 t2 mine t3
    have stopped : DropFrame s t1 := DropFrame.trans (t := { s with tileQueue := s.tileQueue.filter (fun t => t.1 ≠ k) }) rfl (stopCapture_drop _ _)
    have slotless : DropFrame s t2 := by
      unfold t2
      split
      · exact stopped.trans (dropCurrent_drop _ _)
      · exact stopped
    have released : DropFrame s t3 := .ite slotless (slotless.trans (ledgerDo_drop _ _ _))
    exact released.trans (modPic_drop _ _ _)

theorem snsOutcome_drop (x : SnsPicture) (complete : Bool) : DropFrame s (s.snsOutcome x complete) :=
  .ite (.ite (modPic_drop _ _ _) ((sensorDrop_drop _ _).trans (modPic_drop _ _ _))) (.ite rfl rfl)

theorem snsEvent_event (i : Nat) : EventFrame s (s.snsEvent i) := (State.orReg_frame s _ _).trans (State.raise_frame _ _)

end Drop

/-- The end of a picture at the port touches the streams too, and at the port the picture itself and how many were handed on. -/
def PicFrame (s t : State) : Prop :=
  DropFrame { s with streams := t.streams, sns := { s.sns with pic := t.sns.pic, delivered := t.sns.delivered } } t

theorem PicFrame.refl (s : State) : PicFrame s s := rfl

theorem PicFrame.trans {s t u : State} (h : PicFrame s t) (h' : PicFrame t u) : PicFrame s u := Eq.trans h' (by rw [h])

theorem PicFrame.of_drop {s t : State} (h : DropFrame s t) : PicFrame s t := Eq.trans h (by rw [h])

theorem PicFrame.links {s t : State} (h : PicFrame s t) : t.sns.links = s.sns.links := by rw [h]

theorem PicFrame.snsLink {s t : State} (h : PicFrame s t) (k : Fin 4) : t.snsLink k = s.snsLink k := congrArg (vget · k) h.links

theorem PicFrame.ite {s a b : State} {c : Prop} [Decidable c] (ha : PicFrame s a) (hb : PicFrame s b) : PicFrame s (if c then a else b) := by
  split
  · exact ha
  · exact hb

/-- Afterwards the port has no picture (R472). -/
theorem snsEnd_spec (s : State) : PicFrame s s.snsEnd ∧ s.snsEnd.sns.pic = none := by
  unfold State.snsEnd
  split
  · next none => exact ⟨rfl, none⟩
  · next x _ =>
    extract_lets c lost t1 t2 t3
    have begun : PicFrame s t1 := .ite rfl rfl
    have ended : PicFrame s t2 := begun.trans rfl
    have gone : t2.sns.pic = none := rfl
    have counted : DropFrame t2 t3 := by
      unfold t3
      clear_value lost t2
      split
      · have noted : EventFrame t2 ((t2.bump rSnsPicIncomplete 1).setReg rSnsLastLost (lostWord c ‹_›)) := ⟨rfl, rfl⟩
        exact .ite (.of_event (noted.trans (snsEvent_event _ 3))) rfl
      · rfl
    have outcome : ∀ complete, DropFrame t2 (t3.snsOutcome x complete) := fun complete => counted.trans (snsOutcome_drop t3 x complete)
    exact ⟨ended.trans (.of_drop (outcome _)), (congrArg Sensor.pic (outcome _).sns).trans gone⟩

/-! ### Links (R463-R466) -/

section Links
variable (s : State) (k : Fin 4)

theorem snsLink_modLink_same (f : SnsLink → SnsLink) : (s.modLink k f).snsLink k = f (s.snsLink k) := vget_vmod_same _ _ _

theorem modLink_modLink (f g : SnsLink → SnsLink) : (s.modLink k f).modLink k g = s.modLink k (g ∘ f) := by
  unfold State.modLink State.modSns
  simp only [vmod, Loads.vset_vset, vget_vset_same]
  rfl

theorem snsLink_raise (n : Nat) : (s.raise n).snsLink k = s.snsLink k := congrArg (fun x : Sensor => vget x.links k) (State.raise_frame s n).sns

/-- A link's new state, with its event where it is one. -/
theorem snsLink_snsSet (st : SnsLinkState) : (s.snsSet k st).snsLink k = { s.snsLink k with st := st } := by
  unfold State.snsSet
  split
  · next same => rw [← same]
  · rw [snsLink_raise, snsLink_modLink_same]

theorem snsDown_spec : ((s.snsDown k).snsLink k).st = .down ∧ (s.snsDown k).sns.pic = none := by
  unfold State.snsDown
  refine ⟨?_, (snsEnd_spec _).2⟩
  rw [(snsEnd_spec _).1.snsLink, snsLink_snsSet]

theorem counted_sns {s t : State} (h : Counted s t) : t.sns = s.sns := h.frame.sns

theorem snsLink_congr {s t : State} (h : t.sns = s.sns) (k : Fin 4) : t.snsLink k = s.snsLink k := congrArg (fun x : Sensor => vget x.links k) h

theorem snsEye_sns (eye : Byte) (lane : Nat) : (s.snsEye eye lane).sns = s.sns := by
  unfold State.snsEye
  extract_lets t
  have low : Counted s t := Counted.ite .refl (Counted.threshold .refl)
  exact (low.ite (low.propose _ _ _ _)).frame.sns

theorem snsLaneFail_sns (lane : Nat) : (s.snsLaneFail lane).sns = s.sns := by
  unfold State.snsLaneFail
  extract_lets again t
  have failed : Counted s t := Counted.refl.ras _
  exact (failed.ite (failed.propose _ _ _ _)).frame.sns

end Links

/-- Settles O34: each step of a link by the state it goes to, the end of a picture by what it leaves, a bank by what governs it. -/
theorem sensorLinks : Obligations.SensorLinks := by
  intro k eye lane skew u s x
  refine ⟨fun down enabled on => ?_, fun equalize => ?_, fun align => ?_, fun other => congrArg Host.Outcome.next (if_neg other), fun trains => ?_,
    fun up => ⟨_, congrArg Host.Outcome.next (if_pos up), snsDown_spec s k⟩, fun other => congrArg Host.Outcome.next (if_neg other),
    fun held => ?_, fun none => congrArg Host.Outcome.next (if_neg (by rw [none]; decide)), fun retiring free => ?_⟩
  · refine ⟨_, congrArg Host.Outcome.next (if_pos ⟨down, enabled, on⟩), ?_⟩
    rw [snsLink_snsSet, State.snsAssign, snsLink_modLink_same, State.snsLanes, if_pos enabled, if_pos enabled]
    exact ⟨rfl, rfl, rfl⟩
  · refine ⟨_, congrArg Host.Outcome.next (if_pos equalize), ?_⟩
    rw [snsLink_congr (snsEye_sns _ _ _), snsLink_snsSet, snsLink_modLink_same]
    exact ⟨rfl, rfl, rfl⟩
  · have skewed : ((s.modLink k (fun x => { x with skew := skew })).snsLink k).st ≠ .up := by
      rw [snsLink_modLink_same]
      simp [show (s.snsLink k).st = .align from align]
    refine congrArg Host.Outcome.next ((if_pos align).trans ((if_neg skewed).trans ?_))
    rw [modLink_modLink]
    rfl
  · obtain ⟨down, gone⟩ := snsDown_spec (s.orReg (rSnsLinkStat k.1) 4) k
    refine ⟨_, congrArg Host.Outcome.next (if_pos trains), ?_⟩
    rw [snsLink_congr (snsLaneFail_sns _ _), snsLaneFail_sns]
    exact ⟨down, gone⟩
  · obtain ⟨frame, gone⟩ := snsEnd_spec (s.snsEvent 4)
    exact ⟨_, congrArg Host.Outcome.next (if_pos held), gone, frame.links.trans (congrArg Sensor.links (snsEvent_event s 4).sns)⟩
  · refine ⟨_, congrArg Host.Outcome.next (if_pos (by rw [show (vgetN Bank.empty s.banks u.1).retiring.isSome = true from retiring, free]; rfl)), ?_, rfl⟩
    show vgetN Bank.empty (vmodN s.banks u.1 _) u.1 = _
    rw [vmodN, dif_pos u.2, vgetN, dif_pos u.2, vget_vmod_same, bankOf, vgetN, dif_pos u.2]

end Sys2Proof.Proofs.SensorPort

/-! ### Packets of the sensor port (O33) -/

namespace Sys2Proof.Proofs.SensorPackets

open Sys2Proof.Machine Sys2Proof.Claims Sys2Proof.Proofs.Power Sys2Proof.Proofs.SensorPort

/-! What the units do at a picture boundary but for the sensor port (R292). -/

/-- Everything but the events' own parts, Sluice, the Cistern, the network ports and the memory is as before. -/
def UnitFrame (s t : State) : Prop :=
  t = { s with srcs := t.srcs, evcStamp := t.evcStamp, regs := t.regs, cores := t.cores, bh := t.bh, ctlSram := t.ctlSram,
               slu := t.slu, cis := t.cis, ptp := t.ptp, mc := t.mc, dram := t.dram }

theorem UnitFrame.refl (s : State) : UnitFrame s s := rfl

theorem UnitFrame.trans {s t u : State} (h : UnitFrame s t) (h' : UnitFrame t u) : UnitFrame s u := Eq.trans h' (by rw [h])

theorem UnitFrame.of_event {s t : State} (h : EventFrame s t) : UnitFrame s t := Eq.trans h.1 (by rw [h.1])

theorem UnitFrame.ite {s a b : State} {c : Prop} [Decidable c] (ha : UnitFrame s a) (hb : UnitFrame s b) : UnitFrame s (if c then a else b) := by
  split
  · exact ha
  · exact hb

section Units
variable (s : State)

theorem foldl_unit {β : Type} {f : State → β → State} (each : ∀ s b, UnitFrame s (f s b)) (l : List β) : UnitFrame s (l.foldl f s) :=
  foldl_keeps (UnitFrame s) f (fun t b kept => kept.trans (each t b)) l s rfl

theorem raised_unit (o : Nat) (m : Word) (k : Nat) : UnitFrame s ((s.orReg o m).raise k) :=
  .of_event ((State.orReg_frame _ _ _).trans (State.raise_frame _ _))

theorem sluPlace_unit (f : Nat) : UnitFrame s (s.sluPlace f) := .ite rfl (.ite rfl rfl)

theorem sluTakeover_unit : UnitFrame s s.sluTakeover := by
  unfold State.sluTakeover
  extract_lets t
  have flows : UnitFrame s t := by
    refine foldl_unit s (fun s f => ?_) _
    dsimp only
    refine UnitFrame.trans ?_ (sluPlace_unit _ f)
    refine .ite ?_ rfl
    refine UnitFrame.trans ?_ (raised_unit _ _ _ _)
    rfl
  clear_value t
  exact flows.trans (foldl_unit t (fun s p => by exact foldl_unit s (fun s v => by exact rfl) _) _)

theorem cisNotice_unit (old : State) (p : Nat) : UnitFrame s (s.cisNotice old p) := by
  unfold State.cisNotice
  extract_lets falls t
  have warned : UnitFrame s t := .ite (raised_unit _ _ _ _) rfl
  exact .ite (warned.trans (raised_unit _ _ _ _)) warned

theorem cisTakeover_unit (old : State) : UnitFrame s (s.cisTakeover old) := by
  unfold State.cisTakeover
  extract_lets c t
  have extended : UnitFrame s t := rfl
  clear_value t
  exact extended.trans (foldl_unit t (fun s p => cisNotice_unit s old p) (upFrom 0 6))

theorem mcTakeover_unit : UnitFrame s s.mcTakeover := .ite rfl rfl

theorem ethLink_unit (k : Fin 2) (up : Bool) : UnitFrame s (s.ethLink k up) :=
  .ite rfl (UnitFrame.trans (t := { s with ptp := { s.ptp with linkUp := vset s.ptp.linkUp k up } }) rfl (raised_unit _ _ _ _))

theorem netTakeover_unit (was : Nat → Nat) : UnitFrame s (s.netTakeover was) := 
  foldl_unit s (fun s k => by exact .ite rfl (ethLink_unit s k false)) _

end Units

/-- A takeover of banks numbers no picture, unless the port's own bank ends one (R292). -/
theorem takeBank_nextPic (s : State) (u : Nat) : (s.takeBank u).take.nextPic = s.take.nextPic := by
  unfold State.takeBank
  extract_lets b t1 t2 t3
  split
  · rfl
  · show t3.take.nextPic = s.take.nextPic
    unfold t3
    split
    · unfold State.streamTakeover
      extract_lets x on seq y t
      show t.take.nextPic = s.take.nextPic
      unfold t
      split <;> rfl
    · rfl

theorem takeBanks_nextPic {s : State} (idle : (bankOf s 0).ready = false) : s.takeBanks.take.nextPic = s.take.nextPic := by
  unfold State.takeBanks
  extract_lets was fec t0 t1 t2 t3 t4
  have banks : t0.take.nextPic = s.take.nextPic :=
    foldl_keeps (fun t => t.take.nextPic = s.take.nextPic) _ (fun t u kept => (takeBank_nextPic t u).trans kept) _ s rfl
  clear_value t0
  have units : UnitFrame t0 t4 := by
    have net : UnitFrame t0 t1 := .ite (netTakeover_unit _ _) rfl
    have cis : UnitFrame t1 t2 := .ite (cisTakeover_unit _ _) rfl
    have mc : UnitFrame t2 t3 := .ite (mcTakeover_unit _) rfl
    exact ((net.trans cis).trans mc).trans (.ite (sluTakeover_unit _) rfl)
  have kept : t4.take = t0.take := by rw [units]
  have port : was 0 = false := idle
  rw [if_neg (by rw [port]; decide), kept]
  exact banks

/-! What a packet counts, and the pokes of its parcels. -/

section Packet
variable (s : State) (p : SnsPacket)

/-- The words of a packet are counted in registers alone (R469). -/
theorem snsWords_regs : ∃ r, s.snsWords p = { s with regs := r } := by
  unfold State.snsWords
  split
  · exact ⟨s.regs, rfl⟩
  · exact ⟨_, rfl⟩

theorem snsWords_of_short (short : p.n.toNat < 2) : s.snsWords p = s := if_pos short

variable {s p}

theorem snsPacket_of_down (down : (s.snsLink p.link).st ≠ .up) (want : Nat) (effect : State → State) : s.snsPacket p want effect = s := if_pos down

theorem snsPacket_of_fail (up : (s.snsLink p.link).st = .up) {f : SnsFail} (fails : s.snsJudge p = some f) (want : Nat) (effect : State → State) :
    s.snsPacket p want effect = s.snsDiscard p f := by
  rw [State.snsPacket, if_neg (not_not.2 up), fails]

theorem snsPacket_of_sound (up : (s.snsLink p.link).st = .up) (sound : s.snsJudge p = none) {want : Nat} (type : pktType p = want)
    (effect : State → State) : s.snsPacket p want effect = effect ((s.snsWords p).bump (rSnsLinkPkts p.link.1) 1) := by
  rw [State.snsPacket, if_neg (not_not.2 up), sound]
  exact if_pos type

theorem snsJudge_of_crc (long : 2 ≤ p.n.toNat) (bad : crcOk p = false) : s.snsJudge p = some .crc := by
  rw [State.snsJudge, if_neg (by omega), bad]
  rfl

theorem snsJudge_of_short (short : p.n.toNat < 2) : s.snsJudge p = some .malformed := if_pos short

end Packet

/-! PICTURE_START (R470). -/

section Begin
variable {s : State} {p : SnsPacket}

theorem ringPics_congr {s t : State} (h : t.banks = s.banks) : t.ringPics = s.ringPics := by
  unfold State.ringPics State.cfg State.active
  rw [h]

theorem countPic_lt (p : SnsPacket) : pktCountPic p < 65536 := by
  have bytes := leNat_lt (((snsData p).drop 2).take 2)
  have few : (((snsData p).drop 2).take 2).length ≤ 2 := List.length_take_le _ _
  calc pktCountPic p < 256 ^ (((snsData p).drop 2).take 2).length := bytes
    _ ≤ 256 ^ 2 := Nat.pow_le_pow_right (by decide) few

/-- The geometry that a PICTURE_START announces is the one in effect (R470). -/
abbrev Fits (s : State) (p : SnsPacket) : Prop :=
  leAt (snsData p) 16 2 = codeWidth (s.active unitCode) ∧ leAt (snsData p) 18 2 = codeHeight (s.active unitCode) ∧
    leAt (snsData p) 20 1 = codeDepth (s.active unitCode) ∧ leAt (snsData p) 21 1 = codePeriod (s.active unitCode) ∧
    leAt (snsData p) 22 1 = codeExposures (s.active unitCode)

/-- A picture at a port without one takes the next ring slot where it fits and the slot is free, and is discarded else. -/
theorem snsBegin_spec (none : s.sns.pic = none) : ∃ y, (s.snsBegin p).sns.pic = some y ∧ y.countPic.toNat = pktCountPic p ∧ y.parcels = [] ∧
    (Fits s p → s.ringBusy s.sns.nextSlot = false → y.slot = some s.sns.nextSlot ∧
      (s.snsBegin p).sns.nextSlot = (s.sns.nextSlot + 1) % Nat.max 1 s.ringPics) ∧
    (¬ Fits s p → y.slot = Option.none ∧ (s.snsBegin p).sns.nextSlot = s.sns.nextSlot) := by
  have still : s.snsEnd = s := by
    rw [State.snsEnd, none]
  have count : (BitVec.ofNat 16 (pktCountPic p)).toNat = pktCountPic p := by
    rw [BitVec.toNat_ofNat]
    exact Nat.mod_eq_of_lt (countPic_lt p)
  unfold State.snsBegin
  rw [still]
  extract_lets s1 d c geo j slot g s2 s3 discarded s4 new
  have gap : DropFrame s1 s3 := by
    have noted : DropFrame s1 s2 := .ite (.of_event (snsEvent_event _ _)) rfl
    exact .ite (noted.trans (foldl_drop s2 (fun s _ => by exact rfl) _)) noted
  have announced : geo = true ↔ Fits s p := by
    simp only [geo, Bool.and_eq_true, decide_eq_true_eq, and_assoc]
    exact Iff.rfl
  refine ⟨new, rfl, count, rfl, fun fits free => ?_, fun misfit => ?_⟩
  · have reserved : slot = some j := if_pos (by rw [announced.2 fits, show s1.ringBusy j = false from free]; rfl)
    refine ⟨reserved, ?_⟩
    show s4.sns.nextSlot = _
    unfold s4
    clear_value slot
    subst reserved
    show (j + 1) % Nat.max 1 s3.ringPics = _
    rw [ringPics_congr gap.banks]
    rfl
  · have refused : slot = Option.none := if_neg fun both => misfit (announced.1 (Bool.and_eq_true_iff.1 both).1)
    refine ⟨refused, ?_⟩
    show s4.sns.nextSlot = _
    have dropped : DropFrame s3 discarded := DropFrame.trans (t := s3.bump rSnsPicDiscarded 1) rfl (.of_event (snsEvent_event _ _))
    unfold s4
    clear_value slot
    subst refused
    have ended : DropFrame s1 (if discarded.recording then discarded.addDropped else discarded) :=
      .ite ((gap.trans dropped).trans rfl) (gap.trans dropped)
    exact congrArg Sensor.nextSlot ended.sns

end Begin

/-! LINE (R471). -/

section Line
variable {s : State} {p : SnsPacket} {x : SnsPicture}

theorem fileParcel_post (s : State) (x : SnsPicture) (p : SnsPacket) (j tx q : Nat) : PostFrame s (s.fileParcel x p j tx q) :=
  (State.poke_post s _ _).trans (State.poke_post _ _ _)

/-- The streams alone note a complete line. -/
theorem noteLine_eq (s : State) (x : SnsPicture) (y e : Nat) : ∃ v, s.noteLine x y e = { s with streams := v } := by
  unfold State.noteLine
  dsimp only
  split
  · exact ⟨s.streams, rfl⟩
  · exact ⟨_, rfl⟩

/-- What a LINE leaves at the port: the picture, numbered by the first parcel, with the parcels it files. -/
theorem snsLine_spec (picture : s.sns.pic = some x) {j : Nat} (slot : x.slot = some j) :
    let r := if x.parcels.isEmpty then s.firstParcel x else (s, x)
    (s.snsLine p).sns.pic = some { r.2 with parcels := r.2.parcels ++ (s.lineParcels p).map (·.2) } ∧ (s.snsLine p).take = r.1.take := by
  intro r
  have filed : PostFrame r.1 ((s.lineParcels p).foldl (fun s a => s.fileParcel r.2 p j a.1 a.2) r.1) :=
    foldl_post _ (fun s a => fileParcel_post s _ _ _ _ _) _ _
  unfold State.snsLine
  rw [picture]
  dsimp only
  rw [slot]
  dsimp only
  generalize (s.lineParcels p).foldl (fun s a => s.fileParcel r.2 p j a.1 a.2) r.1 = t at filed
  obtain ⟨v, noted⟩ := noteLine_eq (t.modSns (fun y => { y with
    pic := some { r.2 with parcels := r.2.parcels ++ (s.lineParcels p).map (·.2) } }))
    { r.2 with parcels := r.2.parcels ++ (s.lineParcels p).map (·.2) } (pktRow p) (pktExp p)
  refine ⟨congrArg (fun u : State => u.sns.pic) noted, (congrArg State.take noted).trans ?_⟩
  show t.take = r.1.take
  rw [filed]

/-- While the take rolls the first parcel numbers its picture, and the count moves on (R63, R471). -/
theorem firstParcel_of_rolling (rolling : s.take.st = .rolling) (idle : (bankOf s 0).ready = false) :
    (s.firstParcel x).2 = { x with number := BitVec.ofNat 32 s.take.nextPic, recorded := true, ptp := some s.clk.ns } ∧
      (s.firstParcel x).1.take.nextPic = s.take.nextPic + 1 := by
  unfold State.firstParcel
  simp only [decide_eq_true rolling, if_true]
  exact ⟨trivial, congrArg (· + 1) (takeBanks_nextPic idle)⟩

end Line

/-! PICTURE_END (R472). -/

section End
variable {s : State} {p : SnsPacket} {x : SnsPicture}

theorem snsPictureEnd_eq (picture : s.sns.pic = some x) : s.snsPictureEnd p =
    if ([0, 1, 2, 3] : List (Fin 4)).all (fun k => !s.snsEnabled k.1 || (x.ends ++ [p.link]).contains k) = true
    then (s.modSns (fun y => { y with pic := some { x with ends := x.ends ++ [p.link] } })).snsEnd
    else s.modSns (fun y => { y with pic := some { x with ends := x.ends ++ [p.link] } }) := by
  rw [State.snsPictureEnd, picture]
  rfl

/-- Every enabled link has declared the end. -/
theorem all_ended : ([0, 1, 2, 3] : List (Fin 4)).all (fun k => !s.snsEnabled k.1 || (x.ends ++ [p.link]).contains k) = true ↔
    ∀ k : Fin 4, s.snsEnabled k.1 = true → k = p.link ∨ k ∈ x.ends := by
  have every : ∀ k : Fin 4, k ∈ ([0, 1, 2, 3] : List (Fin 4)) := by decide
  simp only [List.all_eq_true, every, true_implies, Bool.or_eq_true, Bool.not_eq_true', List.contains_iff_mem, List.mem_append, List.mem_singleton]
  refine forall_congr' fun k => ?_
  cases s.snsEnabled k.1 <;> simp [or_comm]

theorem snsPictureEnd_of_pending (picture : s.sns.pic = some x) (pending : ¬ ∀ k : Fin 4, s.snsEnabled k.1 = true → k = p.link ∨ k ∈ x.ends) :
    (s.snsPictureEnd p).sns.pic = some { x with ends := x.ends ++ [p.link] } := by
  rw [snsPictureEnd_eq picture, if_neg fun all => pending (all_ended.1 all)]
  rfl

theorem snsPictureEnd_of_all (picture : s.sns.pic = some x) (all : ∀ k : Fin 4, s.snsEnabled k.1 = true → k = p.link ∨ k ∈ x.ends) :
    (s.snsPictureEnd p).sns.pic = none := by
  rw [snsPictureEnd_eq picture, if_pos (all_ended.2 all)]
  exact (snsEnd_spec _).2

end End

/-- Settles O33: a discarded packet by why it is, an accepted one by what its type leaves at the port. -/
theorem sensorPackets : Obligations.SensorPackets := by
  refine ⟨fun p s i mem => ?_, fun p x s up sound => ?_⟩
  · have packet : ∃ want effect, exec i s = .next (s.snsPacket p want effect) := by
      simp only [List.mem_cons, List.not_mem_nil, or_false] at mem
      obtain rfl | rfl | rfl | rfl := mem
      · exact ⟨_, _, rfl⟩
      · exact ⟨_, _, rfl⟩
      · exact ⟨_, _, rfl⟩
      · exact ⟨_, _, rfl⟩
    obtain ⟨want, effect, run⟩ := packet
    refine ⟨fun down => ?_, fun up long bad => ?_, fun up short => ?_, fun up fails => ?_⟩
    · exact run.trans (congrArg Host.Outcome.next (snsPacket_of_down down _ _))
    · exact run.trans (congrArg Host.Outcome.next (snsPacket_of_fail up (snsJudge_of_crc long bad) _ _))
    · refine run.trans (congrArg Host.Outcome.next ((snsPacket_of_fail up (snsJudge_of_short short) _ _).trans ?_))
      rw [State.snsDiscard, snsWords_of_short s p short]
    · exact run.trans (congrArg Host.Outcome.next (snsPacket_of_fail up fails _ _))
  · intro d c parcels j
    obtain ⟨r, counted⟩ : ∃ r, (s.snsWords p).bump (rSnsLinkPkts p.link.1) 1 = { s with regs := r } := by
      obtain ⟨r, words⟩ := snsWords_regs s p
      rw [words]
      exact ⟨_, rfl⟩
    have accepted : ∀ {i : Instr} {want : Nat} {effect : State → State}, exec i s = .next (s.snsPacket p want effect) → pktType p = want →
        Gives i s (effect { s with regs := r }) := by
      intro i want effect run type
      rw [Gives, run, snsPacket_of_sound up sound type, counted]
    refine ⟨fun type none w h dp pr ex free => ?_, fun type none misfit => ?_, fun type picture slot filed => ?_,
      fun type picture slot first rolling idle => ?_, fun type picture other => ?_, fun type picture all => ?_⟩
    · obtain ⟨y, pic, count, empty, fits, -⟩ := snsBegin_spec (s := { s with regs := r }) (p := p) none
      obtain ⟨reserved, next⟩ := fits ⟨w, h, dp, pr, ex⟩ free
      exact ⟨_, y, accepted rfl type, pic, reserved, count, empty, next⟩
    · obtain ⟨y, pic, -, -, -, discarded⟩ := snsBegin_spec (s := { s with regs := r }) (p := p) none
      obtain ⟨refused, next⟩ := discarded fun fits => misfit fits.1
      exact ⟨_, y, accepted rfl type, pic, refused, next⟩
    · obtain ⟨j', slot⟩ := Option.isSome_iff_exists.1 slot
      obtain ⟨pic, take⟩ := snsLine_spec (s := { s with regs := r }) (p := p) picture slot
      rw [if_neg (by simp [filed])] at pic take
      exact ⟨_, accepted rfl type, pic, take⟩
    · obtain ⟨j', slot⟩ := Option.isSome_iff_exists.1 slot
      obtain ⟨pic, take⟩ := snsLine_spec (s := { s with regs := r }) (p := p) picture slot
      obtain ⟨numbered, next⟩ := firstParcel_of_rolling (s := { s with regs := r }) (x := x) rolling idle
      rw [if_pos (by simp [first])] at pic take
      rw [numbered] at pic
      refine ⟨_, accepted rfl type, pic.trans ?_, (congrArg Take.nextPic take).trans next⟩
      rw [first]
      rfl
    · obtain ⟨k, enabled, apart, missing⟩ := other
      have pending : ¬ ∀ k : Fin 4, s.snsEnabled k.1 = true → k = p.link ∨ k ∈ x.ends := fun all => (all k enabled).elim apart missing
      exact ⟨_, accepted rfl type, snsPictureEnd_of_pending (s := { s with regs := r }) picture pending⟩
    · exact ⟨_, accepted rfl type, snsPictureEnd_of_all (s := { s with regs := r }) picture all⟩

end Sys2Proof.Proofs.SensorPackets

/-! ### The Sluice scheduler (O47) -/

namespace Sys2Proof.Proofs.Sluice

open Sys2Proof.Machine Sys2Proof.Claims Sys2Proof.Proofs.Power Sys2Proof.Proofs.Takeover

/-! What a picked packet's way leaves of Sluice (R489, R548). -/

section Hand
variable (s : State)

theorem slu_raise (k : Nat) : (s.raise k).slu = s.slu := (s.raise_frame k).slu

theorem slu_noteLatency (m t : Nat) : (s.noteLatency m t).slu = s.slu := by
  unfold State.noteLatency
  dsimp only
  split
  · rfl
  · rfl

theorem slu_refSent (p : Packet) : (s.refSent p).slu = s.slu := by
  unfold State.refSent
  dsimp only
  split
  · rfl
  · rfl

theorem slu_kslQueue (k : Fin 4) (origin : Nat) (p : Packet) : (s.kslQueue k origin p).slu = s.slu := rfl

theorem slu_sluHand (f p : Nat) (k : SluPacket) : (s.sluHand f p k).slu = s.slu := by
  unfold State.sluHand
  extract_lets t
  have timed : t.slu = s.slu := by
    unfold t
    split
    · exact proj_ite (p := State.slu) (slu_noteLatency _ _ _) rfl
    · rfl
  refine Eq.trans ?_ timed
  clear_value t
  split
  · split
    · exact slu_raise _ _
    · exact proj_ite (p := State.slu) rfl rfl
  · split
    · rfl
    · extract_lets u
      have referenced : u.slu = t.slu := proj_ite (p := State.slu) (slu_refSent _ _) rfl
      refine Eq.trans ?_ referenced
      split
      · rfl
      · rfl

end Hand

/-- A map of flows is as another but at one. -/
theorem flow_congr {s t : State} (h : t.slu = s.slu) (f : Nat) : t.flow f = s.flow f := congrArg (fun x : Sluice => mapGet flowReset x.flows f) h

/-! The pick of an eligible flow of service 0 (R388). -/

section Pick
variable {s : State} {p f : Nat} {k : SluPacket} {ks : List SluPacket}

theorem service_of_mem {v : Nat} (mem : f ∈ rotate (vgetN 0 s.slu.ptr0 p) (s.flowsOf p v)) : (s.flow f).service = v := by
  simp only [rotate, State.flowsOf, List.mem_append, List.mem_filter, Bool.and_eq_true, decide_eq_true_eq] at mem
  obtain ⟨⟨-, -, own⟩, -⟩ | ⟨⟨-, -, own⟩, -⟩ := mem
  · exact own
  · exact own

theorem sluChoose_of_first (found : (rotate (vgetN 0 s.slu.ptr0 p) (s.flowsOf p 0)).find? s.flowEligible = some f) :
    s.sluChoose p = ({ s with slu := { s.slu with ptr0 := vsetN s.slu.ptr0 p (f + 1) } }, some f) := by
  rw [State.sluChoose, found]

theorem sluMoved_of_none (none : (s.flow f).moving = Option.none) : s.sluMoved f = s := by
  rw [State.sluMoved, none]

/-- The flow loses its oldest packet, the others nothing; the port's pointer passes on. -/
theorem sluPick_of_first (wf : mapWf flowReset s.slu.flows) (port : p < 6)
    (found : (rotate (vgetN 0 s.slu.ptr0 p) (s.flowsOf p 0)).find? s.flowEligible = some f) (queue : (s.flow f).queue = k :: ks)
    (still : (s.flow f).moving = none) : ((s.sluPick p).flow f).queue = ks ∧ vgetN 0 (s.sluPick p).slu.ptr0 p = f + 1 ∧
      ∀ g, g ≠ f → (s.sluPick p).flow g = s.flow g := by
  have first : (s.flow f).service = 0 := service_of_mem (List.mem_of_find?_eq_some found)
  have picked : (s.sluPick p).slu = { s.slu with
      ptr0 := vsetN s.slu.ptr0 p (f + 1)
      flows := mapSet flowReset s.slu.flows f { s.flow f with
        queue := ks, tokens := if s.flowRate f = 0 then (s.flow f).tokens else (s.flow f).tokens - 1000000 } } := by
    unfold State.sluPick
    rw [sluChoose_of_first found]
    dsimp only
    rw [show (State.flow { s with slu := { s.slu with ptr0 := vsetN s.slu.ptr0 p (f + 1) } } f).queue = k :: ks from queue]
    dsimp only
    rw [if_pos (.inl first), slu_sluHand, sluMoved_of_none]
    · rfl
    · refine (congrArg Flow.moving (mapGet_mapSet wf f f _)).trans ?_
      rw [if_pos rfl]
      exact still
  have flows : ∀ g, (s.sluPick p).flow g = if g = f then _ else s.flow g := fun g =>
    (congrArg (fun x : Sluice => mapGet flowReset x.flows g) picked).trans (mapGet_mapSet wf g f _)
  refine ⟨?_, ?_, fun g other => ?_⟩
  · rw [flows, if_pos rfl]
  · rw [picked]
    exact vgetN_vsetN_same _ _ port _
  · rw [flows, if_neg other]

end Pick

/-! A port with nothing queued (R388). -/

section Idle
variable {s : State} {p : Nat}

/-- Nothing is queued for port `p`. -/
def Empty (p : Nat) (s : State) : Prop := ∀ g < 64, (s.flow g).port = p → (s.flow g).queue = []

theorem ineligible_of_empty (empty : Empty p s) {v f : Nat} (mem : f ∈ s.flowsOf p v) : s.flowEligible f = false := by
  simp only [State.flowsOf, List.mem_filter, mem_upFrom, Bool.and_eq_true, decide_eq_true_eq] at mem
  rw [State.flowEligible, empty f (by omega) mem.2.1]
  rfl

/-- The flows, the registers and the Kalsal ports are as they were. -/
def FlowsKept (s t : State) : Prop := t.slu.flows = s.slu.flows ∧ t.regs = s.regs ∧ t.ksl = s.ksl

theorem Empty.kept {t : State} (empty : Empty p s) (kept : FlowsKept s t) : Empty p t := by
  intro g small
  rw [State.flow, kept.1]
  exact empty g small

theorem FlowsKept.trans {s t u : State} (h : FlowsKept s t) (h' : FlowsKept t u) : FlowsKept s u :=
  ⟨h'.1.trans h.1, h'.2.1.trans h.2.1, h'.2.2.trans h.2.2⟩

theorem drrServices_of_empty (empty : Empty p s) (vs : List Nat) :
    (s.drrServices p vs).2 = none ∧ FlowsKept s (s.drrServices p vs).1 := by
  induction vs generalizing s with
  | nil => exact ⟨rfl, rfl, rfl, rfl⟩
  | cons v vs ih =>
    have none : s.svcEligible p v = false := by
      rw [State.svcEligible, List.any_eq_false.2 fun f mem => by rw [ineligible_of_empty empty mem]; decide, Bool.and_false]
    unfold State.drrServices
    extract_lets x d t t' u
    rw [if_neg (by rw [none]; decide)]
    have moved : FlowsKept s { u with slu := { u.slu with sptr := vsetN u.slu.sptr p (v + 1) } } := by
      unfold u
      split
      · exact ⟨rfl, rfl, rfl⟩
      · exact ⟨rfl, rfl, rfl⟩
    obtain ⟨unchosen, kept⟩ := ih (empty.kept moved)
    exact ⟨unchosen, moved.trans kept⟩

theorem sluPick_of_empty (empty : Empty p s) : FlowsKept s (s.sluPick p) := by
  have unfound : (rotate (vgetN 0 s.slu.ptr0 p) (s.flowsOf p 0)).find? s.flowEligible = none := by
    refine List.find?_eq_none.2 fun f mem => ?_
    have own : f ∈ s.flowsOf p 0 := by
      simp only [rotate, List.mem_append, List.mem_filter] at mem
      exact mem.elim And.left And.left
    rw [ineligible_of_empty empty own]
    decide
  have unwaiting : (upFrom 0 64).any (fun f => (s.flow f).port = p && decide ((s.flow f).queue ≠ [])) = false := by
    refine List.any_eq_false.2 fun f mem => ?_
    rw [mem_upFrom] at mem
    by_cases own : (s.flow f).port = p
    · simp [empty f (by omega) own]
    · simp [own]
  obtain ⟨none, kept⟩ := drrServices_of_empty empty (rotate (vgetN 0 s.slu.sptr p) (upFrom 1 7))
  have unchosen : s.sluChoose p = ((s.drrServices p (rotate (vgetN 0 s.slu.sptr p) (upFrom 1 7))).1, Option.none) := by
    rw [State.sluChoose, unfound]
    dsimp only
    generalize s.drrServices p (rotate (vgetN 0 s.slu.sptr p) (upFrom 1 7)) = r at none
    obtain ⟨t, v⟩ := r
    subst none
    rfl
  rw [State.sluPick, unchosen, unwaiting]
  exact kept

end Idle

/-! Accrual (R390). -/

section Accrual
variable {s : State}

/-- Flow `f` after a microsecond. -/
def accrued (s : State) (f : Nat) : Flow := { s.flow f with tokens := accrue (s.flowRate f) (s.flowBurst f) (s.flow f).tokens }

theorem accrued_congr {t : State} (banks : t.banks = s.banks) {f : Nat} (flow : t.flow f = s.flow f) : accrued t f = accrued s f := by
  unfold accrued State.flowRate State.flowBurst State.cfg State.hasActive State.active
  rw [flow, banks]

theorem foldl_accrued (wf : mapWf flowReset s.slu.flows) {l : List Nat} (nodup : l.Nodup) (g : Nat) :
    (l.foldl (fun s f => s.setFlow f (accrued s f)) s).flow g = if g ∈ l then accrued s g else s.flow g := by
  induction l generalizing s with
  | nil => simp
  | cons f l ih =>
    obtain ⟨out, rest⟩ := List.nodup_cons.1 nodup
    have set : ∀ j, (s.setFlow f (accrued s f)).flow j = if j = f then accrued s f else s.flow j := fun j => State.flow_setFlow wf j f _
    rw [List.foldl_cons, ih (mapWf_mapSet wf f _) rest]
    by_cases own : g = f
    · subst own
      rw [if_neg out, if_pos List.mem_cons_self, set, if_pos rfl]
    · have same : (s.setFlow f (accrued s f)).flow g = s.flow g := (set g).trans (if_neg own)
      rw [accrued_congr (s := s) (t := s.setFlow f (accrued s f)) rfl same, same]
      simp [own]

theorem sluAccrue_flow (wf : mapWf flowReset s.slu.flows) {g : Nat} (small : g < 64) : s.sluAccrue.flow g = accrued s g := by
  have mem : g ∈ upFrom 0 64 := mem_upFrom.2 ⟨Nat.zero_le g, by omega⟩
  unfold State.sluAccrue
  extract_lets t
  have flows : t.flow g = accrued s g := (foldl_accrued wf (by decide) g).trans (if_pos mem)
  clear_value t
  have services : ∀ (u : State), u.slu.flows = t.slu.flows → u.flow g = t.flow g := fun u same => congrArg (fun m => mapGet flowReset m g) same
  rw [services _ ?_, flows]
  refine foldl_keeps (fun u : State => u.slu.flows = t.slu.flows) _ (fun u p kept => ?_) _ t rfl
  refine foldl_keeps (fun u : State => u.slu.flows = t.slu.flows) _ (fun u v kept => ?_) _ u kept
  exact kept

end Accrual

/-- Settles O47: the eligible flow of service 0 that the pointer meets first, a port with nothing queued, and every flow's bucket. -/
theorem sluiceScheduling : Obligations.SluiceScheduling := by
  intro p f k ks s wf
  exact ⟨fun found queue still => ⟨_, rfl, sluPick_of_first wf p.2 found queue still⟩, fun empty => ⟨_, rfl, sluPick_of_empty empty⟩,
    _, rfl, fun g small => sluAccrue_flow wf small⟩

end Sys2Proof.Proofs.Sluice

/-! ### The ledger: openings, bands, closes and the spill area (O35, O36, O37) -/

namespace Sys2Proof.Proofs.LedgerActions

open Sys2Proof.Machine Sys2Proof.Claims Sys2Proof.Proofs.Takeover Sys2Proof.Proofs.Power

/-! ### Charges and records -/

/-- A charge touches the ledgers and events. -/
def ChargeFrame (s t : State) : Prop := EventFrame { s with ledgers := t.ledgers } t

section Charge
variable {s t : State} (h : ChargeFrame s t)
include h

theorem ChargeFrame.take : t.take = s.take := by rw [h.1]
theorem ChargeFrame.banks : t.banks = s.banks := by rw [h.1]
theorem ChargeFrame.tileQueue : t.tileQueue = s.tileQueue := by rw [h.1]

end Charge

theorem ledger_congr {s t : State} (h : t.ledgers = s.ledgers) (m : Fin 2) : t.ledger m = s.ledger m := congrArg (vget · m) h

theorem active_congr {s t : State} (h : t.banks = s.banks) (u : Nat) : t.active u = s.active u := by
  unfold State.active
  rw [h]

theorem ledgerEvent_event (s : State) (m : Fin 2) (e : Nat) : EventFrame s (s.ledgerEvent m e) :=
  (State.orReg_frame _ _ _).trans (State.raise_frame _ _)

@[simp] theorem ledger_modLedger_same (s : State) (m : Fin 2) (f : Ledger → Ledger) : (s.modLedger m f).ledger m = f (s.ledger m) :=
  vget_vmod_same _ _ _

/-- The charge itself, with the warning's own latch `above` (R153). -/
theorem ledgerDo_spec (s : State) (m : Fin 2) (f : Ledger → Ledger) :
    ChargeFrame s (s.ledgerDo m f) ∧ ∃ above, (s.ledgerDo m f).ledger m = { f (s.ledger m) with above := above } := by
  unfold State.ledgerDo State.ledgerWarn
  extract_lets l hi charged
  have latched : charged.ledger m = { f (s.ledger m) with above := hi } := by simp [charged]
  have frame : ChargeFrame s charged := ⟨rfl, rfl⟩
  split
  · have event := ledgerEvent_event charged m 0
    refine ⟨?_, hi, (ledger_congr event.ledgers m).trans latched⟩
    rw [ChargeFrame, event.ledgers]
    exact frame.trans event
  · exact ⟨frame, hi, latched⟩

/-- Records that are placed touch the logs, the spill areas, events and the pictures' `spilled`. -/
def RecordFrame (s t : State) : Prop :=
  t = { s with srcs := t.srcs, evcStamp := t.evcStamp, regs := t.regs, cores := t.cores, bh := t.bh, ctlSram := t.ctlSram,
               ledgers := t.ledgers, logs := t.logs, take := { s.take with pics := t.take.pics } } ∧
    ∀ m, { t.ledger m with spill := [] } = { s.ledger m with spill := [] }

theorem RecordFrame.refl (s : State) : RecordFrame s s := ⟨rfl, fun _ => rfl⟩

theorem RecordFrame.trans {s t u : State} (h : RecordFrame s t) (h' : RecordFrame t u) : RecordFrame s u :=
  ⟨Eq.trans h'.1 (by rw [h.1]), fun m => (h'.2 m).trans (h.2 m)⟩

theorem RecordFrame.of_event {s t : State} (h : EventFrame s t) : RecordFrame s t :=
  ⟨Eq.trans h.1 (by rw [h.1]), fun m => by rw [ledger_congr h.ledgers m]⟩

theorem RecordFrame.ite {s a b : State} {c : Prop} [Decidable c] (ha : RecordFrame s a) (hb : RecordFrame s b) :
    RecordFrame s (if c then a else b) := by
  split
  · exact ha
  · exact hb

section Records
variable {s t : State} (h : RecordFrame s t)
include h

theorem RecordFrame.banks : t.banks = s.banks := by rw [h.1]
theorem RecordFrame.tileQueue : t.tileQueue = s.tileQueue := by rw [h.1]
theorem RecordFrame.lastRecorded : t.take.lastRecorded = s.take.lastRecorded := by rw [h.1]
theorem RecordFrame.takeSt : t.take.st = s.take.st := by rw [h.1]
theorem RecordFrame.fill (m : Fin 2) : (t.ledger m).fill = (s.ledger m).fill := by simpa using congrArg Ledger.fill (h.2 m)
theorem RecordFrame.pend (m : Fin 2) : (t.ledger m).pend = (s.ledger m).pend := by simpa using congrArg Ledger.pend (h.2 m)
theorem RecordFrame.grants (m : Fin 2) : (t.ledger m).grants = (s.ledger m).grants := by simpa using congrArg Ledger.grants (h.2 m)

end Records

section Placing
variable (s : State)

theorem foldl_record {β : Type} {f : State → β → State} (each : ∀ s b, RecordFrame s (f s b)) (l : List β) : RecordFrame s (l.foldl f s) :=
  foldl_keeps (RecordFrame s) f (fun t b kept => kept.trans (each t b)) l s (.refl s)

theorem foldl_modLog_record (f : Fin 2 → TakeLog → TakeLog) (l : List (Fin 2)) : RecordFrame s (l.foldl (fun s k => s.modLog k (f k)) s) :=
  foldl_record (f := fun s k => s.modLog k (f k)) s (fun _ _ => ⟨rfl, fun _ => rfl⟩) l

theorem markSpilled_record (k : Option Nat) : RecordFrame s (s.markSpilled k) := by
  unfold State.markSpilled
  split
  · exact .refl s
  · exact .ite ⟨rfl, fun _ => rfl⟩ (.refl s)

theorem modSpill_record (m : Fin 2) (f : Ledger → List LogUnit) : RecordFrame s (s.modLedger m (fun l => { l with spill := f l })) := by
  refine ⟨rfl, fun j => ?_⟩
  rcases eq_or_ne j m with rfl | other
  · rw [ledger_modLedger_same]
  · exact congrArg (fun l : Ledger => { l with spill := [] }) (vget_vmod_ne _ other _)

theorem placeUnit_record (m : Fin 2) (u : Fin 2 → LogUnit) : RecordFrame s (s.placeUnit m u) := by
  unfold State.placeUnit
  extract_lets l n other one spilled
  have placed : RecordFrame s spilled := (modSpill_record s m _).trans (markSpilled_record _ _)
  exact .ite (.ite (placed.trans (.of_event (ledgerEvent_event _ _ _))) placed) (foldl_modLog_record s _ _)

theorem addRecord_record (m : Fin 2) (type : Nat) (body : Fin 2 → List Byte) (trailer : Bool) : RecordFrame s (s.addRecord m type body trailer) :=
  (placeUnit_record s m _).trans (foldl_modLog_record _ _ _)

theorem endRun_record (m : Fin 2) : RecordFrame s (s.endRun m) := by
  unfold State.endRun
  split
  · exact .refl s
  · exact (addRecord_record s m _ _ _).trans (foldl_modLog_record _ _ _)

theorem writeIndex_record (m : Fin 2) : RecordFrame s (s.writeIndex m).1 := by
  unfold State.writeIndex
  extract_lets ended at0 added
  have run : RecordFrame s ended := endRun_record s m
  split
  · exact run
  · exact (run.trans (addRecord_record ended m _ _ _)).trans (foldl_modLog_record _ _ _)

theorem indexAfter_record (m : Fin 2) (k : Nat) : RecordFrame s (s.indexAfter m k).1 := by
  unfold State.indexAfter
  split
  · exact writeIndex_record s m
  · exact .refl s

theorem placeRecord_record (m : Fin 2) (p : Picture) : RecordFrame s (s.placeRecord m p) := by
  unfold State.placeRecord
  extract_lets c band n flush total l spilled body rest rec1 header
  have headed : RecordFrame s header := placeUnit_record s m _
  exact .ite headed (headed.trans (foldl_record _ (fun t b => placeUnit_record t m _) _))

end Placing

/-! ### Openings (O35) -/

section Opening
variable {p : Picture} {s : State}

theorem openPicture_of_next {m : Fin 2} (own : s.ledgerOf p.number = m) (next : s.nextToOpen = some p) (rolling : s.take.st = .rolling)
    (free : s.ledgerFree m = true) (sized : (s.ledger m).sizes.isSome = true) (room : s.logRoom m = true) (sound : p.dropped = none) :
    s.openPicture =
      if (s.ledger m).fill - (s.ledger m).credit s.clk.fab + (s.ledger m).pend +
          (if s.dropTest m then (s.ledger m).sz.z else (s.ledger m).sz.fMax) ≤ (s.ledger m).sz.cap then
        if s.dropTest m then s.dropAtOpening p m ((s.ledger m).fill - (s.ledger m).credit s.clk.fab)
        else s.startPicture p m ((s.ledger m).fill - (s.ledger m).credit s.clk.fab)
      else if (s.ledger m).waited then s
      else (s.modLedger m (fun l => { l with waited := true })).bump (rMagLdgOpenWaits m.1) 1 := by
  subst own
  have notNone : (s.ledger (s.ledgerOf p.number)).sizes.isNone = false := by simpa using sized
  rw [State.openPicture, next]
  simp [rolling, free, room, sound, notNone]

theorem mem_modPic {q : Picture} (mem : q ∈ s.take.pics) (f : Picture → Picture) : f q ∈ (s.modPic q.number f).take.pics :=
  List.mem_map.mpr ⟨q, mem, if_pos rfl⟩

theorem takeSlot_spec (n : Nat) (ptp : DWord) : (s.takeSlot n ptp).1.take = s.take ∧ (s.takeSlot n ptp).1.ledgers = s.ledgers := by
  unfold State.takeSlot
  split
  · exact ⟨(State.raise_frame s 18).take, (State.raise_frame s 18).ledgers⟩
  · exact ⟨rfl, rfl⟩

theorem startPicture_take (m : Fin 2) (l2 : Nat) : ∃ refs slot, (s.startPicture p m l2).take =
    { (s.modPic p.number (fun p => { p with opened := true, refs := refs, slot := slot })).take with lastPtp := p.ptp } := by
  unfold State.startPicture
  extract_lets z charged refs r opened
  have take : r.1.take = s.take := (takeSlot_spec p.number p.ptp).1.trans (ledgerDo_spec s m _).1.take
  refine ⟨if r.2.isSome then refs else [], r.2, ?_⟩
  clear_value r
  unfold opened State.modPic State.modTake
  rw [take]

theorem startPicture_ledger (m : Fin 2) (l2 : Nat) : ∃ above, (s.startPicture p m l2).ledger m =
    { s.ledger m with fill := l2 + (s.ledger m).sz.h, res := (s.ledger m).sz.fMax - (s.ledger m).sz.h, tLast := s.clk.fab, waited := false,
                      above := above } := by
  unfold State.startPicture
  extract_lets z charged refs r opened
  obtain ⟨above, own⟩ : ∃ above, charged.ledger m = _ := (ledgerDo_spec s m _).2
  have ledgers : r.1.ledgers = charged.ledgers := (takeSlot_spec (s := charged) p.number p.ptp).2
  clear_value r charged
  refine ⟨above, ?_⟩
  show vget r.1.ledgers m = _
  rw [ledgers]
  exact own

theorem startPicture_spec (mem : p ∈ s.take.pics) (m : Fin 2) (l2 : Nat) :
    let t := s.startPicture p m l2
    let z := (s.ledger m).sz
    (t.ledger m).fill = l2 + z.h ∧ (t.ledger m).res = z.fMax - z.h ∧ (t.ledger m).pend = (s.ledger m).pend ∧ (t.ledger m).tLast = s.clk.fab ∧
      t.take.lastPtp = p.ptp ∧ t.take.pics.length = s.take.pics.length ∧ ∃ q ∈ t.take.pics, q.number = p.number ∧ q.opened = true := by
  obtain ⟨above, ledger⟩ := startPicture_ledger (s := s) (p := p) m l2
  obtain ⟨refs, slot, take⟩ := startPicture_take (s := s) (p := p) m l2
  intro t z
  rw [show t.ledger m = _ from ledger, show t.take = _ from take]
  exact ⟨rfl, rfl, rfl, rfl, rfl, List.length_map _, _, mem_modPic mem _, rfl, rfl⟩

theorem dropAtOpening_spec (mem : p ∈ s.take.pics) (sound : p.dropped = none) (m : Fin 2) (l2 : Nat) :
    let t := s.dropAtOpening p m l2
    (t.ledger m).fill = l2 ∧ (t.ledger m).res = (s.ledger m).sz.z ∧ ∃ q ∈ t.take.pics, q.number = p.number ∧ q.dropped = some 1 := by
  unfold State.dropAtOpening
  extract_lets charged opened t
  obtain ⟨frame, above, own⟩ := ledgerDo_spec s m (fun l => { l with fill := l2, res := l.sz.z, tLast := s.clk.fab, waited := false })
  have event : EventFrame opened t := by
    have counted := (ledgerEvent_event opened m 3).trans (State.bump_frame _ (rMagLdgDropped m.1) 1)
    rw [show t = _ from if_neg (by simp [sound])]
    exact counted
  have listed := mem_modPic (s := charged) (by rw [frame.take]; exact mem)
    (fun q => { q with opened := true, dropped := some (p.dropped.getD 1), nextBand := tilesY (charged.active unitCode) })
  rw [ledger_congr event.ledgers m, event.take, show opened.ledger m = _ from own]
  exact ⟨rfl, rfl, _, listed, rfl, by simp [sound]⟩

/-- Settles O35: the one attempt of R144 by its two tests, the spill area's and the sum's. -/
theorem ledgerOpening : Obligations.LedgerOpening := by
  intro p s next rolling m l l2 free sized room sound
  have mem : p ∈ s.take.pics := List.mem_of_find?_eq_some next
  have attempt := openPicture_of_next (m := m) rfl next rolling free sized room sound
  refine ⟨fun keeps fits => ?_, fun keeps beyond fresh => ?_, fun keeps beyond waited => ?_, fun drops fits => ?_⟩
  · have starts : s.openPicture = s.startPicture p m l2 := by
      rw [attempt, keeps]
      exact if_pos fits
    exact ⟨_, congrArg Host.Outcome.next starts, startPicture_spec mem m l2⟩
  · refine congrArg Host.Outcome.next ?_
    rw [attempt, keeps]
    exact (if_neg (Nat.not_le.mpr beyond)).trans (if_neg (by simpa using fresh))
  · refine congrArg Host.Outcome.next ?_
    rw [attempt, keeps]
    exact (if_neg (Nat.not_le.mpr beyond)).trans (if_pos waited)
  · have drop : s.openPicture = s.dropAtOpening p m l2 := by
      rw [attempt, drops]
      exact if_pos fits
    exact ⟨_, congrArg Host.Outcome.next drop, dropAtOpening_spec mem sound m l2⟩

end Opening

/-! ### Bands (O36) -/

section Bands
variable {p : Picture} {s : State}

theorem dispatchBand_of_ready (next : s.nextToDispatch = some p) (room : (s.ledger (s.ledgerOf p.number)).grants.length < 4)
    (ready : s.tileReady p (p.nextBand * tilesX (s.active unitCode)) = true) :
    let c := s.active unitCode
    let m := s.ledgerOf p.number
    let l := s.ledger m
    let f := nth 0 l.sz.f p.nextBand
    let gg := nth 0 l.sz.g p.nextBand
    let fits : Bool := decide (l.fill + l.pend + gg + (l.res - f) ≤ l.sz.cap)
    let amount := if codeMode c ≠ 2 ∧ fits then gg else f
    let t := s.dispatchBand
    (t.ledger m).res = l.res - f ∧ (t.ledger m).pend = l.pend + amount ∧ (t.ledger m).fill = l.fill ∧
      t.tileQueue = s.tileQueue ++ (bandTiles c p.nextBand).map (fun t => (p.number, t)) ∧ (t.ledger m).grants =
        l.grants ++ [{ picture := p.number, band := p.nextBand, amount := amount, floor := decide (codeMode c ≠ 2) && !fits }] := by
  intro c m l f gg fits amount
  unfold State.dispatchBand
  split
  case h_1 none => exact absurd (next.symm.trans none) (by simp)
  rename_i found
  obtain rfl := Option.some.inj (next.symm.trans found)
  extract_lets b f' g' res only normal budget amount' charged counted warned marked t
  obtain dispatched : t = _ := if_neg (by simp [l, m, b, c, room, ready])
  have sameAmount : amount' = amount := by simp [amount', amount, normal, only, fits, res, f', f, g', gg, b]
  have sameFloor : budget = (decide (codeMode c ≠ 2) && !fits) := by
    simp only [budget, normal, only, decide_not, Bool.not_and, Bool.and_or_distrib_left, Bool.and_not_self]
    rfl
  obtain ⟨frame, above, own⟩ : ChargeFrame s charged ∧ ∃ above, charged.ledger m = _ := ledgerDo_spec s m _
  have event : EventFrame charged warned := by
    have bumped : EventFrame charged counted := State.bump_frame _ _ _
    unfold warned
    split
    · split
      · exact bumped.trans (ledgerEvent_event _ _ _)
      · exact bumped.trans (State.orReg_frame _ _ _)
    · exact .refl _
  have queue : warned.tileQueue = s.tileQueue := (show warned.tileQueue = charged.tileQueue by rw [event.1]).trans frame.tileQueue
  have ledger : t.ledger m = charged.ledger m := by
    clear_value charged warned
    rw [dispatched]
    exact ledger_congr event.ledgers m
  have joined : t.tileQueue = warned.tileQueue ++ (bandTiles c b).map (fun t => (p.number, t)) := by
    clear_value warned
    rw [dispatched]
    rfl
  rw [ledger, own, joined, queue, sameAmount, sameFloor]
  exact ⟨rfl, rfl, rfl, rfl, rfl⟩

/-- The charge of band `b` of picture `p` in log bytes `a`: its grant is released. -/
def withCharge (s : State) (m : Fin 2) (p : Picture) (g : Grant) (b a : Nat) : State :=
  (s.ledgerDo m (fun l => { l with pend := l.pend - g.amount, fill := l.fill + a, grants := l.grants.filter (fun x => x ≠ g) })).modPic p.number
    (fun q => { q with charged := q.charged ++ [b], recordAddr := p.recordAddr })

theorem withCharge_ledger (s : State) (m : Fin 2) (p : Picture) (g : Grant) (b a : Nat) : ∃ above, (withCharge s m p g b a).ledger m =
    { s.ledger m with pend := (s.ledger m).pend - g.amount, fill := (s.ledger m).fill + a
                      grants := (s.ledger m).grants.filter (fun x => x ≠ g), above := above } :=
  (ledgerDo_spec s m (fun l => { l with pend := l.pend - g.amount, fill := l.fill + a, grants := l.grants.filter (fun x => x ≠ g) })).2

theorem chargeBand_of_final {m : Fin 2} {g : Grant} (oldest : s.oldest m = some p)
    (granted : (s.ledger m).grants.find? (fun x : Grant => x.picture = p.number && x.band = p.charged.length) = some g)
    (sound : p.dropped = none) (final : p.bandFinal (s.active unitCode) p.charged.length = true) :
    let t := s.chargeBand m
    (t.ledger m).pend = (s.ledger m).pend - g.amount ∧
      (t.ledger m).fill = (s.ledger m).fill + p.bandLog (s.active unitCode) p.charged.length ∧ g ∉ (t.ledger m).grants := by
  unfold State.chargeBand
  split
  case h_1 none => exact absurd (oldest.symm.trans none) (by simp)
  rename_i found
  obtain rfl := Option.some.inj (oldest.symm.trans found)
  extract_lets c b band ended placed a t
  obtain ⟨marked, isMarked⟩ : ∃ marked, marked = withCharge ended m placed g b a := ⟨_, rfl⟩
  have charges : t = if band then marked.placeUnit m (pictureUnit placed (placed.bandOffset c b) (pad4k (placed.bandBytes c b)) false false)
      else marked := by
    unfold t
    split
    case h_1 none => exact absurd (granted.symm.trans none) (by simp)
    rename_i found
    obtain rfl := Option.some.inj (granted.symm.trans found)
    rw [isMarked]
    exact if_neg (by simp [sound, final, c, b])
  have run : RecordFrame s ended := .ite (endRun_record s m) (.refl s)
  obtain ⟨above, own⟩ := withCharge_ledger ended m placed g b a
  have after : RecordFrame marked t := by
    rw [charges]
    exact .ite (placeUnit_record marked m _) (.refl marked)
  have bytes : a = p.bandLog c b := by
    have same : placed = { p with recordAddr := placed.recordAddr } := by
      unfold placed
      split <;> rfl
    show placed.bandLog c b = _
    rw [same]
    rfl
  rw [after.pend, after.fill, after.grants, isMarked, own, ← run.pend, ← run.fill, bytes]
  exact ⟨rfl, rfl, by simp⟩

/-- Settles O36: a band's grant by the test above the reserve, its charge by what its units take in the log. -/
theorem ledgerBands : Obligations.LedgerBands := by
  intro p g m s c
  refine ⟨fun next own room ready => ?_, fun oldest granted sound final => ⟨_, rfl, chargeBand_of_final oldest granted sound final⟩, fun none => ?_⟩
  · subst own
    exact ⟨_, rfl, dispatchBand_of_ready next room ready⟩
  · refine congrArg Host.Outcome.next ?_
    rw [State.chargeBand, none]

end Bands

/-! ### Closes and the spill area (O37) -/

section Closes
variable {p : Picture} {m : Fin 2} {s : State}

theorem takeLedgers_of_one (one : s.arrangement ≠ 2) : s.takeLedgers = [0] := if_neg one

theorem checkClosed_of_rolling (rolling : s.take.st = .rolling) : s.checkClosed = s := if_pos (.inl (by simp [rolling]))

theorem checkCut_of_rolling (rolling : s.take.st = .rolling) : s.checkCut = s :=
  (if_neg (by simp [rolling])).trans (checkClosed_of_rolling rolling)

theorem noteRecorded_spec (m : Fin 2) (p : Picture) :
    (s.noteRecorded m p).take.lastRecorded = some p.number ∧ (s.noteRecorded m p).take.st = s.take.st := by
  unfold State.noteRecorded
  extract_lets c noted
  have frame : RecordFrame s noted := foldl_modLog_record s (fun _ => _) (s.magsOf m)
  exact ⟨rfl, frame.takeSt⟩

/-- The closing charge, and the picture leaves the take's list. -/
theorem closed_spec {k : Nat} (rolling : s.take.st = .rolling) (last : s.take.lastRecorded = some k) (m : Fin 2) (z : Nat) :
    let t := ((s.closingCharge m z).dropFromList k).checkCut
    t.take.lastRecorded = some k ∧ ∀ q ∈ t.take.pics, q.number ≠ k := by
  have charge : (s.closingCharge m z).take = s.take := (ledgerDo_spec s m _).1.take
  intro t
  rw [show t = _ from checkCut_of_rolling ((congrArg Take.st charge).trans rolling)]
  exact ⟨(congrArg Take.lastRecorded charge).trans last, fun q mem => by simpa using (List.mem_filter.mp mem).2⟩

theorem finishPicture_spec (rolling : s.take.st = .rolling) (sound : p.dropped = none) (m : Fin 2) :
    (s.finishPicture m p).take.lastRecorded = some p.number ∧ ∀ q ∈ (s.finishPicture m p).take.pics, q.number ≠ p.number := by
  unfold State.finishPicture
  split
  case h_1 dropped => exact absurd (sound.symm.trans dropped) (by simp)
  extract_lets ended placed recorded b
  have number : placed.number = p.number := by
    unfold placed
    split <;> rfl
  have run : RecordFrame s ended := .ite (.refl s) (endRun_record s m)
  have record : RecordFrame s (ended.placeRecord m placed) := run.trans (placeRecord_record ended m placed)
  obtain ⟨last, st⟩ : recorded.take.lastRecorded = some placed.number ∧ recorded.take.st = _ := noteRecorded_spec m placed
  have index : RecordFrame recorded b.1 := indexAfter_record recorded m placed.number
  rw [← number]
  exact closed_spec (index.takeSt.trans (st.trans (record.takeSt.trans rolling))) (index.lastRecorded.trans last) m b.2

theorem closeIn_of_undispatched (first : s.take.pics.find? (fun q : Picture => q.opened && !q.closing && decide (s.ledgerOf q.number = m)) = none)
    (oldest : s.oldest m = some p) (closing : p.closing = true) (charged : p.charged.length = tilesY (s.active unitCode)) :
    s.closeIn m = s.finishPicture m p := by
  unfold State.closeIn
  rw [first]
  dsimp only
  rw [oldest]
  exact if_pos ⟨closing, .inl charged⟩

theorem oldest_ledgerClose (oldest : s.oldest m = some p) : (s.ledgerClose p.number m).oldest m = some { p with closing := true } := by
  have frame : ChargeFrame s (s.ledgerDo m (fun l => { l with res := 0, pend := l.pend + l.sz.z })) := (ledgerDo_spec s m _).1
  have pics : (s.ledgerClose p.number m).take.pics =
      s.take.pics.map (fun q : Picture => if q.number = p.number then { q with closing := true } else q) := congrArg (fun x : Take => x.pics.map _) frame.take
  have banks : (s.ledgerClose p.number m).banks = s.banks := frame.banks
  have own : ∀ k, (s.ledgerClose p.number m).ledgerOf k = s.ledgerOf k := fun k => by
    unfold State.ledgerOf State.arrangement
    rw [active_congr banks]
  have same : (fun q : Picture => q.opened && decide (s.ledgerOf q.number = m)) ∘
      (fun q : Picture => if q.number = p.number then { q with closing := true } else q) =
      fun q : Picture => q.opened && decide (s.ledgerOf q.number = m) := funext fun q => by
    dsimp only [Function.comp]
    split <;> rfl
  unfold State.oldest
  rw [pics, funext own, List.find?_map, same, show s.take.pics.find? _ = some p from oldest]
  exact congrArg some (if_pos rfl)

/-- The picture that is now closing is still the oldest; its record waits for its charges. -/
theorem closeIn_of_dispatched (first : s.take.pics.find? (fun q : Picture => q.opened && !q.closing && decide (s.ledgerOf q.number = m)) = some p)
    (oldest : s.oldest m = some p) (sound : p.dropped = none) (all : p.nextBand = tilesY (s.active unitCode))
    (uncharged : p.charged.length ≠ tilesY (s.active unitCode)) : s.closeIn m = s.ledgerClose p.number m := by
  unfold State.closeIn
  rw [first]
  dsimp only
  rw [if_pos (.inl all), oldest_ledgerClose oldest]
  exact if_neg (by simp [uncharged, sound])

/-- What a unit leaves behind that goes from the spill area to the port. -/
def drained (s : State) (u : LogUnit) : State :=
  (s.modLog 0 (fun g => { g with units := g.units ++ [{ u with other := none }] })).modLedger 0 (fun l => { l with spill := (s.ledger 0).spill.drop 1 })

theorem drainSpill_of_idle {u : LogUnit} (single : s.arrangement = 0) (spilled : (s.ledger 0).spill = u :: (s.ledger 0).spill.drop 1)
    (fresh : u.given = false) (idle : s.ledgerPending 0 = 0) :
    s.drainSpill 0 = if (s.ledger 0).spill.drop 1 = [] then (drained s u).ledgerEvent 0 4 else drained s u := by
  have front : (s.ledger 0).spill.find? (fun u => !u.given) = some u := by
    rw [spilled]
    exact List.find?_cons_of_pos (by simp [fresh])
  have mags : s.magsOf 0 = [0] := if_neg (by simp [single])
  have handed : (s.magsOf 0).foldl (fun s k => s.modLog k (fun g => { g with units := g.units ++
      [{ u with bytes := if k = 1 then u.other.getD u.bytes else u.bytes, other := none }] })) s =
      s.modLog 0 (fun g => { g with units := g.units ++ [{ u with other := none }] }) := by
    rw [mags]
    rfl
  have other : ¬ (s.modLog 0 (fun g => { g with units := g.units ++ [{ u with other := none }] })).arrangement = 1 :=
    fun one => absurd (single.symm.trans one) (by decide)
  unfold State.drainSpill
  dsimp only
  rw [front]
  dsimp only
  rw [if_pos (.inl idle), handed, if_neg other]
  rfl

/-- Settles O37: the one ledger of these takes closes what its oldest picture allows; the spill area gives its first unit. -/
theorem ledgerCloses : Obligations.LedgerCloses := by
  intro p u s n l first
  refine ⟨fun one found oldest sound all uncharged => ?_, fun one none oldest rolling closing sound charged => ?_,
    fun single spilled fresh idle => ?_, fun empty => ?_⟩
  · have closes : s.closePicture = s.ledgerClose p.number 0 := by
      rw [State.closePicture, takeLedgers_of_one one]
      exact closeIn_of_dispatched found oldest sound all uncharged
    refine ⟨_, congrArg Host.Outcome.next closes, ?_⟩
    obtain ⟨above, own⟩ := (ledgerDo_spec s 0 (fun l => { l with res := 0, pend := l.pend + l.sz.z })).2
    have ledger : (s.ledgerClose p.number 0).ledger 0 = _ := own
    rw [ledger]
    exact ⟨rfl, rfl, rfl⟩
  · have closes : s.closePicture = s.finishPicture 0 p := by
      rw [State.closePicture, takeLedgers_of_one one]
      exact closeIn_of_undispatched none oldest closing charged
    exact ⟨_, congrArg Host.Outcome.next closes, finishPicture_spec rolling sound 0⟩
  · have drains : s.drainSpill 0 = _ := drainSpill_of_idle single spilled fresh idle
    refine ⟨_, congrArg Host.Outcome.next drains, ?_⟩
    have event : EventFrame (drained s u) (if (s.ledger 0).spill.drop 1 = [] then (drained s u).ledgerEvent 0 4 else drained s u) := by
      split
      · exact ledgerEvent_event _ 0 4
      · exact .refl _
    exact ⟨(congrArg Ledger.spill (ledger_congr event.ledgers 0)).trans (congrArg Ledger.spill (ledger_modLedger_same _ _ _)),
      (congrArg (fun x => (vget x 0).units) event.logs).trans (congrArg TakeLog.units (vget_vmod_same _ _ _))⟩
  · refine congrArg Host.Outcome.next ?_
    rw [State.drainSpill, show (s.ledger 0).spill = [] from empty]
    rfl

end Closes

end Sys2Proof.Proofs.LedgerActions

/-! ### What a reset leaves (O52) -/

namespace Sys2Proof.Proofs.DeviceResets

open Sys2Proof.Machine Sys2Proof.Claims Sys2Proof.Proofs.Power

theorem mapKeep_none {α : Type} (l : List (Nat × α)) : mapKeep (fun _ => false) l = [] := List.filter_eq_nil_iff.mpr (fun _ _ => Bool.false_ne_true)

/-- A loss of the whole of DRAM takes every byte (R336). -/
theorem lose_whole (m : Store) (l : DramLoss) (whole : l.whole = true) :
    (m.lose l).bytes = [] ∧ (m.lose l).syn = [] ∧ (m.lose l).loss.head?.map (·.whole) = some true := by
  have all : l.takes = fun _ => true := funext fun a => by simp [DramLoss.takes, whole]
  unfold Store.lose
  rw [all]
  exact ⟨mapKeep_none _, mapKeep_none _, congrArg some whole⟩

/-- What every reset leaves as it was, and what it takes back to its reset value. -/
def Fresh (s t : State) : Prop :=
  t.nvs = s.nvs ∧ t.pending = s.pending ∧ t.take = State.reset.take ∧ t.dram.bytes = [] ∧ t.dram.syn = [] ∧
    t.dram.loss.head?.map (·.whole) = some true ∧
    t.cores = State.reset.cores ∧ t.srcs = State.reset.srcs ∧ t.banks = State.reset.banks ∧ t.ksl = State.reset.ksl ∧ t.mc = State.reset.mc ∧
    t.ras.wear = s.ras.wear ∧ t.coreMap = State.reset.coreMap ∧ (∀ o, o ≠ rHdgRstCause → t.reg o = regReset o)

theorem resetAll_fresh (s : State) (ch32 : Bool) (den : Fin 4) (cause : Word) :
    Fresh s (s.resetAll ch32 den cause) ∧ (s.resetAll ch32 den cause).reg rHdgRstCause = cause := by
  obtain ⟨bytes, syn, loss⟩ := lose_whole s.dram { s.lossOf 0 with whole := true } rfl
  refine ⟨⟨rfl, rfl, rfl, bytes, syn, loss, rfl, rfl, rfl, rfl, rfl, rfl, rfl, fun o other => State.reg_setReg_ne _ other cause⟩, ?_⟩
  unfold State.resetAll
  extract_lets z
  rw [State.reg_setReg ⟨List.Pairwise.nil, fun _ none => absurd none List.not_mem_nil⟩, if_pos rfl]

/-- Settles O52: every reset is one reset of the whole with its own cause; the key gate and the initiator decide whether a soft one happens. -/
theorem resets : Obligations.Resets := by
  intro ini ch32 den s fresh cause was
  have gate : (s.link .bellhouse).1 = 5 := rfl
  refine ⟨⟨_, rfl, resetAll_fresh s ch32 den 1⟩, ⟨_, rfl, resetAll_fresh s ch32 den _⟩,
    fun runs => ⟨_, congrArg Host.Outcome.next (if_neg runs), resetAll_fresh s _ _ _⟩, fun stopped => congrArg Host.Outcome.next (if_pos stopped),
    fun opened enters => ?_, fun shut enters => ?_, fun other enters => next_access enters (if_neg other)⟩
  · refine ⟨_, next_access enters ((if_pos rfl).trans (if_pos (by rw [gate]; exact opened))), ?_⟩
    exact resetAll_fresh (s.closeGate 5) ch32 den _
  · exact next_access enters ((if_pos rfl).trans (if_neg (by rw [gate, shut]; decide)))

end Sys2Proof.Proofs.DeviceResets

/-! ### Register accesses (O23) -/

namespace Sys2Proof.Proofs.RegisterAccesses

open Sys2Proof.Machine Sys2Proof.Claims Sys2Proof.Proofs.Power

/-! #### An access that waits -/

section Waiting
variable (i : Initiator) (needs : List Nat) (p : Option Nat) (c : Instr) (s : State)

theorem stallIni_frame : EventFrame s (s.stallIni i) := by
  unfold State.stallIni
  split
  · split
    · exact State.setRun_frame s _ _
    · exact .refl s
  · exact .refl s

theorem stallIni_regs : (s.stallIni i).regs = s.regs := by
  unfold State.stallIni
  split
  · next c _ =>
    split
    · cases c <;> rfl
    · rfl
  · rfl

theorem coreRun_stallIni {c : Core} (own : iniCore i = some c) (runs : s.coreRun c = .running) : (s.stallIni i).coreRun c = .stalled := by
  unfold State.stallIni
  rw [own]
  dsimp only
  rw [if_pos runs, State.coreRun_setRun]

theorem hold_spec : (s.hold i needs p c).onHold = s.onHold ++ [⟨i, needs, p, c⟩] ∧ (s.hold i needs p c).regs = s.regs ∧
    (∀ k : Fin 4, i = .core k → s.coreRun (.tabor k) = .running → (s.hold i needs p c).coreRun (.tabor k) = .stalled) ∧
    (i = .bellhouse → s.coreRun .bellhouse = .running → (s.hold i needs p c).coreRun .bellhouse = .stalled) :=
  ⟨by rw [State.hold, (stallIni_frame i _).1], stallIni_regs i _, fun _ core runs => coreRun_stallIni i _ (by rw [core]; rfl) runs,
    fun core runs => coreRun_stallIni i _ (by rw [core]; rfl) runs⟩

end Waiting

theorem next_held {s : State} {i : Initiator} {a b : Nat} {c : Instr} {f : State → State} (same : a = b)
    (waits : ¬ s.mayEnter i (s.pathNeeds i b) (some (s.pointOf b)) = true) :
    (.next (s.access i a c f) : Host.Outcome State Fault Refusal) = .next (s.hold i (s.pathNeeds i b) (some (s.pointOf b)) c) := by
  rw [same, State.access, if_neg waits]

/-! #### The rows of the blocks with plain access codes -/

theorem rwl_of_mem {rows : List RegRow} (plain : rows.all (fun r => r.rwl = 0) = true) {r : RegRow} (mem : r ∈ rows) : r.rwl = 0 := by
  simpa using List.all_eq_true.mp plain r mem

/-- From block 4 on only the Kalsal ID and its routes are RW-L, under KEY_LOCK bit 5, and none of these is half of a pair. -/
theorem rwl_of_row {off : Nat} {r : RegRow} (found : regRowAt off = some r) (high : 4 ≤ off / 0x10000) :
    r.rwl = 0 ∨ (off / 0x10000 = 0xD ∧ r.lock = 5 ∧ r.pair = 0) := by
  have mem : r ∈ blockRows off := List.mem_of_find?_eq_some found
  have kalsal : ∀ r ∈ rowsKsl, r.rwl = 0 ∨ (r.lock = 5 ∧ r.pair = 0) := by decide
  unfold blockRows at mem
  split at mem
  case h_14 block => exact (kalsal r mem).imp_right (fun own => ⟨block, own⟩)
  case h_19 =>
    split at mem
    · exact .inl (rwl_of_mem (by decide) mem)
    · exact absurd mem List.not_mem_nil
  iterate 4 · omega
  all_goals exact .inl (rwl_of_mem (by decide) mem)

theorem ne_of_block {o off : Nat} (low : o / 0x10000 < 4) (high : 4 ≤ off / 0x10000) : off ≠ o := fun e => by
  rw [e] at high
  omega

section Accepted
variable {s : State} {ini : Initiator} {off : Nat} {r : RegRow} {v : Word}

/-- From block 4 on a write waits for nothing but its lock and, of a route, the take (R451). -/
theorem csrWrite_of_plain (high : 4 ≤ off / 0x10000) (noTab : off / 0x10000 ≠ 0x30) (noNvs : off / 0x10000 ≠ 0xF) (noRas : off / 0x10000 ≠ 0x31)
    (there : s.absentReg off = false) (found : regRowAt off = some r) (single : r.pair = 0) :
    s.csrWrite ini off v = if r.rwl = 0 then s.putFields off r v else s.kslRoute off (fun s => s.putFields off r v) := by
  have clears : s.mayClear ini off = true := by
    unfold State.mayClear
    split
    · next block => exact absurd block noNvs
    · next block => exact absurd block noRas
    · rfl
  have policy : off ≠ rRasPolicy := fun e => noRas (by rw [e]; rfl)
  have id : off = rKslDevId → r.rwl ≠ 0 := fun e => by
    rw [e] at found
    obtain rfl : rowLk 0 1 4 0xFFFF 5 = r := Option.some.inj ((show regRowAt rKslDevId = some (rowLk 0 1 4 0xFFFF 5) by decide).symm.trans found)
    decide
  have special : ∀ o ∈ [rKeyGate, rKeyLock, rTopDebug, rTopDbgCtrl, rTopTagGo, rTopTagDone], off ≠ o := fun o mem => 
    ne_of_block ((show ∀ o ∈ [rKeyGate, rKeyLock, rTopDebug, rTopDbgCtrl, rTopTagGo, rTopTagDone], o / 0x10000 < 4 by decide) o mem) high
  simp only [List.forall_mem_cons] at special
  obtain ⟨keyGate, keyLock, debug, dbgCtrl, tagGo, tagDone, -⟩ := special
  unfold State.csrWrite
  extract_lets b
  rw [if_neg (by omega), there, found]
  dsimp only
  rw [if_neg Bool.false_ne_true, if_neg (by omega), if_neg (by omega), if_neg keyGate, if_neg keyLock, if_neg debug, if_neg dbgCtrl, if_neg tagGo,
    if_neg tagDone, if_neg (by omega), if_neg (by omega), if_neg noTab]
  by_cases route : off = rKslDevId ∨ (b = 0xD ∧ r.rwl ≠ 0)
  · rw [if_pos route, if_neg (route.elim id And.right)]
  · have plain : r.rwl = 0 := by_contra fun wide => route (.inr ⟨((rwl_of_row found high).resolve_left wide).1, wide⟩)
    rw [if_neg route, clears, if_neg (by decide : ¬ (!true) = true), if_neg policy, if_neg (fun own => own.1 plain), if_pos plain]

theorem csrWrite_hi {lo : RegRow} (high : 4 ≤ off / 0x10000) (noTab : off / 0x10000 ≠ 0x30) (there : s.absentReg off = false) (found : regRowAt off = some r)
    (half : r.pair = 2) (other : regRowAt (off - 4) = some lo) :
    s.csrWrite ini off v = (s.putFields (off - 4) lo (mapGet wordZero s.holds (pairKey (s.link ini) (off - 4)))).putFields off r v := by
  have plain : r.rwl = 0 := (rwl_of_row found high).resolve_right (fun own => by omega)
  unfold State.csrWrite
  extract_lets b
  rw [if_neg (by omega), there, found]
  dsimp only
  rw [if_neg Bool.false_ne_true, if_neg (by omega), if_pos half, other]
  dsimp only
  rw [State.pairWrite, if_neg (fun own => noTab own.1), if_neg (fun own => own.1 plain)]

theorem csrWrite_lo (high : 4 ≤ off / 0x10000) (there : s.absentReg off = false) (found : regRowAt off = some r) (half : r.pair = 1) :
    s.csrWrite ini off v = { s with holds := mapSet wordZero s.holds (pairKey (s.link ini) off) v } := by
  unfold State.csrWrite
  extract_lets b
  rw [if_neg (by omega), there, found]
  dsimp only
  rw [if_neg Bool.false_ne_true, if_pos half]

theorem csrRead_lo (there : s.absentReg off = false) (found : regRowAt off = some r) (half : r.pair = 1) : (s.csrRead ini off).1 =
    { s with latches := mapSet wordZero s.latches (pairKey (s.link ini) (off + 4)) ((s.pairVal off).extractLsb' 32 32) } := by
  unfold State.csrRead
  extract_lets l
  rw [there, found]
  dsimp only
  rw [if_neg Bool.false_ne_true, if_pos half]

/-- What a read of a plain register leaves: a hidden one stands, a count of Flume and an RC register are cleared (R5, R385). -/
theorem csrRead_of_plain (high : 4 ≤ off / 0x10000) (noNvs : off / 0x10000 ≠ 0xF) (noRas : off / 0x10000 ≠ 0x31)
    (there : s.absentReg off = false) (found : regRowAt off = some r) (single : r.pair = 0) :
    (s.csrRead ini off).1 = if s.pxyHidden off || s.mirrorHidden off then s
      else if flmCount off then { s with flume := { s.flume with readAt := mapSet natZero s.flume.readAt off s.clk.fab } }.setReg off 0
      else if r.rc ≠ 0 then s.setReg off 0 else s := by
  have clears : s.mayClear ini off = true := by
    unfold State.mayClear
    split
    · next block => exact absurd block noNvs
    · next block => exact absurd block noRas
    · rfl
  unfold State.csrRead
  extract_lets l
  rw [there, found]
  dsimp only
  rw [if_neg Bool.false_ne_true, if_neg (by omega), if_neg (by omega), if_neg (by omega), clears]
  split
  · rfl
  · split
    · rfl
    · simp only [and_true]

end Accepted

/-! #### What the acceptance itself leaves alone -/

section Acceptance
variable (s : State) (l : Fin 64)

theorem flumeAccept_regs : ∃ r, s.flumeAccept l = { s with regs := r } := ⟨_, rfl⟩

theorem locked_flumeAccept (b : Nat) : (s.flumeAccept l).locked b = s.locked b :=
  congrArg (BitVec.getLsbD · b) (State.reg_setReg_ne s (show rKeyLock ≠ rFlmLinkReq l.1 by unfold rKeyLock rFlmLinkReq; omega) _)

end Acceptance

theorem next_onCsr {s : State} {ini : Initiator} {addr : BitVec 48} {c : Instr} {f : State → Nat → State} (low : csrBase ≤ addr.toNat)
    (high : addr.toNat < csrBase + 0x400000) (aligned : addr.toNat % 4 = 0) (enters : Enters s ini (addr.toNat - csrBase)) :
    (.next (s.onCsr ini addr c f) : Host.Outcome State Fault Refusal) = .next (f (s.flumeAccept (s.link ini)) (addr.toNat - csrBase)) := by
  have same : csrBase + (addr.toNat - csrBase) = addr.toNat := by omega
  exact next_access (by rw [← same]; exact enters) (if_pos ⟨low, high, aligned⟩)

/-- Settles O23: an access that waits, whatever it is; one that is accepted, by the half of a pair that it names or the codes of its register. -/
theorem registerAccess : Obligations.RegisterAccess := by
  refine ⟨hold_spec, ?_, ?_⟩
  · intro ini v addr k t n b den s held off
    have waits : ∀ off {c : Instr} {f : State → State}, ¬ Enters s ini off → (.next (s.regAccess ini off c f) : Host.Outcome State Fault Refusal) =
        .next (s.hold ini (s.pathNeeds ini (csrBase + off)) (some (s.pointOf (csrBase + off))) c) := fun off _ _ => next_held rfl
    refine ⟨fun low => ?_, waits _, waits _, waits _, waits _, waits _, waits _, waits _, waits _, waits _, waits _, waits _, waits _, waits _, waits _,
      waits _, waits _, waits _, waits _, waits _, waits _, waits _⟩
    have same : addr.toNat = csrBase + off := by omega
    exact ⟨next_held same, next_held same, next_held same, next_held same, next_held same⟩
  · intro ini addr v r s off b l s0 low high aligned found block noTab there enters
    have there0 : s0.absentReg off = false := there
    have locked : ∀ b, s0.locked b = s.locked b := locked_flumeAccept s l
    have write : ∀ x, s0.csrWrite ini off v = x → Gives (.registerWrite ini addr v) s x := fun x same =>
      (next_onCsr low high aligned enters).trans (congrArg Host.Outcome.next same)
    have read : ∀ x, (s0.csrRead ini off).1 = x → Gives (.readClear ini addr) s x := fun x same =>
      (next_onCsr low high aligned enters).trans (congrArg Host.Outcome.next same)
    refine ⟨fun single noNvs noRas => ?_, fun single noNvs noRas => ?_, fun half => ?_, fun half => ?_, fun lo half other => ?_⟩
    · have wrote := csrWrite_of_plain (ini := ini) (v := v) block noTab noNvs noRas there0 found single
      have route : r.rwl ≠ 0 → s0.csrWrite ini off v = s0.kslRoute off (fun s => s.putFields off r v) := fun wide => wrote.trans (if_neg wide)
      have lock : r.rwl ≠ 0 → r.lock = 5 := fun wide => ((rwl_of_row found block).resolve_left wide).2.1
      refine ⟨fun plain => write _ (wrote.trans (if_pos plain)), fun wide shut => write _ ((route wide).trans ?_),
        fun wide opened active => write _ ((route wide).trans ?_), fun wide opened idle => write _ ((route wide).trans ?_)⟩
      · have same : csrBase + off = addr.toNat := by omega
        rw [State.kslRoute, locked, if_pos (by rw [← lock wide]; exact shut), State.lockReject, same]
      · rw [State.kslRoute, locked, if_neg (by rw [← lock wide, opened]; decide)]
        exact if_pos active
      · rw [State.kslRoute, locked, if_neg (by rw [← lock wide, opened]; decide)]
        exact if_neg (by rw [show s0.takeActive = s.takeActive from rfl, idle]; decide)
    · have cleared := csrRead_of_plain (ini := ini) block noNvs noRas there0 found single
      have hid : (s0.pxyHidden off || s0.mirrorHidden off) = (s.pxyHidden off || s.mirrorHidden off) := rfl
      rw [hid] at cleared
      refine ⟨fun hidden => read _ (cleared.trans (if_pos hidden)), fun shown count => read _ (cleared.trans ?_),
        fun shown plain clears => read _ (cleared.trans ?_), fun shown plain stays => read _ (cleared.trans ?_)⟩
      · rw [shown, if_neg Bool.false_ne_true, if_pos count]
        rfl
      · rw [shown, if_neg Bool.false_ne_true, if_neg (by rw [plain]; decide), if_pos clears]
      · rw [shown, if_neg Bool.false_ne_true, if_neg (by rw [plain]; decide), if_neg (not_not_intro stays)]
    · exact (next_onCsr low high aligned enters).trans (congrArg Host.Outcome.next (csrRead_lo there0 found half))
    · exact write _ (csrWrite_lo block there0 found half)
    · exact (next_onCsr low high aligned enters).trans (congrArg Host.Outcome.next (csrWrite_hi block noTab there0 found half other))

end Sys2Proof.Proofs.RegisterAccesses

/-! ### Key gates and debug halts (O24) -/

namespace Sys2Proof.Proofs.DebugHalts

open Sys2Proof.Machine Sys2Proof.Claims Sys2Proof.Proofs.Power Sys2Proof.Proofs.Counting Sys2Proof.Proofs.RegisterAccesses

/-! #### Halts only fall -/

/-- Engine `j` neither halts nor is to halt. -/
def Off (s : State) (j : Nat) : Prop := (s.engine j).halt = false ∧ (s.engine j).halted = false

/-- Canonical engines stay so, no engine gets a halt, and DRAM stands. -/
def Eased (s t : State) : Prop :=
  t.dram = s.dram ∧ (mapWf engineReset s.engines → mapWf engineReset t.engines ∧ ∀ j, Off s j → Off t j)

theorem Eased.refl (s : State) : Eased s s := ⟨rfl, fun wf => ⟨wf, fun _ off => off⟩⟩

theorem off_congr {s t : State} (h : t.engines = s.engines) {j : Nat} (off : Off s j) : Off t j := by
  unfold Off State.engine
  rw [h]
  exact off

section Easing
variable {s t : State}

theorem Eased.same (h : Eased s t) {u : State} (dram : u.dram = t.dram) (engines : u.engines = t.engines) : Eased s u :=
  ⟨dram.trans h.1, fun wf => ⟨engines ▸ (h.2 wf).1, fun j off => off_congr engines ((h.2 wf).2 j off)⟩⟩

theorem Eased.ite {a b : State} {c : Prop} [Decidable c] (ha : Eased s a) (hb : Eased s b) : Eased s (if c then a else b) := by
  split
  · exact ha
  · exact hb

theorem Eased.event (h : Eased s t) {u : State} (event : EventFrame t u) : Eased s u := h.same event.dram event.engines
theorem Eased.counted (h : Eased s t) {u : State} (counted : Counted t u) : Eased s u := h.same counted.frame.dram counted.frame.engines

theorem Eased.foldl {β : Type} {f : State → β → State} (each : ∀ {t} b, Eased s t → Eased s (f t b)) (l : List β) (h : Eased s t) :
    Eased s (l.foldl f t) := foldl_keeps (Eased s) f (fun _ b kept => each b kept) l t h

/-- The engine written has a halt only where the one before had it. -/
theorem Eased.set (h : Eased s t) {j : Nat} {x : Engine} (halt : x.halt = true → (t.engine j).halt = true)
    (halted : x.halted = true → (t.engine j).halted = true) : Eased s (t.setEngine j x) := by
  refine ⟨h.1, fun wf => ?_⟩
  obtain ⟨wf', off'⟩ := h.2 wf
  refine ⟨mapWf_mapSet wf' j x, fun k off => ?_⟩
  have still := off' k off
  unfold Off State.engine State.setEngine
  dsimp only
  rw [mapGet_mapSet wf']
  split
  · next same =>
    subst same
    exact ⟨by simpa [still.1] using halt, by simpa [still.2] using halted⟩
  · exact still

theorem Eased.mod (h : Eased s t) {j : Nat} {f : Engine → Engine} (halt : ∀ x, (f x).halt = x.halt) (halted : ∀ x, (f x).halted = x.halted) :
    Eased s (t.modEngine j f) :=
  h.set (fun on => (halt _).symm.trans on) (fun on => (halted _).symm.trans on)

theorem Eased.overrunBand (h : Eased s t) (k n : Nat) : Eased s (t.overrunBand k n) := by
  unfold State.overrunBand
  split
  · exact h
  · refine .ite h (Eased.same (t := (t.magsOf (t.ledgerOf k)).foldl (fun s m => s.bump (rMagBandOverrun m.1) 1) t) ?_ rfl rfl)
    exact .foldl (fun _ kept => kept.event (State.bump_frame _ _ _)) _ h

theorem Eased.requeueTile (h : Eased s t) (k n : Nat) : Eased s (t.requeueTile k n) :=
  .ite (Eased.overrunBand (t := { t with tileQueue := (k, n) :: t.tileQueue }) (h.same rfl rfl) k n) h

theorem Eased.abandonRun (h : Eased s t) (j : Nat) : Eased s (t.abandonRun j) := by
  unfold State.abandonRun
  extract_lets x t1
  have stopped : Eased s t1 := h.set (fun on => on) (fun on => on)
  split
  · exact stopped.requeueTile _ _
  · exact stopped.same rfl rfl
  · exact stopped

theorem Eased.endAtOnce (h : Eased s t) (j : Nat) : Eased s (t.endAtOnce j) := by
  unfold State.endAtOnce
  extract_lets x t1
  have cleared : Eased s (t.setEngine j { x with stop := false, preempt := none, fault := none }) := h.set (fun on => on) (fun on => on)
  have ended : Eased s t1 := cleared.abandonRun j
  split
  · exact ended.requeueTile _ _
  · exact ended

theorem Eased.takeSnapshot (h : Eased s t) (j : Nat) : Eased s (t.takeSnapshot j) := by
  unfold State.takeSnapshot
  extract_lets x w t1
  have same : Eased s { t1 with freeCount := t1.freeCount + 1 } := h.same rfl rfl
  exact same.set (fun on => on) (fun on => on)

theorem Eased.beginCapture (h : Eased s t) (j k n : Nat) : Eased s (t.beginCapture j k n) := by
  unfold State.beginCapture
  split
  · exact h.mod (fun _ => rfl) (fun _ => rfl)
  · exact h.mod (fun _ => rfl) (fun _ => rfl)

theorem Eased.modCluster (h : Eased s t) (n : Nat) (f : Cluster → Cluster) : Eased s (t.modCluster n f) := h.same rfl rfl

theorem Eased.returnEngines (h : Eased s t) : Eased s t.returnEngines := by
  unfold State.returnEngines
  extract_lets t1
  have back : Eased s t1 := by
    refine .foldl (fun e kept => .ite ?_ kept) _ h
    exact kept.set (fun on => on) (fun on => on)
  refine .foldl (fun n kept => ?_) _ back
  split
  · exact (kept.modCluster n _).counted (.propose .refl _ _ _ _)
  · exact (kept.modCluster n _).counted (.threshold .refl)
  · exact kept

theorem Eased.startExec (h : Eased s t) : Eased s t.startExec := by
  unfold State.startExec
  split
  · exact .ite (h.same rfl rfl) h
  · exact h

theorem Eased.fspTake (h : Eased s t) : Eased s t.fspTake := by
  unfold State.fspTake
  split
  · exact .ite h (.ite (h.same rfl rfl) (h.same rfl rfl))
  · exact h

theorem Eased.takeBoundary (h : Eased s t) : Eased s t.takeBoundary := h.returnEngines.startExec.fspTake

theorem Eased.engineOut (h : Eased s t) (j : Nat) (f : EngineFault) : Eased s (t.engineOut j f) := by
  unfold State.engineOut
  extract_lets t1 t2
  have out : Eased s t1 := h.mod (fun _ => rfl) (fun _ => rfl)
  have proposed : Eased s t2 := .ite (out.counted (.propose .refl _ _ _ _)) out
  exact .ite proposed.takeBoundary proposed

/-- With no halt to come the last two requests of a safe point halt nothing. -/
theorem Eased.lateRequests (h : Eased s t) {j : Nat} (wf : mapWf engineReset s.engines) (off : Off s j) : Eased s (t.lateRequests j) := by
  unfold State.lateRequests
  extract_lets t1
  have shot : Eased s t1 := .ite (h.takeSnapshot j) h
  have still : (t1.engine j).halt = false := ((shot.2 wf).2 j off).1
  rw [if_neg (by rw [still]; decide)]
  exact shot

theorem safePoint_eased {j : Nat} (wf : mapWf engineReset s.engines) (off : Off s j) : Eased s (s.safePoint j) := by
  unfold State.safePoint
  extract_lets x t1 t2
  have stopped : Eased s t1 := .ite (Eased.set (.refl s) (fun on => on) (fun on => on)) (.refl s)
  have counted : Eased s t2 := .ite stopped (stopped.event (State.bump_frame _ _ _))
  split
  · exact .refl s
  · exact Eased.lateRequests (.refl s) wf off
  · split
    · exact Eased.lateRequests (Eased.engineOut (Eased.endAtOnce (.refl s) j) j _) wf off
    · split
      · have freed : Eased s (t2.modEngine j (fun y => { y with preempt := none })) := counted.mod (fun _ => rfl) (fun _ => rfl)
        exact (freed.beginCapture j _ _).lateRequests wf off
      · exact stopped.lateRequests wf off

theorem Eased.trans {u : State} (h : Eased s t) (h' : Eased t u) : Eased s u :=
  ⟨h'.1.trans h.1, fun wf => ⟨(h'.2 (h.2 wf).1).1, fun j off => (h'.2 (h.2 wf).1).2 j ((h.2 wf).2 j off)⟩⟩

theorem mapGet_of_mem {α : Type} {d : Nat → α} {m : SMap α} (wf : mapWf d m) {e : Nat × α} (mem : e ∈ m) : mapGet d m e.1 = e.2 := by
  induction m with
  | nil => exact absurd mem List.not_mem_nil
  | cons x m ih =>
    obtain ⟨below, rest⟩ := List.pairwise_cons.mp wf.1
    rcases List.mem_cons.mp mem with rfl | later
    · exact if_pos rfl
    · exact (if_neg (Nat.ne_of_lt (below e later))).trans (ih ⟨rest, fun p hp => wf.2 p (.tail x hp)⟩ later)

theorem mapGet_of_unlisted {α : Type} {d : Nat → α} {m : SMap α} {k : Nat} (unlisted : ∀ e ∈ m, e.1 ≠ k) : mapGet d m k = d k := by
  induction m with
  | nil => rfl
  | cons x m ih => exact (if_neg (unlisted x (.head m))).trans (ih (fun e mem => unlisted e (.tail x mem)))

/-- The release of one listed engine. -/
def releaseOne (s : State) (e : Nat × Engine) : State :=
  if e.2.halt || e.2.halted then
    let x := s.engine e.1
    let s := s.setEngine e.1 { x with halt := false, halted := false }
    if x.halted then s.safePoint e.1 else s
  else s

theorem releaseOne_held (wf : mapWf engineReset s.engines) {e : Nat × Engine} (held : (e.2.halt || e.2.halted) = true) :
    Eased s (releaseOne s e) ∧ Off (releaseOne s e) e.1 := by
  unfold releaseOne
  rw [if_pos held]
  extract_lets x t
  have set : Eased s t := Eased.set (.refl s) (fun on => absurd on Bool.false_ne_true) (fun on => absurd on Bool.false_ne_true)
  have off : Off t e.1 := by
    unfold Off State.engine
    rw [show t.engines = mapSet engineReset s.engines e.1 _ from rfl, mapGet_mapSet_same wf]
    exact ⟨rfl, rfl⟩
  have wf' := (set.2 wf).1
  clear_value t
  have after := safePoint_eased wf' off
  split
  · exact ⟨set.trans after, (after.2 wf').2 _ off⟩
  · exact ⟨set, off⟩

theorem releaseOne_eased (wf : mapWf engineReset s.engines) (e : Nat × Engine) : Eased s (releaseOne s e) := by
  by_cases held : (e.2.halt || e.2.halted) = true
  · exact (releaseOne_held wf held).1
  · rw [releaseOne, if_neg held]
    exact .refl s

theorem foldl_releaseOne (wf : mapWf engineReset s.engines) (l : List (Nat × Engine)) (listed : ∀ e ∈ l, e ∈ s.engines) (h : Eased s t)
    (others : ∀ j, (∀ e ∈ l, e.1 ≠ j) → Off t j) : (l.foldl releaseOne t).dram = s.dram ∧ ∀ j, Off (l.foldl releaseOne t) j := by
  induction l generalizing t with
  | nil => exact ⟨h.1, fun j => others j (fun _ mem => absurd mem List.not_mem_nil)⟩
  | cons e l ih =>
    have wf' := (h.2 wf).1
    have eased := releaseOne_eased wf' e
    refine ih (fun x mem => listed x (.tail e mem)) (h.trans eased) (fun j rest => ?_)
    by_cases same : e.1 = j
    · subst same
      by_cases held : (e.2.halt || e.2.halted) = true
      · exact (releaseOne_held wf' held).2
      · have off : Off s e.1 := by
          rw [Off, State.engine, mapGet_of_mem wf (listed e (.head l))]
          simpa using held
        exact (eased.2 wf').2 _ ((h.2 wf).2 _ off)
    · exact (eased.2 wf').2 _ (others j (fun x mem => (List.mem_cons.mp mem).elim (fun here => here ▸ same) (rest x)))

/-- After a release no engine halts or is to halt, and DRAM is as it was (R227). -/
theorem releaseHalts_spec (wf : mapWf engineReset s.engines) : s.releaseHalts.dram = s.dram ∧ ∀ j, Off s.releaseHalts j :=
  foldl_releaseOne wf s.engines (fun _ mem => mem) (.refl s) (fun j unlisted => by
    rw [Off, State.engine, mapGet_of_unlisted unlisted]
    exact ⟨rfl, rfl⟩)

end Easing

/-! #### TOP_DBG_CTRL (R227, R514) -/

section Control
variable {s : State} {ini : Initiator} {v : Word} (privileged : s.privileged ini = true)
include privileged

theorem topDbgCtrl_off (off : (s.reg rTopDebug).getLsbD 0 = false) : s.topDbgCtrl ini v = s := by
  rw [State.topDbgCtrl, privileged, off]
  rfl

theorem topDbgCtrl_of_on (on : (s.reg rTopDebug).getLsbD 0 = true) {clash : Bool}
    (held : (s.debugBusy && (v.getLsbD 9 || decide (v.toNat % 512 ≠ (s.reg rTopDbgCtrl).toNat % 512))) = clash) :
    s.topDbgCtrl ini v =
      (let e := v.toNat % 512
       let s := if clash then s.orReg rTopDbgStat 4 else s.setReg rTopDbgCtrl (BitVec.ofNat 32 e)
       let s := if v.getLsbD 9 && !clash && decide (e < 272) then s.requestHalt e else s
       if v.getLsbD 10 && !clash then s.releaseHalts else s) := by
  subst held
  rw [State.topDbgCtrl, privileged, on]
  rfl

/-- A write that clashes with a halt in force is ignored with its event bit. -/
theorem topDbgCtrl_clash (on : (s.reg rTopDebug).getLsbD 0 = true) (busy : s.debugBusy = true)
    (clash : v.getLsbD 9 = true ∨ v.toNat % 512 ≠ (s.reg rTopDbgCtrl).toNat % 512) : s.topDbgCtrl ini v = s.orReg rTopDbgStat 4 := by
  have held : (s.debugBusy && (v.getLsbD 9 || decide (v.toNat % 512 ≠ (s.reg rTopDbgCtrl).toNat % 512))) = true := by
    simpa only [busy, Bool.true_and, Bool.or_eq_true, decide_eq_true_eq] using clash
  simp only [topDbgCtrl_of_on privileged on held, Bool.not_true, Bool.and_false, Bool.false_and, Bool.false_eq_true, if_false, if_true]

theorem topDbgCtrl_halt (on : (s.reg rTopDebug).getLsbD 0 = true) (free : s.debugBusy = false) (halt : v.getLsbD 9 = true)
    (small : v.toNat % 512 < 272) (stays : v.getLsbD 10 = false) :
    s.topDbgCtrl ini v = (s.setReg rTopDbgCtrl (BitVec.ofNat 32 (v.toNat % 512))).requestHalt (v.toNat % 512) := by
  have held : (s.debugBusy && (v.getLsbD 9 || decide (v.toNat % 512 ≠ (s.reg rTopDbgCtrl).toNat % 512))) = false := by rw [free]; rfl
  simp only [topDbgCtrl_of_on privileged on held, halt, small, stays, Bool.not_false, Bool.and_true, Bool.false_and, Bool.false_eq_true, decide_true,
    if_false, if_true]

theorem topDbgCtrl_release (on : (s.reg rTopDebug).getLsbD 0 = true) (release : v.getLsbD 10 = true) (quiet : v.getLsbD 9 = false)
    (now : s.debugBusy = false ∨ v.toNat % 512 = (s.reg rTopDbgCtrl).toNat % 512) :
    s.topDbgCtrl ini v = (s.setReg rTopDbgCtrl (BitVec.ofNat 32 (v.toNat % 512))).releaseHalts := by
  have held : (s.debugBusy && (v.getLsbD 9 || decide (v.toNat % 512 ≠ (s.reg rTopDbgCtrl).toNat % 512))) = false := by
    rcases now with free | same
    · rw [free]; rfl
    · rw [quiet, decide_eq_false (not_not_intro same)]
      exact Bool.and_false _
  simp only [topDbgCtrl_of_on privileged on held, quiet, release, Bool.not_false, Bool.and_true, Bool.false_and, Bool.false_eq_true, if_false, if_true]

end Control

section Requests
variable {s : State} {e : Nat}

theorem requestHalt_capture {k n : Nat} (runs : (s.engine e).run = .capture k n) :
    ((s.requestHalt e).engine e).halt = true ∧ ((s.requestHalt e).engine e).run = .capture k n := by
  have listed : ({ s.engine e with halt := true } : Engine) ≠ engineReset e := fun same => absurd (congrArg Engine.halt same) (by simp [engineReset])
  have own : (s.requestHalt e).engine e = { s.engine e with halt := true } := by
    rw [State.requestHalt, runs]
    exact mapGet_mapSet_listed _ listed
  rw [own]
  exact ⟨rfl, runs⟩

theorem requestHalt_idle (idle : (s.engine e).run = .idle) : ((s.requestHalt e).engine e).halted = true := by
  have listed : ({ s.engine e with halt := false, halted := true } : Engine) ≠ engineReset e := fun same =>
    absurd (congrArg Engine.halted same) (by simp [engineReset])
  have own : (s.requestHalt e).engine e = { s.engine e with halt := false, halted := true } := by
    have halted : s.requestHalt e = s.setEngine e { s.engine e with halt := false, halted := true } := by
      unfold State.requestHalt State.haltEngine
      split
      · extract_lets x t
        split
        · next runs => exact absurd (idle.symm.trans runs) (by simp)
        · rfl
      · next runs => exact absurd (idle.symm.trans runs) (by simp)
      · next busy _ => exact absurd idle busy
    rw [halted]
    exact mapGet_mapSet_listed _ listed
  rw [own]

end Requests

/-- HALT and RELEASE leave the bits of ENGINE. -/
theorem engine_or (v m : Word) (outside : m.setWidth 9 = 0) : (v ||| m).toNat % 512 = v.toNat % 512 := by
  have same : (v ||| m).setWidth 9 = v.setWidth 9 := by simp [BitVec.setWidth_or, outside]
  rw [← BitVec.toNat_setWidth 9, same, BitVec.toNat_setWidth]

/-- Settles O24: the key gate by privilege and key; a debug write by EN, by what it asks and by what is already held. -/
theorem keysAndHalts : Obligations.KeysAndHalts := by
  refine ⟨?_, ?_⟩
  · intro ini v s enters l shut
    simp only [List.forall_mem_cons] at enters
    obtain ⟨gate, lock, debug, go, done, -⟩ := enters
    refine ⟨fun low => ?_, fun high =>
      have allowed : ¬ (!s.privileged ini) = true := by rw [high]; decide
      ⟨fun key => ?_, fun other => ?_, fun opened => ?_, fun opened one => ?_, fun shut => ?_⟩⟩
    · have refused : (!s.privileged ini) = true := by rw [low]; rfl
      simp only [List.forall_mem_cons]
      exact ⟨next_access gate (if_pos refused), next_access lock (if_pos refused), next_access debug (if_pos refused), next_access go (if_pos refused),
        next_access done (if_pos refused), fun _ none => absurd none List.not_mem_nil⟩
    · exact next_access gate ((if_neg allowed).trans (if_pos key))
    · exact next_access gate ((if_neg allowed).trans (if_neg other))
    · exact next_access lock ((if_neg allowed).trans (if_pos opened))
    · exact next_access debug ((if_neg allowed).trans ((if_pos opened).trans (if_pos one)))
    · have closed : ¬ s.gates.getLsbD (s.link ini).1 = true := by rw [show s.gates.getLsbD (s.link ini).1 = false from shut]; decide
      have nokey : ∀ f, s.keyed ini f = s.orReg rKeyStat 4 := fun f => if_neg closed
      simp only [List.forall_mem_cons]
      exact ⟨next_access lock ((if_neg allowed).trans (nokey _)), next_access debug ((if_neg allowed).trans (nokey _)),
        next_access go ((if_neg allowed).trans (nokey _)), fun _ none => absurd none List.not_mem_nil⟩
  · intro ini v s high enters e now
    have low9 : (v ||| 0x200).toNat % 512 = e := engine_or v _ (by decide)
    have low10 : (v ||| 0x400).toNat % 512 = e := engine_or v _ (by decide)
    have halt : (v ||| 0x200).getLsbD 9 = true := by rw [BitVec.getLsbD_or, show (0x200 : Word).getLsbD 9 = true from rfl, Bool.or_true]
    have noRelease : v.getLsbD 10 = false → (v ||| 0x200).getLsbD 10 = false := fun stays => by
      rw [BitVec.getLsbD_or, stays]
      rfl
    have release : (v ||| 0x400).getLsbD 10 = true := by rw [BitVec.getLsbD_or, show (0x400 : Word).getLsbD 10 = true from rfl, Bool.or_true]
    have noHalt : v.getLsbD 9 = false → (v ||| 0x400).getLsbD 9 = false := fun quiet => by
      rw [BitVec.getLsbD_or, quiet]
      rfl
    refine ⟨fun off => ⟨next_access enters (topDbgCtrl_off high off), next_access enters (topDbgCtrl_off high off)⟩,
      fun on stays free small => ?_, fun on stays busy => next_access enters (topDbgCtrl_clash high on busy (.inl halt)),
      fun on quiet elsewhere => ?_, fun on quiet here wf => ?_⟩
    · have requested := topDbgCtrl_halt high on free halt (by rw [low9]; exact small) (noRelease stays)
      rw [low9] at requested
      exact ⟨fun k t runs => ⟨_, next_access enters requested, requestHalt_capture (s := s.setReg rTopDbgCtrl _) runs⟩,
        fun idle => ⟨_, next_access enters requested, requestHalt_idle (s := s.setReg rTopDbgCtrl _) idle⟩⟩
    · obtain ⟨busy, different⟩ := not_or.mp elsewhere
      exact next_access enters (topDbgCtrl_clash high on (by simpa using busy) (.inr (by rw [low10]; exact different)))
    · have released := topDbgCtrl_release high on release (noHalt quiet) (by rw [low10]; exact here)
      obtain ⟨dram, off⟩ := releaseHalts_spec (s := s.setReg rTopDbgCtrl (BitVec.ofNat 32 ((v ||| 0x400).toNat % 512))) wf
      exact ⟨_, next_access enters released, off, dram⟩

end Sys2Proof.Proofs.DebugHalts

/-! ### Tag requests and NVS lines (O25) -/

namespace Sys2Proof.Proofs.TagsAndNvs

open Sys2Proof.Machine Sys2Proof.Claims Sys2Proof.Proofs.Power Sys2Proof.Proofs.Completions Sys2Proof.Proofs.Stores

section Tags
variable (s : State)

theorem setHolder_regs (h : Word) (t : Fin 64) : (s.setHolder h t).regs = s.regs := by
  unfold State.setHolder
  split
  · rfl
  · split <;> rfl

theorem reg_congr {s t : State} (h : t.regs = s.regs) (o : Nat) : t.reg o = s.reg o := congrArg (mapGet regReset · o) h

/-- A request that nothing speaks against goes to Bellhouse with the buffer (R512). -/
theorem tagRequest_passed {i : Initiator} {seq : Byte} (free : s.tagBusy = false)
    (given : (s.setReg rTopTagGo (seq.setWidth 32)).giveCause (ownOwner i) (s.reg rTopTagHandle) 0 = 0)
    (some : (s.reg rTopTagRange).toNat / 65536 % 8192 ≠ 0)
    (fits : (s.reg rTopTagRange).toNat % 4096 + (s.reg rTopTagRange).toNat / 65536 % 8192 ≤ 4096) (unlocked : s.locked 2 = false) :
    s.tagRequest i seq = (((s.setReg rTopTagGo (seq.setWidth 32)).setHolder (s.reg rTopTagHandle) 0).setReg rTopTagStat 1).raise 531 := by
  have handle : (s.setReg rTopTagGo (seq.setWidth 32)).reg rTopTagHandle = s.reg rTopTagHandle := State.reg_setReg_ne s (by decide) _
  have regs : ∀ o, o ≠ rEvcCoalesced → o ≠ rTopTagStat → o ≠ rTopTagGo →
      ((((s.setReg rTopTagGo (seq.setWidth 32)).setHolder (s.reg rTopTagHandle) 0).setReg rTopTagStat 1).raise 531).reg o = s.reg o := fun o e st go => by
    rw [reg_raise _ _ e, State.reg_setReg_ne _ st, reg_congr (setHolder_regs _ _ _), State.reg_setReg_ne _ go]
  have accepted : ((((s.setReg rTopTagGo (seq.setWidth 32)).setHolder (s.reg rTopTagHandle) 0).setReg rTopTagStat 1).raise 531).tagRefusal = 0 := by
    unfold State.tagRefusal State.locked
    rw [regs rTopTagRange (by decide) (by decide) (by decide), regs rKeyLock (by decide) (by decide) (by decide)]
    exact (if_neg (by omega)).trans (if_neg (by rw [show (s.reg rKeyLock).getLsbD 2 = false from unlocked]; decide))
  unfold State.tagRequest
  extract_lets t h o c u st
  have busy : ¬ t.tagBusy = true := by
    rw [State.tagBusy, show t.reg rTopTagStat = s.reg rTopTagStat from State.reg_setReg_ne s (by decide) _,
      show (s.reg rTopTagStat).getLsbD 0 = false from free]
    decide
  have passes : c = 0 := by
    show t.giveCause o (t.reg rTopTagHandle) 0 = 0
    rw [handle]
    exact given
  have same : h = s.reg rTopTagHandle := handle
  have request : u = (((s.setReg rTopTagGo (seq.setWidth 32)).setHolder (s.reg rTopTagHandle) 0).setReg rTopTagStat 1).raise 531 := by
    unfold u
    rw [same]
    rfl
  have judged : st = 0 := by
    unfold st
    rw [request]
    exact accepted
  rw [if_neg busy, if_neg (not_not_intro passes), if_pos judged, request]

theorem tagOutcome_alone {status : Nat} {seq : Byte} (none : s.tagCmd = none) : s.tagOutcome status seq =
    ((s.setReg rTopTagDone (BitVec.ofNat 32 (status % 256 + 256 * seq.toNat))).clrReg rTopTagStat 1).raise 19 := by
  unfold State.tagOutcome
  extract_lets t
  have still : t.tagCmd = Option.none := by
    rw [show t.tagCmd = _ from congrArg State.tagCmd (State.raise_frame _ 19).1]
    exact none
  rw [still]

end Tags

section Lines
variable {s : State}

theorem length_peek (s : State) (a n : Nat) : (s.peek a n).length = n := by
  unfold State.peek
  split
  · unfold State.readBytes
    split
    · rw [List.length_map, List.length_zip, length_read, length_upFrom, Nat.min_self]
    · exact length_read _ _ _
  · exact List.length_replicate

theorem nvsLine_of_sound {n a : Nat} {b : List Byte} (sound : Sound s.nvs) (young : s.ras.wearOf n + 1 < 90000000) :
    (s.nvsLine n a b [] false).1 =
      { s.modRas (fun r => r.setWear n (s.ras.wearOf n + 1) false) with nvs := s.nvs.write a b }.bump rNvsLineWrites 1 := by
  have keeps : (false || decide (99000000 ≤ s.ras.wearOf n + 1)) = false := by simp; omega
  have fresh : (false || decide (90000000 < s.ras.wearOf n + 1)) = false := by simp; omega
  have written : (s.modRas (fun r => r.setWear n (s.ras.wearOf n + 1) false)).writeStore .nvs a b =
      { s.modRas (fun r => r.setWear n (s.ras.wearOf n + 1) false) with nvs := s.nvs.write a b } :=
    writeStore_of_clean (s.modRas _) .nvs (fun i _ => sound i)
  unfold State.nvsLine
  simp only [keeps, fresh, Bool.false_and, Bool.false_eq_true, if_false]
  rw [written]
  rfl

theorem nvsWrite_of_line {h : Word} {off len : Nat} {x : Buffer} (buffer : s.buf h.toNat = some x) (own : x.holder = 0) (some : 1 ≤ len)
    (visible : 0x1000 ≤ off) (one : off % 64 + len ≤ 64) (inside : off < 0x200000) :
    let src := s.bufAddr (h.toNat / 2 ^ 29) (h.toNat % 2 ^ 29)
    s.badSpans src len = [] → s.nvsWrite h off len [] = ((s.readArea src len).1.nvsLine (off / 64) off (s.readArea src len).2.1 [] false).1 := by
  intro src sound
  have lines : nvsLines off len = [off / 64] := by
    have count : (off + len - 1) / 64 + 1 - off / 64 = 1 := by omega
    rw [nvsLines, if_neg (by omega), count]
    rfl
  have part : nvsPart off len (off / 64) = (off, len) := by
    have start : Nat.max off (64 * (off / 64)) = off := Nat.max_eq_left (by omega)
    have stop : Nat.min (off + len) (64 * (off / 64) + 64) = off + len := Nat.min_eq_left (by omega)
    rw [nvsPart, start, stop, Nat.add_sub_cancel_left]
  have all : (s.readArea src len).2.1.length = len := length_peek _ _ _
  unfold State.nvsWrite
  rw [buffer]
  dsimp only
  rw [if_neg (by omega), sound, lines]
  simp only [List.foldl_cons, List.foldl_nil, if_true, part, List.map_nil, Nat.sub_self, List.drop_zero, List.contains_nil]
  rw [List.take_of_length_le (Nat.le_of_eq all)]

end Lines

/-- Settles O25: a request and its outcome by their registers, a write of NVS by the one line that it touches. -/
theorem tagAndNvs : Obligations.TagAndNvs := by
  intro ini v h off len x s go hnd range n w src
  refine ⟨fun enters high opened free given some fits unlocked => ?_, fun enters none => ?_,
    fun buffer own some visible one inside young same good sound => ?_, fun none => ?_⟩
  · have allowed : ¬ (!s.privileged ini) = true := by rw [high]; decide
    refine next_access enters ((if_neg allowed).trans ((if_pos opened).trans ?_))
    exact tagRequest_passed (s.closeGate (s.link ini)) free given some fits unlocked
  · refine next_access enters ((if_neg (by rw [show s.privileged .bellhouse = true from rfl]; decide)).trans ((if_neg (not_not_intro rfl)).trans
      ((tagOutcome_alone s none).trans ?_)))
    have value : v.toNat % 256 % 256 + 256 * (v.extractLsb' 8 8).toNat = v.toNat % 65536 := by
      rw [BitVec.extractLsb'_toNat, Nat.shiftRight_eq_div_pow]
      omega
    rw [value]
  · refine congrArg Host.Outcome.next ((nvsWrite_of_line buffer own some visible one inside good).trans ?_)
    rw [show (s.readArea _ len).1 = s from same]
    exact nvsLine_of_sound sound young
  · refine congrArg Host.Outcome.next ?_
    rw [State.nvsWrite, none]

end Sys2Proof.Proofs.TagsAndNvs

/-! ### What the take's own moves leave alone: a stop, a fault and the boundary they reach (R281, R282, R516) -/

namespace Sys2Proof.Proofs.TakeStops

open Sys2Proof.Machine Sys2Proof.Claims Sys2Proof.Proofs.Power Sys2Proof.Proofs.Counting Sys2Proof.Proofs.LedgerActions

/-- A stop of the take touches what completions touch, and of the units the engines, reference slots, DMA channels, streams, the log and its ledgers,
and at a boundary the queues of maintenance. The banks, the magazine and network ports, the links and the sessions are as before. -/
def StopFrame (s t : State) : Prop :=
  t = { s with srcs := t.srcs, evcStamp := t.evcStamp, regs := t.regs, cores := t.cores, bh := t.bh, dram := t.dram, cisSram := t.cisSram,
               ctlSram := t.ctlSram, nvs := t.nvs, ras := t.ras, ringPhase := t.ringPhase, stalled := t.stalled, freeCount := t.freeCount,
               take := t.take, logs := t.logs, ledgers := t.ledgers, engines := t.engines, clusters := t.clusters, slots := t.slots,
               tileQueue := t.tileQueue, dma := t.dma, streams := t.streams, maintQueue := t.maintQueue, mc := t.mc }

theorem StopFrame.refl (s : State) : StopFrame s s := rfl

theorem StopFrame.trans {s t u : State} (h : StopFrame s t) (h' : StopFrame t u) : StopFrame s u := Eq.trans h' (by rw [h])

theorem StopFrame.of_post {s t : State} (h : PostFrame s t) : StopFrame s t := Eq.trans h (by rw [h])

theorem StopFrame.of_event {s t : State} (h : EventFrame s t) : StopFrame s t := .of_post h.post

theorem StopFrame.of_record {s t : State} (h : RecordFrame s t) : StopFrame s t := Eq.trans h.1 (by rw [h.1])

theorem StopFrame.of_charge {s t : State} (h : ChargeFrame s t) : StopFrame s t := Eq.trans h.1 (by rw [h.1])

theorem StopFrame.ite {s a b : State} {c : Prop} [Decidable c] (ha : StopFrame s a) (hb : StopFrame s b) : StopFrame s (if c then a else b) := by
  split
  · exact ha
  · exact hb

section Fields
variable {s t : State} (h : StopFrame s t)
include h

theorem StopFrame.mags : t.mags = s.mags := by rw [h]
theorem StopFrame.banks : t.banks = s.banks := by rw [h]
theorem StopFrame.sessions : t.sessions = s.sessions := by rw [h]
theorem StopFrame.ksl : t.ksl = s.ksl := by rw [h]
theorem StopFrame.sns : t.sns = s.sns := by rw [h]
theorem StopFrame.ringGen : t.ringGen = s.ringGen := by rw [h]

end Fields

section Parts
variable (s : State)

theorem foldl_stop {β : Type} {f : State → β → State} (each : ∀ s b, StopFrame s (f s b)) (l : List β) : StopFrame s (l.foldl f s) :=
  foldl_keeps (StopFrame s) f (fun t b kept => kept.trans (each t b)) l s rfl

theorem noteDrop_record (m : Fin 2) (k r : Nat) (ptp : DWord) : RecordFrame s (s.noteDrop m k r ptp).1 := by
  unfold State.noteDrop
  extract_lets same ended add
  have run : RecordFrame s ended := .ite (.refl s) (endRun_record s m)
  exact run.trans (foldl_modLog_record _ (fun _ => add) _)

theorem passBands_record : RecordFrame s s.passBands := by
  unfold State.passBands
  refine .ite (.refl s) (foldl_record s (fun t m => ?_) _)
  split
  · exact .ite (.refl t) (foldl_modLog_record t (fun _ => _) _)
  · exact .refl t

theorem notePictures_record (reason : Option Nat) : RecordFrame s (s.notePictures reason) :=
  foldl_record s (fun t x => by
    dsimp only
    split
    · exact .refl t
    · exact (noteDrop_record t _ _ _ _).trans (indexAfter_record _ _ _)) _

theorem stopCapture_stop (p : Nat → Bool) : StopFrame s (s.stopCapture p) :=
  foldl_stop s (fun t e => by
    split
    · exact .ite rfl rfl
    · rfl) _

theorem dropPictures_stop (p : Nat → Bool) : StopFrame s (s.dropPictures p) := by
  unfold State.dropPictures
  extract_lets gone slotless queueless
  have dropped : StopFrame s slotless := foldl_stop s (fun t x => by
    split
    · exact .ite rfl rfl
    · rfl) _
  have idle : StopFrame slotless queueless := StopFrame.trans (t := { slotless with tileQueue := slotless.tileQueue.filter (fun t => !p t.1) }) rfl
    (stopCapture_stop _ p)
  clear_value queueless slotless
  exact (dropped.trans idle).trans rfl

theorem closeLog_stop (m : Fin 2) (reason : Nat) (charge : Bool) : StopFrame s (s.closeLog m reason charge) := by
  unfold State.closeLog
  extract_lets a0 indexed trailed closed
  have index : RecordFrame s indexed := writeIndex_record s m
  have trailer : RecordFrame indexed trailed := addRecord_record indexed m _ _ _
  have shut : RecordFrame trailed closed := foldl_modLog_record trailed (fun _ => _) _
  have all : StopFrame s closed := .of_record ((index.trans trailer).trans shut)
  exact .ite rfl (.ite (all.trans (.of_charge (ledgerDo_spec closed m _).1)) all)

theorem stopTake_stop (reason : Nat) (dropReason : Option Nat) : StopFrame s (s.stopTake reason dropReason) := by
  unfold State.stopTake
  extract_lets rolling noted dropped logged
  have note : StopFrame s noted := .ite (.of_record ((passBands_record s).trans (notePictures_record _ _))) rfl
  have drop : StopFrame noted dropped := (dropPictures_stop noted _).trans rfl
  have close : StopFrame dropped logged := by
    refine .ite ((foldl_stop dropped (fun t m => .of_charge (ledgerDo_spec t m _).1) _).trans (foldl_stop _ (fun t m => ?_) _)) rfl
    exact .ite (closeLog_stop t m _ _) (.of_record (foldl_modLog_record t (fun _ => _) _))
  exact ((note.trans drop).trans close).trans rfl

theorem returnEngines_stop : StopFrame s s.returnEngines := by
  unfold State.returnEngines
  extract_lets back
  have engines : StopFrame s back := foldl_stop s (fun t e => by
    split
    · exact rfl
    · exact rfl) _
  refine engines.trans (foldl_stop back (fun t n => ?_) _)
  split
  · exact StopFrame.trans (t := t.modCluster n _) rfl (.of_post (State.propose_post _ _ _ _ _))
  · exact StopFrame.trans (t := t.modCluster n _) rfl (.of_post (State.threshold_post _))
  · rfl

theorem startExec_stop : StopFrame s s.startExec := by
  unfold State.startExec
  split
  · exact .ite rfl rfl
  · rfl

theorem fspTake_stop : StopFrame s s.fspTake := by
  unfold State.fspTake
  split
  · exact .ite rfl (.ite rfl rfl)
  · rfl

theorem takeBoundary_stop : StopFrame s s.takeBoundary := ((returnEngines_stop s).trans (startExec_stop _)).trans (fspTake_stop _)

theorem moveTake_stop (st : TakeState) (cause : Nat) : StopFrame s (s.moveTake st cause) := by
  unfold State.moveTake
  extract_lets t
  have moved : StopFrame s t := StopFrame.trans (t := s.modTake _) rfl (.of_event (State.raise_frame _ _))
  exact .ite (moved.trans (takeBoundary_stop t)) moved

theorem postOwed_post (p : Option PendingCmd) (status : Nat) (value : DWord) : PostFrame s (s.postOwed p status value) := by
  unfold State.postOwed
  split
  · exact Commands.post_frame _ _ _ _ _
  · exact .refl s

theorem modTake_stop (f : Take → Take) : StopFrame s (s.modTake f) := rfl

theorem drawn_stop : StopFrame s s.drawn := rfl

theorem faultTake_stop (cause status : Nat) : StopFrame s (s.faultTake cause status) := by
  unfold State.faultTake
  extract_lets idle setup cut stopped moved posted
  have stop : StopFrame s stopped := stopTake_stop s _ _
  have move : StopFrame stopped moved := (moveTake_stop stopped .faulted cause).trans (modTake_stop _ _)
  have post : StopFrame moved posted :=
    (StopFrame.of_post ((postOwed_post moved _ _ _).trans (postOwed_post _ _ _ _))).trans (drawn_stop _)
  clear_value posted moved stopped
  exact .ite rfl (((stop.trans move).trans post).trans (.of_event (State.raise_frame _ _)))

end Parts

end Sys2Proof.Proofs.TakeStops

/-! ### Magazine ports: their states and the commands they submit and complete (O38, O39, O40) -/

namespace Sys2Proof.Proofs.MagazinePortsAndLog

open Sys2Proof.Machine Sys2Proof.Claims Sys2Proof.Proofs.Power Sys2Proof.Proofs.Counting Sys2Proof.Proofs.LedgerActions Sys2Proof.Proofs.TakeStops

section Ports
variable {s t : State} {m : Fin 2}

theorem mag_congr (h : t.mags = s.mags) (m : Fin 2) : t.mag m = s.mag m := congrArg (vget · m) h

@[simp] theorem mag_modMag_same (s : State) (m : Fin 2) (f : MagPort → MagPort) : (s.modMag m f).mag m = f (s.mag m) := vget_vmod_same _ _ _

theorem mag_event (h : EventFrame s t) (m : Fin 2) : t.mag m = s.mag m := mag_congr h.mags m

theorem mag_nvmeSubmit (s : State) (m : Fin 2) (q op : Nat) (nsid : Word) (slba nlb bytes : Nat) (why : NvmePurpose) :
    (s.nvmeSubmit m q op nsid slba nlb bytes why).mag m = { s.mag m with
      nextCid := (s.mag m).nextCid + 1
      cmds := (s.mag m).cmds ++ [{ cid := (s.mag m).nextCid, order := (s.mag m).nextCid, queue := q, opcode := BitVec.ofNat 8 op, nsid := nsid
                                   slba := slba, nlb := nlb, bytes := bytes, tries := 0, purpose := why }] } := mag_modMag_same _ _ _

/-! #### Submission (O38) -/

theorem endQwait_spec (s : State) (m : Fin 2) :
    (s.endQwait m).mag m = { s.mag m with waitSince := none } ∧ (s.endQwait m).logs = s.logs ∧ (s.endQwait m).banks = s.banks := by
  unfold State.endQwait
  split
  · next since _ =>
    have event := State.bump_frame (s.modMag m (fun p => { p with waitSince := none })) (rMagQwait m.1) ((s.clk.fab - since) / 2000)
    exact ⟨(mag_event event m).trans (mag_modMag_same _ _ _), event.logs, event.banks⟩
  · next none => exact ⟨by rw [← none], rfl, rfl⟩

/-- Only the bad words that the bytes reach are zeroed. -/
theorem zeroWords_filter (b : List Byte) (bad : List Nat) : zeroWords b (bad.filter (fun i => decide (16 * i < b.length))) = zeroWords b bad := by
  refine List.map_congr_left (fun p mem => ?_)
  have inside : p.2 < b.length := by
    have listed := (List.of_mem_zip mem).2
    rw [mem_upFrom] at listed
    omega
  have same : (bad.filter (fun i => decide (16 * i < b.length))).contains (p.2 / 16) = bad.contains (p.2 / 16) := by
    rw [Bool.eq_iff_iff]
    simp only [List.contains_iff_mem, List.mem_filter, decide_eq_true_eq]
    exact ⟨And.left, fun mem => ⟨mem, by omega⟩⟩
  rw [same]

/-- A unit that one Write holds leaves as that Write (R486). -/
theorem writeParts_of_fits {u : LogUnit} (q fuel : Nat) (room : 0 < (s.mag m).room q) (some : 0 < u.bytes.length) (max : u.bytes.length ≤ (s.mag m).maxBytes)
    (extent : u.bytes.length ≤ extentLeft (s.active unitLog) m.1 (logExtents (s.active unitLog) m.1) 0 u.addr)
    (done : (s.mag m).undone (lbaOf (s.active unitLog) m.1 u.addr) (u.bytes.length / Nat.max 1 (logLbaBytes (s.active unitLog) m.1)) = false) :
    ∃ t, s.writeParts m q (fuel + 1) u = (t, none) ∧ t.logs = s.logs ∧ t.mag m = { s.mag m with
      nextCid := (s.mag m).nextCid + 1
      cmds := (s.mag m).cmds ++ [{ cid := (s.mag m).nextCid, order := (s.mag m).nextCid, queue := q, opcode := 1
                                   nsid := BitVec.ofNat 32 (logNsid (s.active unitLog) m.1), slba := lbaOf (s.active unitLog) m.1 u.addr
                                   nlb := u.bytes.length / Nat.max 1 (logLbaBytes (s.active unitLog) m.1) - 1, bytes := u.bytes.length, tries := 0
                                   purpose := .write { u with bytes := zeroWords u.bytes u.bad, bad := [] } true }] } := by
  unfold State.writeParts
  extract_lets g p lba n a last hit part noted submitted
  have whole : n = u.bytes.length := by
    exact Nat.min_eq_left (Nat.le_min.mpr ⟨max, extent⟩)
  have isLast : last = true := by simp [last, whole]
  have event : EventFrame s noted := by
    unfold noted
    split
    · exact .refl s
    · exact State.raiseRec_frame _ _ _ _ _ _ _
  have bytes : part = { u with bytes := zeroWords u.bytes u.bad, bad := [] } := by
    unfold part hit
    rw [whole, List.take_length, zeroWords_filter]
  have submits : submitted = noted.nvmeSubmit m q opWrite (BitVec.ofNat 32 (logNsid g m.1)) a (n / lba - 1) n (.write part last) := rfl
  have free : ¬ (p.room q = 0 ∨ n = 0 ∨ p.undone a (n / lba) = true) := by
    rw [whole]
    simp only [not_or, Bool.not_eq_true]
    exact ⟨Nat.pos_iff_ne_zero.mp room, Nat.pos_iff_ne_zero.mp some, done⟩
  refine ⟨submitted, (if_neg free).trans (if_pos isLast), event.logs, ?_⟩
  rw [submits, mag_nvmeSubmit, mag_event event, whole, isLast, bytes]
  rfl

theorem submitUnit_of_fits {u : LogUnit} {us : List LogUnit} (ready : (s.mag m).st = .ready) (units : (s.log m).units = u :: us)
    (room : 0 < (s.mag m).room (s.mag m).nextQueue) (some : 0 < u.bytes.length) (max : u.bytes.length ≤ (s.mag m).maxBytes)
    (extent : u.bytes.length ≤ extentLeft (s.active unitLog) m.1 (logExtents (s.active unitLog) m.1) 0 u.addr)
    (done : (s.mag m).undone (lbaOf (s.active unitLog) m.1 u.addr) (u.bytes.length / Nat.max 1 (logLbaBytes (s.active unitLog) m.1)) = false) :
    ((s.submitUnit m).log m).units = us ∧ ((s.submitUnit m).mag m).nextQueue = (s.mag m).rotateQueue ∧ ((s.submitUnit m).mag m).cmds =
      (s.mag m).cmds ++ [{ cid := (s.mag m).nextCid, order := (s.mag m).nextCid, queue := (s.mag m).nextQueue, opcode := 1
                           nsid := BitVec.ofNat 32 (logNsid (s.active unitLog) m.1), slba := lbaOf (s.active unitLog) m.1 u.addr
                           nlb := u.bytes.length / Nat.max 1 (logLbaBytes (s.active unitLog) m.1) - 1, bytes := u.bytes.length, tries := 0
                           purpose := .write { u with bytes := zeroWords u.bytes u.bad, bad := [] } true }] := by
  obtain ⟨waited, logs, banks⟩ := endQwait_spec s m
  have active : (s.endQwait m).active unitLog = s.active unitLog := active_congr banks _
  obtain ⟨t, writes, tLogs, tMag⟩ := writeParts_of_fits (s := s.endQwait m) (m := m) (u := u) (s.mag m).nextQueue u.bytes.length (by rw [waited]; exact room) some
    (by rw [waited]; exact max) (by rw [active]; exact extent) (by rw [active, waited]; exact done)
  have submits : s.submitUnit m = (t.modLog m (fun g => { g with units := us })).modMag m (fun p => { p with
      nextQueue := p.rotateQueue, flushDue := if u.flushAfter then p.flushDue ++ [p.nextCid] else p.flushDue }) := by
    unfold State.submitUnit
    rw [units]
    dsimp only
    rw [if_neg (not_not_intro ready), decide_eq_false (Nat.pos_iff_ne_zero.mp room), if_neg Bool.false_ne_true, writes]
  have mag : (t.modLog m (fun g => { g with units := us })).mag m = t.mag m := rfl
  rw [submits, mag_modMag_same, mag, tMag, waited, active]
  exact ⟨congrArg TakeLog.units (vget_vmod_same _ _ _), rfl, rfl⟩

end Ports

/-- Settles O38: each kind of command that a READY port with room submits; a port that is not READY submits none. -/
theorem logSubmits : Obligations.LogSubmits := by
  intro m u us due dues s x g lba per cmd
  refine ⟨fun ready units room some max extent done => ?_, fun ready due room earlier => ?_, fun ready todo room => ?_, fun other => ⟨?_, ?_, ?_⟩⟩
  · obtain ⟨left, queue, cmds⟩ := submitUnit_of_fits ready units room some max extent done
    exact ⟨_, rfl, left, cmds, queue⟩
  · have submits : s.submitFlush m = (s.modMag m (fun p => { p with flushDue := dues })).nvmeSubmit m 2 opFlush
        (BitVec.ofNat 32 (logNsid (s.active unitLog) m.1)) 0 0 0 .flushCmd := by
      unfold State.submitFlush
      dsimp only
      rw [show (s.mag m).flushDue = _ from due]
      dsimp only
      refine if_neg ?_
      simp only [not_or, Bool.not_eq_true]
      exact ⟨not_not_intro ready, Nat.pos_iff_ne_zero.mp room, earlier⟩
    refine ⟨_, congrArg Host.Outcome.next submits, ?_⟩
    rw [mag_nvmeSubmit, mag_modMag_same]
    exact ⟨rfl, rfl⟩
  · have submits : s.submitDsm m = (s.modMag m (fun p => { p with dsmTodo := p.dsmTodo.drop 256 })).nvmeSubmit m 2 opDsm
        (BitVec.ofNat 32 (logNsid (s.active unitLog) m.1)) 0 0 0 (.dsm (x.dsmTodo.take 256)) :=
      if_neg (by
        simp only [not_or]
        exact ⟨not_not_intro ready, by simpa using todo, Nat.pos_iff_ne_zero.mp room⟩)
    refine ⟨_, congrArg Host.Outcome.next submits, ?_⟩
    rw [mag_nvmeSubmit, mag_modMag_same]
    exact ⟨rfl, rfl⟩
  · refine congrArg Host.Outcome.next ?_
    unfold State.submitUnit
    split
    · rfl
    · exact if_pos other
  · refine congrArg Host.Outcome.next ?_
    unfold State.submitFlush
    extract_lets p
    split
    · rfl
    · exact if_pos (.inl other)
  · exact congrArg Host.Outcome.next (if_pos (.inl other))

/-! #### Completions (O39) -/

section Outcomes
variable {s : State} {m : Fin 2}

theorem magEvent_event (s : State) (m : Fin 2) (cause status info : Nat) : EventFrame s (s.magEvent m cause status info) :=
  State.raiseRec_frame _ _ _ _ _ _ _

theorem magLoss_stop (s : State) (m : Fin 2) : StopFrame s (s.magLoss m) := .ite (faultTake_stop s _ _) rfl

/-- A port that leaves service has lost its commands, whatever its take does then. -/
theorem mag_magDown (s : State) (m : Fin 2) (st : MagState) : (s.magDown m st).mag m =
    { s.mag m with st := st, cmds := [], waitSince := none, flushDue := [], dsmTodo := [] } :=
  (mag_congr (magLoss_stop _ m).mags m).trans (mag_modMag_same _ _ _)

theorem mag_magFail (s : State) (m : Fin 2) (cause status info : Nat) : (s.magFail m cause status info).mag m =
    { s.mag m with st := .failed, cmds := [], waitSince := none, flushDue := [], dsmTodo := [] } := by
  unfold State.magFail
  rw [mag_magDown, mag_event (magEvent_event s m cause status info)]

theorem mag_magRefuse (s : State) (m : Fin 2) (status info : Nat) : (s.magRefuse m status info).mag m =
    { s.mag m with st := .failed, cmds := [], waitSince := none, flushDue := [], dsmTodo := [] } := mag_magFail _ _ _ _ _

theorem mag_magFault (s : State) (m : Fin 2) : (s.magFault m).mag m =
    { s.mag m with st := .fault, cmds := [], waitSince := none, flushDue := [], dsmTodo := [], gate := false, perstN := false, refclk := false
                   speed := 0, width := 0, ioq := 0, qdepth := 0 } := by
  have event : EventFrame (s.magPowerOff m) (((s.magPowerOff m).orReg (rMagPortStat m.1) 0x2000).magEvent m 3 stLink 0) :=
    (State.orReg_frame _ _ _).trans (magEvent_event _ _ _ _ _)
  unfold State.magFault
  rw [mag_magDown, mag_event event, State.magPowerOff, mag_modMag_same]

theorem settleSpill_spec (s : State) (m : Fin 2) : (s.settleSpill m).mags = s.mags ∧ (s.settleSpill m).take = s.take ∧
    (s.settleSpill m).sessions = s.sessions := by
  unfold State.settleSpill
  extract_lets inside held l rest left
  have event := ledgerEvent_event left m 4
  split
  · exact ⟨rfl, rfl, rfl⟩
  · split
    · exact ⟨event.mags, event.take, event.sessions⟩
    · exact ⟨rfl, rfl, rfl⟩

/-- What a session 0 that plays nothing leaves as it was. -/
def PlayIdle (s t : State) : Prop := t.mags = s.mags ∧ t.take = s.take ∧ (t.session 0).params = none

theorem modSession_idle (quiet : (s.session 0).params = none) {f : Session → Session} (keeps : ∀ x, (f x).params = x.params) :
    PlayIdle s (s.modSession 0 f) := by
  refine ⟨rfl, rfl, ?_⟩
  have own : (s.modSession 0 f).session 0 = f (s.session 0) := vget_vmod_same _ _ _
  rw [own, keeps, quiet]

theorem playFetched_idle (quiet : (s.session 0).params = none) : PlayIdle s s.playFetched := by
  unfold State.playFetched
  extract_lets x
  split
  · exact ⟨rfl, rfl, quiet⟩
  · split
    · exact ⟨rfl, rfl, quiet⟩
    · extract_lets b area skipped
      have skip : PlayIdle s skipped := modSession_idle quiet (fun _ => rfl)
      split
      · split
        · have next := modSession_idle (s := skipped) skip.2.2 (f := fun x => { x with phase := .output, pic := none }) (fun _ => rfl)
          exact ⟨next.1.trans skip.1, next.2.1.trans skip.2.1, next.2.2⟩
        · next k _ _ =>
          have next := modSession_idle (s := skipped) skip.2.2
            (f := fun x => x.ask (((x.entry k).map (·.addr)).getD 0) (((x.entry k).map (·.len)).getD 0)) (fun _ => rfl)
          exact ⟨next.1.trans skip.1, next.2.1.trans skip.2.1, next.2.2⟩
      · exact modSession_idle quiet (fun _ => rfl)

theorem playPump_idle (quiet : (s.session 0).params = none) : s.playPump.mags = s.mags ∧ s.playPump.take = s.take := by
  have none : ∀ {p}, (s.session 0).params ≠ some p := fun some => by rw [quiet] at some; exact absurd some (by simp)
  have lost : s.playLost = s := by
    unfold State.playLost
    extract_lets x live gone
    split
    · rfl
    · next some => exact absurd some none
  have issue : ∀ {t : State}, (t.session 0).params = Option.none → t.playIssue 256 = t := fun {t} idle => by
    unfold State.playIssue
    extract_lets x
    split
    · next some _ => exact absurd (idle.symm.trans some) (by simp)
    · rfl
  have walk : s.playWalk = s := by
    unfold State.playWalk
    extract_lets x
    split
    · next some _ => exact absurd some none
    · rfl
  have header : s.playHeader = s := by
    unfold State.playHeader
    extract_lets x
    split
    · rfl
    · next some => exact absurd some none
  have resume : s.playResume = s := by
    unfold State.playResume
    rw [quiet]
  unfold State.playPump
  rw [lost]
  extract_lets t x moved
  have idle : PlayIdle s moved := by
    unfold moved t
    rw [header, walk, resume]
    split
    · exact ⟨rfl, rfl, quiet⟩
    · split
      · exact ⟨rfl, rfl, quiet⟩
      · exact ⟨rfl, rfl, quiet⟩
      · exact ⟨rfl, rfl, quiet⟩
      · exact playFetched_idle quiet
      · exact ⟨rfl, rfl, quiet⟩
  rw [issue idle.2.2]
  exact ⟨idle.1, idle.2.1⟩

theorem nvmeComplete_of_write {c : NvmeCmd} {u : LogUnit} {last : Bool} {cid : Nat} (found : (s.mag m).cmds.find? (fun y => y.cid = cid) = some c)
    (write : c.purpose = .write u last) (status : Half) (data : List Byte) :
    s.nvmeComplete m cid status data = (s.nvmeAnswer m c status data).playPump := by
  unfold State.nvmeComplete
  rw [found]
  dsimp only
  rw [write]

theorem foldl_settleSpill_spec (l : List (Fin 2)) (s : State) : (l.foldl (fun s l => s.settleSpill l) s).mags = s.mags ∧
    (l.foldl (fun s l => s.settleSpill l) s).take = s.take ∧ (l.foldl (fun s l => s.settleSpill l) s).sessions = s.sessions :=
  foldl_keeps (fun t : State => t.mags = s.mags ∧ t.take = s.take ∧ t.sessions = s.sessions) (fun s l => s.settleSpill l) (fun t k kept => by
    obtain ⟨mags, take, sessions⟩ := settleSpill_spec t k
    exact ⟨mags.trans kept.1, take.trans kept.2.1, sessions.trans kept.2.2⟩) l s ⟨rfl, rfl, rfl⟩

/-- While the take rolls a completed Write closes nothing. -/
theorem writeDone_spec (rolling : s.take.st = .rolling) (u : LogUnit) (last : Bool) : (s.writeDone m u last).mags = s.mags ∧
    (s.writeDone m u last).take = s.take ∧ (s.writeDone m u last).sessions = s.sessions := by
  unfold State.writeDone
  extract_lets counted logged
  have log : logged.mags = s.mags ∧ logged.take = s.take ∧ logged.sessions = s.sessions := by
    unfold logged
    split
    · exact ⟨rfl, rfl, rfl⟩
    · exact ⟨rfl, rfl, rfl⟩
  obtain ⟨mags, take, sessions⟩ := foldl_settleSpill_spec logged.takeLedgers logged
  have still : (logged.takeLedgers.foldl (fun s l => s.settleSpill l) logged).take.st = .rolling := by rw [take, log.2.1, rolling]
  rw [checkClosed_of_rolling still]
  exact ⟨mags.trans log.1, take.trans log.2.1, sessions.trans log.2.2⟩

theorem nvmeAnswer_of_good {c : NvmeCmd} {u : LogUnit} {last : Bool} {status : Half} (write : c.purpose = .write u last) (good : nvmeCode status = 0)
    (data : List Byte) : s.nvmeAnswer m c status data = (s.dropCmd m c.cid).writeDone m u last := by
  unfold State.nvmeAnswer
  rw [decide_eq_true good]
  dsimp only
  rw [write]
  rfl

theorem nvmeError_event (s : State) (m : Fin 2) (c : NvmeCmd) (status : Half) : EventFrame s (s.nvmeError m c status) := by
  unfold State.nvmeError
  extract_lets info counted
  have count : EventFrame s counted := (State.bump_frame _ _ _).trans (State.setReg_frame _ _ _)
  split
  · exact count
  · exact count.trans (magEvent_event _ _ _ _ _)

theorem nvmeAnswer_of_retry {c : NvmeCmd} {u : LogUnit} {last : Bool} {status : Half} (write : c.purpose = .write u last) (bad : nvmeCode status ≠ 0)
    (again : nvmeDnr status = false) (few : c.tries < 3) (data : List Byte) :
    s.nvmeAnswer m c status data = (s.nvmeError m c status).resubmit m c.cid := by
  unfold State.nvmeAnswer
  rw [decide_eq_false bad]
  dsimp only
  rw [write]
  exact (if_neg Bool.false_ne_true).trans (if_pos ⟨by rw [again]; rfl, few⟩)

theorem nvmeExpire_of_write {c : NvmeCmd} {u : LogUnit} {last : Bool} {cid : Nat} (found : (s.mag m).cmds.find? (fun y => y.cid = cid) = some c)
    (write : c.purpose = .write u last) (ready : (s.mag m).st = .ready) :
    ((s.nvmeExpire m cid).mag m).st = .failed ∧ ((s.nvmeExpire m cid).mag m).cmds = [] := by
  have event : EventFrame s ((s.bump (rMagTimeouts m.1) 1).orReg (rMagPortStat m.1) 0x4000) := (State.bump_frame _ _ _).trans (State.orReg_frame _ _ _)
  have still : (((s.bump (rMagTimeouts m.1) 1).orReg (rMagPortStat m.1) 0x4000).mag m).st ≠ .init := by
    rw [mag_event event, ready]
    decide
  unfold State.nvmeExpire
  rw [found]
  dsimp only
  rw [write]
  dsimp only
  rw [if_neg still, mag_magFail]
  exact ⟨rfl, rfl⟩

/-- Settles O39: a Write's completion by its status, its timeout, and what answers to nothing. -/
theorem nvmeOutcomes : Obligations.NvmeOutcomes := by
  intro m c u last cid status data addr s x found quiet
  refine ⟨fun held write good idle rolling => ?_, fun held write bad again few ready idle => ?_, fun held write ready =>
    ⟨_, rfl, nvmeExpire_of_write held write ready⟩, fun none => ⟨?_, ?_⟩, rfl, fun empty => ?_⟩
  · have own : c.cid = cid := by simpa using List.find?_some held
    obtain ⟨mags, take, sessions⟩ := writeDone_spec (s := s.dropCmd m c.cid) (m := m) rolling u last
    obtain ⟨mags', take'⟩ := playPump_idle (s := (s.dropCmd m c.cid).writeDone m u last) (by rw [State.session, sessions]; exact idle)
    have completes : s.nvmeComplete m cid status data = ((s.dropCmd m c.cid).writeDone m u last).playPump := by
      rw [nvmeComplete_of_write held write, nvmeAnswer_of_good write good]
    refine ⟨_, congrArg Host.Outcome.next completes, ?_, ?_⟩
    · rw [mag_congr mags', mag_congr mags, State.dropCmd, mag_modMag_same, own]
    · rw [take', take]
      exact rolling
  · have own : c.cid = cid := by simpa using List.find?_some held
    have event := nvmeError_event s m c status
    obtain ⟨mags, -⟩ := playPump_idle (s := (s.nvmeError m c status).resubmit m c.cid)
      (by rw [show ((s.nvmeError m c status).resubmit m c.cid).session 0 = vget (s.nvmeError m c status).sessions 0 from rfl, event.sessions]; exact idle)
    have completes : s.nvmeComplete m cid status data = ((s.nvmeError m c status).resubmit m c.cid).playPump := by
      rw [nvmeComplete_of_write held write, nvmeAnswer_of_retry write bad again few]
    refine ⟨_, congrArg Host.Outcome.next completes, ?_⟩
    rw [mag_congr mags, State.resubmit, mag_modMag_same, mag_event event, own]
    exact ⟨ready, rfl⟩
  · refine congrArg Host.Outcome.next ?_
    rw [State.nvmeComplete, none]
  · refine congrArg Host.Outcome.next ?_
    rw [State.nvmeExpire, none]
  · have unnamed : s.prpNamed m addr = false := by
      rw [State.prpNamed, show (s.mag m).cmds = [] from empty]
      rfl
    exact congrArg Host.Outcome.next (if_neg (by rw [unnamed]; decide))

end Outcomes

/-! #### Port states (O40) -/

section States
variable {s : State} {m : Fin 2}

theorem presenceLost_spec (s : State) (m : Fin 2) :
    let t := (((s.magPowerOff m).modMag m (fun p => { p with present := false, eject := .none })).magEvent m 2 stLink 0).magDown m .absent
    (t.mag m).st = .absent ∧ (t.mag m).cmds = [] ∧ (t.mag m).present = false ∧ (t.mag m).gate = false ∧ (t.mag m).perstN = false := by
  intro t
  have event := magEvent_event ((s.magPowerOff m).modMag m (fun p => { p with present := false, eject := .none })) m 2 stLink 0
  rw [show t.mag m = _ from mag_magDown _ m .absent, mag_event event, mag_modMag_same, State.magPowerOff, mag_modMag_same]
  exact ⟨rfl, rfl, rfl, rfl, rfl⟩

theorem ejectNoted_event (s : State) (m : Fin 2) : EventFrame s ((s.orReg (rMagPortStat m.1) 0x1000).magEvent m 6 stOk 0) :=
  (State.orReg_frame _ _ _).trans (magEvent_event _ _ _ _ _)

theorem usesMag_congr {t : State} (event : EventFrame s t) : t.usesMag m = s.usesMag m := by
  unfold State.usesMag State.takeMags State.arrangement State.hasActive State.active
  rw [event.banks]

theorem ejectEnd_of_shutdown (shutdown : (s.mag m).eject = .shutdown) : ((s.ejectEnd m).mag m).st = .failed ∧ ((s.ejectEnd m).mag m).cmds = [] ∧
    ((s.ejectEnd m).mag m).eject = .done ∧ ((s.ejectEnd m).mag m).gate = false := by
  rw [State.ejectEnd, if_pos shutdown, mag_magDown, mag_modMag_same, State.magPowerOff, mag_modMag_same]
  exact ⟨rfl, rfl, rfl, rfl⟩

/-- What MAG_EJECT makes of a port, after its event (R481). -/
def ejected (s : State) (m : Fin 2) : State :=
  let s := (s.orReg (rMagPortStat m.1) 0x1000).magEvent m 6 stOk 0
  let p := s.mag m
  if s.usesMag m ∨ p.eject ≠ .none ∨ p.st = .absent ∨ p.st = .fault then s
  else if p.st = .ready then (s.modMag m (fun p => { p with cmds := [] })).ejectNext m 0
  else s.modMag m (fun p => { p with eject := .shutdown, cmds := [] })

theorem ejected_of_ready (ready : (s.mag m).st = .ready) (none : (s.mag m).eject = .none) (free : s.usesMag m = false) (queues : 0 < (s.mag m).ioq) :
    ((ejected s m).mag m).eject = .deleting ∧ ((ejected s m).mag m).cmds.map (·.purpose) = [.deleteQueues] ∧ ((ejected s m).mag m).st = .ready := by
  have event := ejectNoted_event s m
  have own := mag_event event m
  have unused := usesMag_congr (m := m) event
  unfold ejected
  generalize (s.orReg (rMagPortStat m.1) 0x1000).magEvent m 6 stOk 0 = t at own unused
  dsimp only
  rw [unused, own, free, none, ready, if_neg (by simp), if_pos rfl, State.ejectNext]
  rw [mag_modMag_same, own, if_pos (show 0 < 2 * (s.mag m).ioq by omega), State.nvmeAdmin, mag_nvmeSubmit, mag_modMag_same, mag_modMag_same, own]
  exact ⟨rfl, rfl, ready⟩

/-- Settles O40: each step of a port by the state it is in. -/
theorem magazinePorts : Obligations.MagazinePorts := by
  refine ⟨?_, ?_⟩
  · intro m speed width mps mqes s x
    refine ⟨fun absent on => congrArg Host.Outcome.next (if_pos ⟨absent, on⟩), fun other => congrArg Host.Outcome.next (if_neg (fun both => other both.1)),
      fun powering => congrArg Host.Outcome.next (if_pos powering), fun other => congrArg Host.Outcome.next (if_neg other),
      fun training => congrArg Host.Outcome.next (if_pos training), fun training high fits => ?_, fun training high large => ?_,
      fun training low => congrArg Host.Outcome.next (if_neg (fun both => by rw [show (s.mag m).perstN = false from low] at both; exact absurd both.2 (by decide))),
      fun init two => ?_, fun init two => ?_⟩
    · exact congrArg Host.Outcome.next ((if_pos ⟨training, high⟩).trans (if_neg (by simp; omega)))
    · refine ⟨_, congrArg Host.Outcome.next ((if_pos ⟨training, high⟩).trans (if_pos (.inr large))), ?_⟩
      rw [mag_magRefuse]
    · refine ⟨_, congrArg Host.Outcome.next (if_pos ⟨init, two⟩), ?_⟩
      rw [State.nvmeAdmin, mag_nvmeSubmit, mag_modMag_same]
      exact ⟨rfl, List.map_append⟩
    · refine ⟨_, congrArg Host.Outcome.next (if_pos ⟨init, two⟩), ?_⟩
      rw [mag_magRefuse]
  · intro m s x goes
    have faults : ∀ {c : Prop} [Decidable c] (_ : c), ∃ t, (Host.Outcome.next (if c then s.magFault m else s) : Host.Outcome State Fault Refusal) = .next t ∧
        (t.mag m).st = .fault ∧ (t.mag m).cmds = [] := fun holds => ⟨_, congrArg Host.Outcome.next (if_pos holds), by rw [mag_magFault]; exact ⟨rfl, rfl⟩⟩
    have shut : x.gate = false → ¬ (s.mag m).gate = true := fun off on => absurd (off.symm.trans on) (by decide)
    refine ⟨fun powering => faults powering, fun other => congrArg Host.Outcome.next (if_neg other), fun on => faults on,
      fun off => ⟨congrArg Host.Outcome.next (if_neg (shut off)), congrArg Host.Outcome.next (if_neg (fun both => shut off both.1))⟩,
      fun on other => faults ⟨on, other⟩, fun powering => congrArg Host.Outcome.next (if_neg (fun both => both.2 powering)),
      fun training high => ?_, fun up => ?_, fun present => ?_, fun ready none free queues => ?_, fun used => ?_, fun shutdown => ?_,
      fun other => ⟨congrArg Host.Outcome.next (if_neg other), congrArg Host.Outcome.next (if_neg other)⟩⟩
    · refine ⟨_, congrArg Host.Outcome.next (if_pos ⟨training, high⟩), ?_⟩
      rw [mag_magFail]
      exact ⟨rfl, rfl⟩
    · refine ⟨_, congrArg Host.Outcome.next (if_pos up), ?_⟩
      rw [mag_magFail]
      exact ⟨rfl, rfl⟩
    · obtain ⟨st, cmds, gone, off, low⟩ := presenceLost_spec s m
      exact ⟨⟨_, congrArg Host.Outcome.next (if_neg present), st, cmds⟩, _, congrArg Host.Outcome.next (if_neg present), gone, off, low⟩
    · obtain ⟨ejecting, cmds, st⟩ := ejected_of_ready ready none free queues
      exact ⟨_, rfl, ejecting, cmds, st⟩
    · exact ⟨_, congrArg Host.Outcome.next (if_pos (.inl (by rw [usesMag_congr (ejectNoted_event s m)]; exact used))), (ejectNoted_event s m).mags⟩
    · have ends := ejectEnd_of_shutdown shutdown
      simp only [List.forall_mem_cons]
      exact ⟨⟨⟨_, rfl, ends.1, ends.2.1⟩, _, rfl, ends.2.2⟩, ⟨⟨_, rfl, ends.1, ends.2.1⟩, _, rfl, ends.2.2⟩, fun _ none => absurd none List.not_mem_nil⟩

end States

end Sys2Proof.Proofs.MagazinePortsAndLog

/-! ### Tile engines: dispatch, safe points, commits and faults (O41) -/

namespace Sys2Proof.Proofs.TileEngineSteps

open Sys2Proof.Machine Sys2Proof.Claims Sys2Proof.Proofs.Power Sys2Proof.Proofs.Counting Sys2Proof.Proofs.LedgerActions Sys2Proof.Proofs.MagazinePortsAndLog


/-! #### One engine's value -/

section Values
variable {s : State} (wf : mapWf engineReset s.engines) (j : Nat)
include wf

theorem setEngine_wf (x : Engine) : mapWf engineReset (s.setEngine j x).engines := mapWf_mapSet wf j x

theorem engine_setEngine (k : Nat) (x : Engine) : (s.setEngine j x).engine k = if k = j then x else s.engine k := mapGet_mapSet wf k j x

theorem engine_setEngine_same (x : Engine) : (s.setEngine j x).engine j = x := mapGet_mapSet_same wf j x

theorem engine_modEngine_same (f : Engine → Engine) : (s.modEngine j f).engine j = f (s.engine j) := mapGet_mapSet_same wf j _

end Values

theorem engine_congr {s t : State} (h : t.engines = s.engines) (j : Nat) : t.engine j = s.engine j := by rw [State.engine, State.engine, h]

/-! #### What the requests of a safe point leave of an engine -/

/-- Engine `e` stays idle where it was and in or out of service as it was; the take's state and the clusters are as before. -/
def Steady (e : Nat) (s t : State) : Prop :=
  t.take.st = s.take.st ∧ t.clusters = s.clusters ∧ (mapWf engineReset s.engines → mapWf engineReset t.engines ∧
    ((s.engine e).run = .idle → (t.engine e).run = .idle) ∧ (t.engine e).out = (s.engine e).out)

section Steadiness
variable {e : Nat} {s t u : State}

theorem Steady.of_same (st : t.take.st = s.take.st) (clusters : t.clusters = s.clusters) (engines : t.engines = s.engines) : Steady e s t := by
  refine ⟨st, clusters, fun wf => ⟨engines ▸ wf, ?_⟩⟩
  rw [engine_congr engines]
  exact ⟨id, rfl⟩

theorem Steady.refl (s : State) : Steady e s s := .of_same rfl rfl rfl

theorem Steady.trans (h : Steady e s t) (h' : Steady e t u) : Steady e s u := by
  obtain ⟨st, clusters, engines⟩ := h
  obtain ⟨st', clusters', engines'⟩ := h'
  refine ⟨st'.trans st, clusters'.trans clusters, fun wf => ?_⟩
  obtain ⟨wf1, idle, out⟩ := engines wf
  obtain ⟨wf2, idle', out'⟩ := engines' wf1
  exact ⟨wf2, idle' ∘ idle, out'.trans out⟩

theorem Steady.same (h : Steady e s t) (st : u.take.st = t.take.st) (clusters : u.clusters = t.clusters) (engines : u.engines = t.engines) : Steady e s u :=
  h.trans (.of_same st clusters engines)

theorem Steady.ite {a b : State} {c : Prop} [Decidable c] (ha : Steady e s a) (hb : Steady e s b) : Steady e s (if c then a else b) := by
  split
  · exact ha
  · exact hb

theorem Steady.event (h : Steady e s t) (event : EventFrame t u) : Steady e s u := h.same (by rw [event.take]) (by rw [event.1]) event.engines

theorem Steady.counted (h : Steady e s t) (counted : Counted t u) : Steady e s u :=
  h.same (by rw [counted.frame.take]) counted.frame.clusters counted.frame.engines

theorem Steady.foldl {β : Type} {f : State → β → State} (each : ∀ {t} b, Steady e s t → Steady e s (f t b)) (l : List β) (h : Steady e s t) :
    Steady e s (l.foldl f t) := foldl_keeps (Steady e s) f (fun _ b kept => each b kept) l t h

/-- A write of engine `j` that starts no routine and leaves its service as it is. -/
theorem Steady.set (h : Steady e s t) {j : Nat} {x : Engine} (run : (t.engine j).run = .idle → x.run = .idle) (out : x.out = (t.engine j).out) :
    Steady e s (t.setEngine j x) := by
  refine h.trans ⟨rfl, rfl, fun wf => ⟨setEngine_wf wf j x, ?_⟩⟩
  rw [engine_setEngine wf]
  split
  · next same => exact same ▸ ⟨run, out⟩
  · exact ⟨id, rfl⟩

theorem Steady.mod (h : Steady e s t) (j : Nat) {f : Engine → Engine} (run : ∀ x, x.run = .idle → (f x).run = .idle) (out : ∀ x, (f x).out = x.out) :
    Steady e s (t.modEngine j f) := h.set (run _) (out _)

theorem Steady.overrunBand (h : Steady e s t) (k n : Nat) : Steady e s (t.overrunBand k n) := by
  unfold State.overrunBand
  split
  · exact h
  · refine .ite h (Steady.same (t := (t.magsOf (t.ledgerOf k)).foldl (fun s m => s.bump (rMagBandOverrun m.1) 1) t) ?_ rfl rfl rfl)
    exact .foldl (fun _ kept => kept.event (State.bump_frame _ _ _)) _ h

theorem Steady.requeueTile (h : Steady e s t) (k n : Nat) : Steady e s (t.requeueTile k n) :=
  .ite (Steady.overrunBand (t := { t with tileQueue := (k, n) :: t.tileQueue }) (h.same rfl rfl rfl) k n) h

theorem Steady.abandonRun (h : Steady e s t) (j : Nat) : Steady e s (t.abandonRun j) := by
  unfold State.abandonRun
  extract_lets x t1
  have stopped : Steady e s t1 := h.set (fun _ => rfl) rfl
  split
  · exact stopped.requeueTile _ _
  · exact stopped.same rfl rfl rfl
  · exact stopped

theorem Steady.endAtOnce (h : Steady e s t) (j : Nat) : Steady e s (t.endAtOnce j) := by
  unfold State.endAtOnce
  extract_lets x t1
  have cleared : Steady e s (t.setEngine j { x with stop := false, preempt := none, fault := none }) := h.set id rfl
  have ended : Steady e s t1 := cleared.abandonRun j
  split
  · exact ended.requeueTile _ _
  · exact ended

theorem Steady.takeSnapshot (h : Steady e s t) (j : Nat) : Steady e s (t.takeSnapshot j) := by
  unfold State.takeSnapshot
  extract_lets x w t1
  have same : Steady e s { t1 with freeCount := t1.freeCount + 1 } := h.same rfl rfl rfl
  exact same.set id rfl

theorem Steady.haltEngine (h : Steady e s t) (j : Nat) : Steady e s (t.haltEngine j) := by
  unfold State.haltEngine
  extract_lets x t1
  have halted : Steady e s t1 := h.set id rfl
  split
  · exact halted.overrunBand _ _
  · exact halted

theorem Steady.lateRequests (h : Steady e s t) (j : Nat) : Steady e s (t.lateRequests j) := by
  unfold State.lateRequests
  extract_lets t1
  have shot : Steady e s t1 := .ite (h.takeSnapshot j) h
  exact .ite (shot.haltEngine j) shot

theorem Steady.atBoundary (h : Steady e s t) : t.atBoundary = s.atBoundary := by
  unfold State.atBoundary
  rw [h.1]

end Steadiness

/-! #### The end of a routine and an engine that leaves service -/

section Ends
variable {s : State} (wf : mapWf engineReset s.engines) (j : Nat)
include wf

theorem abandonRun_idle : ((s.abandonRun j).engine j).run = .idle := by
  unfold State.abandonRun
  extract_lets x t
  have idle : (t.engine j).run = .idle := by rw [engine_setEngine_same wf]
  have wf' : mapWf engineReset t.engines := setEngine_wf wf j _
  clear_value t
  split
  · exact ((Steady.requeueTile (.refl t) _ _).2.2 wf').2.1 idle
  · exact idle
  · exact idle

theorem endAtOnce_idle : ((s.endAtOnce j).engine j).run = .idle := by
  unfold State.endAtOnce
  extract_lets x t
  have wf' := setEngine_wf wf j { x with stop := false, preempt := none, fault := none }
  have idle : (t.engine j).run = .idle := abandonRun_idle wf' j
  have wf'' : mapWf engineReset t.engines := ((Steady.abandonRun (e := j) (.refl _) j).2.2 wf').1
  clear_value t
  split
  · exact ((Steady.requeueTile (.refl t) _ _).2.2 wf'').2.1 idle
  · exact idle

/-- Away from a take's boundary an engine only leaves service (R231, R516). -/
theorem engineOut_spec (f : EngineFault) (during : s.atBoundary = false) (idle : (s.engine j).run = .idle) :
    mapWf engineReset (s.engineOut j f).engines ∧ ((s.engineOut j f).engine j).out = some f ∧ ((s.engineOut j f).engine j).run = .idle := by
  unfold State.engineOut
  extract_lets t u
  have proposed : Steady j t u := .ite (Steady.counted (.refl t) (.propose .refl _ _ _ _)) (.refl t)
  have quiet : t.atBoundary = false := during
  rw [if_neg (by rw [proposed.atBoundary, quiet]; decide)]
  obtain ⟨wf', run, out⟩ := proposed.2.2 (setEngine_wf wf j _)
  have now : t.engine j = _ := engine_modEngine_same wf j _
  exact ⟨wf', out.trans (by rw [now]), run (by rw [now]; exact idle)⟩

end Ends

section Faults
variable {s : State} (wf : mapWf engineReset s.engines) (j : Nat) (during : s.atBoundary = false)
include wf during

/-- What a sequence fault makes of its engine (R231). -/
theorem ended_out (f : EngineFault) {t : State} (steady : Steady j s t) :
    ((((t.endAtOnce j).engineOut j f).lateRequests j).engine j).out = some f ∧
      ((((t.endAtOnce j).engineOut j f).lateRequests j).engine j).run = .idle := by
  obtain ⟨wf', -⟩ := steady.2.2 wf
  have ended : Steady j t (t.endAtOnce j) := Steady.endAtOnce (.refl t) j
  obtain ⟨wf2, -⟩ := ended.2.2 wf'
  obtain ⟨wf3, out, idle⟩ := engineOut_spec wf2 j f (by rw [ended.atBoundary, steady.atBoundary, during]) (endAtOnce_idle wf' j)
  obtain ⟨-, run', out'⟩ := (Steady.lateRequests (e := j) (.refl ((t.endAtOnce j).engineOut j f)) j).2.2 wf3
  exact ⟨out'.trans out, run' idle⟩

/-- A fault of a microword takes its engine out of service at once (R231). -/
theorem teFault_microword (f : EngineFault) (micro : f = .seq ∨ f = .reserved ∨ f = .stack ∨ f = .region ∨ f = .safeGap) :
    ((s.teFault j f).engine j).out = some f ∧ ((s.teFault j f).engine j).run = .idle := by
  have out : ∀ c w m, let t := ((s.engineEvent j c w (s.engine j).run.tile (s.engine j).run.pic).orReg (rTecStat m) 4)
      ((((t.endAtOnce j).engineOut j f).lateRequests j).engine j).out = some f ∧
        ((((t.endAtOnce j).engineOut j f).lateRequests j).engine j).run = .idle := fun c w m =>
    ended_out wf j during f (Steady.event (.event (.refl s) (State.raiseRec_frame _ _ _ _ _ _ _)) (State.orReg_frame _ _ _))
  rcases micro with rfl | rfl | rfl | rfl | rfl
  · exact out _ _ _
  · exact out _ _ _
  · exact out _ _ _
  · exact out _ _ _
  · exact out _ _ _

end Faults

/-- A parity error of a register is latched for the next safe point of a tile routine (R231). -/
theorem teFault_register {s : State} (wf : mapWf engineReset s.engines) {j k t : Nat} (run : (s.engine j).run = .capture k t)
    (sound : (s.engine j).fault = none) :
    ((s.teFault j .register).engine j).fault = some .register ∧ ((s.teFault j .register).engine j).run = .capture k t := by
  have after : ∀ {v : State}, EventFrame s v → ((v.latchFault j .register).engine j).fault = some .register ∧
      ((v.latchFault j .register).engine j).run = .capture k t := by
    intro v event
    have same : v.engine j = s.engine j := engine_congr event.engines j
    have wf' : mapWf engineReset v.engines := event.engines ▸ wf
    unfold State.latchFault
    rw [same, run]
    dsimp only
    rw [engine_modEngine_same wf', same, sound]
    exact ⟨rfl, run⟩
  exact after (State.raiseRec_frame _ _ _ _ _ _ _)

/-! #### Dispatch (R233) -/

section Dispatch
variable {s : State}

theorem tileDispatch_of_empty (h : s.tileQueue = []) : s.tileDispatch = s := by
  unfold State.tileDispatch
  rw [h]

theorem tileDispatch_of_front {k t : Nat} {q : List (Nat × Nat)} {p : Picture} (queue : s.tileQueue = (k, t) :: q) (pic : s.picOf k = some p)
    (whole : p.dropped = none) (ready : s.tileReady p t = true) :
    s.tileDispatch = match s.nextEngine with
      | none => s
      | some j => { s with tileQueue := q }.dispatchTo j p t := by
  unfold State.tileDispatch
  rw [queue]
  dsimp only
  rw [pic]
  dsimp only
  rw [whole, ready]
  rfl

theorem number_of_picOf {k : Nat} {p : Picture} (pic : s.picOf k = some p) : p.number = k := by
  simpa using List.find?_some pic

theorem beginCapture_of_pic {j k t : Nat} {p : Picture} (pic : s.picOf k = some p) : ∃ ok : List Bool,
    s.beginCapture j k t = s.modEngine j (fun x => { x with run := .capture k t, viewOk := ok, seq := x.seq.enter 0 }) := by
  unfold State.beginCapture
  rw [pic]
  exact ⟨_, rfl⟩

/-- An idle engine enters its capture routine (R233). -/
theorem dispatchTo_idle (wf : mapWf engineReset s.engines) {j t : Nat} {p : Picture} (pic : s.picOf p.number = some p) (idle : (s.engine j).run = .idle)
    (free : (s.engine j).halted = false) :
    let v := s.dispatchTo j p t
    v.tileQueue = s.tileQueue ∧ (v.engine j).run = .capture p.number t ∧ (v.engine j).seq = (s.engine j).seq.enter 0 ∧ v.take = s.take ∧
      v.dram = s.dram := by
  unfold State.dispatchTo
  extract_lets b e t1 t2 v
  have now : t1.engine j = { s.engine j with e := e, floorTile := p.floorBands.contains b } :=
    engine_modEngine_same (s := { s with lastEngine := (s.engine j).logical.getD s.lastEngine }) wf j _
  have wf1 : mapWf engineReset t1.engines := mapWf_mapSet wf j _
  have whole : t2 = t1 := if_neg (by rw [now, free]; decide)
  have running : (t2.engine j).run = .idle := by rw [whole, now, idle]
  obtain ⟨ok, began⟩ := beginCapture_of_pic (s := t1) (j := j) (t := t) pic
  have value : v = t1.modEngine j (fun x => { x with run := .capture p.number t, viewOk := ok, seq := x.seq.enter 0 }) := by
    rw [← began]
    show (match (t2.engine j).run with
      | .decode _ => _
      | .maint _ => _
      | _ => _) = _
    rw [running, whole]
  rw [value, engine_modEngine_same wf1, now]
  exact ⟨rfl, rfl, rfl, rfl, rfl⟩

end Dispatch

/-! #### Safe points (R226) -/

section SafePoints
variable {s : State} {j : Nat}

theorem latched_eq {x : Engine} (sound : x.fault = none) (preempt : x.preempt = none) (snapshot : x.snapshot = false) (halt : x.halt = false) :
    x.latched = x.stop := by
  simp [Engine.latched, sound, preempt, snapshot, halt]

theorem toSafePoint_nil {k t : Nat} (run : (s.engine j).run = .capture k t) :
    s.toSafePoint j [] = if !(s.engine j).halted && (s.engine j).latched && s.atSafePoint j then s.safePoint j else s := by
  unfold State.toSafePoint
  rw [run]
  rfl

theorem lateRequests_of_none (snapshot : (s.engine j).snapshot = false) (halt : (s.engine j).halt = false) : s.lateRequests j = s := by
  unfold State.lateRequests
  simp [snapshot, halt]

theorem safePoint_of_stop (wf : mapWf engineReset s.engines) {k t : Nat} (run : (s.engine j).run = .capture k t) (sound : (s.engine j).fault = none)
    (preempt : (s.engine j).preempt = none) (snapshot : (s.engine j).snapshot = false) (halt : (s.engine j).halt = false)
    (stop : (s.engine j).stop = true) : s.safePoint j = s.setEngine j { s.engine j with stop := false, run := .idle } := by
  have late := lateRequests_of_none (s := s.setEngine j { s.engine j with stop := false, run := .idle }) (j := j)
    (by rw [engine_setEngine_same wf]; exact snapshot) (by rw [engine_setEngine_same wf]; exact halt)
  dsimp only at late
  rw [sound, preempt] at late
  unfold State.safePoint
  dsimp only
  rw [run, sound, preempt, stop]
  exact late

end SafePoints

/-! #### The statistics snapshot (R237) -/

section Snapshot
variable {s : State}

theorem takeSnapshot_engine (wf : mapWf engineReset s.engines) (j k : Nat) :
    (s.takeSnapshot j).engine k = if k = j then { s.engine j with busy := 0, snapshot := false } else s.engine k := mapGet_mapSet wf k j _

theorem takeSnapshot_reg (wf : mapWf regReset s.regs) (j o : Nat) (other : o ≠ rTeSnapWait (j / 16) (j % 16)) :
    (s.takeSnapshot j).reg o = if o = rTeSnapBusy (j / 16) (j % 16) then BitVec.ofNat 32 (s.engine j).busy else s.reg o :=
  (State.reg_setReg_ne _ other _).trans (State.reg_setReg wf _ _ _)

theorem takeSnapshot_regs (wf : mapWf regReset s.regs) (j : Nat) : mapWf regReset (s.takeSnapshot j).regs :=
  mapWf_mapSet (mapWf_mapSet wf _ _) _ _

/-- The busy count of engine `j` in the snapshot's registers. -/
abbrev snapBusy (j : Nat) : Nat := rTeSnapBusy (j / 16) (j % 16)

theorem snapBusy_inj {j k : Nat} (h : snapBusy j = snapBusy k) : j = k := by
  unfold snapBusy rTeSnapBusy at h
  omega

theorem snapBusy_ne_wait (j k : Nat) : snapBusy j ≠ rTeSnapWait (k / 16) (k % 16) := by
  unfold snapBusy rTeSnapBusy rTeSnapWait
  omega

/-- Idle engines are snapshot one after the other: their counts go to their registers and start again (R237). -/
theorem foldl_snapshot (l : List Nat) (distinct : l.Nodup) (idle : ∀ j ∈ l, (s.engine j).run = .idle) (wf : mapWf engineReset s.engines)
    (regs : mapWf regReset s.regs) :
    let v := l.foldl (fun s j => s.snapshotEngine j) s
    (∀ j ∉ l, v.engine j = s.engine j ∧ v.reg (snapBusy j) = s.reg (snapBusy j)) ∧
      ∀ j ∈ l, (v.engine j).busy = 0 ∧ v.reg (snapBusy j) = BitVec.ofNat 32 (s.engine j).busy := by
  induction l generalizing s with
  | nil => exact ⟨fun _ _ => ⟨rfl, rfl⟩, fun _ mem => absurd mem List.not_mem_nil⟩
  | cons a l ih =>
    obtain ⟨fresh, distinct⟩ := List.nodup_cons.mp distinct
    have first : s.snapshotEngine a = s.takeSnapshot a := by
      unfold State.snapshotEngine
      rw [idle a List.mem_cons_self]
    have others : ∀ j, j ≠ a → (s.takeSnapshot a).engine j = s.engine j ∧ (s.takeSnapshot a).reg (snapBusy j) = s.reg (snapBusy j) := fun j ne =>
      ⟨(takeSnapshot_engine wf a j).trans (if_neg ne),
        (takeSnapshot_reg regs a _ (snapBusy_ne_wait j a)).trans (if_neg (fun same => ne (snapBusy_inj same)))⟩
    have ne : ∀ j ∈ l, j ≠ a := fun j mem same => fresh (same ▸ mem)
    obtain ⟨rest, done⟩ := ih (s := s.takeSnapshot a) distinct
      (fun j mem => by rw [(others j (ne j mem)).1]; exact idle j (List.mem_cons_of_mem a mem)) (mapWf_mapSet wf _ _) (takeSnapshot_regs regs a)
    simp only [List.foldl_cons, first]
    refine ⟨fun j out => ?_, fun j mem => ?_⟩
    · obtain ⟨outer, inner⟩ : j ≠ a ∧ j ∉ l := by simpa using out
      obtain ⟨engine, reg⟩ := rest j inner
      exact ⟨engine.trans (others j outer).1, reg.trans (others j outer).2⟩
    · rcases List.mem_cons.mp mem with rfl | later
      · obtain ⟨engine, reg⟩ := rest j fresh
        refine ⟨?_, ?_⟩
        · rw [engine, takeSnapshot_engine wf, if_pos rfl]
        · rw [reg]
          exact (takeSnapshot_reg regs j _ (snapBusy_ne_wait j j)).trans (if_pos rfl)
      · obtain ⟨busy, reg⟩ := done j later
        exact ⟨busy, by rw [reg, (others j (ne j later)).1]⟩

end Snapshot

/-! #### The hand-over of a tile (R139, R214) -/

/-- The take and the engines are as before. -/
def Apart (s t : State) : Prop := t.take = s.take ∧ t.engines = s.engines

section HandOver
variable {s t : State}

theorem Apart.trans {u : State} (h : Apart s t) (h' : Apart t u) : Apart s u := ⟨h'.1.trans h.1, h'.2.trans h.2⟩
theorem Apart.of_event (h : EventFrame s t) : Apart s t := ⟨h.take, h.engines⟩
theorem Apart.of_counted (h : Counted s t) : Apart s t := ⟨h.frame.take, h.frame.engines⟩
theorem Apart.of_post (h : PostFrame s t) : Apart s t := ⟨by rw [h], by rw [h]⟩

theorem Apart.ite {a b : State} {c : Prop} [Decidable c] (ha : Apart s a) (hb : Apart s b) : Apart s (if c then a else b) := by
  split
  · exact ha
  · exact hb

theorem foldl_apart {β : Type} {f : State → β → State} (each : ∀ s b, Apart s (f s b)) (l : List β) (s : State) : Apart s (l.foldl f s) :=
  foldl_keeps (Apart s) f (fun t b kept => kept.trans (each t b)) l s ⟨rfl, rfl⟩

theorem noteArea_counted (h : Counted s t) (a n : Nat) : Counted s (t.noteArea a n) := by
  unfold State.noteArea
  split
  · exact h.noteWords _ _ _
  · exact h

theorem noteAreas_counted (l : List (Nat × Nat)) : Counted s (s.noteAreas l) :=
  foldl_keeps (Counted s) _ (fun _ _ counted => noteArea_counted counted _ _) l s .refl

theorem sluOffer_apart (s : State) (f : Nat) (p : SluPacket) : Apart s (s.sluOffer f p) :=
  .ite (.of_event (((State.bump_frame s _ _).trans (State.orReg_frame _ _ _)).trans (State.raise_frame _ _))) ⟨rfl, rfl⟩

theorem writeSlotTile_apart (s : State) (i : Fin 16) (t : Nat) (l : List Half) : Apart s (s.writeSlotTile i t l) := by
  unfold State.writeSlotTile
  split
  · exact ⟨rfl, rfl⟩
  · exact foldl_apart (fun s _ => foldl_apart (fun s _ => .of_post (State.poke_post s _ _)) _ s) _ s

/-- The last two requests of a safe point leave the take to itself on an engine that holds no tile. -/
theorem lateRequests_take (wf : mapWf engineReset s.engines) {j : Nat} (idle : (s.engine j).run = .idle) : (s.lateRequests j).take = s.take := by
  unfold State.lateRequests
  extract_lets t
  have take : t.take = s.take := by
    unfold t
    split <;> rfl
  have still : (t.engine j).run = .idle := ((Steady.ite (Steady.takeSnapshot (.refl s) j) (.refl s)).2.2 wf).2.1 idle
  split
  · unfold State.haltEngine
    extract_lets x u
    rw [show x.run = .idle from still]
    exact take
  · exact take

theorem handOver_spec (wf : mapWf engineReset s.engines) (j : Nat) {p : Picture} (mem : p ∈ s.take.pics) (n : Nat) (v : TileEnv) (f : FinishedTile) :
    ((s.handOver j p n v f).engine j).run = .idle ∧
      ∃ y ∈ (s.handOver j p n v f).take.pics, y.number = p.number ∧ y.units.map (·.tile) = p.units.map (·.tile) ++ [n] := by
  unfold State.handOver
  extract_lets c u s1 s2 d whole s3
  have wf2 : mapWf engineReset s2.engines := mapWf_mapSet wf j _
  have idle2 : (s2.engine j).run = .idle :=
    congrArg Engine.run (engine_modEngine_same (s := s1) wf j (fun x => { x with run := .idle }))
  have sent : Apart s2 s3 := by
    unfold s3
    split
    · exact ⟨rfl, rfl⟩
    · extract_lets s4
      have slot : Apart s2 s4 := (writeSlotTile_apart s2 _ _ _).trans ⟨rfl, rfl⟩
      exact slot.trans (foldl_apart (fun s _ => sluOffer_apart s _ _) _ s4)
  have wf3 : mapWf engineReset s3.engines := sent.2 ▸ wf2
  have idle3 : (s3.engine j).run = .idle := by rw [engine_congr sent.2, idle2]
  refine ⟨((Steady.lateRequests (.refl s3) j).2.2 wf3).2.1 idle3, ?_⟩
  rw [lateRequests_take wf3 idle3, sent.1]
  refine ⟨{ p with units := p.units ++ [u], tilesOut := p.tilesOut.filter (fun x => x ≠ n) },
    List.mem_map.mpr ⟨p, mem, if_pos rfl⟩, rfl, List.map_append⟩

theorem mem_of_picOf {k : Nat} {p : Picture} (pic : s.picOf k = some p) : p ∈ s.take.pics := List.mem_of_find?_eq_some pic

theorem committed (wf : mapWf engineReset s.engines) {j k : Nat} {p : Picture} (pic : s.picOf k = some p) (apart : Apart s t) {F : Engine → Engine}
    (run : ∀ x, (F x).run = x.run) (n : Nat) (v : TileEnv) (f : FinishedTile) :
    (((t.modEngine j F).handOver j p n v f).engine j).run = .idle ∧ ∃ y ∈ ((t.modEngine j F).handOver j p n v f).take.pics,
      y.number = k ∧ y.units.map (·.tile) = p.units.map (·.tile) ++ [n] := by
  have mem : p ∈ (t.modEngine j F).take.pics := by
    rw [show (t.modEngine j F).take = s.take from apart.1]
    exact mem_of_picOf pic
  rw [← number_of_picOf pic]
  exact handOver_spec (setEngine_wf (apart.2 ▸ wf) j _) j mem n v f

theorem reported {c : Prop} [Decidable c] {j cause status n k : Nat} (h : Apart s t) :
    Apart s (if c then t.engineEvent j cause status n k else t) := .ite (h.trans (.of_event (State.raiseRec_frame t _ _ _ _ _ _))) h

theorem hold_run (src : List Half) (unit : List Byte) (recon : List Half) (regs : List Word) (x : Engine) :
    ((x.hold src unit recon).withChecks regs).run = x.run := rfl

section Commit
variable {j k n : Nat} {p : Picture} (cs : List BlockChoice) (raw : Bool) (run : (s.engine j).run = .capture k n) (pic : s.picOf k = some p)
include run pic

theorem tileCommit_of_missing (missing : s.tileArrived p n true = false) : s.tileCommit j cs raw = s := by
  unfold State.tileCommit
  dsimp only
  rw [run]
  dsimp only
  rw [pic]
  dsimp only
  rw [missing]
  exact if_pos (by simp)

/-- A commit is a hand-over after what it counts and reports, which leaves the take and the engine's routine (R137, R214). -/
theorem tileCommit_spec (wf : mapWf engineReset s.engines) (free : (s.engine j).halted = false) (stop : (s.engine j).stop = false)
    (sound : (s.engine j).fault = none) (whole : p.dropped = none) (arrived : s.tileArrived p n true = true) :
    ((s.tileCommit j cs raw).engine j).run = .idle ∧
      ∃ y ∈ (s.tileCommit j cs raw).take.pics, y.number = k ∧ y.units.map (·.tile) = p.units.map (·.tile) ++ [n] := by
  unfold State.tileCommit
  extract_lets x
  split
  case h_2 other => exact absurd run (other k n)
  next k' n' run' =>
  obtain ⟨rfl, rfl⟩ : k' = k ∧ n' = n := by simpa using run'.symm.trans run
  rw [pic]
  dsimp -zeta only
  rw [if_neg (by rw [free, stop, sound, whole, arrived]; decide)]
  extract_lets v kind missing src regs check cs' fetched badRef badSrc coded f t1 t2 t3 t4 t5
  have noted : Apart s t1 := .of_counted (noteAreas_counted _)
  have told : Apart s t3 := reported (reported noted)
  have apart : Apart s t4 := told.trans (foldl_apart (fun s _ => .of_event (State.raiseRec_frame s _ _ _ _ _ _)) _ t3)
  exact committed wf pic apart (F := fun x => (x.hold src f.unit (samplesOf f.planes)).withChecks regs) (hold_run _ _ _ _) _ _ _

end Commit

end HandOver

/-! #### Microwords that fault (R219, R231) -/

theorem siteWords_pair_clean {s : State} {site : Nat} {a b : Verdict} (ha : a = .clean) (hb : b = .clean) : s.siteWords site [a, b] = s :=
  State.siteWords_clean s site _ (by simp [ha, hb])

/-- Two sound halves leave nothing to count. -/
theorem noteStore_clean (s : State) (n : Nat) {vs : List Verdict} (clean : ∀ v ∈ vs, v = .clean) : s.noteStore n vs = s := by
  unfold State.noteStore
  extract_lets k t
  have none' : k = 0 := by
    have empty : vs.filter (·.corrected) = [] := List.filter_eq_nil_iff.mpr (fun v mem => by rw [clean v mem]; decide)
    simp [k, empty]
  rw [if_pos none']
  exact State.siteWords_clean s _ vs clean

section Upsets
variable {s : State} {j k n : Nat} (run : (s.engine j).run = .capture k n) (within : (s.engine j).out = none)
include run within

theorem teUpset_parity : s.teUpset j .parity = s.teFault j .register := by
  unfold State.teUpset
  rw [if_neg (by rw [run, within]; simp)]

theorem issueSteps_one (free : (s.engine j).halted = false) (m : MicroStep) : s.issueSteps j [m] = (s.issueStep j m).1 := by
  unfold State.issueSteps
  rw [if_neg (by rw [run, within, free]; simp)]
  exact ite_self _

theorem teUpset_issue (free : (s.engine j).halted = false) (m : MicroStep) : s.teUpset j (.issue [m]) = (s.issueStep j m).1 := by
  unfold State.teUpset
  rw [if_neg (by rw [run, within]; simp)]
  exact issueSteps_one run within free m

end Upsets

/-- What an issued microword comes to, by its outcome `i`. -/
def issued (s : State) (j : Nat) (m : MicroStep) : Issue → State × Bool
  | .fault f => (s.teFault j f, false)
  | .done => (s, false)
  | .hold => (s.modEngine j (fun x => { x with seq := { x.seq with gap := 0 } }), true)
  | .next q =>
    let w := Fetched s j
    let t := (s.modEngine j (fun y => { y with seq := q.act w m, units := actUnits y.units w m ((s.engine j).loads w m) })).tileAccess j w m
    (if mwEvt w = 0 then t else t.raiseRec (256 + j) (mwEvt w) (freeStatus (Config.unstated 26 (mwEvt w))) (s.engine j).run.tile (s.engine j).run.pic 0,
      true)

section Issuing
variable {s : State} {j : Nat} (m : MicroStep) (issues : Issues s j)
include issues

/-- A sound microword without a safe point to take does what its SEQ code says. -/
theorem issueStep_of_issues : s.issueStep j m =
    issued s j m (((s.engine j).seq.afterSafe (mwSafe (Fetched s j))).issue (Fetched s j)
      (s.fetchAddr (s.storeOf j) (s.engine j).seq.uaddr.toNat) m) := by
  obtain ⟨low, lower, upper, plain, tile, unlatched, gap⟩ := issues
  have halves : ∀ v ∈ [s.storeVerdict (s.storeOf j) (2 * s.fetchAddr (s.storeOf j) (s.engine j).seq.uaddr.toNat),
      s.storeVerdict (s.storeOf j) (2 * s.fetchAddr (s.storeOf j) (s.engine j).seq.uaddr.toNat + 1)], v = .clean := by simp [lower, upper]
  have short : (!mwSafe (Fetched s j) && decide (64 ≤ (s.engine j).seq.gap)) = false := by
    rcases gap with safe | few
    · simp [safe]
    · simp [Nat.not_le.mpr few]
  unfold State.issueStep
  dsimp only
  rw [if_neg (show ¬ storeEnd ≤ _ from Nat.not_le.mpr low), noteStore_clean s _ halves, if_neg (by simp [lower, upper, Verdict.bad]), plain, if_neg (by decide), unlatched, tile,
    if_neg (by simp), if_neg (by simpa using short)]
  split
  · next fault => rw [fault]; rfl
  · next done => rw [done]; rfl
  · next hold => rw [hold]; rfl
  · next go => rw [go]; rfl

end Issuing

theorem issue_of_undefined {q : Sequencer} {w : BitVec 256} {a : Nat} {m : MicroStep} (code : 9 ≤ mwSeq w) : q.issue w a m = .fault .seq := by
  unfold Sequencer.issue
  split
  case h_10 => rfl
  all_goals omega

/-- Settles O41: dispatch, safe points, snapshots, commits and faults of tile engines (R214, R226, R231-R233, R237). -/
theorem tileEngines : Obligations.TileEngines := by
  unfold Obligations.TileEngines
  intro p k t e n q m cs raw u steps s wf x
  have gives : ∀ {i : Instr} {t u : State}, exec i s = .next t → t = u → Gives i s u := fun run same => same ▸ run
  refine ⟨fun empty => ?_, fun queue pic whole ready => ⟨fun none' => ?_, fun next idle free => ?_⟩, fun idle => ⟨?_, ?_, ?_⟩,
    fun run free sound preempt snapshot halt => ⟨fun keep => ?_, fun stop safe => ?_⟩, fun idle regs => ?_,
    fun run free stop sound pic whole => ⟨fun missing => ?_, fun arrived => ?_⟩, fun run free within during => ⟨fun issues code => ?_, fun sound => ?_⟩⟩
  · exact gives rfl (tileDispatch_of_empty empty)
  · refine gives rfl (u := s) ?_
    rw [tileDispatch_of_front queue pic whole ready, none']
  · refine ⟨_, gives rfl ((tileDispatch_of_front queue pic whole ready).trans (by rw [next])), ?_⟩
    have front : p.number = k := number_of_picOf pic
    subst front
    exact dispatchTo_idle (s := { s with tileQueue := q }) wf pic idle free
  · refine gives rfl (u := s) ?_
    unfold State.toSafePoint
    rw [idle]
  · exact gives rfl (if_pos (.inl idle))
  · refine gives rfl (u := s) ?_
    unfold State.tileCommit
    dsimp only
    rw [idle]
  · refine gives rfl ((toSafePoint_nil run).trans (if_neg ?_))
    rw [latched_eq sound preempt snapshot halt]
    rcases keep with off | outside
    · simp [off]
    · simp [outside]
  · refine gives rfl ((toSafePoint_nil run).trans ((if_pos ?_).trans (safePoint_of_stop wf run sound preempt snapshot halt stop)))
    rw [latched_eq sound preempt snapshot halt, stop, safe, free]
    rfl
  · refine ⟨_, rfl, fun i lt => ?_⟩
    have cluster : ∀ j ∈ upFrom (16 * n.1) 16, (s.engine j).run = .idle := fun j mem => by
      obtain ⟨low, high⟩ := mem_upFrom.mp mem
      have at' := idle (j - 16 * n.1) (by omega)
      rwa [Nat.add_sub_cancel' low] at at'
    have distinct : (upFrom (16 * n.1) 16).Nodup := by
      rw [Coding.upFrom_eq_range']
      exact List.nodup_range'
    have taken := (foldl_snapshot (upFrom (16 * n.1) 16) distinct cluster wf regs).2 (16 * n.1 + i) (mem_upFrom.mpr ⟨by omega, by omega⟩)
    have busy : snapBusy (16 * n.1 + i) = rTeSnapBusy n.1 i := by
      unfold snapBusy
      congr 1 <;> omega
    rwa [busy] at taken
  · exact gives rfl (tileCommit_of_missing cs raw run pic missing)
  · exact ⟨_, rfl, tileCommit_spec cs raw run pic wf free stop sound whole arrived⟩
  · refine ⟨_, gives rfl (teUpset_issue run within free m), ?_⟩
    rw [issueStep_of_issues m issues, issue_of_undefined code]
    exact teFault_microword wf e.1 during .seq (.inl rfl)
  · refine ⟨_, gives rfl (teUpset_parity run within), teFault_register wf run sound⟩

end Sys2Proof.Proofs.TileEngineSteps

/-! ### Microwords of a tile routine (O42) -/

namespace Sys2Proof.Proofs.Microwords

open Sys2Proof.Machine Sys2Proof.Claims Sys2Proof.Proofs.Power Sys2Proof.Proofs.Counting Sys2Proof.Proofs.TileEngineSteps

/-! #### What SEQ makes of a microword (R219, R220) -/

section Seq
variable {q : Sequencer} {w : BitVec 256} {a : Nat} {m : MicroStep}

theorem runsOn_iff (low : a < 0x8400) : runsOn a = true ↔ a ≠ 0x7FFF ∧ a ≠ 0x81FF ∧ a ≠ 0x83FF := by
  simp only [runsOn, Bool.or_eq_true, Bool.and_eq_true, decide_eq_true_eq]
  unfold patchStart storeEnd
  omega

theorem follow_of_runsOn (on : runsOn a = true) : q.follow a = .next { q with uaddr := BitVec.ofNat 16 (a + 1) } := if_pos on

theorem issue_cont (seq : mwSeq w = 0) : q.issue w a m = q.follow a := by simp only [Sequencer.issue, seq]
theorem issue_jump (seq : mwSeq w = 1) : q.issue w a m = .next { q with uaddr := mwNext w } := by simp only [Sequencer.issue, seq]

theorem issue_branch (seq : mwSeq w = 2) (taken : (m.cond != mwPol w) = true) : q.issue w a m = .next { q with uaddr := mwNext w } := by
  simp only [Sequencer.issue, seq, taken, if_true]

theorem issue_call (seq : mwSeq w = 3) (room : q.stack.length < 8) :
    q.issue w a m = .next { q with uaddr := mwNext w, stack := BitVec.ofNat 16 (a + 1) :: q.stack } := by
  simp only [Sequencer.issue, seq, if_neg (Nat.not_le.mpr room)]

theorem issue_call_full (seq : mwSeq w = 3) (full : 8 ≤ q.stack.length) : q.issue w a m = .fault .stack := by
  simp only [Sequencer.issue, seq, if_pos full]

theorem issue_return {r : Half} {rest : List Half} (seq : mwSeq w = 4) (stack : q.stack = r :: rest) :
    q.issue w a m = .next { q with uaddr := r, stack := rest } := by
  simp only [Sequencer.issue, seq, stack]

theorem issue_return_empty (seq : mwSeq w = 4) (stack : q.stack = []) : q.issue w a m = .fault .stack := by
  simp only [Sequencer.issue, seq, stack]

theorem issue_loop (seq : mwSeq w = 5) (more : 1 < vgetN 0 q.loops (mwLctr w)) :
    q.issue w a m = .next { q with uaddr := mwNext w, loops := vsetN q.loops (mwLctr w) (vgetN 0 q.loops (mwLctr w) - 1) } := by
  have down : loopDown (vgetN 0 q.loops (mwLctr w)) = vgetN 0 q.loops (mwLctr w) - 1 := if_neg (by omega)
  simp only [Sequencer.issue, seq, down]
  exact if_pos (by omega)

theorem issue_dispatch (seq : mwSeq w = 6) : q.issue w a m = .next { q with uaddr := mwNext w + q.dispatch.setWidth 16 } := by
  simp only [Sequencer.issue, seq]

theorem issue_wait (seq : mwSeq w = 7) (held : (m.cond != mwPol w) = false) : q.issue w a m = .hold := by
  simp only [Sequencer.issue, seq, held, Bool.false_eq_true, if_false]

theorem issue_done (seq : mwSeq w = 8) : q.issue w a m = .done := by simp only [Sequencer.issue, seq]

end Seq

/-! #### One microword issued -/

section Issue
variable {s : State} {j k n : Nat} {m : MicroStep}

theorem tileAccess_idle (w : BitVec 256) (idle : mwTmop w = 0) : s.tileAccess j w m = s := by
  unfold State.tileAccess
  have noStore : (s.engine j).stores w = none := by simp [Engine.stores, idle]
  have noRead : tileReads (s.engine j).units w m = [] := by simp [tileReads, idle]
  simp [noStore, noRead]

theorem loads_idle (x : Engine) (w : BitVec 256) (idle : mwTmop w = 0) : x.loads w m = none := by simp [Engine.loads, idle]

section Run
variable (run : (s.engine j).run = .capture k n) (within : (s.engine j).out = none) (free : (s.engine j).halted = false)
include run within free

/-- With nothing latched a request to a safe point only issues its microwords. -/
theorem toSafePoint_one (unlatched : (((s.issueStep j m).1).engine j).latched = false) : s.toSafePoint j [m] = (s.issueStep j m).1 := by
  unfold State.toSafePoint
  rw [run]
  dsimp only
  rw [issueSteps_one run within free m, unlatched]
  exact if_neg (by simp)

variable (wf : mapWf engineReset s.engines) (issues : Issues s j)
include wf issues

/-- A word that goes on moves its sequencer and its units. -/
theorem toSafePoint_next (evt : mwEvt (Fetched s j) = 0) (tmop : mwTmop (Fetched s j) = 0) {r : Sequencer}
    (next : ((s.engine j).seq.afterSafe (mwSafe (Fetched s j))).issue (Fetched s j)
      (s.fetchAddr (s.storeOf j) (s.engine j).seq.uaddr.toNat) m = .next r) :
    s.toSafePoint j [m] = s.setEngine j { s.engine j with seq := r.act (Fetched s j) m, units := actUnits (s.engine j).units (Fetched s j) m none } := by
  have step : (s.issueStep j m).1 =
      s.setEngine j { s.engine j with seq := r.act (Fetched s j) m, units := actUnits (s.engine j).units (Fetched s j) m none } := by
    rw [issueStep_of_issues m issues, next]
    simp only [issued, evt, if_true, tileAccess_idle _ tmop, loads_idle _ _ tmop]
    rfl
  obtain ⟨-, -, -, -, -, unlatched, -⟩ := issues
  refine (toSafePoint_one run within free ?_).trans step
  rw [step, engine_setEngine_same wf]
  exact unlatched

/-- A word that WAIT holds is a safe point in each of its cycles (R225). -/
theorem toSafePoint_hold (hold : ((s.engine j).seq.afterSafe (mwSafe (Fetched s j))).issue (Fetched s j)
      (s.fetchAddr (s.storeOf j) (s.engine j).seq.uaddr.toNat) m = .hold) :
    s.toSafePoint j [m] = s.setEngine j { s.engine j with seq := { (s.engine j).seq with gap := 0 } } := by
  have step : (s.issueStep j m).1 = s.setEngine j { s.engine j with seq := { (s.engine j).seq with gap := 0 } } := by
    rw [issueStep_of_issues m issues, hold]
    rfl
  obtain ⟨-, -, -, -, -, unlatched, -⟩ := issues
  refine (toSafePoint_one run within free ?_).trans step
  rw [step, engine_setEngine_same wf]
  exact unlatched

omit wf in
/-- The routine's last word waits for the command of its outcome. -/
theorem toSafePoint_done (done : ((s.engine j).seq.afterSafe (mwSafe (Fetched s j))).issue (Fetched s j)
      (s.fetchAddr (s.storeOf j) (s.engine j).seq.uaddr.toNat) m = .done) : s.toSafePoint j [m] = s := by
  have step : (s.issueStep j m).1 = s := by
    rw [issueStep_of_issues m issues, done]
    rfl
  obtain ⟨-, -, -, -, -, unlatched, -⟩ := issues
  refine (toSafePoint_one run within free ?_).trans step
  rw [step]
  exact unlatched

end Run

/-! #### Words that fault -/

theorem issueStep_beyond (high : 0x8400 ≤ s.fetchAddr (s.storeOf j) (s.engine j).seq.uaddr.toNat) :
    s.issueStep j m = (s.teFault j .region, false) := by
  unfold State.issueStep
  exact if_pos high

section SoundHalves
variable (low : s.fetchAddr (s.storeOf j) (s.engine j).seq.uaddr.toNat < 0x8400)
  (lower : s.storeVerdict (s.storeOf j) (2 * s.fetchAddr (s.storeOf j) (s.engine j).seq.uaddr.toNat) = .clean)
  (upper : s.storeVerdict (s.storeOf j) (2 * s.fetchAddr (s.storeOf j) (s.engine j).seq.uaddr.toNat + 1) = .clean)
include low lower upper

theorem issueStep_reserved (reserved : mwReserved (Fetched s j) = true) : s.issueStep j m = (s.teFault j .reserved, false) := by
  unfold State.issueStep
  dsimp only
  rw [if_neg (show ¬ storeEnd ≤ _ from Nat.not_le.mpr low), noteStore_clean s _ (by simp [lower, upper]),
    if_neg (by simp [lower, upper, Verdict.bad]), if_pos reserved]

theorem issueStep_gap (plain : mwReserved (Fetched s j) = false) (tile : (s.engine j).seq.maint = false) (plainWord : mwSafe (Fetched s j) = false)
    (gap : 64 ≤ (s.engine j).seq.gap) : s.issueStep j m = (s.teFault j .safeGap, false) := by
  unfold State.issueStep
  dsimp only
  rw [if_neg (show ¬ storeEnd ≤ _ from Nat.not_le.mpr low), noteStore_clean s _ (by simp [lower, upper]),
    if_neg (by simp [lower, upper, Verdict.bad]), plain, if_neg (by decide), plainWord, tile, if_neg (by simp), if_pos (by simp [gap])]

end SoundHalves

end Issue

/-! #### An uncorrectable half -/

section Upset
variable {s : State}

theorem noteStore_steady (s : State) (j n : Nat) (v : Verdict) : Steady j s (s.noteStore n [v]) := by
  unfold State.noteStore
  extract_lets k t
  have counted : Steady j s t := Steady.counted (.refl s) (.siteWords .refl _ _)
  exact .ite counted ((counted.event (State.orReg_frame _ _ _)).event (State.bump_frame _ _ _))

theorem cluster_modCluster_same {n : Nat} (in' : n < 17) (f : Cluster → Cluster) : (s.modCluster n f).cluster n = f (s.cluster n) := by
  unfold State.modCluster State.cluster vgetN vmodN
  dsimp only
  rw [dif_pos in', dif_pos in', dif_pos in', vget_vmod_same]

/-- A write of a cluster that lends nothing. -/
theorem storeOf_modCluster (s : State) (n : Nat) {f : Cluster → Cluster} (own : ∀ c, (f c).lent = c.lent) (j : Nat) :
    (s.modCluster n f).storeOf j = s.storeOf j := by
  have lent : ((s.modCluster n f).cluster 15).lent = (s.cluster 15).lent := by
    by_cases same : n = 15
    · subst same
      rw [cluster_modCluster_same (by decide), own]
    · unfold State.modCluster State.cluster vgetN vmodN
      dsimp only
      rw [dif_pos (show 15 < 17 by decide), dif_pos (show 15 < 17 by decide)]
      split
      · next lt => rw [vget_vmod_ne _ (fun e => same (by simpa using (congrArg Fin.val e).symm))]
      · rfl
  rw [State.storeOf, lent, State.storeOf]

theorem foldl_ended {j : Nat} {l : List Nat} (wf : mapWf engineReset s.engines) (mem : j ∈ l) :
    ((l.foldl (fun s i => (s.endAtOnce i).lateRequests i) s).engine j).run = .idle := by
  have one : ∀ {t v : State} (i : Nat), Steady j t v → Steady j t ((v.endAtOnce i).lateRequests i) := fun i kept => (kept.endAtOnce i).lateRequests i
  obtain ⟨pre, post, rfl⟩ := List.append_of_mem mem
  have before : Steady j s (pre.foldl (fun s i => (s.endAtOnce i).lateRequests i) s) := .foldl one pre (.refl s)
  rw [List.foldl_append, List.foldl_cons]
  have wf1 := (before.2.2 wf).1
  generalize pre.foldl (fun s i => (s.endAtOnce i).lateRequests i) s = v at wf1
  have ended : Steady j v (v.endAtOnce j) := Steady.endAtOnce (.refl v) j
  have late : Steady j (v.endAtOnce j) ((v.endAtOnce j).lateRequests j) := Steady.lateRequests (.refl _) j
  have after : Steady j ((v.endAtOnce j).lateRequests j) (post.foldl (fun s i => (s.endAtOnce i).lateRequests i) ((v.endAtOnce j).lateRequests j)) :=
    .foldl one post (.refl _)
  exact ((late.trans after).2.2 (ended.2.2 wf1).1).2.1 (endAtOnce_idle wf1 j)

/-- A cluster that leaves service takes the routine of each engine that fetches from it with it (R231). -/
theorem clusterOut_spec (wf : mapWf engineReset s.engines) (during : s.atBoundary = false) {j n : Nat} (store : s.storeOf j = n) (lt : j < 272)
    (in' : n < 17) (f : EngineFault) : ((s.clusterOut n f).cluster n).out = some f ∧ ((s.clusterOut n f).engine j).run = .idle := by
  unfold State.clusterOut
  extract_lets t u
  have one : ∀ {v : State} (i : Nat), Steady j t v → Steady j t ((v.endAtOnce i).lateRequests i) := fun i kept => (kept.endAtOnce i).lateRequests i
  have steady : Steady j t u := .foldl one _ (.refl t)
  have idle : (u.engine j).run = .idle := by
    have mem : j ∈ allEngines.filter (fun j => t.storeOf j = n) := List.mem_filter.mpr ⟨mem_upFrom.mpr ⟨by omega, by omega⟩, decide_eq_true ((storeOf_modCluster s n (f := fun c => { c with out := some f }) (fun _ => rfl) j).trans store)⟩
    exact foldl_ended (s := t) wf mem
  have quiet : t.atBoundary = false := during
  rw [if_neg (by rw [steady.atBoundary, quiet]; decide)]
  refine ⟨?_, idle⟩
  rw [State.cluster, steady.2.1]
  exact congrArg Cluster.out (cluster_modCluster_same in' _)

/-- An uncorrectable word of a control store takes the whole cluster out (R231). -/
theorem teFault_uncorr (wf : mapWf engineReset s.engines) (during : s.atBoundary = false) {j n : Nat} (store : s.storeOf j = n) (lt : j < 272)
    (in' : n < 17) (f : EngineFault) (uncorr : f = .uncorrRom ∨ f = .uncorrRam) :
    ((s.teFault j f).cluster n).out = some f ∧ ((s.teFault j f).engine j).run = .idle := by
  have after : ∀ {v : State} (g : EngineFault), EventFrame s v → ((v.clusterOut n g).cluster n).out = some g ∧ ((v.clusterOut n g).engine j).run = .idle := by
    intro v g event
    have steady : Steady j s v := .event (.refl s) event
    refine clusterOut_spec (steady.2.2 wf).1 (steady.atBoundary.trans during) ?_ lt in' g
    rw [State.storeOf, State.cluster, steady.2.1]
    exact store
  have told : ∀ c w : Nat, EventFrame s (((s.engineEvent j c w (s.engine j).run.tile (s.engine j).run.pic).orReg (rTecStat n) 2).bump (rTecCsUncorr n) 1) :=
    fun _ _ => ((State.raiseRec_frame _ _ _ _ _ _ _).trans (State.orReg_frame _ _ _)).trans (State.bump_frame _ _ _)
  unfold State.teFault
  rw [store]
  rcases uncorr with rfl | rfl
  · exact after .uncorrRom (told _ _)
  · exact after .uncorrRam (told _ _)

/-- An uncorrectable half that is fetched takes its cluster out of service (R217, R231). -/
theorem fetchUpset_spec {e : Fin 272} {k t : Nat} {upper : Bool} {bits : BitVec 144} (wf : mapWf engineReset s.engines)
    (run : (s.engine e.1).run = .capture k t) (free : (s.engine e.1).halted = false) (within : (s.engine e.1).out = none) (during : s.atBoundary = false) :
    let n := s.storeOf e.1
    let a := s.fetchAddr n (s.engine e.1).seq.uaddr.toNat
    let half := 2 * a + if upper then 1 else 0
    a < 0x8400 → (verdict (((s.cluster n).store.upset half bits).syndrome half)).bad = true → n < 17 → ∃ v, Gives (.teFault e (.fetch upper bits)) s v ∧
      (v.cluster n).out = some (if a < 0x8000 then .uncorrRom else .uncorrRam) ∧ (v.engine e.1).run = .idle := by
  intro n a half low bad in'
  refine ⟨_, rfl, ?_⟩
  unfold State.teUpset
  dsimp -zeta only
  extract_lets x a' half' t1 v t2
  rw [if_neg (by rw [run, within]; simp), if_neg (show ¬ ((s.engine e.1).halted = true ∨ storeEnd ≤ a) by
    rw [free]
    exact not_or.mpr ⟨Bool.false_ne_true, Nat.not_le.mpr low⟩)]
  have counted : Steady e.1 t1 t2 := noteStore_steady t1 e.1 n v
  clear_value t2
  have seen : v.bad = true := by
    rw [show v = verdict ((t1.cluster n).store.syndrome half) from rfl, show t1.cluster n = _ from cluster_modCluster_same in' (fun c => { c with store := c.store.upset half bits })]
    exact bad
  rw [if_pos seen]
  have store : t1.storeOf e.1 = n := storeOf_modCluster s n (f := fun c => { c with store := c.store.upset half bits }) (fun _ => rfl) e.1
  have store2 : t2.storeOf e.1 = n := by
    rw [State.storeOf, State.cluster, counted.2.1]
    exact store
  have wf1 : mapWf engineReset t1.engines := wf
  have quiet : t2.atBoundary = false := counted.atBoundary.trans during
  have spec := teFault_uncorr (counted.2.2 wf1).1 quiet store2 e.2 in'
  exact spec _ (ite_eq_or_eq _ _ _)

end Upset

/-- Settles O42: a microword by its SEQ code and its unit fields, and the microcode faults (R217-R221, R225, R231). -/
theorem microwordIssue : Obligations.MicrowordIssue := by
  unfold Obligations.MicrowordIssue
  intro k t e m upper bits s wf x n a w half q goes faults count run free within tile during
  have gives : ∀ {i : Instr} {t u : State}, exec i s = .next t → t = u → Gives i s u := fun run same => same ▸ run
  have gone : ∀ {r : Sequencer}, Issues s e.1 → mwEvt w = 0 → mwTmop w = 0 → q.issue w a m = .next r → goes r :=
    fun issues evt tmop next => gives rfl (toSafePoint_next run within free wf issues evt tmop next)
  have failed : ∀ {f : EngineFault}, f = .seq ∨ f = .reserved ∨ f = .stack ∨ f = .region ∨ f = .safeGap → s.issueStep e.1 m = (s.teFault e.1 f, false) →
      faults f := fun {f} micro step => ⟨_, gives rfl ((teUpset_issue run within free m).trans (congrArg Prod.fst step)),
    teFault_microword wf e.1 during f micro⟩
  have issuedFault : ∀ {f : EngineFault}, Issues s e.1 → q.issue w a m = .fault f → s.issueStep e.1 m = (s.teFault e.1 f, false) :=
    fun {f} issues fault => (issueStep_of_issues m issues).trans (congrArg (issued s e.1 m) fault)
  refine ⟨fun issues evt tmop => ⟨fun seq h1 h2 h3 => ?_, fun seq => ?_, fun seq taken => ?_, fun seq room => ?_, fun r rest seq stack => ?_,
    fun seq more => ?_, fun seq => ?_, fun seq held => ?_, fun seq => ?_⟩, fun issues => ⟨fun bad => ?_, fun seq ends => ?_⟩, fun high => ?_,
    fun low lower upper => ⟨fun reserved => ?_, fun plain plainWord gap => ?_⟩, fun low bad in' => ?_⟩
  · exact gone issues evt tmop ((issue_cont seq).trans (follow_of_runsOn ((runsOn_iff issues.1).mpr ⟨h1, h2, h3⟩)))
  · exact gone issues evt tmop (issue_jump seq)
  · exact gone issues evt tmop (issue_branch seq taken)
  · exact gone issues evt tmop (issue_call seq room)
  · exact gone issues evt tmop (issue_return seq stack)
  · exact gone issues evt tmop (issue_loop seq more)
  · exact gone issues evt tmop (issue_dispatch seq)
  · exact gives rfl (toSafePoint_hold run within free wf issues (issue_wait seq held))
  · exact gives rfl (toSafePoint_done run within free issues (issue_done seq))
  · refine failed (by simp) (issuedFault issues ?_)
    rcases bad with ⟨seq, full⟩ | ⟨seq, empty⟩
    · exact issue_call_full seq full
    · exact issue_return_empty seq empty
  · refine failed (by simp) (issuedFault issues ((issue_cont seq).trans (if_neg ?_)))
    rw [runsOn_iff issues.1]
    rintro ⟨h1, h2, h3⟩
    rcases ends with e1 | e2 | e3
    · exact h1 e1
    · exact h2 e2
    · exact h3 e3
  · exact failed (by simp) (issueStep_beyond high)
  · exact failed (by simp) (issueStep_reserved low lower upper reserved)
  · exact failed (by simp) (issueStep_gap low lower upper plain tile plainWord gap)
  · exact fetchUpset_spec wf run free within during low bad in'

end Sys2Proof.Proofs.Microwords

/-! ### Registers that no count and no completion writes: those of the tile clusters and the sizes of the rings (R277, R305, R328) -/

namespace Sys2Proof.Proofs.ClusterRegisters

open Sys2Proof.Machine Sys2Proof.Proofs.Completions

/-- `o` is the offset of a register of a tile cluster, or of a ring's TAB_CMD_SIZE. -/
abbrev UncountedReg (o : Nat) : Prop := (0x100000 ≤ o ∧ o < 0x210000) ∨ (0x300108 ≤ o ∧ o < 0x3001CC ∧ o % 64 = 8)

/-- Every such register is as before. -/
def SameRegs (s t : State) : Prop := ∀ o, UncountedReg o → t.reg o = s.reg o

theorem SameRegs.refl (s : State) : SameRegs s s := fun _ _ => rfl

theorem SameRegs.trans {s t u : State} (h : SameRegs s t) (h' : SameRegs t u) : SameRegs s u := fun o own => (h' o own).trans (h o own)

section Steps
variable {s t : State} (h : SameRegs s t)
include h

theorem SameRegs.same {u : State} (regs : u.regs = t.regs) : SameRegs s u := h.trans fun o _ => congrArg (mapGet regReset · o) regs

theorem SameRegs.reg {o : Nat} (other : ¬ UncountedReg o) (w : Word) : SameRegs s (t.setReg o w) :=
  h.trans fun p own => State.reg_setReg_ne t (show p ≠ o from fun e => other (e ▸ own)) w

theorem SameRegs.or {o : Nat} (other : ¬ UncountedReg o) (m : Word) : SameRegs s (t.orReg o m) := h.reg other _
theorem SameRegs.bump {o : Nat} (other : ¬ UncountedReg o) (n : Nat) : SameRegs s (t.bump o n) := h.reg other _

theorem SameRegs.raised (k : Nat) : SameRegs s (t.raise k) :=
  h.trans fun o own => reg_raise t k (fun e => by rw [e] at own; exact absurd own (by decide))

theorem SameRegs.ite {a : State} {c : Prop} [Decidable c] (ha : SameRegs s a) : SameRegs s (if c then a else t) := by
  split
  · exact ha
  · exact h

theorem SameRegs.els {a : State} {c : Prop} [Decidable c] (ha : SameRegs s a) : SameRegs s (if c then t else a) := by
  split
  · exact h
  · exact ha

theorem SameRegs.threshold : SameRegs s t.threshold := (h.or (by decide) 4).raised 13

theorem SameRegs.siteWords (site : Nat) (vs : List Verdict) : SameRegs s (t.siteWords site vs) := by
  have counted : SameRegs s (t.countSite site vs) := by
    unfold State.countSite
    extract_lets c u t1
    have corrected : SameRegs s t1 := h.els (h.bump (by unfold rRasWcCorr; omega) _)
    exact corrected.els (corrected.bump (by unfold rRasWcUncorr; omega) _)
  unfold State.siteWords
  extract_lets c u t1 hr base old t2 t3
  have kept : SameRegs s t2 := SameRegs.els (t := t1) counted (counted.same rfl)
  have limited : SameRegs s t3 := kept.ite kept.threshold
  exact limited.els limited.threshold

theorem SameRegs.enter (p : Proposal) : SameRegs s (t.enter p) := by
  unfold State.enter
  split
  · exact (h.same (u := t.modRas _) rfl).or (by decide) _
  · exact (h.same (u := t.modRas _) rfl).raised 14

theorem SameRegs.propose (kind target reason info : Nat) : SameRegs s (t.propose kind target reason info) := by
  unfold State.propose
  extract_lets p
  exact h.els (((h.enter p).ite h.threshold).ite (h.same (u := t.modRas _) rfl))

theorem SameRegs.noteDramWord (a : Nat) (v : Verdict) : SameRegs s (t.noteDramWord a v) := by
  unfold State.noteDramWord
  extract_lets c phy t1
  have channel : c < 32 := KalsalTime.chanOf_lt t a
  have corrected : SameRegs s t1 := by
    refine h.ite ?_
    have counted : SameRegs s (t.bump (rMcChCorr c) 1) := h.bump (by unfold rMcChCorr; omega) 1
    unfold State.dramCorrected
    split
    · exact counted
    · extract_lets t2
      have listed : SameRegs s t2 := counted.same rfl
      exact listed.ite (listed.propose _ _ _ _)
  have low : ∀ {o : Nat}, o < 0x100000 → ¬ UncountedReg o := fun lt own => by unfold UncountedReg at own; omega
  have counted : SameRegs s (t1.bump (rMcChUncorr c) 1) := corrected.bump (low (by unfold rMcChUncorr; omega)) 1
  have latched : SameRegs s ((t1.bump (rMcChUncorr c) 1).setReg64 (rMcChLastUncorr c) (BitVec.ofNat 64 phy)) :=
    (counted.reg (low (by unfold rMcChLastUncorr; omega)) _).reg (low (by unfold rMcChLastUncorr; omega)) _
  exact corrected.ite (((latched.or (by decide) _).raised 32).propose _ _ _ _)

theorem SameRegs.noteSramWord (site i : Nat) (v : Verdict) : SameRegs s (t.noteSramWord site i v) := by
  unfold State.noteSramWord
  extract_lets t1
  have corrected : SameRegs s t1 := by
    refine h.ite ?_
    unfold State.sramCorrected
    extract_lets old t2 alike t3
    have listed : SameRegs s t2 := h.same rfl
    have rows : SameRegs s t3 := listed.ite (listed.propose _ _ _ _)
    exact listed.els (rows.ite (rows.propose _ _ _ _))
  exact corrected.ite (corrected.propose _ _ _ _)

theorem SameRegs.noteWords (id : StoreId) (a n : Nat) : SameRegs s (t.noteWords id a n) := by
  unfold State.noteWords
  extract_lets m
  refine foldl_keeps (SameRegs s) _ (fun u i kept => ?_) _ _ (h.siteWords _ _)
  cases id
  · exact kept.noteDramWord _ _
  · exact kept.noteSramWord _ _ _
  · exact kept.noteSramWord _ _ _
  · exact kept

theorem SameRegs.ctlSync (a n : Nat) (drop : Bool) : SameRegs s (t.ctlSync a n drop) := by
  unfold State.ctlSync
  extract_lets lines t1 keep
  refine h.els ?_
  exact foldl_keeps (SameRegs s) _ (fun u k kept => kept.same (u := u.modCore _ _) (State.modCore_regs u _ _)) _ _ (h.same rfl)

theorem SameRegs.writeStore (id : StoreId) (a : Nat) (b : List Byte) : SameRegs s (t.writeStore id a b) := by
  unfold State.writeStore
  extract_lets t1
  have counted : SameRegs s t1 := foldl_keeps (SameRegs s) _ (fun u i kept => kept.noteWords id _ _) _ _ h
  cases id <;> exact counted.same rfl

theorem SameRegs.poke (a : Nat) (b : List Byte) : SameRegs s (t.poke a b) := by
  unfold State.poke
  split
  · exact h
  · exact (h.ctlSync _ _ _).writeStore _ _ _
  · exact h

theorem SameRegs.writeCompletion (c : Completion) : SameRegs s (t.writeCompletion c) := by
  unfold State.writeCompletion
  extract_lets k n tail phase t1 t2
  have written : SameRegs s t2 := (h.poke _ _).same rfl
  exact (written.reg (by unfold rTabCplTail; omega) _).raised _

theorem SameRegs.post (p : PendingCmd) (status : Nat) (final : Bool) (value : DWord) : SameRegs s (t.post p status final value) := by
  unfold State.post
  extract_lets t1 t2
  have refused : SameRegs s t1 := h.ite (h.bump (by unfold rTabRingStateCnt; omega) _)
  have judged : SameRegs s t2 := refused.ite (refused.bump (by unfold rTabRingBadargCnt; omega) _)
  unfold State.postEntry
  exact judged.els ((judged.writeCompletion _).ite (judged.same rfl))

end Steps

end Sys2Proof.Proofs.ClusterRegisters

/-! ### Maintenance routines and the upkeep of reference slots (O43) -/

namespace Sys2Proof.Proofs.Maintenance

open Sys2Proof.Machine Sys2Proof.Claims Sys2Proof.Proofs.Power Sys2Proof.Proofs.Counting Sys2Proof.Proofs.TileEngineSteps Sys2Proof.Proofs.Microwords
  Sys2Proof.Proofs.ClusterRegisters

/-! #### The end of a maintenance routine -/

/-- A write of one engine that keeps its number, its retirement and its service, and of the snapshot's registers. -/
def Ended (s t : State) : Prop :=
  t = { s with engines := t.engines, regs := t.regs, freeCount := t.freeCount } ∧ t.reg rKeyLock = s.reg rKeyLock ∧
    (mapWf regReset s.regs → mapWf regReset t.regs) ∧ (mapWf engineReset s.engines → mapWf engineReset t.engines ∧
      ∀ k, (t.engine k).logical = (s.engine k).logical ∧ ((s.engine k).run = .idle → (t.engine k).run = .idle))

theorem Ended.refl (s : State) : Ended s s := ⟨rfl, rfl, id, fun wf => ⟨wf, fun _ => ⟨rfl, id⟩⟩⟩

theorem Ended.trans {s t u : State} (h : Ended s t) (h' : Ended t u) : Ended s u := by
  obtain ⟨frame, lock, regs, engines⟩ := h
  obtain ⟨frame', lock', regs', engines'⟩ := h'
  refine ⟨Eq.trans frame' (by rw [frame]), lock'.trans lock, regs' ∘ regs, fun wf => ?_⟩
  obtain ⟨wf1, each⟩ := engines wf
  obtain ⟨wf2, each'⟩ := engines' wf1
  exact ⟨wf2, fun k => ⟨(each' k).1.trans (each k).1, (each' k).2 ∘ (each k).2⟩⟩

section Ending
variable {s t : State}

theorem Ended.set (s : State) {j : Nat} {x : Engine} (logical : x.logical = (s.engine j).logical) (run : (s.engine j).run = .idle → x.run = .idle) :
    Ended s (s.setEngine j x) := by
  refine ⟨rfl, rfl, id, fun wf => ⟨setEngine_wf wf j x, fun k => ?_⟩⟩
  rw [engine_setEngine wf]
  split
  · next same => exact same ▸ ⟨logical, run⟩
  · exact ⟨rfl, id⟩

theorem takeSnapshot_ended (s : State) (j : Nat) : Ended s (s.takeSnapshot j) := by
  have other : ∀ n k, rKeyLock ≠ rTeSnapBusy n k ∧ rKeyLock ≠ rTeSnapWait n k := fun n k => by
    unfold rKeyLock rTeSnapBusy rTeSnapWait
    omega
  unfold State.takeSnapshot
  extract_lets x w t
  have counted : Ended s { t with freeCount := t.freeCount + 1 } :=
    ⟨rfl, (State.reg_setReg_ne _ (other _ _).2 _).trans (State.reg_setReg_ne s (other _ _).1 _), fun wf => mapWf_mapSet (mapWf_mapSet wf _ _) _ _,
      fun wf => ⟨wf, fun _ => ⟨rfl, id⟩⟩⟩
  exact counted.trans (.set _ rfl id)

theorem lateRequests_ended (wf : mapWf engineReset s.engines) {j : Nat} (idle : (s.engine j).run = .idle) : Ended s (s.lateRequests j) := by
  unfold State.lateRequests
  extract_lets t
  have shot : Ended s t := by
    unfold t
    split
    · exact takeSnapshot_ended s j
    · exact .refl s
  have still : (t.engine j).run = .idle := ((shot.2.2.2 wf).2 j).2 idle
  split
  · unfold State.haltEngine
    extract_lets x u
    rw [show x.run = .idle from still]
    exact shot.trans (.set t rfl id)
  · exact shot

theorem maintDone_ended (wf : mapWf engineReset s.engines) (j : Nat) : Ended s (s.maintDone j) ∧ ((s.maintDone j).engine j).run = .idle := by
  have idle : ((s.modEngine j (fun x => { x with run := .idle })).engine j).run = .idle := congrArg Engine.run (engine_modEngine_same wf j _)
  have free : Ended s (s.modEngine j (fun x => { x with run := .idle })) := .set s rfl (fun _ => rfl)
  have wf1 := (free.2.2.2 wf).1
  have late := lateRequests_ended wf1 idle
  exact ⟨free.trans late, ((late.2.2.2 wf1).2 j).2 idle⟩

theorem Ended.clusters (h : Ended s t) : t.clusters = s.clusters := by rw [h.1]
theorem Ended.slots (h : Ended s t) : t.slots = s.slots := by rw [h.1]
theorem Ended.cluster (h : Ended s t) (n : Nat) : t.cluster n = s.cluster n := by rw [State.cluster, State.cluster, h.clusters]

end Ending

/-! #### Its start (R230) -/

section Start
variable {s : State} {j : Nat}

theorem maintStart_of_out (out : s.engineUp j = false) : s.maintStart j = s := by
  unfold State.maintStart
  exact if_pos (by simp [out])

variable (up : s.engineUp j = true) (idle : (s.engine j).run = .idle) (free : (s.engine j).halted = false)
include up idle free

theorem maintStart_of_none (none' : s.maintQueue = []) : s.maintStart j = s.setEngine j { s.engine j with
    run := .maint { kind := .scrub, abandoned := 0, guarded := false }, seq := (s.engine j).seq.enter 4 } := by
  unfold State.maintStart
  dsimp only
  rw [if_neg (by simp [up, idle, free]), none']
  rfl

theorem maintStart_of_front {r : MaintReq} {rest : List MaintReq} (queue : s.maintQueue = r :: rest) (may : s.runnable j r = true) :
    s.maintStart j = { s with maintQueue := rest }.setEngine j { s.engine j with
      run := .maint { r with guarded := decide (8 ≤ r.abandoned) }, seq := (s.engine j).seq.enter r.kind.routine } := by
  have first : (s.maintQueue.zip (upFrom 0 s.maintQueue.length)).find? (fun a : MaintReq × Nat => s.runnable j a.1) = some (r, 0) := by
    rw [queue]
    exact List.find?_cons_of_pos may
  unfold State.maintStart
  dsimp only
  rw [if_neg (by simp [up, idle, free]), first, queue]
  rfl

end Start

/-! #### The commit of a patch load (R224) -/

theorem cluster_modCluster_ne (s : State) {n c : Nat} (ne : c ≠ n) (f : Cluster → Cluster) : (s.modCluster n f).cluster c = s.cluster c := by
  unfold State.modCluster State.cluster vgetN vmodN
  split
  · split
    · next lt => exact vget_vmod_ne _ (fun e => ne (congrArg Fin.val e)) _
    · rfl
  · rfl

theorem rTecMatch_inj {n k m j : Nat} (hk : k < 64) (hj : j < 64) (h : rTecMatch n k = rTecMatch m j) : n = m ∧ k = j := by
  unfold rTecMatch at h
  omega

theorem uncountedReg_match {n k : Nat} (hn : n < 17) (hk : k < 64) : UncountedReg (rTecMatch n k) := by
  unfold rTecMatch
  exact .inl ⟨by omega, by omega⟩

theorem vgetN_foldl_vsetN {α : Type} (d : α) (w : Nat → α) {n j : Nat} (lt : j < n) (l : List Nat) (v : Vector α n) :
    vgetN d (l.foldl (fun v k => vsetN v k (w k)) v) j = if j ∈ l then w j else vgetN d v j := by
  induction l generalizing v with
  | nil => simp
  | cons a l ih =>
    rw [List.foldl_cons, ih]
    by_cases same : j = a
    · subst same
      simp [vgetN_vsetN_same d v lt]
    · simp [same, vgetN_vsetN_ne d v same]

section Patch
variable {s : State}

/-- Writes of one match register after the other. -/
theorem foldl_match (n : Nat) (w : Nat → Word) (l : List Nat) (wf : mapWf regReset s.regs) (low : ∀ k ∈ l, k < 64) :
    let v := l.foldl (fun s k => s.setReg (rTecMatch n k) (w k)) s
    v = { s with regs := v.regs } ∧ mapWf regReset v.regs ∧ (∀ k ∈ l, v.reg (rTecMatch n k) = w k) ∧
      ∀ o, (∀ k ∈ l, o ≠ rTecMatch n k) → v.reg o = s.reg o := by
  induction l generalizing s with
  | nil => exact ⟨rfl, wf, fun _ mem => absurd mem List.not_mem_nil, fun _ _ => rfl⟩
  | cons a l ih =>
    obtain ⟨frame, wf', done, others⟩ := ih (s := s.setReg (rTecMatch n a) (w a)) (mapWf_mapSet wf _ _) (fun k mem => low k (.tail a mem))
    rw [List.foldl_cons]
    refine ⟨frame, wf', fun k mem => ?_, fun o out => ?_⟩
    · by_cases later : k ∈ l
      · exact done k later
      · obtain rfl : k = a := (List.mem_cons.mp mem).resolve_right later
        rw [others _ (fun m mem' same => later ((rTecMatch_inj (low k mem) (low m (.tail k mem')) same).2 ▸ mem')), State.reg_setReg wf, if_pos rfl]
    · rw [others o (fun k mem => out k (.tail a mem)), State.reg_setReg_ne s (out a (.head l))]

/-- The match registers' contents in a patch image. -/
def matchOf (b : List Byte) (k : Nat) : Word := BitVec.ofNat 32 (leAt b (16 + 4 * k) 4) &&& 0x81FF7FFF

/-- The shadow registers stand while they are copied. -/
theorem foldl_shadow (n : Nat) (l : List Nat) (c : Cluster) (same : s.cluster n = c) :
    l.foldl (fun s k => s.setReg (rTecMatch n k) (vgetN 0 (s.cluster n).shadow k)) s =
      l.foldl (fun s k => s.setReg (rTecMatch n k) (vgetN 0 c.shadow k)) s := by
  induction l generalizing s with
  | nil => rfl
  | cons a l ih =>
    rw [List.foldl_cons, List.foldl_cons, same]
    exact ih same

/-- What a patch load writes before its commit: no page turns, and the shadow registers hold the image's. -/
theorem patchShadow_spec {n : Nat} (b : List Byte) (lt : n < 17) :
    ((s.patchShadow n b).cluster n).page = (s.cluster n).page ∧ ∀ k < 64, vgetN 0 ((s.patchShadow n b).cluster n).shadow k = matchOf b k := by
  have shadowed : (s.patchShadow n b).cluster n = _ := cluster_modCluster_same lt _
  rw [shadowed]
  refine ⟨rfl, fun k hk => ?_⟩
  exact (vgetN_foldl_vsetN 0 (matchOf b) hk (upFrom 0 64) _).trans (if_pos (mem_upFrom.mpr ⟨Nat.zero_le k, by omega⟩))

/-- One cluster's commit (R224). -/
theorem patchOne_spec {n : Nat} (b : List Byte) (id : Half) (lt : n < 17) (wf : mapWf regReset s.regs) :
    let v := (s.patchShadow n b).patchCluster n id
    v.engines = s.engines ∧ mapWf regReset v.regs ∧ (v.cluster n).page = !(s.cluster n).page ∧ (∀ c, c ≠ n → v.cluster c = s.cluster c) ∧
      (∀ k < 64, v.reg (rTecMatch n k) = matchOf b k) ∧ ∀ c, c ≠ n → ∀ k < 64, v.reg (rTecMatch c k) = s.reg (rTecMatch c k) := by
  unfold State.patchCluster
  have mem64 : ∀ k < 64, k ∈ upFrom 0 64 := fun k hk => mem_upFrom.mpr ⟨Nat.zero_le k, by omega⟩
  have low64 : ∀ k ∈ upFrom 0 64, k < 64 := fun k mem => by have := mem_upFrom.mp mem; omega
  obtain ⟨shadowPage, shadowed⟩ := patchShadow_spec (s := s) b lt
  generalize upFrom 0 64 = ks at mem64 low64
  extract_lets t v
  have turned : t.cluster n = _ := cluster_modCluster_same (s := s.patchShadow n b) lt _
  have page : (t.cluster n).page = !(s.cluster n).page := by
    rw [turned, ← shadowPage]
    cases ((s.patchShadow n b).cluster n).page <;> rfl
  have shadow : ∀ k < 64, vgetN 0 (t.cluster n).shadow k = matchOf b k := fun k hk => by
    rw [← shadowed k hk, turned]
    cases ((s.patchShadow n b).cluster n).page <;> rfl
  have others : ∀ c, c ≠ n → t.cluster c = s.cluster c := fun c ne => (cluster_modCluster_ne _ ne _).trans (cluster_modCluster_ne s ne _)
  have engines : t.engines = s.engines := rfl
  have regs : t.regs = s.regs := rfl
  have value : v = ks.foldl (fun s k => s.setReg (rTecMatch n k) (vgetN 0 (t.cluster n).shadow k)) t :=
    foldl_shadow n ks (t.cluster n) rfl
  clear_value v
  subst value
  obtain ⟨frame, wf', done, rest⟩ := foldl_match (s := t) n (fun k => vgetN 0 (t.cluster n).shadow k) ks (regs ▸ wf) low64
  have same : ∀ c, State.cluster _ c = t.cluster c := fun c => congrArg (fun s => s.cluster c) frame
  refine ⟨(congrArg State.engines frame).trans engines, wf', by rw [same, page], fun c ne => by rw [same, others c ne], fun k hk => ?_, fun c ne k hk => ?_⟩
  · rw [done k (mem64 k hk), shadow k hk]
  · rw [rest _ (fun m mem e => ne (rTecMatch_inj hk (low64 m mem) e).1)]
    exact congrArg (mapGet regReset · _) regs

/-- The clusters of the mask commit one after the other (R224). -/
theorem foldl_patch (b : List Byte) (id : Half) (mask : Nat) (l : List Nat) (distinct : l.Nodup) (low : ∀ n ∈ l, n < 17) (wf : mapWf regReset s.regs) :
    let v := l.foldl (fun s n => if natBit mask n then (s.patchShadow n b).patchCluster n id else s) s
    v.engines = s.engines ∧ (∀ c ∉ l, v.cluster c = s.cluster c ∧ ∀ k < 64, v.reg (rTecMatch c k) = s.reg (rTecMatch c k)) ∧
      ∀ c ∈ l, (v.cluster c).page = ((s.cluster c).page ^^ natBit mask c) ∧
        (natBit mask c = true → ∀ k < 64, v.reg (rTecMatch c k) = matchOf b k) := by
  induction l generalizing s with
  | nil => exact ⟨rfl, fun _ _ => ⟨rfl, fun _ _ => rfl⟩, fun _ mem => absurd mem List.not_mem_nil⟩
  | cons a l ih =>
    obtain ⟨fresh, distinct⟩ := List.nodup_cons.mp distinct
    have low' : ∀ n ∈ l, n < 17 := fun n mem => low n (.tail a mem)
    rw [List.foldl_cons]
    by_cases on : natBit mask a = true
    · rw [if_pos on]
      obtain ⟨engines, wf1, page, others, matched, regs⟩ := patchOne_spec (s := s) b id (low a (.head l)) wf
      obtain ⟨engines', unlisted, listed⟩ := ih (s := (s.patchShadow a b).patchCluster a id) distinct low' wf1
      refine ⟨engines'.trans engines, fun c out => ?_, fun c mem => ?_⟩
      · obtain ⟨outer, inner⟩ : c ≠ a ∧ c ∉ l := by simpa using out
        exact ⟨(unlisted c inner).1.trans (others c outer), fun k hk => ((unlisted c inner).2 k hk).trans (regs c outer k hk)⟩
      · by_cases same : c = a
        · subst same
          exact ⟨by rw [(unlisted c fresh).1, page, on, Bool.xor_true], fun _ k hk => ((unlisted c fresh).2 k hk).trans (matched k hk)⟩
        · obtain ⟨page', matched'⟩ := listed c ((List.mem_cons.mp mem).resolve_left same)
          exact ⟨by rw [page', others c same], matched'⟩
    · rw [if_neg on]
      obtain ⟨engines', unlisted, listed⟩ := ih (s := s) distinct low' wf
      refine ⟨engines', fun c out => unlisted c (fun mem => out (.tail a mem)), fun c mem => ?_⟩
      by_cases same : c = a
      · subst same
        exact ⟨by rw [(unlisted c fresh).1, Bool.eq_false_iff.mpr on, Bool.xor_false], fun on' => absurd on' on⟩
      · exact listed c ((List.mem_cons.mp mem).resolve_left same)

theorem patchRefusal_congr {t : State} (lock : t.reg rKeyLock = s.reg rKeyLock) (w : PatchReq) : t.patchRefusal w = s.patchRefusal w := by
  unfold State.patchRefusal State.locked
  rw [lock]

/-- What a patch load that is not refused leaves (R223, R224). -/
theorem patchCommit_spec (wf : mapWf engineReset s.engines) (regs : mapWf regReset s.regs) {j a : Nat} {w : PatchReq} {g : Bool}
    (run : (s.engine j).run = .maint { kind := .patchLoad w, abandoned := a, guarded := g }) (quiet : s.takeActive = false)
    (legal : s.patchRefusal w = none) :
    let u := s.patchCommit j
    (u.engine j).run = .idle ∧ (∀ c < 17, (u.cluster c).page = ((s.cluster c).page ^^ natBit (leAt w.image 8 4) c)) ∧
      ∀ c < 17, natBit (leAt w.image 8 4) c = true → ∀ k < 64, u.reg (rTecMatch c k) = matchOf w.image k := by
  obtain ⟨ended, idle⟩ := maintDone_ended wf j
  unfold State.patchCommit
  rw [run]
  dsimp only
  rw [quiet, if_neg (by decide), patchRefusal_congr ended.2.1, legal]
  dsimp only
  have distinct : (upFrom 0 17).Nodup := by decide
  obtain ⟨engines, -, listed⟩ := foldl_patch w.image (BitVec.ofNat 16 (leAt w.image 4 2)) (leAt w.image 8 4) (upFrom 0 17) distinct
    (fun n mem => by have := mem_upFrom.mp mem; omega) (ended.2.2.1 regs)
  generalize (upFrom 0 17).foldl _ (s.maintDone j) = v at engines listed
  have mem : ∀ c < 17, c ∈ upFrom 0 17 := fun c lt => mem_upFrom.mpr ⟨Nat.zero_le c, by omega⟩
  have finish : ∀ u : State, u.engines = v.engines → u.clusters = v.clusters → SameRegs v u →
      (u.engine j).run = .idle ∧ (∀ c < 17, (u.cluster c).page = ((s.cluster c).page ^^ natBit (leAt w.image 8 4) c)) ∧
      ∀ c < 17, natBit (leAt w.image 8 4) c = true → ∀ k < 64, u.reg (rTecMatch c k) = matchOf w.image k := fun u engines' clusters same => by
    refine ⟨by rw [engine_congr (engines'.trans engines), idle], fun c lt => ?_, fun c lt on k hk => ?_⟩
    · rw [State.cluster, clusters]
      exact (listed c (mem c lt)).1.trans (by rw [ended.cluster])
    · rw [same _ (uncountedReg_match lt hk), (listed c (mem c lt)).2 on k hk]
  unfold State.patchEnd
  rw [if_neg (by decide)]
  dsimp only
  split
  · next p _ =>
    have post := State.post_post v p stOk true (BitVec.ofNat 64 (leAt w.image 4 2))
    exact finish _ (by rw [post]) (by rw [post]) (SameRegs.post (.refl v) _ _ _ _)
  · rw [if_pos rfl]
    exact finish v rfl rfl (.refl v)

end Patch

/-! #### The commit of a swap-in (R234) -/

/-- The engines and the clusters are as before. -/
def Alike (s t : State) : Prop := t.engines = s.engines ∧ t.clusters = s.clusters

theorem Alike.trans {s t u : State} (h : Alike s t) (h' : Alike t u) : Alike s u := ⟨h'.1.trans h.1, h'.2.trans h.2⟩

theorem Alike.of_counted {s t : State} (h : Counted s t) : Alike s t := ⟨h.frame.engines, h.frame.clusters⟩

theorem admitWaiting_counted {s t : State} (h : Counted s t) : Counted s t.admitWaiting :=
  foldl_keeps (Counted s) _ (fun _ _ kept => kept.ite ((kept.ras _).enter _)) _ t h

theorem moveProposal_alike (s : State) (i : Nat) (st : PropState) : Alike s (s.moveProposal i st) := by
  refine .of_counted ?_
  unfold State.moveProposal
  extract_lets p t1 t2 mine next
  have moved : Counted s t1 := (Counted.refl.ras _).raised (by decide)
  have admitted : Counted s t2 := moved.ite (admitWaiting_counted moved)
  refine admitted.ite ?_
  clear_value next
  cases next with
  | some q => exact (admitted.ras _).enter _
  | none => exact admitted

theorem startExec_alike (s : State) : Alike s s.startExec := by
  unfold State.startExec
  split
  · dsimp only
    split <;> exact ⟨rfl, rfl⟩
  · exact ⟨rfl, rfl⟩

section Swap
variable {s : State}

theorem swapEngine_spec (wf : mapWf engineReset s.engines) {t : Nat} (lt : t < 272) (other : t ≠ 16 * spareCluster (t / 16) + 15)
    (free : (s.cluster (spareCluster (t / 16))).spareUsed = false) :
    let u := (s.swapEngine t).1
    (u.engine t).retired = true ∧ (u.engine t).logical = none ∧ (u.engine (16 * spareCluster (t / 16) + 15)).logical = (s.engine t).logical ∧
      (u.cluster (spareCluster (t / 16))).spareUsed = true := by
  have behind : spareCluster (t / 16) < 17 ∧ (t / 16 = 16 → spareCluster (t / 16) ≠ 16) := by
    unfold spareCluster
    split <;> omega
  unfold State.swapEngine
  extract_lets n sc spare l free' t1 t2 u
  have gone : t1.engine t = _ := engine_modEngine_same wf t (fun x => { x with logical := none, retired := true })
  have wf1 : mapWf engineReset t1.engines := mapWf_mapSet wf t _
  have spared : (t2.engine spare).logical = l := by
    have taken := engine_modEngine_same wf1 spare (fun x => { x with logical := l })
    rw [show t2.engine spare = _ from taken]
  have kept : t2.engine t = t1.engine t := mapGet_mapSet_ne _ other _
  have used : (t2.cluster sc).spareUsed = true :=
    congrArg Cluster.spareUsed (cluster_modCluster_same (s := t1.modEngine spare (fun x => { x with logical := l })) behind.1
      (fun c => { c with active := c.active ||| BitVec.twoPow 16 15, spareUsed := true, lent := decide (n = 16) }))
  have spare' : free' = true := by rw [show free' = !(s.cluster sc).spareUsed from rfl, free]; rfl
  have value : u = if n = 16 then t2.modCluster 16 (fun c => { c with lent := true }) else t2 := congrArg Prod.fst (if_pos spare')
  have engines : u.engines = t2.engines := by
    rw [value]
    split <;> rfl
  have used' : (u.cluster sc).spareUsed = true := by
    rw [value]
    split
    · next last =>
      rw [cluster_modCluster_ne t2 (behind.2 last)]
      exact used
    · exact used
  refine ⟨?_, ?_, by rw [engine_congr engines]; exact spared, used'⟩
  · rw [engine_congr engines, kept, gone]
  · rw [engine_congr engines, kept, gone]

theorem spareSwap_spec (wf : mapWf engineReset s.engines) {j t a : Nat} {g : Bool}
    (run : (s.engine j).run = .maint { kind := .swapIn t, abandoned := a, guarded := g }) (quiet : s.takeActive = false) (lt : t < 272)
    (other : t ≠ 16 * spareCluster (t / 16) + 15) (free : (s.cluster (spareCluster (t / 16))).spareUsed = false) :
    let u := s.spareSwap j
    (u.engine t).retired = true ∧ (u.engine t).logical = none ∧ (u.engine (16 * spareCluster (t / 16) + 15)).logical = (s.engine t).logical ∧
      (u.cluster (spareCluster (t / 16))).spareUsed = true := by
  obtain ⟨ended, -⟩ := maintDone_ended wf j
  obtain ⟨wf1, logical⟩ := ended.2.2.2 wf
  obtain ⟨retired, gone, taken, used⟩ := swapEngine_spec wf1 lt other (by rw [ended.cluster]; exact free)
  unfold State.spareSwap
  rw [run]
  dsimp -zeta only
  rw [quiet, if_neg (by decide)]
  extract_lets r v
  have told : Alike r.1 v := by
    unfold v
    split
    · exact moveProposal_alike _ _ _
    · exact ⟨rfl, rfl⟩
  obtain ⟨engines, clusters⟩ := told.trans (startExec_alike v)
  rw [State.cluster, clusters, engine_congr engines, engine_congr engines]
  exact ⟨retired, gone, taken.trans (logical t).1, used⟩

end Swap

/-! #### The scrub of a control store, and a slot's move (R230, R235) -/

section Moves
variable {s : State}

theorem scrubCommit_spec (wf : mapWf engineReset s.engines) {n j : Nat} (lt : n < 17) (h : Nat)
    (runner : s.runner (fun c => decide (c = n)) .scrub = some j) :
    ((s.scrubCommit n h).cluster n).scrubPtr = ((s.cluster n).scrubPtr + h) % 0x10800 ∧ ((s.scrubCommit n h).engine j).run = .idle := by
  obtain ⟨ended, idle⟩ := maintDone_ended wf j
  unfold State.scrubCommit
  rw [runner]
  dsimp -zeta only
  extract_lets t c is
  have noted : ∀ (v : State) (vs : List Verdict), Steady j v (v.noteStore n vs) := fun v vs => by
    unfold State.noteStore
    extract_lets k w
    have counted : Steady j v w := Steady.counted (.refl v) (.siteWords .refl _ _)
    exact .ite counted ((counted.event (State.orReg_frame _ _ _)).event (State.bump_frame _ _ _))
  have wf1 : mapWf engineReset t.engines := (ended.2.2.2 wf).1
  have after : ∀ (v : State) (vs : List Verdict), v.engines = t.engines → (v.cluster n).scrubPtr = ((s.cluster n).scrubPtr + h) % 0x10800 →
      ((v.noteStore n vs).cluster n).scrubPtr = ((s.cluster n).scrubPtr + h) % 0x10800 ∧ ((v.noteStore n vs).engine j).run = .idle := by
    intro v vs engines moved
    obtain ⟨-, clusters, still⟩ := noted v vs
    refine ⟨by rw [State.cluster, clusters]; exact moved, (still (engines ▸ wf1)).2.1 ?_⟩
    rw [engine_congr engines]
    exact idle
  refine after _ _ rfl ?_
  rw [cluster_modCluster_same lt, show t.cluster n = s.cluster n from ended.cluster n]
  rfl

theorem move_slots (a d n : Nat) : (s.move a d n).slots = s.slots := by
  have spans : ∀ (t : State) (id : StoreId) (o : Nat) (l : List (Nat × Nat)), (t.poisonSpans id a o l).slots = t.slots := fun t id o l => by
    unfold State.poisonSpans
    rw [State.setStore_post]
  have read : (s.readArea a n).1.slots = s.slots := by
    unfold State.readArea
    exact ((noteArea_counted .refl a n).frame.slots).trans (by rw [(State.ctlSync_frame s a n false).1])
  have poked : ((s.readArea a n).1.poke d (s.readArea a n).2.1).slots = s.slots := by rw [State.poke_post, read]
  unfold State.move
  extract_lets r t
  split
  · exact poked
  · exact (spans t _ _ _).trans poked
  · exact poked

theorem slot_modSlot_same (s : State) (i : Fin 16) (f : Slot → Slot) : (s.modSlot i f).slot i = f (s.slot i) := vget_vmod_same _ _ _
theorem slot_modSlot_ne (s : State) {i k : Fin 16} (ne : k ≠ i) (f : Slot → Slot) : (s.modSlot i f).slot k = s.slot k := vget_vmod_ne _ ne _

theorem slotMove_request {i : Fin 16} (dest : Nat) (none' : (s.slot i).move = none) (placed : (s.slot i).base.isSome = true) :
    s.slotMove i dest = { s.modSlot i (fun x => { x with move := some (0, dest) }) with
      maintQueue := s.maintQueue ++ [{ kind := .slotMove i, abandoned := 0, guarded := false }] } := by
  unfold State.slotMove
  dsimp only
  rw [none']
  exact if_pos placed

/-- The last chunk of a move also moves the slot's base (R230). -/
theorem slotMove_last (wf : mapWf engineReset s.engines) {i : Fin 16} {j a t : Nat} (dest : Nat) (under : (s.slot i).move = some (a, t))
    (placed : (s.slot i).base.isSome = true) (runner : s.runner (fun _ => true) (.slotMove i) = some j) (last : (s.slot i).size ≤ 65536 * a + 65536)
    (least : 65536 * a ≤ (s.slot i).size) :
    let u := s.slotMove i dest
    (u.slot i).base = some t ∧ (u.slot i).move = none ∧ (u.slot i).mark = (s.slot i).mark := by
  obtain ⟨b, base⟩ := Option.isSome_iff_exists.mp placed
  obtain ⟨ended, -⟩ := maintDone_ended wf j
  have same : (s.maintDone j).slot i = s.slot i := by rw [State.slot, State.slot, ended.slots]
  unfold State.slotMove
  dsimp only
  rw [under]
  dsimp only
  rw [runner]
  dsimp only
  unfold State.slotChunk
  extract_lets x o n
  rw [show x.base = some b by rw [show x = s.slot i from same, base]]
  dsimp -zeta only
  extract_lets v
  have slot : v.slot i = s.slot i := by
    rw [State.slot, move_slots]
    exact same
  have size : x.size = (s.slot i).size := congrArg Slot.size same
  rw [if_pos (show x.size ≤ o + n by
    have least' : n = min 65536 (x.size - o) := rfl
    have offset : o = a * 65536 := rfl
    rw [least', offset, size]
    omega), slot_modSlot_same, slot]
  exact ⟨rfl, rfl, rfl⟩

end Moves

/-! #### Release, eviction and expiry of slots (R106, R107, R114) -/

section Slots
variable {s : State}

theorem mem_insertBy {key : Fin 16 → Nat} {x y : Fin 16} {l : List (Fin 16)} : y ∈ insertBy key x l ↔ y = x ∨ y ∈ l := by
  induction l with
  | nil => simp [insertBy]
  | cons z l ih =>
    unfold insertBy
    split
    · simp
    · simp only [List.mem_cons, ih]
      tauto

theorem sorted_insertBy {key : Fin 16 → Nat} (x : Fin 16) {l : List (Fin 16)} (sorted : l.Pairwise (key · ≤ key ·)) :
    (insertBy key x l).Pairwise (key · ≤ key ·) := by
  induction l with
  | nil => simp [insertBy]
  | cons z l ih =>
    obtain ⟨least, rest⟩ := List.pairwise_cons.mp sorted
    unfold insertBy
    split
    · next below =>
      refine List.pairwise_cons.mpr ⟨fun y mem => ?_, sorted⟩
      rcases List.mem_cons.mp mem with rfl | later
      · exact below.le
      · exact below.le.trans (least y later)
    · next above =>
      refine List.pairwise_cons.mpr ⟨fun y mem => ?_, ih rest⟩
      rcases mem_insertBy.mp mem with rfl | later
      · exact Nat.le_of_not_lt above
      · exact least y later

theorem mem_sortSlots {key : Fin 16 → Nat} {l : List (Fin 16)} {y : Fin 16} : y ∈ sortSlots key l ↔ y ∈ l := by
  induction l with
  | nil => rfl
  | cons x l ih => exact mem_insertBy.trans (by rw [← sortSlots, ih, List.mem_cons])

theorem sorted_sortSlots (key : Fin 16 → Nat) (l : List (Fin 16)) : (sortSlots key l).Pairwise (key · ≤ key ·) := by
  induction l with
  | nil => exact .nil
  | cons x l ih => exact sorted_insertBy x ih

/-- The first of the sorted slots is one of the least. -/
theorem head_sortSlots {key : Fin 16 → Nat} {l : List (Fin 16)} {i : Fin 16} (mem : i ∈ l) :
    ∃ v ∈ l, (sortSlots key l).head? = some v ∧ ∀ k ∈ l, key v ≤ key k := by
  have sorted := sorted_sortSlots key l
  cases eq : sortSlots key l with
  | nil => exact absurd (mem_sortSlots.mpr mem) (by rw [eq]; exact List.not_mem_nil)
  | cons v rest =>
    rw [eq] at sorted
    have all : ∀ k, k ∈ l ↔ k ∈ v :: rest := fun k => by rw [← eq, mem_sortSlots]
    refine ⟨v, (all v).mpr (.head rest), rfl, fun k mem' => ?_⟩
    rcases List.mem_cons.mp ((all k).mp mem') with rfl | later
    · exact Nat.le_refl _
    · exact (List.pairwise_cons.mp sorted).1 k later

theorem mem_allSlots (i : Fin 16) : i ∈ allSlots := by
  revert i
  decide

theorem mem_slotsWhere {p : Slot → Bool} {i : Fin 16} : i ∈ s.slotsWhere p ↔ p (s.slot i) = true := by
  simp [State.slotsWhere, mem_allSlots]

theorem evict_of_few (few : (s.slotsWhere Slot.isShort).length ≤ refShortMax (s.active unitRef)) : s.evict = s := if_pos few

theorem evict_of_many {i : Fin 16} (many : refShortMax (s.active unitRef) < (s.slotsWhere Slot.isShort).length) (short : (s.slot i).mark = .short)
    (unlisted : s.inList i = false) : ∃ v, (s.slot v).mark = .short ∧ s.inList v = false ∧
      (∀ k, (s.slot k).mark = .short → s.inList k = false → (s.slot v).picture ≤ (s.slot k).picture) ∧ s.evict = s.freeSlot v := by
  have cand : ∀ k, k ∈ (s.slotsWhere Slot.isShort).filter (fun i => !s.inList i) ↔ (s.slot k).mark = .short ∧ s.inList k = false := fun k => by
    rw [List.mem_filter, mem_slotsWhere]
    simp [Slot.isShort]
  obtain ⟨v, mem, first, least⟩ := head_sortSlots (key := fun k => (s.slot k).picture.toNat) ((cand i).mpr ⟨short, unlisted⟩)
  obtain ⟨mark, out⟩ := (cand v).mp mem
  refine ⟨v, mark, out, fun k hk hl => least k ((cand k).mpr ⟨hk, hl⟩), ?_⟩
  unfold State.evict
  dsimp only
  rw [if_neg (Nat.not_le.mpr many), first]

/-- One slot more meets a test that the others meet as before. -/
theorem length_filter_le {p q : Fin 16 → Bool} (i : Fin 16) (same : ∀ k, k ≠ i → p k = q k) (l : List (Fin 16)) :
    (l.filter p).length ≤ (l.filter q).length + l.count i := by
  induction l with
  | nil => simp
  | cons x l ih =>
    by_cases here : x = i
    · subst here
      cases hp : p x <;> cases hq : q x <;> simp [hp, hq] <;> omega
    · rw [List.count_cons_of_ne here]
      cases hq : q x <;> simp [same x here, hq] <;> omega

theorem releaseSlot_of_final {i : Fin 16} (final : (s.slot i).final = true)
    (room : (s.slotsWhere Slot.isShort).length < refShortMax (s.active unitRef)) :
    s.releaseSlot i = s.modSlot i (fun x => { x with mark := .short, current := false }) := by
  unfold State.releaseSlot
  dsimp only
  rw [if_pos ⟨final, by omega⟩]
  refine evict_of_few ?_
  have once : ∀ i, allSlots.count i = 1 := by decide
  have more := length_filter_le (p := fun k => ((s.modSlot i (fun x => { x with mark := .short, current := false })).slot k).isShort)
    (q := fun k => (s.slot k).isShort) i (fun k ne => by rw [slot_modSlot_ne s ne]) allSlots
  rw [once] at more
  exact more.trans room

theorem releaseSlot_of_incomplete {i : Fin 16} (final : (s.slot i).final = false) : s.releaseSlot i = s.freeSlot i := by
  unfold State.releaseSlot
  exact if_neg (by rw [final]; exact fun h => absurd h.1 Bool.false_ne_true)

theorem expireView_of_none {i : Fin 16} (none' : (s.slot i).source = none) : s.expireView i = s := by
  unfold State.expireView
  dsimp only
  rw [none']

theorem expireView_of_source {i : Fin 16} {j : Fin 4} (source : (s.slot i).source = some j) :
    s.expireView i = if (s.slot i).peer ∧ s.windowPassed j.1 (s.slot i).ptp ∧ !s.inList i then (s.abandonView i).freeSlot i else s := by
  unfold State.expireView
  dsimp only
  rw [source]

theorem abandonView_of_source {i : Fin 16} {j : Fin 4} (source : (s.slot i).source = some j) : s.abandonView i =
    if (s.slot i).mark = .pendingIn then
      { s with lateViews := s.lateViews ++ [(j, (s.slot i).picture)] }.bump (rKslReftLate (s.slot i).port.1)
        (tilesN (s.active unitCode) - (s.slot i).accepted.length)
    else s := by
  unfold State.abandonView
  dsimp only
  rw [source]

end Slots

/-- Settles O43: the maintenance routines of an engine and what their commits leave, and the upkeep of reference slots. -/
theorem enginesAndSlots : Obligations.EnginesAndSlots := by
  unfold Obligations.EnginesAndSlots
  have gives : ∀ {i : Instr} {s t u : State}, exec i s = .next t → t = u → Gives i s u := fun run same => same ▸ run
  refine ⟨?_, ?_⟩
  · intro e r rest w g a t h n i dest s wf x y spare
    refine ⟨fun out => ?_, fun up idle free => ⟨fun none' => ?_, fun queue may => ?_⟩, fun run quiet legal regs => ?_, fun idle => ⟨?_, ?_⟩,
      fun run quiet lt other free => ?_, fun none' => ?_, fun runner => ?_, fun none' placed => ?_, fun under placed runner last least => ?_⟩
    · exact gives rfl (maintStart_of_out out)
    · exact gives rfl (maintStart_of_none up idle free none')
    · exact gives rfl (maintStart_of_front up idle free queue may)
    · exact ⟨_, rfl, patchCommit_spec wf regs run quiet legal⟩
    · refine gives rfl (u := s) ?_
      unfold State.patchCommit
      rw [idle]
    · refine gives rfl (u := s) ?_
      unfold State.spareSwap
      rw [idle]
    · exact ⟨_, rfl, spareSwap_spec wf run quiet lt other free⟩
    · refine gives rfl (u := s) ?_
      unfold State.scrubCommit
      rw [none']
    · exact ⟨_, rfl, scrubCommit_spec wf n.2 h runner⟩
    · exact gives rfl (slotMove_request dest.toNat none' placed)
    · exact ⟨_, rfl, slotMove_last wf dest.toNat under placed runner last least⟩
  · intro i j s most shorts
    refine ⟨fun none' => ?_, fun next => ⟨fun final room => ?_, fun final => ?_⟩, fun few => ?_, fun many short unlisted => ?_, fun none' => ?_,
      fun source early => ?_, fun source passed unlisted => ⟨fun mark => ?_, fun mark => ?_⟩⟩
    · refine gives rfl (u := s) ?_
      rw [none']
    · refine gives (t := s.releaseSlot i) (congrArg Host.Outcome.next ?_) (releaseSlot_of_final final room)
      rw [next]
    · refine gives (t := s.releaseSlot i) (congrArg Host.Outcome.next ?_) (releaseSlot_of_incomplete final)
      rw [next]
    · exact gives rfl (evict_of_few few)
    · obtain ⟨v, mark, out, least, evicted⟩ := evict_of_many many short unlisted
      exact ⟨v, mark, out, least, gives rfl evicted⟩
    · exact gives rfl (expireView_of_none none')
    · exact gives rfl ((expireView_of_source source).trans (if_neg (by simp [early])))
    · have peer : (s.slot i).peer = true := by simp [Slot.peer, mark]
      refine gives rfl ((expireView_of_source source).trans ((if_pos (by simp [peer, passed, unlisted])).trans ?_))
      rw [abandonView_of_source source, if_neg (by rw [mark]; decide)]
      rfl
    · have peer : (s.slot i).peer = true := by simp [Slot.peer, mark]
      refine ⟨_, gives rfl ((expireView_of_source source).trans ((if_pos (by simp [peer, passed, unlisted])).trans
        (congrArg (State.freeSlot · i) ((abandonView_of_source source).trans (if_pos mark))))), ?_, fun k ne => ?_, rfl⟩
      · exact congrArg Slot.mark (slot_modSlot_same _ i _)
      · exact slot_modSlot_ne _ ne _

end Sys2Proof.Proofs.Maintenance

/-! ### Ethernet frames and the PTP slave (O46) -/

namespace Sys2Proof.Proofs.NetworkPortsAndPtp

open Sys2Proof.Machine Sys2Proof.Claims Sys2Proof.Proofs.KalsalTime

/-! #### Frames (R488, R489) -/

section Frames
variable {s : State} {k : Fin 2}

theorem ethLink_same {up : Bool} (same : vget s.ptp.linkUp k = up) : s.ethLink k up = s := if_pos same

theorem ethLink_change {up : Bool} (other : vget s.ptp.linkUp k = !up) :
    (s.ethLink k up).ptp = { s.ptp with linkUp := vset s.ptp.linkUp k up } ∧ (s.ethLink k up).take = s.take ∧ (s.ethLink k up).slu = s.slu := by
  unfold State.ethLink
  rw [if_neg (by rw [other]; cases up <;> decide)]
  have told := (State.orReg_frame { s with ptp := { s.ptp with linkUp := vset s.ptp.linkUp k up } } (rNetPortStat k.1) 2).trans
    (State.raise_frame _ (160 + 8 * k.1))
  exact ⟨told.ptp, told.take, told.slu⟩

variable {f : EthFrame}

theorem ethFrame_of_down (down : vget s.ptp.linkUp k = false) : s.ethFrame k f = s := by
  unfold State.ethFrame
  rw [down]
  rfl

variable (up : vget s.ptp.linkUp k = true)
include up

theorem ethFrame_of_badFcs (bad : f.fcsOk = false) : s.ethFrame k f = (s.bump (rNetFcsErr k.1) 1).bump (rNetRxDiscards k.1) 1 := by
  unfold State.ethFrame
  rw [up, bad]
  rfl

theorem ethFrame_of_ptp (fcs : f.fcsOk = true) (pause : f.pause = false) (ether : f.etherPtp = true) (ptp : s.ethPtp k f = true) :
    s.ethFrame k f = s.bump (rNetRxFrames k.1) 1 := by
  unfold State.ethFrame
  rw [up, fcs, pause, ether, ptp]
  rfl

section Datagram
variable (fcs : f.fcsOk = true) (pause : f.pause = false) (ether : f.etherPtp = false) (whole : f.fragment = false) (ip : f.ipSumOk = true)
  (udp : f.udpSumOk = true) (ptp : s.ethPtp k f = false) (mac : f.toMac = true) (addr : f.toIp = true)
include fcs pause ether whole ip udp ptp mac addr

theorem ethFrame_of_session {is : List (Fin 9)} {r : RtpPacket} (sessions : s.ethSessions k f.udpPort = is) (some' : is ≠ []) (rtp : f.rtp = some r) :
    s.ethFrame k f = is.foldl (fun s i => s.rtpReceive i r) (s.bump (rNetRxFrames k.1) 1) := by
  unfold State.ethFrame
  rw [up, fcs, pause, ether, whole, ip, udp, ptp, mac, addr, sessions, rtp]
  cases is with
  | nil => exact absurd rfl some'
  | cons i is => rfl

theorem ethFrame_of_rtcp {m : Fin 4} (sessions : s.ethSessions k f.udpPort = []) (rtcp : f.rtcp = some m) :
    s.ethFrame k f = (s.bump (rPxyStrRtcpIn m.1) 1).bump (rNetRxDiscards k.1) 1 := by
  unfold State.ethFrame
  rw [up, fcs, pause, ether, whole, ip, udp, ptp, mac, addr, sessions, rtcp]
  rfl

end Datagram

end Frames

/-! #### The servo and the step (R490) -/

section Offset
variable {s : State}

theorem clampPpm_bounds (f : Int) : -214748 ≤ clampPpm f ∧ clampPpm f ≤ 214748 := by
  unfold clampPpm
  split
  · omega
  · split <;> omega

/-- Up to 1 µs the servo steers, within 100 ppm (R490). -/
theorem timeOffset_servo {two : Int} (even : two % 2 = 0) (small : two.natAbs ≤ 2000) (count : Bool) :
    (s.timeOffset two count).ptp.interval = s.ptp.interval ∧ -214748 ≤ (s.timeOffset two count).clk.freq ∧
      (s.timeOffset two count).clk.freq ≤ 214748 ∧ (s.timeOffset two count).regs = s.regs := by
  unfold State.timeOffset
  rw [if_pos even]
  extract_lets off p t inTake clk n good ptp clk'
  rw [if_neg (fun h => absurd h.1 (Nat.not_lt.mpr small))]
  exact ⟨rfl, (clampPpm_bounds _).1, (clampPpm_bounds _).2, rfl⟩

/-- Beyond it, outside a take, the time base steps. -/
theorem timeOffset_step {two : Int} (even : two % 2 = 0) (large : 2000 < two.natAbs) (quiet : s.takeActive = false) (count : Bool) :
    (s.timeOffset two count).clk.ns = BitVec.ofInt 64 ((s.clk.ns.toNat : Int) - two / 2) ∧ (s.timeOffset two count).ptp.locked = false := by
  unfold State.timeOffset
  rw [if_pos even]
  extract_lets off p t inTake clk q
  have out : inTake = false := quiet
  rw [if_pos ⟨large, by rw [out]; rfl⟩]
  have told : ∀ u : State, EventFrame u ((u.orReg rNetTimeStat 8).netRaise 5) := fun u => (State.orReg_frame u _ _).trans (State.raise_frame _ _)
  refine ⟨?_, ?_⟩
  · rw [(told _).clk]
  · rw [(told _).ptp]

end Offset

/-! #### Messages of the master (R491) -/

section Messages
variable {s : State} {m : PtpMsg}

theorem gives_of_eq {i : Instr} {s t u : State} (run : exec i s = .next t) (same : t = u) : Gives i s u := same ▸ run

/-- The answer to the outstanding Delay_Req gives an offset (R491). -/
theorem delayResp_of_answer (master : s.fromMaster m = true) (out : s.ptp.reqOut = true) (seq : m.seqId = s.ptp.reqSeq)
    (sync : s.ptp.haveSync = true) :
    Gives (.ptpDelayResp m) s ({ s with ptp := { s.ptp with reqOut := false, interval := m.interval } }.timeOffset
      ((s.ptp.t2 - s.ptp.t1) - (m.stamp - s.ptp.t3)) true) := by
  have two_eq : 2 * (s.ptp.t2 - s.ptp.t1) - ((s.ptp.t2 - s.ptp.t1) + (m.stamp - s.ptp.t3)) = (s.ptp.t2 - s.ptp.t1) - (m.stamp - s.ptp.t3) := by omega
  rw [← two_eq]
  refine congrArg Host.Outcome.next ((if_pos (by simp [master, out, seq])).trans ?_)
  exact if_pos sync

/-- The master is the one before, or another whose messages begin anew (R491). -/
theorem announce_of_best (taken : s.ptpTaken m = true) (best : m.best = true) :
    (m.clockId = s.ptp.master → Gives (.ptpAnnounce m) s { s with ptp := { s.ptp with utc := m.utcOffset } }) ∧
      (m.clockId ≠ s.ptp.master → ∃ t, Gives (.ptpAnnounce m) s t ∧ t.ptp = { s.ptp with
         master := m.clockId, utc := m.utcOffset, haveSync := false, awaitFollow := false, reqOut := false }) := by
  have run : (s.ptpTaken m && m.best) = true := by rw [taken, best]; rfl
  refine ⟨fun same => ?_, fun new => ⟨_, congrArg Host.Outcome.next ((if_pos run).trans (if_pos (decide_eq_true new))), ?_⟩⟩
  · refine congrArg Host.Outcome.next ((if_pos run).trans ((if_neg (by simp [same])).trans ?_))
    rw [decide_eq_false (not_not.mpr same), same]
    simp
  · rw [(show EventFrame _ (State.netRaise _ 3) from State.raise_frame _ _).ptp, decide_eq_true new]
    simp

theorem delayReq_of_source (source : s.timeSource = 1) (chosen : s.ptp.master ≠ 0) :
    ∃ t, Gives .ptpDelayReq s t ∧ t.ptp = { s.ptp with reqSeq := s.ptp.reqSeq + 1, reqOut := false } ∧
      (t.flow (16 + s.ptpPort)).queue =
        (s.flow (16 + s.ptpPort)).queue ++ [plainPacket .ptp (delayReqBytes (s.cfg unitNet 35 1)) none] := by
  have port : s.ptpPort < 2 := Nat.mod_lt _ (by decide)
  refine ⟨_, congrArg Host.Outcome.next (if_pos (by rw [source, decide_eq_true chosen]; rfl)), ?_, queue_sluOffer_of_open _ (by omega) (by omega) _⟩
  rw [sluOffer_of_open _ (by omega) (by omega)]
  rfl

theorem announceTimeout_of_source (source : s.timeSource = 1) (chosen : s.ptp.master ≠ 0) :
    ∃ t, Gives .announceReceiptTimeout s t ∧ t.ptp.master = 0 ∧ t.ptp.locked = false ∧ t.clk = s.clk := by
  refine ⟨_, congrArg Host.Outcome.next (if_pos (by rw [source, decide_eq_true chosen]; rfl)), ?_⟩
  have told : ∀ u : State, EventFrame u ((u.orReg rNetTimeStat 0x10).netRaise 4) := fun u => (State.orReg_frame u _ _).trans (State.raise_frame _ _)
  rw [(told _).ptp, (told _).clk]
  exact ⟨rfl, rfl, rfl⟩

end Messages

/-- Settles O46: frames and links of the network ports, and the PTP slave (R488-R491). -/
theorem networkPorts : Obligations.NetworkPorts := by
  unfold Obligations.NetworkPorts
  refine ⟨?_, ?_⟩
  · intro k up f is r m s frame
    refine ⟨fun same => gives_of_eq rfl (ethLink_same same), fun other => ⟨_, rfl, ethLink_change other⟩,
      fun down => gives_of_eq rfl (ethFrame_of_down down), fun up => ⟨fun bad => gives_of_eq rfl (ethFrame_of_badFcs up bad),
      fun fcs pause ether ptp => gives_of_eq rfl (ethFrame_of_ptp up fcs pause ether ptp),
      fun fcs pause ether whole ip udp ptp mac addr => ⟨fun sessions some' rtp => ?_, fun none' rtcp => ?_⟩⟩⟩
    · exact gives_of_eq rfl (ethFrame_of_session up fcs pause ether whole ip udp ptp mac addr sessions some' rtp)
    · exact gives_of_eq rfl (ethFrame_of_rtcp up fcs pause ether whole ip udp ptp mac addr none' rtcp)
  · intro m s p two f
    refine ⟨fun other => ⟨?_, ?_, ?_⟩, fun master => ⟨fun one => ?_, fun both => ?_, fun await seq => ?_, fun out seq have' even =>
      ⟨fun small => ?_, fun large quiet => ?_⟩⟩, fun taken best => ⟨fun same => ?_, fun new => ?_⟩, fun worse => ?_, fun source chosen => ⟨?_, ?_⟩,
      fun other => ⟨?_, ?_⟩⟩
    · exact gives_of_eq rfl (if_neg (by simp [other]))
    · exact gives_of_eq rfl (if_neg (by simp [other]))
    · exact gives_of_eq rfl (if_neg (by simp [other]))
    · refine gives_of_eq rfl ((if_pos master).trans ?_)
      rw [one]
      rfl
    · refine gives_of_eq rfl ((if_pos master).trans ?_)
      rw [both]
      rfl
    · exact gives_of_eq rfl (if_pos (by simp [master, await, seq, p]))
    · obtain ⟨offset, ns, -⟩ := timeOffset_of_small { s with ptp := { p with reqOut := false, interval := m.interval } } true even small
      obtain ⟨interval, least, most, regs⟩ := timeOffset_servo (s := { s with ptp := { p with reqOut := false, interval := m.interval } }) even small true
      exact ⟨_, delayResp_of_answer master out seq have', offset, interval, ns, least, most, regs⟩
    · exact ⟨_, delayResp_of_answer master out seq have',
        timeOffset_step (s := { s with ptp := { p with reqOut := false, interval := m.interval } }) even large quiet true⟩
    · exact (announce_of_best taken best).1 same
    · exact (announce_of_best taken best).2 new
    · exact gives_of_eq rfl (if_neg (by simp [worse]))
    · exact delayReq_of_source source chosen
    · exact announceTimeout_of_source source chosen
    · exact gives_of_eq rfl (if_neg (by simp [other]))
    · exact gives_of_eq rfl (if_neg (by simp [other]))

end Sys2Proof.Proofs.NetworkPortsAndPtp

/-! ### Flits, training and loss of a Kalsal link (O48) -/

namespace Sys2Proof.Proofs.KalsalLinks

open Sys2Proof.Machine Sys2Proof.Claims Sys2Proof.Proofs.Power Sys2Proof.Proofs.Counting

/-! #### A part of a port that an operation leaves alone -/

/-- What `p` reads of port `k` is as before. -/
def PortKept {α : Type} (p : KslPort → α) (k : Fin 4) (s t : State) : Prop := p (t.kslPort k) = p (s.kslPort k)

section Kept
variable {α : Type} {p : KslPort → α} {k : Fin 4} {s t u : State}

theorem PortKept.refl (s : State) : PortKept p k s s := rfl

theorem PortKept.trans (h : PortKept p k s t) (h' : PortKept p k t u) : PortKept p k s u := Eq.trans h' h

theorem PortKept.of_ksl (h : t.ksl = s.ksl) : PortKept p k s t := congrArg (fun x : Kalsal => p (vget x.ports k)) h

theorem PortKept.of_event (h : EventFrame s t) : PortKept p k s t := .of_ksl h.ksl
theorem PortKept.of_counted (h : Counted s t) : PortKept p k s t := .of_ksl h.frame.ksl
theorem PortKept.of_post (h : PostFrame s t) : PortKept p k s t := .of_ksl (by rw [h])

theorem PortKept.ite {a b : State} {c : Prop} [Decidable c] (ha : PortKept p k s a) (hb : PortKept p k s b) : PortKept p k s (if c then a else b) := by
  split
  · exact ha
  · exact hb

theorem kslPort_modPort (s : State) (j k : Fin 4) (f : KslPort → KslPort) :
    (s.modPort j f).kslPort k = if k = j then f (s.kslPort k) else s.kslPort k := by
  split
  · next same =>
    subst same
    exact vget_vmod_same _ _ _
  · next ne => exact vget_vmod_ne _ ne _

theorem PortKept.mod (s : State) (j : Fin 4) {f : KslPort → KslPort} (own : ∀ x, p (f x) = p x) : PortKept p k s (s.modPort j f) := by
  unfold PortKept
  rw [kslPort_modPort]
  split
  · exact own _
  · rfl

theorem foldl_portKept {β : Type} {f : State → β → State} (each : ∀ s b, PortKept p k s (f s b)) (l : List β) (s : State) :
    PortKept p k s (l.foldl f s) :=
  foldl_keeps (PortKept p k s) f (fun t b kept => kept.trans (each t b)) l s rfl

end Kept

/-! #### Events of a link -/

section Events
variable (s : State)

theorem unclaim_frame (t : Fin 16) (n : Nat) : EventFrame s (s.unclaim t n) := by
  unfold State.unclaim
  extract_lets x
  split
  · split
    · exact (State.toPending_frame s n).trans (State.deliver_frame _)
    · exact State.setSrc_frame s n _
  · exact .refl s

variable {α : Type} {p : KslPort → α} {k : Fin 4}

theorem setLink_kept (j : Fin 4) (st : KslState) (own : ∀ x : KslPort, p { x with st := st } = p x) : PortKept p k s (s.setLink j st) := by
  unfold State.setLink
  extract_lets was t
  have moved : PortKept p k s t := .mod s j own
  exact .ite (moved.trans (.of_event (State.raise_frame t _))) moved

theorem st_setLink (st : KslState) : ((s.setLink k st).kslPort k).st = st := by
  unfold State.setLink
  extract_lets was t
  have moved : (t.kslPort k).st = st := by rw [show t.kslPort k = _ from kslPort_modPort s k k _, if_pos rfl]
  split
  · exact Eq.trans (PortKept.of_event (p := KslPort.st) (State.raise_frame t _)) moved
  · exact moved

theorem routeDrop_kept : PortKept p k s s.routeDrop := .of_event ((State.orReg_frame s _ _).trans (State.bump_frame _ _ _))

theorem freeFlit_kept (held : Option (Fin 4)) (vc : Nat) (own : ∀ (x : KslPort) v, p { x with freed := v } = p x) : PortKept p k s (s.freeFlit held vc) := by
  unfold State.freeFlit
  split
  · exact .mod s _ (fun x => own x _)
  · rfl

end Events

/-! #### What a header tells (R438-R441) -/

/-- What a port holds of what it received. -/
def received (x : KslPort) : Half × Bool × Nat × List (Packet × DWord) := (x.rxSeq, x.nak, x.faulty, x.rxq)

section Header
variable (s : State) (k : Fin 4)

theorem kslAck_received (a : Half) : PortKept received k s (s.kslAck k a) := by
  unfold State.kslAck
  extract_lets x done rest again t
  have acked : PortKept received k s t := .mod s k (fun _ => rfl)
  exact acked.trans (foldl_portKept (fun s e => .of_event (State.complete_frame s _ _)) _ t)

theorem kslCredits_received (hdr : List Byte) : PortKept received k s (s.kslCredits k hdr) := by
  unfold State.kslCredits
  refine foldl_portKept (fun s v => ?_) _ s
  exact .mod s k (fun _ => rfl)

theorem retrain_kept {α : Type} {p : KslPort → α} (own : ∀ (x : KslPort) st r, p { x with st := st, retraining := r, retrainReq := false } = p x)
    (st' : ∀ (x : KslPort) st, p { x with st := st } = p x) : PortKept p k s (s.retrain k) := by
  unfold State.retrain
  refine .ite ?_ rfl
  have begun : PortKept p k s (s.modPort k (fun x => { x with retraining := true, retrainReq := false })) := .mod s k (fun x => own x x.st true)
  exact (begun.trans (setLink_kept _ k .align (fun x => st' x .align))).trans
    (.of_event ((State.bump_frame _ _ _).trans (State.orReg_frame _ _ _)))

theorem kslHeader_received (hdr : List Byte) : PortKept received k s (s.kslHeader k hdr) := by
  unfold State.kslHeader
  extract_lets a t u
  have told : PortKept received k s t := (kslAck_received s k a).trans (kslCredits_received _ k hdr)
  have naked : PortKept received k s u := .ite (told.trans (.mod t k (fun _ => rfl))) told
  exact .ite (naked.trans (retrain_kept u k (fun _ _ _ => rfl) (fun _ _ => rfl))) naked

end Header

/-! #### An accepted flit joins its packet (R442-R445, R452) -/

/-- The sequence of a port's flits. -/
def sequence (x : KslPort) : Half × Bool × Nat := (x.rxSeq, x.nak, x.faulty)

section Take
variable (s : State) (k : Fin 4)

theorem kslPass_sequence (j i : Fin 4) (held : Option (Fin 4)) (vc : Nat) (sop eop : Bool) (ws : List CodeWord) :
    PortKept sequence i s (s.kslPass k j held vc sop eop ws) := .mod s j (fun _ => rfl)

theorem kslSend_sequence (q : Packet) : PortKept sequence k s (s.kslSend q) := by
  unfold State.kslSend
  extract_lets way
  clear_value way
  cases way with
  | some j => exact .ite (.mod s _ (fun _ => rfl)) (routeDrop_kept s)
  | none => exact routeDrop_kept s

theorem kslRouteIn_sequence (vc : Nat) (eop : Bool) (ws : List CodeWord) : PortKept sequence k s (s.kslRouteIn k vc eop ws).1 := by
  unfold State.kslRouteIn
  have drop := routeDrop_kept (p := sequence) (k := k) s
  split
  · exact drop
  · split_ifs
    · exact drop
    · rfl
    · refine foldl_portKept (fun s j => ?_) _ s
      exact .ite (kslPass_sequence s k j k _ _ _ _ _) (routeDrop_kept s)
    · split
      · rfl
      · exact drop
    · rfl
    · exact drop.trans (kslSend_sequence _ k _)
    · exact drop
    · split
      · rfl
      · exact drop

theorem kslLand_sequence (ws : List CodeWord) : PortKept sequence k s (s.kslLand k ws) := by
  unfold State.kslLand
  extract_lets n
  split
  · exact routeDrop_kept s
  · exact .ite (.mod s k (fun _ => rfl)) (routeDrop_kept s)

theorem kslTake_sequence (vc : Nat) (sop eop : Bool) (ws : List CodeWord) : PortKept sequence k s (s.kslTake k vc sop eop ws) := by
  unfold State.kslTake
  extract_lets r start t acc u
  have free : ∀ (s : State) held, PortKept sequence k s (s.freeFlit held vc) := fun s held => freeFlit_kept s held vc (fun _ _ => rfl)
  have routed : PortKept sequence k s t := by
    unfold t start
    split
    · exact kslRouteIn_sequence s k vc eop ws
    · split
      · rfl
      · exact routeDrop_kept s
  have joined : PortKept sequence k t u := by
    unfold u
    split
    · exact kslPass_sequence t k _ k _ _ _ _ _
    · exact .ite ((free t _).trans (kslLand_sequence _ k acc)) (free t _)
    · exact free t _
  exact (routed.trans joined).trans (.mod u k (fun _ => rfl))

/-- An accepted flit advances the sequence (R440). -/
theorem kslAccept_spec (hdr : List Byte) (ws : List CodeWord) :
    ((s.kslAccept k hdr ws).kslPort k).rxSeq = (s.kslPort k).rxSeq + 1 ∧ ((s.kslAccept k hdr ws).kslPort k).nak = false ∧
      ((s.kslAccept k hdr ws).kslPort k).faulty = 0 := by
  unfold State.kslAccept
  extract_lets t
  have port : t.kslPort k = _ := (kslPort_modPort s k k _).trans (if_pos rfl)
  have kept := kslTake_sequence t k (leAt hdr 1 1 % 4) (natBit (leAt hdr 2 1) 0) (natBit (leAt hdr 2 1) 1) (ws.take (leAt hdr 3 1))
  unfold PortKept at kept
  rw [port] at kept
  exact ⟨congrArg Prod.fst kept, congrArg (fun x => x.2.1) kept, congrArg (fun x => x.2.2) kept⟩

end Take

/-! #### Flits received (R438-R441) -/

section Receive
variable {s : State} {k : Fin 4} {f : Flit} (active : s.portActive k = true)
include active

theorem siteWords_portKept {α : Type} (p : KslPort → α) (s : State) (k : Fin 4) (vs : List Verdict) : PortKept p k s (s.siteWords siteKalsal vs) :=
  .of_counted (.siteWords .refl _ _)

theorem flitReceive_inSequence (data : leAt f.hdr 0 1 = 1) (head : headSound f = true) (body : bodySound f = true)
    (clean : (f.words.take 16).any (fun w => decide ((readCode w).2 = .uncorr)) = false) (seq : leAt f.hdr 4 2 = (s.kslPort k).rxSeq.toNat) :
    ((s.flitReceive k f).kslPort k).rxSeq = (s.kslPort k).rxSeq + 1 ∧ ((s.flitReceive k f).kslPort k).nak = false ∧
      ((s.flitReceive k f).kslPort k).faulty = 0 := by
  unfold State.flitReceive
  rw [if_neg (by simp [active])]
  extract_lets ws vs t uncorr sound e q u
  have seen : PortKept received k s t := .of_counted (.siteWords .refl _ _)
  have next : e = (s.kslPort k).rxSeq := congrArg Prod.fst seen
  have uncorr' : uncorr = false := by
    rw [← clean]
    exact List.any_map
  have now : (sound && !uncorr && decide (q = e)) = true := by
    have number : q = e := by
      rw [next, show q = BitVec.ofNat 16 (leAt f.hdr 4 2) from rfl, seq, BitVec.ofNat_toNat, BitVec.setWidth_eq]
    rw [show sound = true by rw [show sound = (headSound f && bodySound f) from rfl, head, body]; rfl, uncorr', decide_eq_true number]
    rfl
  rw [if_neg (not_not.mpr data), if_pos now]
  have told : PortKept received k s (t.kslHeader k f.hdr) := seen.trans (kslHeader_received t k f.hdr)
  obtain ⟨rx, nak, faulty⟩ := kslAccept_spec (t.kslHeader k f.hdr) k f.hdr (ws.map mended)
  have kept : ((t.kslHeader k f.hdr).kslPort k).rxSeq = (s.kslPort k).rxSeq := congrArg Prod.fst told
  exact ⟨by rw [rx, kept], nak, faulty⟩

theorem flitReceive_duplicate (data : leAt f.hdr 0 1 = 1) (least : 1 ≤ ((s.kslPort k).rxSeq - BitVec.ofNat 16 (leAt f.hdr 4 2)).toNat)
    (most : ((s.kslPort k).rxSeq - BitVec.ofNat 16 (leAt f.hdr 4 2)).toNat ≤ 512) : PortKept received k s (s.flitReceive k f) := by
  unfold State.flitReceive
  rw [if_neg (by simp [active])]
  extract_lets ws vs t uncorr sound e q u
  have seen : PortKept received k s t := .of_counted (.siteWords .refl _ _)
  have next : e = (s.kslPort k).rxSeq := congrArg Prod.fst seen
  have other : ¬ (sound && !uncorr && decide (q = e)) = true := by
    have ne : q ≠ e := fun same => by
      rw [← next, ← show q = BitVec.ofNat 16 (leAt f.hdr 4 2) from rfl, same, BitVec.sub_self] at least
      exact absurd least (by decide)
    simp [ne]
  rw [if_neg (not_not.mpr data), if_neg other, if_pos ⟨by rw [next]; exact least, by rw [next]; exact most⟩]
  have told : PortKept received k s u := .ite (seen.trans (kslHeader_received t k f.hdr)) seen
  exact told.trans (.of_event (State.bump_frame u _ _))

theorem flitReceive_faulty (data : leAt f.hdr 0 1 = 1) (head : headSound f = false)
    (behind : ((s.kslPort k).rxSeq - BitVec.ofNat 16 (leAt f.hdr 4 2)).toNat = 0) (few : (s.kslPort k).faulty < 3) :
    ((s.flitReceive k f).kslPort k).rxSeq = (s.kslPort k).rxSeq ∧ ((s.flitReceive k f).kslPort k).nak = true ∧
      ((s.flitReceive k f).kslPort k).faulty = (s.kslPort k).faulty + 1 := by
  unfold State.flitReceive
  rw [if_neg (by simp [active])]
  extract_lets ws vs t uncorr sound e q u
  have seen : PortKept received k s t := .of_counted (.siteWords .refl _ _)
  have next : e = (s.kslPort k).rxSeq := congrArg Prod.fst seen
  have count : (t.kslPort k).faulty = (s.kslPort k).faulty := congrArg (fun x => x.2.2.1) seen
  have unsound : sound = false := by rw [show sound = (headSound f && bodySound f) from rfl, head]; rfl
  have still : u = t := if_neg (by rw [unsound]; decide)
  rw [if_neg (not_not.mpr data), if_neg (by rw [unsound]; simp), if_neg (by rw [next, behind]; omega), still]
  unfold State.kslReject
  extract_lets x mine copy
  have copied : copy = true := by
    rw [show copy = (mine && (!(bodySound f) || uncorr) || !(headSound f)) from rfl, head]
    simp
  rw [if_neg (fun h => by have := h.2; rw [show x.faulty = _ from count] at this; omega), copied]
  have dropped : PortKept received k s (t.kslDiscard k) := seen.trans (.of_event (State.bump_frame t _ _))
  rw [kslPort_modPort, if_pos rfl]
  exact ⟨congrArg Prod.fst dropped, rfl, congrArg (fun x => x.2.2.1 + 1) dropped⟩

end Receive

/-! #### Flits sent (R434, R439, R442, R443) -/

section Transmit
variable {s : State} {k : Fin 4}

theorem kslPumpAll_of_none (idle : s.ksl.wait = []) : s.kslPumpAll = s := by
  unfold State.kslPumpAll State.kslPump
  rw [idle]

theorem nth_map_upFrom {α : Type} (d : α) (f : Nat → α) {a n i : Nat} (lt : i < n) : nth d ((upFrom a n).map f) i = f (a + i) := by
  induction n generalizing a i with
  | zero => omega
  | succ n ih =>
    cases i with
    | zero => rfl
    | succ i => exact (ih (a := a + 1) (by omega)).trans (congrArg f (by omega))

/-- The marker's lanes (R434). -/
theorem lane_marker (x : KslPort) {l : Nat} (lt : l < 8) :
    KslPort.lane { x with wire := markerBytes, sinceMarker := 0 } l = 0xC3 :: BitVec.ofNat 8 l :: List.replicate 38 0x3C := by
  have mark : markerBytes.head? = some 0xC3 := rfl
  have byte : ∀ i ∈ upFrom 0 40, nth 0 markerBytes (8 * i + l) = if i = 0 then 0xC3 else if i = 1 then BitVec.ofNat 8 l else 0x3C := fun i mem => by
    have := mem_upFrom.mp mem
    rw [markerBytes, nth_map_upFrom _ _ (by omega)]
    by_cases first : i = 0
    · subst first
      exact if_pos (by omega)
    · rw [if_neg first, if_neg (by omega)]
      by_cases second : i = 1
      · subst second
        rw [if_pos (by omega), if_pos rfl, show (0 + (8 * 1 + l)) % 8 = l by omega]
      · rw [if_neg (by omega), if_neg second]
  unfold KslPort.lane
  extract_lets mine
  rw [if_pos mark]
  exact (List.map_congr_left byte).trans rfl

variable (active : s.portActive k = true) (idle : s.ksl.wait = [])
include active idle

theorem flitTransmit_marker (due : 8192 ≤ (s.kslPort k).sinceMarker) :
    s.flitTransmit k = s.modPort k (fun x => { x with wire := markerBytes, sinceMarker := 0 }) := by
  unfold State.flitTransmit
  rw [kslPumpAll_of_none idle]
  dsimp only
  rw [if_neg (by simp [active]), if_pos due]

variable (early : (s.kslPort k).sinceMarker < 8192) (fresh : (s.kslPort k).resend = none)
include early fresh

theorem flitTransmit_idle (none' : (s.kslPort k).vcOrder.find? (fun v => s.kslCredit k v && ((s.kslPort k).nextFlit v).isSome) = none) :
    s.flitTransmit k = s.kslWire k false 0 { vc := 0, origin := 4, held := none, sop := false, eop := false, words := [], event := none } := by
  unfold State.flitTransmit
  rw [kslPumpAll_of_none idle]
  dsimp only
  rw [if_neg (by simp [active]), if_neg (by omega), fresh]
  dsimp only [Option.bind_none]
  rw [none']

theorem flitTransmit_data {v : Nat} {g : TxFlit}
    (turn : (s.kslPort k).vcOrder.find? (fun v => s.kslCredit k v && ((s.kslPort k).nextFlit v).isSome) = some v)
    (next : (s.kslPort k).nextFlit v = some g) : s.flitTransmit k = s.kslData k g := by
  unfold State.flitTransmit
  rw [kslPumpAll_of_none idle]
  dsimp only
  rw [if_neg (by simp [active]), if_neg (by omega), fresh]
  dsimp only [Option.bind_none]
  rw [turn]
  dsimp only
  rw [next]

end Transmit

/-- What a port has sent: the wire, the next number, the replay buffer and the credits used. -/
def transmitted (x : KslPort) : List Byte × Half × List (Half × TxFlit) × Vector Nat 4 := (x.wire, x.txSeq, x.replay, x.sent)

section Wire
variable (s : State) (k : Fin 4)

theorem kslWire_transmitted (data : Bool) (seq : Half) (f : TxFlit) :
    transmitted ((s.kslWire k data seq f).kslPort k) =
      ((s.kslPort k).flitBytes data seq f, (s.kslPort k).txSeq, (s.kslPort k).replay, (s.kslPort k).sent) := by
  unfold State.kslWire
  extract_lets req t
  have sent : transmitted (t.kslPort k) = ((s.kslPort k).flitBytes data seq f, (s.kslPort k).txSeq, (s.kslPort k).replay, (s.kslPort k).sent) := by
    rw [show t.kslPort k = _ from kslPort_modPort s k k _, if_pos rfl]
    rfl
  split
  · exact Eq.trans (retrain_kept (p := transmitted) t k (fun _ _ _ => rfl) (fun _ _ => rfl)) sent
  · exact sent

theorem nextFlit_vc {x : KslPort} {v : Nat} {g : TxFlit} (next : x.nextFlit v = some g) : g.vc = v := by
  have found : ∀ o, x.txq.find? (fun f => decide (f.vc = v) && decide (f.origin = o)) = some g → g.vc = v := fun o at' => by
    have both := List.find?_some at'
    simp only [Bool.and_eq_true, decide_eq_true_eq] at both
    exact both.1
  unfold KslPort.nextFlit at next
  split at next
  · exact found _ next
  · obtain ⟨o, -, at'⟩ := Option.bind_eq_some_iff.mp next
    exact found o at'

theorem mem_vcOrder {x : KslPort} {v : Nat} (mem : v ∈ x.vcOrder) : v < 4 := by
  unfold KslPort.vcOrder at mem
  split at mem <;> simp at mem <;> omega

theorem vgetN_vmodN_same {α : Type} {n : Nat} (d : α) (v : Vector α n) {i : Nat} (lt : i < n) (f : α → α) : vgetN d (vmodN v i f) i = f (vgetN d v i) := by
  unfold vgetN vmodN
  rw [dif_pos lt, dif_pos lt, dif_pos lt, vget_vmod_same]

/-- A data flit that is no TIME packet's is sent as it stands, and held for replay (R439, R442). -/
theorem kslData_spec {g : TxFlit} (low : g.vc < 4) (other : g.vc ≠ 2) :
    ((s.kslData k g).kslPort k).txSeq = (s.kslPort k).txSeq + 1 ∧ ((s.kslData k g).kslPort k).replay = (s.kslPort k).replay ++ [((s.kslPort k).txSeq, g)] ∧
      vgetN 0 ((s.kslData k g).kslPort k).sent g.vc = vgetN 0 (s.kslPort k).sent g.vc + 1 := by
  have stamp : s.timeStamp k g = (s, g) := if_pos (.inl other)
  unfold State.kslData
  rw [stamp]
  extract_lets r f x o t
  have port : t.kslPort k = _ := (kslPort_modPort s k k _).trans (if_pos rfl)
  have freed : PortKept transmitted k t (t.freeFlit f.held f.vc) := freeFlit_kept t _ _ (fun _ _ => rfl)
  have wire := kslWire_transmitted (t.freeFlit f.held f.vc) k true x.txSeq f
  generalize (t.freeFlit f.held f.vc).kslWire k true x.txSeq f = u at wire
  generalize t.freeFlit f.held f.vc = v at freed wire
  have seq : (u.kslPort k).txSeq = (t.kslPort k).txSeq := (congrArg (fun x => x.2.1) wire).trans (congrArg (fun x => x.2.1) freed)
  have replay : (u.kslPort k).replay = (t.kslPort k).replay := (congrArg (fun x => x.2.2.1) wire).trans (congrArg (fun x => x.2.2.1) freed)
  have sent : (u.kslPort k).sent = (t.kslPort k).sent := (congrArg (fun x => x.2.2.2) wire).trans (congrArg (fun x => x.2.2.2) freed)
  rw [seq, replay, sent, port]
  exact ⟨rfl, rfl, vgetN_vmodN_same 0 _ low _⟩

end Wire

/-! #### A link that goes down (R436, R458) -/

section Down
variable (s : State) (k : Fin 4)

theorem enumSend_ports (j : Fin 4) (sub epoch base count status : Nat) : (s.enumSend j sub epoch base count status).ksl = s.ksl := by
  unfold State.enumSend
  rw [KalsalTime.sluOffer_of_open _ (by omega) (by omega)]
  rfl

theorem setDir_ksl (j : Fin 4) (d : Nat) : (s.setDir j d).ksl = s.ksl := by
  unfold State.setDir State.setRoute
  split <;> rfl

variable {α : Type} {p : KslPort → α}

theorem enumWalk_kept (e : Enumeration) (ports : List (Fin 4)) : PortKept p k s (s.enumWalk e ports) := by
  induction ports generalizing s e with
  | nil =>
    unfold State.enumWalk
    extract_lets t
    split
    · exact PortKept.trans (t := t) rfl (.of_ksl (enumSend_ports t _ _ _ _ _ _))
    · split
      · exact PortKept.trans (t := t.modKsl (fun x => { x with enumCmd := none })) rfl (.of_post (State.post_post _ _ _ _ _))
      · rfl
  | cons j ports ih =>
    unfold State.enumWalk
    split
    · split
      · exact PortKept.trans (.of_ksl (setDir_ksl s j 3)) (ih _ _)
      · exact PortKept.trans (.of_ksl (enumSend_ports s _ _ _ _ _ _)) rfl
    · exact ih _ _

theorem enumAnswer_kept (j : Fin 4) (count : Option Nat) (status : Nat) : PortKept p k s (s.enumAnswer j count status) := by
  unfold State.enumAnswer
  split
  · rfl
  · split
    · rfl
    · dsimp only
      split
      · refine PortKept.trans (.of_ksl ?_) (enumWalk_kept _ k _ _)
        unfold State.setRoute
        split
        · exact setDir_ksl s j 1
        · exact setDir_ksl s j 1
      · exact PortKept.trans (.of_ksl (setDir_ksl s j 3)) (enumWalk_kept _ k _ _)

/-- What goes down with its packets keeps its state and nothing to send (R458). -/
theorem linkFlush_spec : ((s.linkFlush k).kslPort k).st = (s.kslPort k).st ∧ ((s.linkFlush k).kslPort k).txq = [] ∧
    ((s.linkFlush k).kslPort k).replay = [] := by
  unfold State.linkFlush
  extract_lets x events t u
  have freed : PortKept KslPort.st k s t := foldl_portKept (fun s f => freeFlit_kept s _ _ (fun _ _ => rfl)) _ s
  have cut : PortKept KslPort.st k t (allPorts.foldl (fun s j => s.modPort j (fun y => y.cutOff k)) t) := by
    refine foldl_portKept (fun s j => ?_) _ t
    exact .mod s j (fun _ => rfl)
  have cleared : u.kslPort k = ((allPorts.foldl (fun s j => s.modPort j (fun y => y.cutOff k)) t).kslPort k).clear :=
    (kslPort_modPort _ k k _).trans (if_pos rfl)
  have undone : PortKept id k u (events.foldl (fun s e => s.unclaim e.1 e.2) u) := foldl_portKept (fun s e => .of_event (unclaim_frame s _ _)) _ u
  rw [show (List.foldl _ u events).kslPort k = _ from undone]
  unfold id
  rw [cleared]
  exact ⟨Eq.trans cut freed, rfl, rfl⟩

theorem linkDown_spec (up : (s.kslPort k).st ≠ .down) : ((s.linkDown k).kslPort k).st = .down ∧ ((s.linkDown k).kslPort k).txq = [] ∧
    ((s.linkDown k).kslPort k).replay = [] := by
  unfold State.linkDown
  rw [if_neg up]
  generalize s.modPort k (fun x => { x with retraining := false }) = t
  obtain ⟨st, txq, replay⟩ := linkFlush_spec (t.setLink k .down) k
  have answered := enumAnswer_kept (p := id) ((t.setLink k .down).linkFlush k) k k none stLink
  generalize (t.setLink k .down).linkFlush k = u at st txq replay answered ⊢
  unfold PortKept id at answered
  rw [answered]
  exact ⟨st.trans (st_setLink t .down), txq, replay⟩

theorem linkDown_of_down (down : (s.kslPort k).st = .down) : s.linkDown k = s := if_pos down

theorem trainFail_down (up : (s.kslPort k).st ≠ .down) : ((s.trainFail k).kslPort k).st = .down := by
  unfold State.trainFail
  refine Eq.trans (PortKept.of_event (p := KslPort.st) (State.raiseRec_frame _ _ _ _ _ _ _)) ?_
  exact (linkDown_spec { s with freeCount := s.freeCount + 1 } k up).1

end Down

/-! #### Training (R435, R436) -/

section Training
variable {s : State} {k : Fin 4}

theorem kslEye_counted (s : State) (k : Fin 4) (eye : Byte) (lane : Nat) : Counted s (s.kslEye k eye lane) := by
  unfold State.kslEye
  extract_lets t
  have weak : Counted s t := Counted.refl.ite (.threshold .refl)
  exact weak.ite (weak.propose _ _ _ _)

theorem trainStep_detect {eye : Byte} {lane : Fin 9} {c : KslConfig} (st : (s.kslPort k).st = .detect) :
    ((s.trainStep k eye lane c).kslPort k).st = .equalize := by
  unfold State.trainStep
  rw [st]
  exact st_setLink s .equalize

theorem trainStep_equalize {eye : Byte} {lane : Fin 9} {c : KslConfig} (st : (s.kslPort k).st = .equalize) :
    ((s.trainStep k eye lane c).kslPort k).st = .align := by
  unfold State.trainStep
  rw [st]
  exact Eq.trans (PortKept.of_counted (p := KslPort.st) (kslEye_counted _ k eye lane.1)) (st_setLink _ .align)

theorem trainStep_align {eye : Byte} {lane : Fin 9} {c : KslConfig} (st : (s.kslPort k).st = .align) :
    ((s.trainStep k eye lane c).kslPort k).st = .config := by
  unfold State.trainStep
  rw [st]
  exact st_setLink s .config

theorem trainStep_config {eye : Byte} {lane : Fin 9} {c : KslConfig} (st : (s.kslPort k).st = .config) :
    ((s.trainStep k eye lane c).kslPort k).st = if 5000 < c.delayPs then .down else .active := by
  unfold State.trainStep
  rw [st]
  dsimp only
  unfold State.kslConfig
  split
  · exact trainFail_down _ k (by rw [show (s.orReg _ _).kslPort k = s.kslPort k from rfl, st]; decide)
  · exact st_setLink _ .active

theorem trainStep_stable {eye : Byte} {lane : Fin 9} {c : KslConfig} (st : (s.kslPort k).st = .active ∨ (s.kslPort k).st = .down) :
    s.trainStep k eye lane c = s := by
  unfold State.trainStep
  rcases st with st | st <;> rw [st]

theorem trainTimeout_stable {bad : Bool} (st : (s.kslPort k).st = .active ∨ (s.kslPort k).st = .down) : s.trainTimeout k bad = s := by
  have done : (s.kslPort k).training = false := by
    unfold KslPort.training
    rcases st with st | st <;> rw [st] <;> decide
  unfold State.trainTimeout
  exact if_pos (by rw [done]; rfl)

theorem trainTimeout_down {bad : Bool} (on : (s.kslPort k).st ≠ .active) (up : (s.kslPort k).st ≠ .down) :
    ((s.trainTimeout k bad).kslPort k).st = .down := by
  have training : (s.kslPort k).training = true := by simp [KslPort.training, on, up]
  unfold State.trainTimeout
  extract_lets x t
  rw [if_neg (by rw [show x.training = true from training]; decide)]
  have told : PortKept KslPort.st k s t := .of_counted (Counted.refl.ite ((Counted.refl.or _ _).propose _ _ _ _))
  exact trainFail_down t k (by rw [show (t.kslPort k).st = _ from told]; exact up)

end Training

theorem gives_of_eq {i : Instr} {s t u : State} (run : exec i s = .next t) (same : t = u) : Gives i s u := same ▸ run

/-- Settles O48: flits of a Kalsal link in sequence, duplicate and faulty, what a port sends, training and the link's loss. -/
theorem kalsalLink : Obligations.KalsalLink := by
  unfold Obligations.KalsalLink
  intro k f v g eye lane cfg bad s x data behind idle goes
  refine ⟨fun down => ⟨?_, ?_, fun idle => ?_⟩, fun active data head body clean seq => ⟨_, rfl, flitReceive_inSequence active data head body clean seq⟩,
    fun active data least most => ?_, fun active data head behind few => ⟨_, rfl, flitReceive_faulty active data head behind few⟩,
    fun active awaited => ?_, fun active idle => ⟨fun due => ⟨?_, fun l lt => lane_marker _ lt⟩, fun early fresh none' => ?_,
      fun early fresh turn next other => ?_⟩, fun st => ⟨_, rfl, trainStep_detect st⟩, fun st => ⟨_, rfl, trainStep_equalize st⟩,
    fun st => ⟨_, rfl, trainStep_align st⟩, fun st near => ⟨_, rfl, (trainStep_config st).trans (if_neg (Nat.not_lt.mpr near))⟩,
    fun st far => ⟨_, rfl, (trainStep_config st).trans (if_pos far)⟩, fun st => ⟨?_, ?_⟩, fun on up => ⟨_, rfl, trainTimeout_down on up⟩,
    fun st ready quiet => ?_, fun up => ?_, fun up => ⟨_, rfl, linkDown_spec s k up⟩, fun down => ?_⟩
  · exact gives_of_eq rfl (if_pos (by simp [down]))
  · exact gives_of_eq rfl (if_neg (by simp [down]))
  · refine gives_of_eq rfl (u := s) ?_
    unfold State.flitTransmit
    rw [kslPumpAll_of_none idle]
    exact if_pos (by simp [down])
  · have kept := flitReceive_duplicate active data least most
    exact ⟨_, rfl, congrArg Prod.fst kept, congrArg (fun x => x.2.2.2) kept⟩
  · exact gives_of_eq rfl (if_pos (by rw [active, show (s.kslPort k).awaited = true from awaited]; rfl))
  · exact gives_of_eq rfl (flitTransmit_marker active idle due)
  · have sent := kslWire_transmitted s k false 0 { vc := 0, origin := 4, held := none, sop := false, eop := false, words := [], event := none }
    exact ⟨_, gives_of_eq rfl (flitTransmit_idle active idle early fresh none'), congrArg Prod.fst sent, congrArg (fun x => x.2.1) sent,
      congrArg (fun x => x.2.2.1) sent⟩
  · have vc : g.vc = v := nextFlit_vc next
    have low : g.vc < 4 := vc ▸ mem_vcOrder (List.mem_of_find?_eq_some turn)
    have sent := kslData_spec s k low (vc ▸ other)
    rw [vc] at sent
    exact ⟨_, gives_of_eq rfl (flitTransmit_data active idle early fresh turn next), sent⟩
  · exact gives_of_eq rfl (trainStep_stable st)
  · exact gives_of_eq rfl (trainTimeout_stable st)
  · refine ⟨_, gives_of_eq rfl (if_pos ⟨st, ready, by simp [quiet]⟩), st_setLink _ .detect, ?_⟩
    refine Eq.trans (setLink_kept (p := KslPort.laneMap) _ k .detect (fun _ => rfl)) ?_
    rw [kslPort_modPort, if_pos rfl]
  · exact gives_of_eq rfl (if_neg (fun h => up h.1))
  · exact gives_of_eq rfl (linkDown_of_down s k down)

end Sys2Proof.Proofs.KalsalLinks

/-! ### Packets that arrived over Kalsal, and the device's own (O27) -/

namespace Sys2Proof.Proofs.KalsalPacketHandling

open Sys2Proof.Machine Sys2Proof.Claims Sys2Proof.Proofs.Power Sys2Proof.Proofs.Counting Sys2Proof.Proofs.KalsalTime Sys2Proof.Proofs.Stores
  Sys2Proof.Proofs.DataCache Sys2Proof.Proofs.Completions Sys2Proof.Proofs.Maintenance

theorem gives_of_eq {i : Instr} {s t u : State} (run : exec i s = .next t) (same : t = u) : Gives i s u := same ▸ run

/-! #### EVT packets of the device's own event targets (R396, R448) -/

section Claim
variable {s : State}

theorem kslPump_of_none (idle : s.ksl.wait = []) (n : Nat) : s.kslPump n = s := by
  cases n with
  | zero => rfl
  | succ n =>
    unfold State.kslPump
    rw [idle]

theorem kslPump_of_full {e : Packet × Fin 16 × Nat} {rest : List (Packet × Fin 16 × Nat)} (wait : s.ksl.wait = e :: rest)
    (full : s.aOutMax ≤ s.ksl.out.length) (n : Nat) : s.kslPump n = s := by
  cases n with
  | zero => rfl
  | succ n =>
    unfold State.kslPump
    rw [wait]
    exact if_pos full

theorem kslPump_of_room {p : Packet} {t : Fin 16} {k : Nat} {j : Fin 4} (wait : s.ksl.wait = [(p, t, k)]) (room : s.ksl.out.length < s.aOutMax)
    (way : (s.evtPort p.dst.toNat).filter s.portActive = some j) (n : Nat) :
    s.kslPump (n + 1) = (({ s with ksl := { s.ksl with wait := [] } }.modKsl (fun x => { x with out := x.out ++ [p.tag] })).kslQueueWith j 4 (some (t, k)) p) := by
  unfold State.kslPump
  rw [wait]
  dsimp only
  rw [if_neg (Nat.not_le.mpr room)]
  have same : ((s.modKsl (fun x => { x with wait := [] })).evtPort p.dst.toNat).filter (s.modKsl (fun x => { x with wait := [] })).portActive = some j := way
  rw [same]
  exact kslPump_of_none rfl n

/-- The packet of a claim (R447). -/
def claimPacket (s : State) (t : Fin 4) : Packet :=
  let tgt := fin 16 (6 + t.1)
  let k := s.claimable tgt
  let record := match (s.src k).record with
    | some r => r.image
    | none => List.replicate 16 0
  { type := 4, rsp := false, bcast := false, host := false, dst := BitVec.ofNat 16 ((s.reg (rEvcKdest t.1)).toNat % 65536),
    src := BitVec.ofNat 16 s.deviceId, hops := 0, status := 0, tag := s.ksl.nextTag,
    fields := leBytes 2 k ++ [BitVec.ofNat 8 tgt.1] ++ List.replicate 13 0 ++ record, payload := [], bad := [] }

/-- The state in which a claim's packet waits. -/
def claimed (s : State) (t : Fin 4) : State :=
  (s.claimSource (fin 16 (6 + t.1)) (s.claimable (fin 16 (6 + t.1)))).modKsl (fun x => { x with
    wait := x.wait ++ [(claimPacket s t, fin 16 (6 + t.1), s.claimable (fin 16 (6 + t.1)))], nextTag := x.nextTag + 1 })

theorem kalsalClaim_of_none (t : Fin 4) (nothing : s.claimable (fin 16 (6 + t.1)) = 0 ∨
    ((s.evtPort ((s.reg (rEvcKdest t.1)).toNat % 65536)).filter s.portActive).isNone = true) : s.kalsalClaim t = s := if_pos nothing

theorem kalsalClaim_of_some (t : Fin 4) (source : s.claimable (fin 16 (6 + t.1)) ≠ 0)
    (way : ((s.evtPort ((s.reg (rEvcKdest t.1)).toNat % 65536)).filter s.portActive).isSome = true) :
    s.kalsalClaim t = (claimed s t).kslPumpAll :=
  if_neg (not_or.mpr ⟨source, by rw [Option.isNone_eq_false_iff.mpr way]; decide⟩)

/-- A claim is a write of sources. -/
theorem claimSource_srcs (s : State) (t : Fin 16) (k : Nat) : s.claimSource t k = { s with srcs := (s.claimSource t k).srcs } := by
  unfold State.claimSource
  extract_lets x v
  refine foldl_keeps (fun u : State => u = { s with srcs := u.srcs }) _ (fun u e kept => ?_) _ v rfl
  exact Eq.trans (b := { u with srcs := (u.setSrc e.1 { e.2 with passed := e.2.passed + 1 }).srcs }) rfl (by rw [kept])

theorem claimed_eq (t : Fin 4) (idle : s.ksl.wait = []) : claimed s t = { s with
    srcs := (s.claimSource (fin 16 (6 + t.1)) (s.claimable (fin 16 (6 + t.1)))).srcs,
    ksl := { s.ksl with
      wait := [(claimPacket s t, fin 16 (6 + t.1), s.claimable (fin 16 (6 + t.1)))], nextTag := s.ksl.nextTag + 1 } } := by
  unfold claimed State.modKsl
  rw [claimSource_srcs]
  dsimp only
  rw [idle]
  rfl

/-- A claim's packet waits while A_OUT_MAX requests are outstanding (R448). -/
theorem kalsalClaim_waits (t : Fin 4) (source : s.claimable (fin 16 (6 + t.1)) ≠ 0)
    (way : ((s.evtPort ((s.reg (rEvcKdest t.1)).toNat % 65536)).filter s.portActive).isSome = true) (idle : s.ksl.wait = [])
    (full : s.aOutMax ≤ s.ksl.out.length) : s.kalsalClaim t = claimed s t := by
  rw [kalsalClaim_of_some t source way]
  refine kslPump_of_full (s := claimed s t) (e := (claimPacket s t, fin 16 (6 + t.1), s.claimable (fin 16 (6 + t.1)))) (rest := []) ?_ ?_ _
  · rw [claimed_eq t idle]
  · rw [claimed_eq t idle]
    exact full

/-- Else it leaves at once. -/
theorem kalsalClaim_leaves (t : Fin 4) (source : s.claimable (fin 16 (6 + t.1)) ≠ 0)
    (way : ((s.evtPort ((s.reg (rEvcKdest t.1)).toNat % 65536)).filter s.portActive).isSome = true) (idle : s.ksl.wait = [])
    (room : s.ksl.out.length < s.aOutMax) : (s.kalsalClaim t).ksl.wait = [] ∧ (s.kalsalClaim t).ksl.out = s.ksl.out ++ [s.ksl.nextTag] := by
  obtain ⟨j, port⟩ := Option.isSome_iff_exists.mp way
  have dst : (claimPacket s t).dst.toNat = (s.reg (rEvcKdest t.1)).toNat % 65536 := by
    rw [show (claimPacket s t).dst = BitVec.ofNat 16 ((s.reg (rEvcKdest t.1)).toNat % 65536) from rfl, BitVec.toNat_ofNat]
    omega
  rw [← dst] at port
  have left : (claimed s t).kslPumpAll = _ := kslPump_of_room (s := claimed s t) (p := claimPacket s t) (t := fin 16 (6 + t.1))
    (k := s.claimable (fin 16 (6 + t.1))) (j := j) (by rw [claimed_eq t idle]) (by rw [claimed_eq t idle]; exact room)
    (by rw [claimed_eq t idle]; exact port) _
  rw [kalsalClaim_of_some t source way, left, claimed_eq t idle]
  exact ⟨rfl, rfl⟩

end Claim

/-! #### Requests of another device (R446) -/

section Requests
variable {s : State} {k : Fin 4} {p : Packet} {stamp : DWord} {rest : List (Packet × DWord)}

theorem onRequest_of_empty (empty : (s.kslPort k).rxq = []) (t : Nat) (c : Instr) (f : State → Packet → State) : s.onRequest k t c f = s := by
  simp [State.onRequest, State.arrived, empty]

variable (head : (s.kslPort k).rxq = (p, stamp) :: rest) {t : Nat} (type : p.type = t) (request : p.rsp = false)
include head type request

theorem onRequest_of_head (c : Instr) (f : State → Packet → State) :
    s.onRequest k t c f = s.access (.kalsal k) (p.field 16 8) c (fun s => f (s.dropArrived k) p) := by
  have found : s.arrived k (fun p => decide (p.type = t) && !p.rsp) = some (p, stamp) := by simp [State.arrived, head, type, request]
  rw [State.onRequest, found]

theorem onRequest_reaches (c : Instr) (f : State → Packet → State)
    (reaches : s.mayEnter (.kalsal k) (s.pathNeeds (.kalsal k) (p.field 16 8)) (some (s.pointOf (p.field 16 8))) = true) :
    s.onRequest k t c f = f (s.dropArrived k) p := (onRequest_of_head head type request c f).trans (if_pos reaches)

theorem onRequest_waits (c : Instr) (f : State → Packet → State)
    (out : ¬ s.mayEnter (.kalsal k) (s.pathNeeds (.kalsal k) (p.field 16 8)) (some (s.pointOf (p.field 16 8))) = true) :
    s.onRequest k t c f = s.hold (.kalsal k) (s.pathNeeds (.kalsal k) (p.field 16 8)) (some (s.pointOf (p.field 16 8))) c :=
  (onRequest_of_head head type request c f).trans (if_neg out)

end Requests

section Remote
variable {s : State} {k : Fin 4} {p : Packet}

theorem remoteRead_of_ok {s1 s2 : State} {b : List Byte} (allowed : s.remoteAllowed k false (p.field 16 8) (p.field 24 2) = (s1, true))
    (read : s1.readAt (.kalsal k) (p.field 16 8) (p.field 24 2) = (s2, .ok b)) :
    s.remoteRead k p = s2.kslSend (p.answer s1.deviceId stOk b []) := by
  unfold State.remoteRead
  dsimp only
  rw [allowed]
  dsimp only
  rw [read]
  rfl

theorem remoteRead_of_crossing (crossing : 64 < p.field 16 8 % 64 + p.field 24 2) :
    s.remoteRead k p = s.kslSend (p.answer s.deviceId stBadarg [] []) := by
  have refused : s.remoteAllowed k false (p.field 16 8) (p.field 24 2) = (s, false) := if_pos crossing
  unfold State.remoteRead
  dsimp only
  rw [refused]
  rfl

/-- A kslSend leaves memory and the take alone. -/
theorem kslSend_memory (s : State) (q : Packet) : (s.kslSend q).dram = s.dram ∧ (s.kslSend q).ctlSram = s.ctlSram ∧ (s.kslSend q).take = s.take := by
  have dropped : s.routeDrop.dram = s.dram ∧ s.routeDrop.ctlSram = s.ctlSram ∧ s.routeDrop.take = s.take := ⟨rfl, rfl, rfl⟩
  unfold State.kslSend
  extract_lets way
  clear_value way
  cases way with
  | none => exact dropped
  | some j =>
    dsimp only
    split
    · exact ⟨rfl, rfl, rfl⟩
    · exact dropped

theorem Counted.ctlSram {s t : State} (h : Counted s t) : t.ctlSram = s.ctlSram :=
  h.lift (R := fun s t => t.ctlSram = s.ctlSram) (fun _ => rfl) (fun h h' => h'.trans h) (fun _ _ _ => rfl) (fun s k _ => ctlSram_raise s k)
    fun _ _ => rfl

theorem writeStore_dram (s : State) (a : Nat) (b : List Byte) : (s.writeStore .dram a b).dram = s.dram.write a b ∧
    (s.writeStore .dram a b).ctlSram = s.ctlSram ∧ (s.writeStore .dram a b).take = s.take := by
  have counted : Counted s ((partWords a b.length).foldl (fun t i => t.noteWords .dram (16 * i) 16) s) :=
    foldl_keeps (Counted s) _ (fun _ _ kept => kept.noteWords _ _ _) _ s .refl
  have ctl := Counted.ctlSram counted
  have take := counted.frame.take
  unfold State.writeStore
  extract_lets t
  exact ⟨rfl, ctl, take⟩

/-- A remote write that the map and the window allow (R446). -/
theorem remoteWrite_of_window (within : p.field 16 8 % 64 + p.payload.length ≤ 64) (map : s.mpmAllows true true (p.field 16 8) = true)
    (window : p.field 16 8 < s.window) (noExt : ∀ n : Nat, s.extBuf n = none) (sound : p.bad = [])
    (none' : ∀ (n : Nat) (q : DramReq), q ∈ (s.chn n).queue → q.ini ≠ .kalsal k) :
    (s.remoteWrite k p).dram = s.dram.write (p.field 16 8) p.payload ∧ (s.remoteWrite k p).ctlSram = s.ctlSram ∧ (s.remoteWrite k p).take = s.take := by
  have dram : s.region (p.field 16 8) = .dram (p.field 16 8) := region_dram window
  have allowed : s.remoteAllowed k true (p.field 16 8) p.payload.length = (s.flumeAccept (s.link (.kalsal k)), true) := by
    unfold State.remoteAllowed
    dsimp only
    rw [if_neg (Nat.not_lt.mpr within), map, if_neg (by decide), show s.routerRefuses 0 (p.field 16 8) p.payload.length = false by
      unfold State.routerRefuses
      rw [dram], if_neg (by decide)]
  have uncached : ∀ u : State, u.ctlSync (p.field 16 8) p.payload.length true = u := fun u => by
    refine ctlSync_of_uncached (fun _ l _ => ?_) true
    have below := window_lt_cisBase s
    have bases : cisBase = 0x010000000000 ∧ ctlBase = 0x020000000000 := ⟨rfl, rfl⟩
    by_cases lo : ctlBase ≤ 64 * l.line
    · have off : ¬ 64 * l.line < p.field 16 8 + p.payload.length := by omega
      simp [CacheLine.ctlWithin, off]
    · simp [CacheLine.ctlWithin, lo]
  unfold State.remoteWrite
  dsimp only
  rw [allowed, sound]
  have dram1 : (s.flumeAccept (s.link (.kalsal k))).region (p.field 16 8) = .dram (p.field 16 8) := dram
  have noExt1 : ∀ n : Nat, (s.flumeAccept (s.link (.kalsal k))).extBuf n = Option.none := noExt
  have none1 : ∀ (n : Nat) (q : DramReq), q ∈ ((s.flumeAccept (s.link (.kalsal k))).chn n).queue → q.ini ≠ .kalsal k := none'
  have fields : (s.flumeAccept (s.link (.kalsal k))).dram = s.dram ∧ (s.flumeAccept (s.link (.kalsal k))).ctlSram = s.ctlSram ∧
      (s.flumeAccept (s.link (.kalsal k))).take = s.take := ⟨rfl, rfl, rfl⟩
  generalize s.flumeAccept (s.link (.kalsal k)) = u at dram1 noExt1 none1 fields
  have wrote : u.writeAt (.kalsal k) (p.field 16 8) p.payload = (u.writeStore .dram (p.field 16 8) p.payload, true) := by
    simp only [State.writeAt, State.memWrite, dram1, Region.cell, State.touchOk, noExt1, uncached, settle_of_none none1, if_true]
  rw [wrote]
  dsimp only
  rw [if_pos rfl]
  obtain ⟨dram', ctl, take⟩ := writeStore_dram u (p.field 16 8) p.payload
  obtain ⟨dram'', ctl', take'⟩ := kslSend_memory (u.writeStore .dram (p.field 16 8) p.payload) (p.answer u.deviceId stOk [] [])
  have keep : (if u.touchOk (.kalsal k) (u.region (p.field 16 8)) = true then
      (u.writeStore .dram (p.field 16 8) p.payload).poisonPayload (p.field 16 8) p.payload.length [] else u.writeStore .dram (p.field 16 8) p.payload) =
      u.writeStore .dram (p.field 16 8) p.payload := ite_self _
  rw [if_neg (show ¬ (!true) = true by decide), keep, dram'', ctl', take', dram', ctl, take]
  obtain ⟨sdram, sctl, stake⟩ := fields
  exact ⟨by rw [sdram], sctl, stake⟩

end Remote

/-! #### Messages, events and reference tiles (R113, R447, R449) -/

section Arrivals
variable {s : State} {k : Fin 4}

theorem msgRing_of_full {src : Half} {flow : Nat} {b : List Byte} {bad : List Nat}
    (full : (s.ksl.msgProd % 64 + 1) % 64 = (s.reg rKslMsgCons).toNat % 64) :
    (s.msgRing k src flow b bad).1 = (s.orReg rKslStat 2).bump rKslMsgLost 1 := by
  unfold State.msgRing
  dsimp only
  rw [if_pos full]

theorem poisonPayload_ksl (s : State) (a n : Nat) (bad : List Nat) : (s.poisonPayload a n bad).ksl = s.ksl := by
  unfold State.poisonPayload
  refine foldl_keeps (fun u : State => u.ksl = s.ksl) _ (fun u i kept => Eq.trans ?_ kept) bad s rfl
  unfold State.poisonAt
  split
  · rfl
  · rw [State.setStore_post]
  · rfl

theorem msgRing_of_room {src : Half} {flow : Nat} {b : List Byte} {bad : List Nat}
    (room : ¬ (s.ksl.msgProd % 64 + 1) % 64 = (s.reg rKslMsgCons).toNat % 64) :
    (s.msgRing k src flow b bad).1.ksl.msgProd = (s.ksl.msgProd % 64 + 1) % 64 := by
  unfold State.msgRing
  extract_lets prod cons a head t
  rw [if_neg room]
  exact congrArg Kalsal.msgProd (State.raise_frame t _).ksl

theorem hostPort_dropArrived (s : State) (k : Fin 4) : (s.dropArrived k).hostPort = s.hostPort := by
  have adapter : ∀ j, ((s.dropArrived k).kslPort j).peerAdapter = (s.kslPort j).peerAdapter := fun j => by
    by_cases own : j = k
    · subst own
      simp [State.dropArrived]
    · exact congrArg KslPort.peerAdapter (vget_vmod_ne s.ksl.ports own _)
  unfold State.hostPort
  simp only [adapter, portActive_dropArrived]

theorem evtArrive_of_host {p : Packet} {j : Fin 4} (host : s.hostPort = some j) (active : s.portActive j = true) :
    s.evtArrive k p = s.kslQueue j k.1 p := by
  unfold State.evtArrive
  rw [host]
  exact if_pos active

theorem refTile_of_stranger {p : Packet} (stranger : s.refSource p = none) : s.refTile k p = s.refRefuse k 1 := by
  unfold State.refTile
  dsimp only
  rw [stranger]

theorem writeSlotTile_slots (s : State) (i : Fin 16) (t : Nat) (l : List Half) : (s.writeSlotTile i t l).slots = s.slots := by
  have kept : ∀ u v : State, PostFrame u v → v.slots = u.slots := fun u v h => by rw [h]
  unfold State.writeSlotTile
  split
  · rfl
  · exact kept _ _ (foldl_post _ (fun u _ => foldl_post _ (fun v _ => State.poke_post v _ _) _ u) _ s)

/-- A tile that is accepted (R449). -/
theorem refWrite_spec (s : State) (k : Fin 4) (i : Fin 16) (p : Packet) :
    ((s.refWrite k i p).slot i).accepted = (s.slot i).accepted ++ [p.field 18 2] ∧ ((s.refWrite k i p).slot i).port = k ∧
      ∀ n, n ≠ i → (s.refWrite k i p).slot n = s.slot n := by
  unfold State.refWrite
  extract_lets t v
  have mine : v.slot i = { s.slot i with accepted := (s.slot i).accepted ++ [t], port := k } := by
    rw [show v.slot i = _ from slot_modSlot_same _ i _, show (State.slot _ i) = s.slot i from congrArg (vget · i) (writeSlotTile_slots s i t _)]
  have others : ∀ n, n ≠ i → v.slot n = s.slot n := fun n ne =>
    (slot_modSlot_ne _ ne _).trans (congrArg (vget · n) (writeSlotTile_slots s i t _))
  clear_value v
  split
  · have slots : ∀ (u : State) (n : Nat) (j : Fin 16), (u.raise n).slot j = u.slot j := fun u n j => congrArg (vget · j) (State.raise_frame u n).slots
    have whole := slot_modSlot_same { v with wholeViews := v.wholeViews ++ ((v.slot i).source.map (fun j => (j, (v.slot i).picture))).toList } i
      (fun x => { x with mark := .viewIn })
    refine ⟨?_, ?_, fun n ne => ?_⟩
    · rw [slots, whole]
      exact congrArg Slot.accepted mine
    · rw [slots, whole]
      exact congrArg Slot.port mine
    · rw [slots, slot_modSlot_ne _ ne]
      exact others n ne
  · exact ⟨by rw [mine], by rw [mine], others⟩

/-- A tile that meets R113's conditions, of a picture that is arriving. -/
theorem refTile_of_arriving {p : Packet} {j : Fin 4} {i : Fin 16} (source : s.refSource p = some j)
    (rank : p.field 16 2 = refSrcRank (s.active unitRef) j.1) (code : p.field 16 2 < codeRank (s.active unitCode)) (geometry : s.refGeometry p = true)
    (kept : s.refAbandoned j (BitVec.ofNat 32 (p.field 20 4)) (BitVec.ofNat 64 (p.field 24 8)) = false) (check : s.refCheck p = true)
    (slot : s.peerSlot j (BitVec.ofNat 32 (p.field 20 4)) = some i) (arriving : (s.slot i).mark ≠ .viewIn)
    (new : p.field 18 2 ∉ (s.slot i).accepted) : s.refTile k p = s.refWrite k i p := by
  unfold State.refTile
  dsimp only
  rw [source]
  dsimp only
  rw [if_neg (by omega), geometry, if_neg (by decide), kept, if_neg (by decide), check, if_neg (by decide), slot]
  exact if_neg (not_or.mpr ⟨arriving, by simpa using new⟩)

end Arrivals

/-! #### Responses and timeouts (R448, R457) -/

section Responses
variable {s : State}

theorem kslPumpAll_of_none (idle : s.ksl.wait = []) : s.kslPumpAll = s := kslPump_of_none idle _

theorem timeout_of_listed {tag : Half} (listed : tag ∈ s.ksl.out) (idle : s.ksl.wait = []) : Gives (.remoteRequestTimeout tag) s
    (((s.modKsl (fun x => { x with out := x.out.filter (fun r => r ≠ tag) })).orReg rKslStat 4).bump rKslRmtTimeouts 1) :=
  gives_of_eq rfl ((if_pos (by simpa using listed)).trans (kslPumpAll_of_none idle))

theorem timeout_of_unlisted {tag : Half} (unlisted : tag ∉ s.ksl.out) : Gives (.remoteRequestTimeout tag) s s :=
  gives_of_eq rfl (if_neg (by simpa using unlisted))

end Responses

/-- Settles O27: the EVT packets of the device's event targets, and what becomes of packets that arrived (R113, R396, R446-R449, R457). -/
theorem kalsalPackets : Obligations.KalsalPackets := by
  unfold Obligations.KalsalPackets
  refine ⟨?_, ?_⟩
  · intro t s tgt dst k
    refine ⟨fun nothing => gives_of_eq rfl (kalsalClaim_of_none t nothing), fun source way idle full => ?_, fun source way idle room => ?_⟩
    · refine ⟨_, gives_of_eq rfl (kalsalClaim_waits t source way idle full), ?_, ?_⟩
      · rw [claimed_eq t idle]
        rfl
      · rw [claimed_eq t idle]
    · exact ⟨_, rfl, kalsalClaim_leaves t source way idle room⟩
  · intro k p stamp rest b j i tag s s1 s2 s0 a t reaches
    refine ⟨fun empty c mem => ?_, fun head => ⟨fun type request way allowed read => ?_, fun type request way crossing => ?_,
      fun type request out => ?_, fun type request out => ?_, fun type request way none' within map window noExt sound => ?_, fun type room => ?_,
      fun type full => ?_, fun type request host active => ?_, fun type stranger => ?_,
      fun type source rank code geometry kept check slot arriving new => ?_, fun type response => ⟨fun listed idle => ?_, fun unlisted => ?_⟩⟩,
      timeout_of_listed, timeout_of_unlisted⟩
    · simp only [List.mem_cons, List.not_mem_nil, or_false] at mem
      rcases mem with rfl | rfl | rfl | rfl | rfl | rfl
      · exact gives_of_eq rfl (onRequest_of_empty empty _ _ _)
      · exact gives_of_eq rfl (onRequest_of_empty empty _ _ _)
      · exact gives_of_eq rfl (onArrived_of_empty empty)
      · exact gives_of_eq rfl (onArrived_of_empty empty)
      · exact gives_of_eq rfl (onArrived_of_empty empty)
      · exact gives_of_eq rfl (onArrived_of_empty empty)
    · exact gives_of_eq rfl ((onRequest_reaches head type request _ _ way).trans (remoteRead_of_ok allowed read))
    · exact gives_of_eq rfl ((onRequest_reaches head type request _ _ way).trans (remoteRead_of_crossing crossing))
    · exact gives_of_eq rfl (onRequest_waits head type request _ _ out)
    · exact gives_of_eq rfl (onRequest_waits head type request _ _ out)
    · exact ⟨_, gives_of_eq rfl (onRequest_reaches head type request _ _ way),
        remoteWrite_of_window (s := s0) within map window noExt sound none'⟩
    · exact ⟨_, gives_of_eq rfl (onArrived_of_head head (by simp [type])), msgRing_of_room (s := s0) room⟩
    · exact gives_of_eq rfl ((onArrived_of_head head (by simp [type])).trans (msgRing_of_full (s := s0) full))
    · exact gives_of_eq rfl ((onArrived_of_head head (by simp [type, request])).trans
        (evtArrive_of_host ((hostPort_dropArrived s k).trans host) ((portActive_dropArrived s k j).trans active)))
    · exact gives_of_eq rfl ((onArrived_of_head head (by simp [type])).trans (refTile_of_stranger stranger))
    · exact ⟨_, gives_of_eq rfl ((onArrived_of_head head (by simp [type])).trans
        (refTile_of_arriving (s := s0) source rank code geometry kept check slot arriving new)), refWrite_spec s0 k i p⟩
    · refine ⟨_, gives_of_eq rfl ((onArrived_of_head head (by simp [response, or_assoc, type])).trans
        ((if_pos (List.contains_iff_mem.mpr listed)).trans (kslPumpAll_of_none idle))), rfl⟩
    · exact gives_of_eq rfl ((onArrived_of_head head (by simp [response, or_assoc, type])).trans (if_neg (fun mem => unlisted (List.contains_iff_mem.mp mem))))

end Sys2Proof.Proofs.KalsalPacketHandling

/-! ### The take's commands and its ends (O19) -/

namespace Sys2Proof.Proofs.TakeCommands

open Sys2Proof.Machine Sys2Proof.Claims Sys2Proof.Proofs.Power Sys2Proof.Proofs.Commands Sys2Proof.Proofs.LedgerActions
open Sys2Proof.Proofs.Takeover Sys2Proof.Proofs.Maintenance Sys2Proof.Proofs.TakeStops

/-! ### What leaves the take and the slots as they are -/

/-- The take and the reference slots are as before. -/
def Still (s t : State) : Prop := t.take = s.take ∧ t.slots = s.slots

theorem Still.refl (s : State) : Still s s := ⟨rfl, rfl⟩

theorem Still.trans {s t u : State} (h : Still s t) (h' : Still t u) : Still s u := ⟨h'.1.trans h.1, h'.2.trans h.2⟩

theorem Still.of_post {s t : State} (h : PostFrame s t) : Still s t := ⟨by rw [h], by rw [h]⟩

theorem Still.of_event {s t : State} (h : EventFrame s t) : Still s t := ⟨h.take, h.slots⟩

theorem Still.ite {s a b : State} {c : Prop} [Decidable c] (ha : Still s a) (hb : Still s b) : Still s (if c then a else b) := by
  split
  · exact ha
  · exact hb

section Boundaries
variable (s : State)

theorem foldl_still {β : Type} {f : State → β → State} (each : ∀ s b, Still s (f s b)) (l : List β) : Still s (l.foldl f s) :=
  foldl_keeps (Still s) f (fun t b kept => kept.trans (each t b)) l s (.refl s)

theorem returnEngines_still : Still s s.returnEngines := by
  unfold State.returnEngines
  extract_lets back
  have engines : Still s back := foldl_still s (fun t e => by
    split
    · exact ⟨rfl, rfl⟩
    · exact .refl t) _
  refine engines.trans (foldl_still back (fun t n => ?_) _)
  split
  · exact Still.trans (t := t.modCluster n _) ⟨rfl, rfl⟩ (.of_post (State.propose_post _ _ _ _ _))
  · exact Still.trans (t := t.modCluster n _) ⟨rfl, rfl⟩ (.of_post (State.threshold_post _))
  · exact .refl t

theorem startExec_still : Still s s.startExec := by
  unfold State.startExec
  split
  · exact .ite ⟨rfl, rfl⟩ (.refl s)
  · exact .refl s

theorem fspTake_still : Still s s.fspTake := by
  unfold State.fspTake
  split
  · exact .ite (.refl s) (.ite ⟨rfl, rfl⟩ ⟨rfl, rfl⟩)
  · exact .refl s

theorem takeBoundary_still : Still s s.takeBoundary := ((returnEngines_still s).trans (startExec_still _)).trans (fspTake_still _)

theorem moveTake_still (st : TakeState) (cause : Nat) :
    Still (s.modTake (fun t => { t with st := st, cause := BitVec.ofNat 8 cause })) (s.moveTake st cause) := by
  unfold State.moveTake
  extract_lets t
  have rung : Still (s.modTake _) t := .of_event (State.raise_frame _ _)
  exact .ite (rung.trans (takeBoundary_still t)) rung

theorem take_moveTake (st : TakeState) (cause : Nat) : (s.moveTake st cause).take = { s.take with st := st, cause := BitVec.ofNat 8 cause } :=
  (moveTake_still s st cause).1

theorem postOwed_still (p : Option PendingCmd) (status : Nat) (value : DWord) : Still s (s.postOwed p status value) :=
  .of_post (postOwed_post s p status value)

end Boundaries

/-! ### The take but for its pictures -/

/-- Of the take only the pictures may have changed, and where there were none there are none. -/
def PicsOnly (s t : State) : Prop := t.take = { s.take with pics := t.take.pics } ∧ (s.take.pics = [] → t.take.pics = [])

theorem PicsOnly.refl (s : State) : PicsOnly s s := ⟨rfl, id⟩

theorem PicsOnly.trans {s t u : State} (h : PicsOnly s t) (h' : PicsOnly t u) : PicsOnly s u := ⟨h'.1.trans (by rw [h.1]), h'.2 ∘ h.2⟩

theorem PicsOnly.same {s t : State} (take : t.take = s.take) : PicsOnly s t := ⟨by rw [take], fun none => by rw [take, none]⟩

theorem PicsOnly.ite {s a b : State} {c : Prop} [Decidable c] (ha : PicsOnly s a) (hb : PicsOnly s b) : PicsOnly s (if c then a else b) := by
  split
  · exact ha
  · exact hb

section Records
variable (s : State)

theorem foldl_picsOnly {β : Type} {f : State → β → State} (each : ∀ s b, PicsOnly s (f s b)) (l : List β) : PicsOnly s (l.foldl f s) :=
  foldl_keeps (PicsOnly s) f (fun t b kept => kept.trans (each t b)) l s (.refl s)

theorem foldl_modLog_picsOnly (f : Fin 2 → TakeLog → TakeLog) (l : List (Fin 2)) : PicsOnly s (l.foldl (fun s k => s.modLog k (f k)) s) :=
  foldl_picsOnly (f := fun s k => s.modLog k (f k)) s (fun _ _ => .same rfl) l

theorem ledgerDo_picsOnly (m : Fin 2) (f : Ledger → Ledger) : PicsOnly s (s.ledgerDo m f) := .same (ledgerDo_spec s m f).1.take

theorem markSpilled_picsOnly (k : Option Nat) : PicsOnly s (s.markSpilled k) := by
  unfold State.markSpilled
  split
  · exact .refl s
  · exact .ite ⟨rfl, fun none => congrArg (List.map _) none⟩ (.refl s)

theorem placeUnit_picsOnly (m : Fin 2) (u : Fin 2 → LogUnit) : PicsOnly s (s.placeUnit m u) := by
  unfold State.placeUnit
  extract_lets l n other one spilled
  have placed : PicsOnly s spilled := PicsOnly.trans (t := s.modLedger m _) (.same rfl) (markSpilled_picsOnly _ _)
  exact .ite (.ite (placed.trans (.same (ledgerEvent_event _ _ _).take)) placed) (foldl_modLog_picsOnly s _ _)

theorem addRecord_picsOnly (m : Fin 2) (type : Nat) (body : Fin 2 → List Byte) (trailer : Bool) : PicsOnly s (s.addRecord m type body trailer) :=
  (placeUnit_picsOnly s m _).trans (foldl_modLog_picsOnly _ _ _)

theorem endRun_picsOnly (m : Fin 2) : PicsOnly s (s.endRun m) := by
  unfold State.endRun
  split
  · exact .refl s
  · exact (addRecord_picsOnly s m _ _ _).trans (foldl_modLog_picsOnly _ _ _)

theorem writeIndex_picsOnly (m : Fin 2) : PicsOnly s (s.writeIndex m).1 := by
  unfold State.writeIndex
  extract_lets ended at0 added
  have run : PicsOnly s ended := endRun_picsOnly s m
  split
  · exact run
  · exact (run.trans (addRecord_picsOnly ended m _ _ _)).trans (foldl_modLog_picsOnly _ _ _)

theorem closeLog_picsOnly (m : Fin 2) (reason : Nat) (charge : Bool) : PicsOnly s (s.closeLog m reason charge) := by
  unfold State.closeLog
  extract_lets a0 indexed trailed closed
  have index : PicsOnly s indexed := writeIndex_picsOnly s m
  have trailer : PicsOnly indexed trailed := addRecord_picsOnly indexed m _ _ _
  have shut : PicsOnly trailed closed := foldl_modLog_picsOnly trailed (fun _ => _) _
  have all : PicsOnly s closed := (index.trans trailer).trans shut
  exact .ite (.refl s) (.ite (all.trans (ledgerDo_picsOnly closed m _)) all)

end Records

/-! ### ROLL -/

/-- The take as ROLL leaves it, but for its pictures. -/
def rolled (s : State) : State :=
  s.modTake (fun t => { t with st := .rolling, cause := 0, startPtp := s.clk.ns, nextPic := 0, began := false })

theorem roll_picsOnly (s : State) : PicsOnly (rolled s) s.roll := by
  unfold State.roll
  extract_lets t
  have moved : PicsOnly (rolled s) t := .same (take_moveTake _ _ _)
  refine moved.trans (foldl_picsOnly t (fun u m => ?_) _)
  extract_lets shown a0 headed
  have header : PicsOnly shown headed := addRecord_picsOnly shown m _ _ _
  exact ((foldl_modLog_picsOnly u _ _).trans header).trans (ledgerDo_picsOnly _ _ _)

/-! ### ABORT and FAULTED -/

section Stops
variable (s : State)

theorem noteDrop_picsOnly (m : Fin 2) (k r : Nat) (ptp : DWord) : PicsOnly s (s.noteDrop m k r ptp).1 := by
  unfold State.noteDrop
  extract_lets same ended add
  have run : PicsOnly s ended := .ite (.refl s) (endRun_picsOnly s m)
  exact run.trans (foldl_modLog_picsOnly _ (fun _ => add) _)

theorem indexAfter_picsOnly (m : Fin 2) (k : Nat) : PicsOnly s (s.indexAfter m k).1 := by
  unfold State.indexAfter
  split
  · exact writeIndex_picsOnly s m
  · exact .refl s

theorem notePictures_picsOnly (reason : Option Nat) : PicsOnly s (s.notePictures reason) :=
  foldl_picsOnly s (fun t x => by
    dsimp only
    split
    · exact .refl t
    · exact (noteDrop_picsOnly t _ _ _ _).trans (indexAfter_picsOnly _ _ _)) _

theorem passBands_picsOnly : PicsOnly s s.passBands := by
  unfold State.passBands
  refine .ite (.refl s) (foldl_picsOnly s (fun t m => ?_) _)
  split
  · exact .ite (.refl t) (foldl_modLog_picsOnly t (fun _ => _) _)
  · exact .refl t

theorem take_dropCurrent (i : Fin 16) : (s.dropCurrent i).take = s.take := proj_ite rfl rfl

theorem take_stopCapture (p : Nat → Bool) : (s.stopCapture p).take = s.take :=
  foldl_proj State.take (fun s e => by
    split
    · exact proj_ite rfl rfl
    · rfl) _ s

theorem dropPictures_all : (s.dropPictures (fun _ => true)).take = { s.take with pics := [] } := by
  unfold State.dropPictures
  extract_lets gone slotless stopped
  have dropped : slotless.take = s.take := foldl_proj State.take (fun s x => by
    split
    · exact take_dropCurrent s _
    · rfl) gone s
  have take : stopped.take = s.take := (take_stopCapture _ _).trans dropped
  clear_value stopped
  show { stopped.take with pics := stopped.take.pics.filter (fun _ => false) } = _
  rw [take, List.filter_eq_nil_iff.mpr (fun _ _ => Bool.false_ne_true)]

/-- However the take stops, its pictures are gone. -/
theorem stopTake_take (reason : Nat) (dropReason : Option Nat) : (s.stopTake reason dropReason).take = { s.take with pics := [] } := by
  unfold State.stopTake
  extract_lets rolling noted dropped logged
  have note : PicsOnly s noted := .ite ((passBands_picsOnly s).trans (notePictures_picsOnly _ _)) (.refl s)
  have drop : dropped.take = { s.take with pics := [] } := (dropPictures_all noted).trans (by rw [note.1])
  have close : PicsOnly dropped logged := by
    refine .ite ((foldl_picsOnly dropped (fun t m => ledgerDo_picsOnly t m _) _).trans (foldl_picsOnly _ (fun t m => ?_) _)) (.refl _)
    exact .ite (closeLog_picsOnly t m _ _) (foldl_modLog_picsOnly t (fun _ => _) _)
  have none : logged.take.pics = [] := close.2 (by rw [drop])
  show logged.take = _
  rw [close.1, none, drop]

theorem abortTake_take : s.abortTake.take = { s.take with st := .closed, cause := 0, pics := [], cutCmd := none, faultPending := none } := by
  unfold State.abortTake
  extract_lets c stopped
  have moved : stopped.take = _ := congrArg (fun t : Take => { t with cutCmd := none, faultPending := none })
    ((take_moveTake _ .closed 0).trans (by rw [stopTake_take s 3 none]))
  exact (postOwed_still _ _ _ _).1.trans moved

theorem faultTake_take (running : s.take.setup.isSome ∨ s.take.st ≠ .idle) (live : s.take.st ≠ .faulted) (cause status : Nat) :
    (s.faultTake cause status).take =
      { s.take with st := .faulted, cause := BitVec.ofNat 8 cause, pics := [], setup := none, cutCmd := none, faultPending := none } := by
  have runs : (decide (s.take.st = .idle) && s.take.setup.isNone || decide (s.take.st = .faulted)) = false := by
    rcases running with held | out
    · simp [live, held]
    · simp [live, out]
  unfold State.faultTake
  extract_lets idle setup cut stopped moved posted
  have take : moved.take = _ := congrArg (fun t : Take => { t with setup := none, cutCmd := none, faultPending := none })
    ((take_moveTake stopped .faulted cause).trans (by rw [show stopped.take = _ from stopTake_take s 2 (some 3)]))
  have owed : posted.take = moved.take := ((postOwed_still moved _ _ _).trans (postOwed_still _ _ _ _)).1
  rw [show (idle && s.take.setup.isNone || decide (s.take.st = .faulted)) = false from runs]
  exact ((State.raise_frame posted 11).take.trans owed).trans take

end Stops

/-! ### CLOSE -/

/-- A slot that is UNUSED stays so. -/
def SlotsGone (s t : State) : Prop := ∀ i, (s.slot i).mark = .unused → (t.slot i).mark = .unused

theorem SlotsGone.refl (s : State) : SlotsGone s s := fun _ => id

theorem SlotsGone.trans {s t u : State} (h : SlotsGone s t) (h' : SlotsGone t u) : SlotsGone s u := fun i gone => h' i (h i gone)

theorem SlotsGone.same {s t : State} (slots : t.slots = s.slots) : SlotsGone s t := fun i gone => by
  rw [State.slot, slots]
  exact gone

theorem SlotsGone.ite {s a b : State} {c : Prop} [Decidable c] (ha : SlotsGone s a) (hb : SlotsGone s b) : SlotsGone s (if c then a else b) := by
  split
  · exact ha
  · exact hb

section Closing
variable (s : State)

theorem foldl_slotsGone {β : Type} {f : State → β → State} (each : ∀ s b, SlotsGone s (f s b)) (l : List β) : SlotsGone s (l.foldl f s) :=
  foldl_keeps (SlotsGone s) f (fun t b kept => kept.trans (each t b)) l s (.refl s)

theorem modSlot_slotsGone (i : Fin 16) {f : Slot → Slot} (keeps : ∀ x, x.mark = .unused → (f x).mark = .unused) : SlotsGone s (s.modSlot i f) :=
  fun j gone => by
    rcases eq_or_ne j i with rfl | other
    · rw [slot_modSlot_same]
      exact keeps _ gone
    · rw [slot_modSlot_ne s other]
      exact gone

theorem dropCurrent_slotsGone (i : Fin 16) : SlotsGone s (s.dropCurrent i) :=
  .ite (modSlot_slotsGone s i (fun _ _ => rfl)) (modSlot_slotsGone s i (fun _ => id))

theorem slots_stopCapture (p : Nat → Bool) : (s.stopCapture p).slots = s.slots :=
  foldl_proj State.slots (fun s e => by
    split
    · exact proj_ite rfl rfl
    · rfl) _ s

theorem sensorDrop_slotsGone (k : Nat) : SlotsGone s (s.sensorDrop k) := by
  unfold State.sensorDrop
  split
  · exact .refl s
  · next p found =>
    refine .ite (.refl s) ?_
    extract_lets m stopped slotless mine released
    have stop : SlotsGone s stopped := .same (slots_stopCapture _ _)
    have drop : SlotsGone stopped slotless := by
      cases hp : p.slot with
      | none => simp only [slotless, hp]; exact .refl _
      | some i => simp only [slotless, hp]; exact dropCurrent_slotsGone stopped i
    have release : SlotsGone slotless released := .ite (.refl _) (.same (by rw [(ledgerDo_spec slotless m _).1.1]))
    exact ((stop.trans drop).trans release).trans (.same rfl)

theorem snsEnd_slotsGone : SlotsGone s s.snsEnd := by
  unfold State.snsEnd
  split
  · exact .refl s
  · next x _ =>
    extract_lets c lost begun ended counted
    have begin : SlotsGone s begun := .ite (.same rfl) (.refl s)
    have count : SlotsGone ended counted := by
      cases hl : lost with
      | none => simp only [counted, hl]; exact .refl _
      | some q =>
        simp only [counted, hl]
        exact .ite (.same (State.raise_frame _ _).slots) (.refl _)
    have outcome : SlotsGone counted (counted.snsOutcome x (x.slot.isSome && lost.isNone)) :=
      .ite (.ite (.same rfl) ((sensorDrop_slotsGone counted _).trans (.same rfl))) (.ite (.same rfl) (.refl _))
    exact ((begin.trans (.same rfl)).trans count).trans outcome

theorem snsRelink_slotsGone : SlotsGone s s.snsRelink :=
  foldl_slotsGone s (fun t k => by
    extract_lets x same
    have relinked : SlotsGone t (if same then t else t.snsDown k) := by
      refine .ite (.refl t) ?_
      unfold State.snsDown
      extract_lets dropped
      have drop : SlotsGone t dropped := .ite (.same rfl) (.refl t)
      have set : SlotsGone dropped (dropped.snsSet k .down) := .ite (.refl _) (.same (State.raise_frame _ _).slots)
      exact (drop.trans set).trans (snsEnd_slotsGone _)
    exact relinked.trans (.same rfl)) _

theorem slots_setService (p v : Nat) (x : Service) : (s.setService p v x).slots = s.slots := rfl

theorem slots_sluPlace (f : Nat) : (s.sluPlace f).slots = s.slots := proj_ite rfl (proj_ite rfl rfl)

theorem slots_sluTakeover : s.sluTakeover.slots = s.slots := by
  unfold State.sluTakeover
  extract_lets t
  have flows : t.slots = s.slots := foldl_proj State.slots (fun s f => by
    extract_lets
    exact (slots_sluPlace _ _).trans (proj_ite (s := s) (State.raise_frame _ _).slots rfl)) _ s
  clear_value t
  exact (foldl_proj State.slots (fun s p => foldl_proj State.slots (fun s v => slots_setService s p v _) _ s) _ t).trans flows

theorem discardBanks_slotsGone : SlotsGone s s.discardBanks := by
  unfold State.discardBanks
  extract_lets t
  have ended : SlotsGone s t :=
    (((SlotsGone.same rfl).trans (.same (slots_sluTakeover { s with banks := Vector.replicate 14 Bank.empty }))).trans (snsEnd_slotsGone _)).trans
      (snsRelink_slotsGone _)
  clear_value t
  refine .ite (ended.trans (.same (foldl_proj State.slots (fun t p => ?_) _ _))) ended
  unfold State.cisNotice
  extract_lets falls warned
  have warn : warned.slots = t.slots := proj_ite (s := t) (State.raise_frame _ _).slots rfl
  clear_value warned
  exact proj_ite ((State.raise_frame _ _).slots.trans warn) warn

theorem slots_endProgram : s.endProgram.slots = s.slots := by
  unfold State.endProgram State.cisRelease
  refine (foldl_proj State.slots (fun t e => ?_) _ _).trans ?_
  · split
    · exact proj_ite rfl rfl
    · rfl
  · exact foldl_proj State.slots (fun t k => by split <;> rfl) _ s

/-- What CLOSE does to slot `i`. -/
def closeSlot (s : State) (i : Fin 16) : State := if (s.slot i).pinned then s.modSlot i (fun x => { x with prevTake := true }) else s.freeSlot i

theorem slots_closeSlots (i : Fin 16) : s.closeSlots.slot i = (allSlots.foldl closeSlot s).slot i := by
  dsimp only [State.closeSlots, State.slot]
  generalize allSlots = l
  rfl

theorem closeSlot_unpinned {i : Fin 16} (free : (s.slot i).pinned = false) (j : Fin 16) : ((closeSlot s j).slot i).pinned = false := by
  unfold closeSlot
  rcases eq_or_ne i j with rfl | other
  · rw [free]
    exact congrArg Slot.pinned (slot_modSlot_same s i _)
  · split
    · rwa [slot_modSlot_ne s other]
    · rwa [State.freeSlot, slot_modSlot_ne s other]

/-- CLOSE keeps only the slots that MARK pinned. -/
theorem closeSlots_unpinned {i : Fin 16} (free : (s.slot i).pinned = false) : (s.closeSlots.slot i).mark = .unused := by
  have closed : ∀ t, ((t.slot i).pinned = false → ((closeSlot t i).slot i).mark = .unused) := fun t free => by
    rw [closeSlot, free]
    exact congrArg Slot.mark (slot_modSlot_same t i _)
  obtain ⟨pre, post, split⟩ := List.append_of_mem (mem_allSlots i)
  rw [slots_closeSlots, split, List.foldl_append, List.foldl_cons]
  have before : ((pre.foldl closeSlot s).slot i).pinned = false :=
    foldl_keeps (fun t => (t.slot i).pinned = false) closeSlot (fun t j h => closeSlot_unpinned t h j) pre s free
  exact foldl_slotsGone (f := closeSlot) _ (fun t j => .ite (modSlot_slotsGone t j (fun _ => id)) (modSlot_slotsGone t j (fun _ _ => rfl))) post i
    (closed _ before)

theorem magReopen_still (m : Fin 2) : Still s (s.magReopen m) := .ite ⟨rfl, rfl⟩ (.refl s)

/-- The last steps of CLOSE: no program is in setup, the take is IDLE, and the completion of a program that was in setup is posted. -/
theorem idled_spec (setup : Option PendingCmd) (status : Nat) {t : State}
    (idle : (s.modTake (fun t => { t with setup := none })).moveTake .idle 0 = t) :
    let u := State.postOwed { t with freeCount := t.freeCount + 1 } setup status 0
    u.take = { s.take with st := .idle, cause := 0, setup := none } ∧ u.slots = s.slots := by
  have moved : t.take = { s.take with st := .idle, cause := 0, setup := none } := idle ▸ take_moveTake _ .idle 0
  have slots : t.slots = s.slots := idle ▸ (moveTake_still _ .idle 0).2
  have posted := postOwed_still { t with freeCount := t.freeCount + 1 } setup status 0
  exact ⟨posted.1.trans moved, posted.2.trans slots⟩

/-- The take is IDLE after CLOSE, no program is in setup, and only the slots that MARK pinned are in use. -/
theorem closeTake_spec : s.closeTake.take.st = .idle ∧ s.closeTake.take.setup = none ∧
    ∀ i, (s.slot i).pinned = false → (s.closeTake.slot i).mark = .unused := by
  have gone : SlotsGone s.endProgram.stopStreams.closeSlots s.endProgram.stopStreams.closeSlots.discardBanks := discardBanks_slotsGone _
  have unpinned : ∀ i, (s.endProgram.stopStreams.slot i) = s.slot i := fun i => congrArg (vget · i) (slots_endProgram s)
  unfold State.closeTake
  extract_lets setup ended reopened idle
  have reopen : Still ended reopened := by
    refine foldl_still ended (fun t m => Still.trans (t := t.magReopen m) (magReopen_still t m) ?_) _
    exact ⟨rfl, rfl⟩
  have unused : ∀ i, (s.slot i).pinned = false → (ended.slot i).mark = .unused := fun i free =>
    gone i (closeSlots_unpinned _ (by rw [unpinned]; exact free))
  clear_value reopened ended
  obtain ⟨take, slots⟩ := idled_spec reopened setup (freeStatus (Config.unstated 22 idle.freeCount)) (t := idle) rfl
  clear_value idle
  refine ⟨congrArg Take.st take, congrArg Take.setup take, fun i free => ?_⟩
  exact SlotsGone.same (slots.trans reopen.2) i (unused i free)

end Closing

/-! ### Settlement -/

theorem checkCut_of_pics {s : State} (pics : s.take.pics ≠ []) : s.checkCut = s := by
  have closed : s.checkClosed = s := if_pos (.inr pics)
  unfold State.checkCut
  rw [if_neg (fun h => pics h.2.1), closed]

section Settlement
variable {s : State} {h : CmdHead}

theorem take_took (s : State) (h : CmdHead) : (took s h).take = s.take := rfl

/-- What CUT does from ROLLING. -/
theorem cut_moves (s : State) (p : PendingCmd) (pics : s.take.pics ≠ []) :
    ((s.modTake (fun t => { t with cutCmd := some p })).moveTake .cutting 0).checkCut =
      (s.modTake (fun t => { t with st := .cutting, cause := 0, cutCmd := some p })).raise 528 := by
  rw [moveTake_of_live (by decide)]
  refine checkCut_of_pics ?_
  rw [(State.raise_frame _ 528).take]
  exact pics

theorem done_still (s : State) (p : PendingCmd) (status value : Nat) : Still s (s.done p status value) := .of_post (post_frame s p _ _ _)

theorem takeIn_other {l m : List TakeState} (within : s.takeIn l = true) (apart : l.all (fun st => !m.contains st) = true := by decide) :
    s.takeIn m = false := by
  unfold State.takeIn at within ⊢
  have out := List.all_eq_true.mp apart s.take.st (List.contains_iff_mem.mp within)
  simpa using out

/-- Settles O19: each command by the judgement of its entry and the state, and what it does by what the moves leave of the take and the slots. -/
theorem takeMoves : Obligations.TakeMoves := by
  intro h s p refused
  refine ⟨fun front armed => ?_, fun front other => ?_, fun front rolling pics => ?_, fun front other => ?_, fun front legal => ?_,
    fun front out => ?_, fun front legal => ?_, fun front out => ?_⟩
  · refine ⟨_, congrArg Host.Outcome.next (judge_legal front (by simp [State.takeIn, armed]) _), ?_⟩
    obtain ⟨take, -⟩ := roll_picsOnly (took s h)
    rw [(done_still _ _ _ _).1, take]
    exact ⟨rfl, rfl, rfl⟩
  · exact congrArg Host.Outcome.next (judge_state front (by simp [State.takeIn, other]) _ _)
  · refine congrArg Host.Outcome.next ((judge_pending front (by simp [State.takeIn, rolling]) _).trans (cut_moves _ _ ?_))
    rw [(Still.of_post (post_frame (took s h) p stPending false 0)).1]
    exact pics
  · exact congrArg Host.Outcome.next (judge_state front (by simp [State.takeIn, other]) _ _)
  · refine ⟨_, congrArg Host.Outcome.next (judge_legal front legal _), ?_⟩
    obtain ⟨idle, setup, unused⟩ := closeTake_spec (took s h)
    have post := done_still (took s h).closeTake p stOk 0
    refine ⟨(congrArg Take.st post.1).trans idle, (congrArg Take.setup post.1).trans setup, fun i free => ?_⟩
    exact SlotsGone.same post.2 i (unused i free)
  · exact congrArg Host.Outcome.next (judge_state front (takeIn_other out) _ _)
  · refine ⟨_, congrArg Host.Outcome.next (judge_legal front legal _), ?_⟩
    rw [(done_still _ _ _ _).1, abortTake_take]
    exact ⟨rfl, rfl, rfl⟩
  · exact congrArg Host.Outcome.next (judge_state front (takeIn_other out) _ _)

end Settlement

end Sys2Proof.Proofs.TakeCommands

/-! ### The rings' registers, and the take on heartbeat loss and setup timeout (O22) -/

namespace Sys2Proof.Proofs.RingsAndTimeouts

open Sys2Proof.Machine Sys2Proof.Claims Sys2Proof.Proofs.ClusterRegisters Sys2Proof.Proofs.Takeover Sys2Proof.Proofs.TakeCommands

/-! ### Ring registers (R273) -/

section Rings
variable {s : State} {ini : Initiator} {k : Fin 4}

/-- An access that its way accepts is made at once. -/
theorem access_of_enters {off : Nat} (enters : Enters s ini off) (c : Instr) (f : State → State) : s.regAccess ini off c f = f s := if_pos enters

theorem flushStalled_kept (fuel : Nat) {t : State} (regs : SameRegs s t) (visible : t.visible = s.visible) :
    SameRegs s (t.flushStalled fuel) ∧ (t.flushStalled fuel).visible = s.visible := by
  induction fuel generalizing t with
  | zero => exact ⟨regs, visible⟩
  | succ n ih =>
    unfold State.flushStalled
    split
    · exact ⟨regs, visible⟩
    · next c cs _ =>
      extract_lets t1
      have dropped : SameRegs s t1 := regs.same rfl
      split
      · exact ih dropped visible
      · split
        · exact ⟨regs, visible⟩
        · exact ih (dropped.writeCompletion c) (by rw [State.writeCompletion_post t1 c]; exact visible)

theorem ringOn_tail (s : State) (k : Fin 4) (w : Word) : (s.setReg (rTabCmdTail k.1) w).ringOn k = s.ringOn k := by
  unfold State.ringOn State.ringLog2
  rw [State.reg_setReg_ne s (by unfold rTabCmdSize rTabCmdTail; omega)]

theorem ringOff_spec (wf : mapWf regReset s.regs) : (s.ringOff k).ringLog2 k = 0 ∧ k ∉ (s.ringOff k).visible := by
  unfold State.ringOff
  extract_lets cleared t
  obtain ⟨regs, visible⟩ := flushStalled_kept (s := t) t.stalled.length (.refl t) rfl
  have off : t.reg (rTabCmdSize k.1) = 0 := (State.reg_setReg wf _ _ _).trans (if_pos rfl)
  generalize t.flushStalled t.stalled.length = u at regs visible
  refine ⟨?_, ?_⟩
  · rw [State.ringLog2, regs _ (.inr (by unfold rTabCmdSize; omega)), off]
    rfl
  · rw [visible]
    simp [t]

theorem regReset_ringSize (k : Fin 4) : regReset (rTabCmdSize k.1) = 0 := by
  revert k
  decide

theorem ringStart_spec {n : Nat} (hn : n ≠ 0) (small : n < 16) : (s.ringStart k n).ringLog2 k = n ∧ vget (s.ringStart k n).ringPhase k = true ∧
    (mapWf regReset s.regs → (s.ringStart k n).reg (rTabCmdHead k.1) = 0 ∧ (s.ringStart k n).reg (rTabCplTail k.1) = 0) := by
  unfold State.ringStart
  extract_lets t
  have size : t.reg (rTabCmdSize k.1) = BitVec.ofNat 32 n := by
    refine (State.reg_setReg_ne _ (by unfold rTabCmdSize rTabCplTail; omega) _).trans ((State.reg_setReg_ne _ (by unfold rTabCmdSize rTabCmdHead; omega) _).trans ?_)
    refine mapGet_mapSet_listed _ ?_
    rw [regReset_ringSize]
    intro zero
    have value := congrArg BitVec.toNat zero
    rw [BitVec.toNat_ofNat, Nat.mod_eq_of_lt (by omega)] at value
    exact hn value
  refine ⟨?_, vget_vset_same _ _ _, fun wf => ?_⟩
  · show (t.reg (rTabCmdSize k.1)).toNat % 16 = n
    rw [size, BitVec.toNat_ofNat, Nat.mod_eq_of_lt (by omega), Nat.mod_eq_of_lt (by omega)]
  · have sized : mapWf regReset (s.setReg (rTabCmdSize k.1) (BitVec.ofNat 32 n)).regs := mapWf_mapSet wf _ _
    have started : mapWf regReset ((s.setReg (rTabCmdSize k.1) (BitVec.ofNat 32 n)).setReg (rTabCmdHead k.1) 0).regs := mapWf_mapSet sized _ _
    exact ⟨(State.reg_setReg_ne _ (by unfold rTabCmdHead rTabCplTail; omega) _).trans ((State.reg_setReg sized _ _ _).trans (if_pos rfl)),
      (State.reg_setReg started _ _ _).trans (if_pos rfl)⟩

theorem tailWrite_of_on (on : s.ringOn k = true) (v : Word) : s.tailWrite k v =
    { s.setReg (rTabCmdTail k.1) (BitVec.ofNat 32 (v.toNat % 4096)) with visible := s.visible ++
                                                            List.replicate ((v.toNat % 4096 + 2 ^ s.ringLog2 k -
                                                              (s.reg (rTabCmdTail k.1)).toNat % 2 ^ s.ringLog2 k) % 2 ^ s.ringLog2 k) k } :=
  if_pos ((ringOn_tail s k _).trans on)

theorem tailWrite_of_off (off : s.ringOn k = false) (v : Word) :
    s.tailWrite k v = s.setReg (rTabCmdTail k.1) (BitVec.ofNat 32 (v.toNat % 4096)) := by
  refine if_neg ?_
  rw [ringOn_tail, off]
  exact Bool.false_ne_true

theorem sizeWrite_start {v : Word} (off : s.ringOn k = false) (low : 4 ≤ v.toNat) (high : v.toNat ≤ 12) :
    (if v.toNat % 16 = 0 then s else s.sizeWrite k v) = s.ringStart k v.toNat := by
  have small : v.toNat % 16 = v.toNat := Nat.mod_eq_of_lt (by omega)
  unfold State.sizeWrite
  rw [small, if_neg (by omega)]
  simp only [off, Bool.false_eq_true, if_false]
  exact if_pos (And.intro low high)

end Rings

/-! ### Heartbeat loss and setup timeout (R15, R282, R284) -/

section Timeouts
variable {s : State}

theorem hbLoss_of_fault (live : s.takeIn [.loaded, .armed, .closed] = true) : s.hbLoss = (s.raise 10).faultTake 1 stTimeout := by
  have take := (State.raise_frame s 10).take
  have states : s.take.st = .loaded ∨ s.take.st = .armed ∨ s.take.st = .closed := by simpa [State.takeIn] using live
  unfold State.hbLoss
  rcases states with st | st | st <;> simp only [take, st]

theorem hbLoss_of_rolling (rolling : s.take.st = .rolling) (pics : s.take.pics ≠ []) :
    s.hbLoss = ((s.raise 10).moveTake .cutting 0).modTake (fun t => { t with faultPending := some 1 }) := by
  have take := (State.raise_frame s 10).take
  unfold State.hbLoss
  simp only [take, rolling]
  refine checkCut_of_pics ?_
  rw [State.modTake_take, take_moveTake, take]
  exact pics

end Timeouts

/-- Settles O22: the ring registers by what a write of each leaves, the take by its moves to CUTTING and FAULTED. -/
theorem ringsAndHeartbeat : Obligations.RingsAndHeartbeat := by
  refine ⟨fun ini k v s => ⟨fun enters => ?_, fun enters on => ?_, fun enters off => ?_, fun enters off low high => ?_, fun enters on nonzero => ?_,
    fun enters on wf => ?_⟩, fun s => ⟨fun st => ?_, fun live => ?_, fun rolling pics => ?_, fun setup live => ?_, fun none => ?_⟩⟩
  · exact congrArg Host.Outcome.next (access_of_enters enters _ _)
  · exact congrArg Host.Outcome.next ((access_of_enters enters _ _).trans (tailWrite_of_on on v))
  · exact congrArg Host.Outcome.next ((access_of_enters enters _ _).trans (tailWrite_of_off off v))
  · obtain ⟨size, phase, regs⟩ := ringStart_spec (s := s) (k := k) (n := v.toNat) (by omega) (by omega)
    exact ⟨_, congrArg Host.Outcome.next ((access_of_enters enters _ _).trans (sizeWrite_start off low high)), size, phase, regs⟩
  · refine congrArg Host.Outcome.next ((access_of_enters enters _ _).trans ?_)
    rw [if_neg nonzero, State.sizeWrite, if_pos on, if_neg nonzero]
  · exact ⟨_, congrArg Host.Outcome.next ((access_of_enters enters _ _).trans (if_pos on)), ringOff_spec wf⟩
  · refine congrArg Host.Outcome.next ?_
    unfold State.hbLoss
    rcases st with st | st <;> simp only [(State.raise_frame s 10).take, st]
  · refine ⟨_, congrArg Host.Outcome.next (hbLoss_of_fault live), ?_⟩
    have take := (State.raise_frame s 10).take
    have out : s.take.st ≠ .idle ∧ s.take.st ≠ .faulted :=
      ⟨fun st => absurd live (by simp [State.takeIn, st]), fun st => absurd live (by simp [State.takeIn, st])⟩
    rw [faultTake_take _ (.inr (by rw [take]; exact out.1)) (by rw [take]; exact out.2)]
    exact ⟨rfl, rfl⟩
  · refine ⟨_, congrArg Host.Outcome.next (hbLoss_of_rolling rolling pics), ?_⟩
    rw [State.modTake_take, take_moveTake]
    exact ⟨rfl, rfl⟩
  · refine ⟨_, congrArg Host.Outcome.next (if_pos setup), ?_⟩
    rw [faultTake_take _ (.inl setup) live]
    exact ⟨rfl, rfl, rfl⟩
  · exact congrArg Host.Outcome.next (if_neg (by simp [none]))

end Sys2Proof.Proofs.RingsAndTimeouts

/-! ### QUERY, the spare status and LOAD_PROGRAM (O18) -/

namespace Sys2Proof.Proofs.ProgramsAndQueries

open Sys2Proof Sys2Proof.Machine Sys2Proof.Claims Sys2Proof.Proofs.Power Sys2Proof.Proofs.Commands Sys2Proof.Proofs.DataCache
open Sys2Proof.Proofs.Stores Sys2Proof.Proofs.Completions Sys2Proof.Proofs.KalsalPacketHandling

/-! ### A running core stays so while a completion is posted -/

/-- Every core that runs in `s` runs in `t`. -/
def RunKept (s t : State) : Prop := ∀ k, s.coreRun (.tabor k) = .running → t.coreRun (.tabor k) = .running

theorem RunKept.trans {s t u : State} (h : RunKept s t) (h' : RunKept t u) : RunKept s u := fun k run => h' k (h k run)

theorem RunKept.ite {s a b : State} {c : Prop} [Decidable c] (ha : RunKept s a) (hb : RunKept s b) : RunKept s (if c then a else b) := by
  split
  · exact ha
  · exact hb

theorem of_cores {s t : State} (cores : t.cores = s.cores) : RunKept s t := fun k run => by
  rw [State.coreRun, cores]
  exact run

theorem raise_runKept (s : State) (n : Nat) : RunKept s (s.raise n) := fun k run => by
  obtain ⟨-, core, -⟩ := raise_steady k s n
  have awake : Awake (vget s.cores k) := fun rd timed waiting => CoreRun.noConfusion (waiting.symm.trans run)
  exact (congrArg TaborCore.run (core awake)).trans run

theorem entered_runKept (s : State) (c : Completion) (tail n : Nat) : RunKept s (entered s c tail n) := by
  have written := (poke_noted s ((s.reg64 (rTabCplBase c.ring.1)).toNat + 16 * tail) (c.image (vget s.ringPhase c.ring))).running
  unfold entered
  generalize s.poke _ _ = t at written
  exact RunKept.trans written (of_cores rfl)

theorem writeCompletion_runKept (s : State) (c : Completion) : RunKept s (s.writeCompletion c) := by
  rw [writeCompletion_eq (n := 2 ^ s.ringLog2 c.ring) rfl rfl]
  refine RunKept.trans ?_ (raise_runKept _ _)
  exact RunKept.trans (t := entered s c _ (2 ^ s.ringLog2 c.ring)) (entered_runKept s c _ _) (of_cores rfl)

theorem postEntry_runKept (s : State) (c : Completion) : RunKept s (s.postEntry c) :=
  .ite (of_cores rfl) (.ite (of_cores rfl) (writeCompletion_runKept s c))

theorem post_runKept (s : State) (p : PendingCmd) (status : Nat) (final : Bool) (value : DWord) : RunKept s (s.post p status final value) := by
  unfold State.post
  extract_lets refused judged
  have refuse : RunKept s refused := .ite (of_cores rfl) (of_cores rfl)
  have judge : RunKept refused judged := .ite (of_cores rfl) (of_cores rfl)
  exact (refuse.trans judge).trans (postEntry_runKept _ _)

/-! ### The image -/

section Image
variable {s : State} {a : Nat} {b : List Byte}

theorem imageFault_sound {bad : Bool × Bool} (sound : imageFault b bad = 0) : 64 ≤ b.length ∧ b.length ≤ 0x200000 ∧ leAt b 6 1 % 2 = 0 := by
  unfold imageFault at sound
  extract_lets n cores entry head at sound
  have headed : head = true := by
    by_contra bad
    rw [Bool.not_eq_true] at bad
    rw [bad] at sound
    split at sound
    · exact absurd sound (by decide)
    · exact absurd ((if_pos rfl).symm.trans sound) (by decide)
  simp only [head, Bool.and_eq_true, decide_eq_true_eq] at headed
  obtain ⟨⟨⟨⟨⟨⟨⟨⟨⟨⟨⟨low, high⟩, -⟩, -⟩, even⟩, -⟩, -⟩, -⟩, -⟩, -⟩, -⟩, -⟩ := headed
  exact ⟨low, high, even⟩

theorem readArea_window {n : Nat} {bad : Bool} (inside : a + n ≤ s.window) (read : s.readArea a n = (s, b, bad)) :
    b = s.peek a n ∧ s.peekBad a n = bad := by
  unfold State.readArea at read
  rw [ctlSync_of_uncached (fun _ _ _ => ctlWithin_of_window inside)] at read
  injection read with _ found
  injection found with bytes verdict
  exact ⟨bytes.symm, verdict⟩

theorem peekBad_dram {n : Nat} (inside : a < s.window) :
    s.peekBad a n = (wordsOf a n).any (fun i => (verdict (s.dram.syndrome i)).bad) := by
  unfold State.peekBad
  rw [region_dram inside]
  simp only [Region.cell, Store.verdicts, List.any_map]
  rfl

/-- No word of an area that is sound throughout is bad. -/
theorem badWords_nil {n : Nat} (inside : a + n ≤ s.window) (sound : s.peekBad a n = false) : s.badWords a n = [] := by
  refine List.filter_eq_nil_iff.mpr fun i mem => ?_
  rw [mem_upFrom] at mem
  have part : 16 * i < n := by
    unfold ceilDiv at mem
    omega
  rw [peekBad_dram (by omega)] at sound ⊢
  rw [Bool.not_eq_true, List.any_eq_false]
  intro w touched
  refine List.any_eq_false.mp sound w ?_
  rw [mem_wordsOf] at touched ⊢
  have short : Nat.min 16 (n - 16 * i) ≤ n - 16 * i := Nat.min_le_right _ _
  generalize Nat.min 16 (n - 16 * i) = m at touched short
  omega

/-- A sound image that the program area takes is stored there whole. -/
theorem copyImage_spec {n : Nat} (inside : a + n ≤ s.window) (read : s.readArea a n = (s, b, false)) (low : 64 ≤ b.length) (high : b.length ≤ 0x200000)
    (uncached : Uncached s programArea n) : s.copyImage a b = s.poke programArea b ∧ (s.copyImage a b).ctlSram = s.ctlSram.write 0x100000 b := by
  obtain ⟨bytes, sound⟩ := readArea_window inside read
  have length : b.length = n := by rw [bytes, TagsAndNvs.length_peek]
  have copied : s.copyImage a b = s.poke programArea b := by
    unfold State.copyImage
    simp only [List.take_of_length_le high, length, badWords_nil inside sound, List.foldl_nil]
  refine ⟨copied, ?_⟩
  rw [copied]
  have region : s.region programArea = .ctl 0x100000 := region_ctl s (by decide) (by decide)
  unfold State.poke
  rw [region, length, ctlSync_of_uncached uncached]
  have counted : Counting.Counted s ((partWords 0x100000 b.length).foldl (fun t i => t.noteWords .ctl (16 * i) 16) s) :=
    foldl_keeps (Counting.Counted s) _ (fun _ _ kept => kept.noteWords _ _ _) _ s .refl
  have ctl := Counted.ctlSram counted
  unfold State.writeStore
  rfl

end Image

/-! ### The cores enter it -/

section Entering
variable (e : Nat) (k : Fin 4)

/-- A core that has just entered the image at offset `e`. -/
def Started (x : TaborCore) : Prop := x.d = Vector.replicate 32 0 ∧ x.status = 0 ∧ x.pc = BitVec.ofNat 64 (programArea + e) ∧ x.run = .running

theorem enterImage_same {s : State} (run : (vget s.cores k).run = .running) : Started e (vget (s.enterImage k e).cores k) := by
  unfold State.enterImage
  rw [run]
  refine Eq.substr (p := Started e) (vget_vmod_same s.cores k _) ⟨rfl, rfl, rfl, rfl⟩

theorem enterImage_other (s : State) {j : Fin 4} (other : k ≠ j) : vget (s.enterImage j e).cores k = vget s.cores k := by
  unfold State.enterImage
  split
  · rfl
  · rfl
  · exact vget_vmod_ne _ other _

/-- What entering does for core number `j` of mask `m`. -/
def enterStep (m e : Nat) (s : State) (j : Nat) : State := if natBit m j then s.enterImage (fin 4 j) e else s

theorem enterStep_running (m : Nat) {s : State} (run : (vget s.cores k).run = .running) (j : Nat) : (vget (enterStep m e s j).cores k).run = .running := by
  unfold enterStep
  split
  · rcases eq_or_ne k (fin 4 j) with own | other
    · obtain ⟨-, -, -, runs⟩ := enterImage_same e k run
      rwa [← own]
    · rwa [enterImage_other e k s other]
  · exact run

theorem enterStep_started (m : Nat) {s : State} (started : Started e (vget s.cores k)) (j : Nat) : Started e (vget (enterStep m e s j).cores k) := by
  unfold enterStep
  split
  · rcases eq_or_ne k (fin 4 j) with own | other
    · rw [← own]
      exact enterImage_same e k started.2.2.2
    · rwa [enterImage_other e k s other]
  · exact started

theorem enterStep_keeps {α : Type} (p : State → α) (keeps : ∀ (s : State) cores, p { s with cores := cores } = p s) (m : Nat) (s : State) (j : Nat) :
    p (enterStep m e s j) = p s := by
  unfold enterStep State.enterImage
  split
  · split
    · rfl
    · rfl
    · exact keeps _ _
  · rfl

/-- Every running core of the mask has entered the image once all have had their turn. -/
theorem entering_started {m : Nat} {l : List Nat} (listed : k.1 ∈ l) (named : natBit m k.1 = true) {s : State} (run : (vget s.cores k).run = .running) :
    Started e (vget (l.foldl (enterStep m e) s).cores k) := by
  obtain ⟨pre, post, rfl⟩ := List.append_of_mem listed
  rw [List.foldl_append, List.foldl_cons]
  have running := foldl_keeps (fun t : State => (vget t.cores k).run = .running) (enterStep m e) (fun t j h => enterStep_running e k m h j) pre s run
  refine foldl_keeps (fun t : State => Started e (vget t.cores k)) (enterStep m e) (fun t j h => enterStep_started e k m h j) post _ ?_
  have own : fin 4 k.1 = k := Fin.ext (Nat.mod_eq_of_lt k.isLt)
  rw [enterStep, if_pos named, own]
  exact enterImage_same e k running

end Entering

/-- A sound image with no program in setup: the area holds it, the take's program is in setup, and the running cores of the mask have entered it. -/
theorem enterProgram_spec {s : State} (idle : s.take.st = .idle) (p : PendingCmd) (b : List Byte) :
    let t := s.enterProgram p b
    t.take.setup = some p ∧ t.take.cores = BitVec.ofNat 4 (leAt b 6 1) ∧ t.ctlSram = s.ctlSram ∧
      ∀ k : Fin 4, k ≠ 0 → natBit (leAt b 6 1) k.1 = true → (vget s.cores k).run = .running → Started (leAt b 12 4) (vget t.cores k) := by
  intro t
  have folded : t = (upFrom 1 3).foldl (enterStep (leAt b 6 1) (leAt b 12 4))
      (s.modTake (fun t => { t with setup := some p, cores := BitVec.ofNat 4 (leAt b 6 1) })) := by
    simp only [t, State.enterProgram, idle, reduceCtorEq, if_false]
    rfl
  have take : t.take = _ := folded ▸ foldl_proj State.take (fun u j => enterStep_keeps _ State.take (fun _ _ => rfl) _ u j) _ _
  have ctl : t.ctlSram = _ := folded ▸ foldl_proj State.ctlSram (fun u j => enterStep_keeps _ State.ctlSram (fun _ _ => rfl) _ u j) _ _
  refine ⟨congrArg Take.setup take, congrArg Take.cores take, ctl, fun k own named run => ?_⟩
  rw [folded]
  refine entering_started _ k ?_ named run
  rw [mem_upFrom]
  omega

/-! ### The judgement of a command whose fields have a range (R278) -/

section Judged
variable {s : State} {h : CmdHead} {op : Nat} {fields : List (Nat × List Byte)} (front : Fronts s h op fields) {range legal : Bool}
include front

theorem judge_within (within : range = true) (ok : legal = true) (f : State → PendingCmd → State) :
    s.judge h op fields range legal false f = f (took s h) (cmdOf s h) := within ▸ judge_legal front ok f

theorem judge_within_pending (within : range = true) (ok : legal = true) (f : State → PendingCmd → State) :
    s.judge h op fields range legal true f = f ((took s h).post (cmdOf s h) stPending false 0) (cmdOf s h) := within ▸ judge_pending front ok f

theorem judge_within_state (within : range = true) (no : legal = false) (pending : Bool) (f : State → PendingCmd → State) :
    s.judge h op fields range legal pending f = (took s h).post (cmdOf s h) stState true 0 := within ▸ judge_state front no pending f

theorem judge_beyond (beyond : range = false) (pending : Bool) (f : State → PendingCmd → State) :
    s.judge h op fields range legal pending f = (took s h).post (cmdOf s h) stBadarg true 0 := beyond ▸ judge_badarg front legal pending f

end Judged

theorem sourceOk_of_window {s : State} {a n : Nat} (inside : a + n ≤ s.window) : s.sourceOk a n = true := by simp [State.sourceOk, inside]

/-! ### Settlement -/

section Loading
variable {s : State} {a n : Nat} {p : PendingCmd} {b : List Byte}

theorem loadImage_of_fault (read : s.readArea a n = (s, b, false)) {st : Nat}
    (fault : imageFault b ((s.ctlSync a n false).peekBad a (Nat.min n 64), false) = st) (unsound : st ≠ 0) :
    s.loadImage p a n = (s.copyImage a b).post p st true 0 := by
  unfold State.loadImage
  simp only [read, fault]
  exact if_pos unsound

theorem loadImage_of_sound (read : s.readArea a n = (s, b, false))
    (sound : imageFault b ((s.ctlSync a n false).peekBad a (Nat.min n 64), false) = 0) :
    s.loadImage p a n = (s.copyImage a b).enterProgram p b := by
  unfold State.loadImage
  simp only [read, sound]
  exact if_neg (by simp)

end Loading

/-- Settles O18: the judgement of each entry, and LOAD_PROGRAM by the copy of its image and the cores' entering it. -/
theorem hostCommands : Obligations.HostCommands := by
  refine ⟨fun h slot field ledger s => ?_, fun h a n s front => ?_⟩
  · intro p t
    refine ⟨fun front => congrArg Host.Outcome.next (judge_legal front rfl _), fun front => ⟨fun i own => ?_, fun beyond => ?_⟩,
      fun front => ⟨fun small low => ?_, fun beyond => ?_⟩, fun front => ?_⟩
    · refine congrArg Host.Outcome.next ((judge_within front (decide_eq_true (own ▸ i.isLt)) rfl _).trans ?_)
      rw [own, Pool.fin_val]
    · exact congrArg Host.Outcome.next (judge_beyond front (decide_eq_false (Nat.not_lt.mpr beyond)) false _)
    · exact congrArg Host.Outcome.next ((if_neg (by decide)).trans (judge_within front (by simp [small, low]) rfl _))
    · refine congrArg Host.Outcome.next ((if_neg (by decide)).trans (judge_beyond front ?_ false _))
      simp only [Bool.and_eq_false_iff, decide_eq_false_iff_not]
      omega
    · exact congrArg Host.Outcome.next ((if_neg (by decide)).trans (judge_within_pending front rfl rfl _))
  · intro p t0 b
    have take : t0.take = s.take := by rw [show t0 = _ from post_frame (took s h) p stPending false 0]; rfl
    have window : t0.window = s.window := by
      rw [State.window, show t0 = _ from post_frame (took s h) p stPending false 0]
      rfl
    have gives : s.take.st = .idle → s.take.setup = none → a.toNat + n.toNat ≤ s.window →
        Gives (.loadProgram h a n) s (t0.loadImage p a.toNat n.toNat) := fun idle none inside =>
      congrArg Host.Outcome.next ((judge_within_pending front (sourceOk_of_window inside) (by simp [State.takeIn, idle]) _).trans
        (if_neg (by rw [show ((took s h).post (cmdOf s h) stPending false 0).take = _ from take, none]; simp)))
    refine ⟨fun inside notIdle notLoaded => ?_, fun inside idle none read => ⟨fun unsound => ?_, fun sound uncached => ?_⟩⟩
    · exact congrArg Host.Outcome.next (judge_within_state front (sourceOk_of_window inside) (by simp [State.takeIn, notIdle, notLoaded]) true _)
    · exact (gives idle none inside).trans (congrArg Host.Outcome.next (loadImage_of_fault read rfl unsound))
    · obtain ⟨low, high, even⟩ := imageFault_sound sound
      obtain ⟨copied, ctl⟩ := copyImage_spec (s := t0) (by rw [window]; exact inside) read low high uncached
      have frame : (t0.copyImage a.toNat b).take = s.take := by rw [copied, State.poke_post t0 programArea b, take]
      obtain ⟨setup, cores, sram, started⟩ := enterProgram_spec (s := t0.copyImage a.toNat b) (by rw [frame]; exact idle) p b
      refine ⟨_, (gives idle none inside).trans (congrArg Host.Outcome.next (loadImage_of_sound read sound)), setup, cores, sram.trans ctl,
        fun k named run => ?_⟩
      have others : k ≠ 0 := by
        rintro rfl
        simp [natBit, even] at named
      have runs : (vget (t0.copyImage a.toNat b).cores k).run = .running := by
        rw [copied]
        exact (poke_noted t0 programArea b).running k (post_runKept (took s h) p stPending false 0 k run)
      obtain ⟨d, status, pc, -⟩ := started k others named runs
      exact ⟨pc, status, fun r => (congrArg (vget · r) d).trans (by simp [vget])⟩

end Sys2Proof.Proofs.ProgramsAndQueries

/-! ### PLAY and STOP_PLAY (O20) -/

namespace Sys2Proof.Proofs.PlaySessions

open Sys2Proof.Machine Sys2Proof.Claims Sys2Proof.Proofs.Commands Sys2Proof.Proofs.Maintenance Sys2Proof.Proofs.ProgramsAndQueries
open Sys2Proof.Proofs.TakeCommands

/-! ### What an accepted PLAY starts (R193, R201, R206) -/

theorem session_modSession_same (s : State) (k : Fin 9) (f : Session → Session) : (s.modSession k f).session k = f (s.session k) :=
  vget_vmod_same _ _ _

theorem session_fin (s : State) {n : Nat} (inside : n < 9) : vgetN Session.atReset s.sessions n = s.session (fin 9 n) := by
  rw [vgetN_lt _ _ inside]
  exact congrArg (vget s.sessions) (Fin.ext (Nat.mod_eq_of_lt inside).symm)

section Start
variable {s : State} {c : PendingCmd} {p : PlayParams}

/-- The session, its slot and its output buffers are set up. -/
def opened (s : State) (c : PendingCmd) (k : Fin 9) (p : PlayParams) : State :=
  let s := s.modSession k (fun _ => { Session.atReset with cmd := some c, params := some p, outAt := s.clk.fab })
  let s := match p.cmpSlot with
    | some i => s.modSlot i (fun y => { y with playing := true })
    | none => s
  s.poke p.outCtrl (leBytes 4 0)

theorem opened_spec (k : Fin 9) :
    (opened s c k p).session k = { Session.atReset with cmd := some c, params := some p, outAt := s.clk.fab } ∧ (opened s c k p).mags = s.mags := by
  unfold opened
  extract_lets blank started listed
  have own : started.session k = _ := session_modSession_same s k _
  have same : listed.sessions = started.sessions ∧ listed.mags = s.mags := by
    cases hp : p.cmpSlot with
    | none => simp only [listed, hp]; exact ⟨trivial, rfl⟩
    | some i => simp only [listed, hp]; exact ⟨rfl, rfl⟩
  have post := State.poke_post listed p.outCtrl (leBytes 4 0)
  generalize listed.poke p.outCtrl (leBytes 4 0) = t at post
  have sessions : t.sessions = listed.sessions := by rw [post]
  have mags : t.mags = listed.mags := by rw [post]
  exact ⟨(congrArg (vget · k) (sessions.trans same.1)).trans own, mags.trans same.2⟩

theorem playStart_eq (k : Fin 9) : s.playStart c k p =
    if k = 0 then ((opened s c k p).poke p.reportBase (leBytes 4 0)).playBegin else opened s c k p := rfl

theorem playStart_of_return {k : Fin 9} (other : k ≠ 0) : s.playStart c k p = opened s c k p := (playStart_eq k).trans (if_neg other)

theorem playBegin_of_ready {q : PlayParams} (params : (s.session 0).params = some q) (ready : (s.mag q.mag).st = .ready) :
    s.playBegin.session 0 = { s.session 0 with phase := .identify } := by
  unfold State.playBegin
  rw [params]
  refine (congrArg (State.session · 0) (if_pos ready)).trans ?_
  exact session_modSession_same (s.nvmeSubmit q.mag 0 opIdentify q.nsid 0 0 0 .playNs) 0 _

theorem playStart_of_own (ready : (s.mag p.mag).st = .ready) : let x := (s.playStart c 0 p).session 0
    x.params = some p ∧ x.cmd = some c ∧ x.phase = .identify := by
  obtain ⟨own, mags⟩ := opened_spec (s := s) (c := c) (p := p) 0
  have begins : s.playStart c 0 p = ((opened s c 0 p).poke p.reportBase (leBytes 4 0)).playBegin := (playStart_eq 0).trans (if_pos rfl)
  rw [begins]
  have post := State.poke_post (opened s c 0 p) p.reportBase (leBytes 4 0)
  generalize opened s c 0 p = t at own mags post
  generalize t.poke p.reportBase (leBytes 4 0) = u at post
  have session : u.session 0 = t.session 0 := congrArg (vget · 0) (by rw [post])
  have mag : u.mag p.mag = s.mag p.mag := congrArg (vget · p.mag) ((by rw [post] : u.mags = t.mags).trans mags)
  have identifies := playBegin_of_ready (s := u) (q := p) (by rw [session, own]) (by rw [mag]; exact ready)
  dsimp only
  rw [identifies, session, own]
  exact ⟨rfl, rfl, rfl⟩

/-- R188 accepts only the sessions there are. -/
theorem session_of_accepted {b : List Byte} (accepted : s.playRefusal b (playParams b) = 0) : leAt b 0 1 < 9 := by
  by_contra beyond
  have unsound : playRanges b (playParams b) = false := by
    have outside : ¬ leAt b 0 1 ≤ 8 := by omega
    simp only [playRanges, outside, decide_false, Bool.false_and]
  unfold State.playRefusal at accepted
  rw [unsound] at accepted
  have refused : stBadarg = 0 := accepted
  exact absurd refused (by decide)

end Start

/-! ### STOP_PLAY (R193, R207, R299) -/

section Stop
variable {s : State} {k : Fin 9}

/-- A session that stops lets the slot it compares go where no other session compares it. -/
theorem letSlot_spec : (s.letSlot k).sessions = s.sessions ∧ (s.letSlot k).take = s.take ∧ (s.letSlot k).dma = s.dma ∧
    ∀ i, (s.session k).params.bind (·.cmpSlot) = some i →
      (∀ j, j ≠ k.1 → (vgetN Session.atReset s.sessions j).params.bind (·.cmpSlot) ≠ some i) → ((s.letSlot k).slot i).playing = false := by
  unfold State.letSlot
  cases hp : (s.session k).params.bind (·.cmpSlot) with
  | none => exact ⟨rfl, rfl, rfl, fun i compares => nomatch compares⟩
  | some i =>
    refine ⟨rfl, rfl, rfl, fun j compares alone => ?_⟩
    obtain rfl : i = j := Option.some.inj compares
    refine (congrArg Slot.playing (slot_modSlot_same s i _)).trans ?_
    refine List.any_eq_false.mpr fun n _ => ?_
    rw [Bool.and_eq_true, Bool.and_eq_true, decide_eq_true_eq, decide_eq_true_eq]
    rintro ⟨⟨other, -⟩, compared⟩
    exact alone n other compared

/-- What STOP_PLAY leaves of session `n`, the slots, the take and the DMA engine. -/
theorem stopped_spec (s : State) (p : PendingCmd) {n : Nat} (inside : n < 9) :
    let x := vgetN Session.atReset s.sessions n
    let t := ((s.modSession (fin 9 n) (fun x => { x with stopping := true })).letSlot (fin 9 n)).done p stOk 0
    vgetN Session.atReset t.sessions n = { x with stopping := true } ∧
      (∀ i, x.params.bind (·.cmpSlot) = some i →
        (∀ j, j ≠ n → (vgetN Session.atReset s.sessions j).params.bind (·.cmpSlot) ≠ some i) → (t.slot i).playing = false) ∧
      t.take = s.take ∧ t.dma = s.dma := by
  have number : (fin 9 n).1 = n := Nat.mod_eq_of_lt inside
  dsimp only
  rw [session_fin s inside]
  have own := session_modSession_same s (fin 9 n) (fun x => { x with stopping := true })
  have others : ∀ j, j ≠ n → vgetN Session.atReset (s.modSession (fin 9 n) (fun x => { x with stopping := true })).sessions j =
      vgetN Session.atReset s.sessions j := fun j other => by
    unfold vgetN
    split
    · exact vget_vmod_ne _ (fun same => other ((congrArg Fin.val same).trans number)) _
    · rfl
  have take : (s.modSession (fin 9 n) (fun x => { x with stopping := true })).take = s.take := rfl
  have dma : (s.modSession (fin 9 n) (fun x => { x with stopping := true })).dma = s.dma := rfl
  generalize s.modSession (fin 9 n) (fun x => { x with stopping := true }) = u at own others take dma
  obtain ⟨sessions, takes, dmas, lets⟩ := letSlot_spec (s := u) (k := fin 9 n)
  have post := post_frame (u.letSlot (fin 9 n)) p stOk true (BitVec.ofNat 64 0)
  generalize u.letSlot (fin 9 n) = v at sessions takes dmas lets post
  generalize hw : v.done p stOk 0 = w
  replace post : PostFrame v w := hw ▸ post
  refine ⟨?_, fun i compares alone => ?_, ?_, ?_⟩
  · rw [session_fin w inside, ← own, State.session, State.session, show w.sessions = v.sessions by rw [post], sessions]
  · rw [State.slot, show w.slots = v.slots by rw [post]]
    refine lets i (by rw [own]; exact compares) (fun j other => ?_)
    rw [number] at other
    rw [others j other]
    exact alone j other
  · rw [show w.take = v.take by rw [post], takes, take]
  · rw [show w.dma = v.dma by rw [post], dmas, dma]

end Stop

/-- Settles O20: PLAY by its refusal and what it starts, STOP_PLAY by the session it marks and the slot it lets go. -/
theorem playCommands : Obligations.PlayCommands := by
  intro h a k s p t0 b here x
  have legal : s.take.st ≠ .faulted → s.takeIn [.faulted] = false := fun live => by simp [State.takeIn, live]
  have gives : here → s.take.st ≠ .faulted → t0.readArea a.toNat 128 = (t0, b, false) → Gives (.play h a) s
      (if t0.playRefusal b (playParams b) ≠ 0 then t0.done p (t0.playRefusal b (playParams b)) 0
      else (t0.post p stPending false 0).playStart p (fin 9 (leAt b 0 1)) (playParams b)) := fun ⟨front, source⟩ live read => by
    refine congrArg Host.Outcome.next ((judge_within front source (by rw [legal live]; rfl) _).trans ?_)
    rw [show (took s h).readArea a.toNat 128 = _ from read]
    rfl
  refine ⟨fun front live read none own ready => ?_, fun front live read none other => ?_, fun front live read refused => ?_,
    fun ⟨front, source⟩ faulted => ?_, fun front small live runs => ?_, fun front small idle => ?_⟩
  · refine ⟨_, (gives front live read).trans (congrArg Host.Outcome.next (if_neg (not_not.mpr none))), ?_⟩
    rw [own]
    have post := post_frame t0 p stPending false 0
    exact playStart_of_own (by rw [State.mag, post]; exact ready)
  · refine ⟨_, (gives front live read).trans (congrArg Host.Outcome.next (if_neg (not_not.mpr none))), ?_⟩
    have inside : leAt b 0 1 < 9 := session_of_accepted none
    have number : (fin 9 (leAt b 0 1)).1 = leAt b 0 1 := Nat.mod_eq_of_lt inside
    have away : fin 9 (leAt b 0 1) ≠ 0 := fun zero => other (by rw [← number, zero]; rfl)
    obtain ⟨own, -⟩ := opened_spec (s := t0.post p stPending false 0) (c := p) (p := playParams b) (fin 9 (leAt b 0 1))
    rw [session_fin _ inside, playStart_of_return away, own]
    exact ⟨rfl, rfl⟩
  · exact (gives front live read).trans (congrArg Host.Outcome.next (if_pos refused))
  · exact congrArg Host.Outcome.next (judge_within_state front source (by simp [State.takeIn, faulted]) false _)
  · have inside : k.toNat < 9 := by omega
    refine ⟨_, congrArg Host.Outcome.next (judge_within front (decide_eq_true small) (by rw [legal live]; exact runs) _), ?_⟩
    exact stopped_spec t0 p inside
  · refine congrArg Host.Outcome.next (judge_within_state front (decide_eq_true small) ?_ false _)
    rw [show (vgetN Session.atReset s.sessions k.toNat).params = none from idle, Option.isSome_none, Bool.and_false]

end Sys2Proof.Proofs.PlaySessions

/-! ### ENUMERATE, SET_TAG and MAINT (O21) -/

namespace Sys2Proof.Proofs.DeviceCommandsRefuted

open Sys2Proof.Machine Sys2Proof.Claims

/-- MAINT op 2 of proposal 5, with tag 7, on ring 0. -/
def rejecting : CmdHead := { ring := 0, opcode := 12, reservedZero := true, tag := 7 }

/-- A proposal of number 5 to retire a DRAM lane. -/
def laneProposal : Proposal := { number := 5, st := .proposed, kind := 3, reason := 0, target := 0, info := 0 }

/-- Ring 0 has 16 entries at DRAM address 0, the first of which is the command; its completions go to 0x10008, across the code words 0x1000 to 0x1002,
the last of which is uncorrectable (every bit of TAB_CPL_BASE can be written, so nothing aligns it). Every entry of the proposal table is PROPOSED. -/
def crossed : State :=
  let s := State.reset.modHdg (fun h => { h with ready := 0x7FFFFFFFFF })
  let s := s.modCore 0 (fun c => { c with run := .running })
  let s := s.modRas (fun r => { r with props := Vector.replicate 16 laneProposal })
  let s := { s with visible := [0], dram := { s.dram with bytes := [(0, 12), (2, 7), (16, 2), (24, 5)], syn := [(0x1002, 3)] } }
  ((s.setReg (rTabCmdSize 0) 4).setReg (rTabCplBase 0) 0x10008)

theorem crossed_fronts : Fronts crossed rejecting 12 [(16, [2]), (24, leBytes 4 (5 : Word).toNat)] := by
  have reads : crossed.readArea (crossed.headEntry 0) 64 =
      (crossed, (crossed.readArea (crossed.headEntry 0) 64).2.1, (crossed.readArea (crossed.headEntry 0) 64).2.2) := rfl
  exact ⟨by decide +kernel, by decide +kernel, by decide +kernel, rfl, rfl, _, _, reads, by decide +kernel⟩

/-- The completion itself finds the uncorrectable word; the proposal that follows takes the entry that the rejection has just freed (R515, R518). -/
theorem crossed_reused : (match exec (.maintReject rejecting 5) crossed with
    | .next t => (vgetN Proposal.empty t.ras.props 0).st
    | _ => .rejected) = .proposed := by decide +kernel

/-- Refutes O21: MAINT op 2 rejects a proposal, the completion of the command crosses an uncorrectable word, and the new proposal takes the entry. -/
theorem not_deviceCommands : ¬ Obligations.DeviceCommands := by
  intro all
  obtain ⟨-, -, -, -, found⟩ := all rejecting 0 5 0 0 0 0 0 crossed
  obtain ⟨rejects, -⟩ := found (by decide +kernel) (by decide +kernel) (by decide +kernel)
  obtain ⟨t, gives, rejected, -⟩ := rejects crossed_fronts
  have reused := crossed_reused
  rw [gives] at reused
  exact absurd (rejected.symm.trans reused) (by decide)

end Sys2Proof.Proofs.DeviceCommandsRefuted

/-! ### Rows of a proxy stream, and its sender reports (O44) -/

namespace Sys2Proof.Proofs.ProxyRows

open Sys2Proof.Machine Sys2Proof.Claims Sys2Proof.Proofs.Counting

/-! ### What a row leaves alone until it ends -/

/-- Stream `m` still codes the same pictures at the same row and runs as before; memory, the take and the other streams are as before. -/
def RowKept (m : Fin 4) (s t : State) : Prop :=
  t.dram = s.dram ∧ t.take = s.take ∧ (∀ k, k ≠ m → t.stream k = s.stream k) ∧
    (t.stream m).pics = (s.stream m).pics ∧ (t.stream m).row = (s.stream m).row ∧ (t.stream m).run = (s.stream m).run

section Steps
variable {m : Fin 4} {s t u : State}

theorem RowKept.refl (m : Fin 4) (s : State) : RowKept m s s := ⟨rfl, rfl, fun _ _ => rfl, rfl, rfl, rfl⟩

theorem RowKept.trans (h : RowKept m s t) (h' : RowKept m t u) : RowKept m s u := by
  obtain ⟨dram, take, others, pics, row, run⟩ := h
  obtain ⟨dram', take', others', pics', row', run'⟩ := h'
  exact ⟨dram'.trans dram, take'.trans take, fun k ne => (others' k ne).trans (others k ne), pics'.trans pics, row'.trans row, run'.trans run⟩

theorem RowKept.same (dram : t.dram = s.dram) (take : t.take = s.take) (streams : t.streams = s.streams) : RowKept m s t := by
  have stream : ∀ k, t.stream k = s.stream k := fun k => congrArg (vget · k) streams
  exact ⟨dram, take, fun k _ => stream k, by rw [stream], by rw [stream], by rw [stream]⟩

theorem RowKept.of_event (h : EventFrame s t) : RowKept m s t := .same h.dram h.take h.streams

theorem RowKept.of_counted (h : Counted s t) : RowKept m s t := .same h.frame.dram h.frame.take h.frame.streams

theorem stream_modStream_same (s : State) (m : Fin 4) (f : Stream → Stream) : (s.modStream m f).stream m = f (s.stream m) := vget_vmod_same _ _ _

theorem stream_modStream_ne (s : State) {k m : Fin 4} (ne : k ≠ m) (f : Stream → Stream) : (s.modStream m f).stream k = s.stream k :=
  vget_vmod_ne _ ne _

theorem RowKept.mod (s : State) {f : Stream → Stream} (pics : ∀ x, (f x).pics = x.pics) (row : ∀ x, (f x).row = x.row)
    (run : ∀ x, (f x).run = x.run) : RowKept m s (s.modStream m f) :=
  ⟨rfl, rfl, fun _ ne => stream_modStream_ne s ne f, by rw [stream_modStream_same, pics], by rw [stream_modStream_same, row],
    by rw [stream_modStream_same, run]⟩

theorem RowKept.ite {a b : State} {c : Prop} [Decidable c] (ha : RowKept m s a) (hb : RowKept m s b) : RowKept m s (if c then a else b) := by
  split
  · exact ha
  · exact hb

theorem foldl_rowKept {β : Type} {f : State → β → State} (each : ∀ s b, RowKept m s (f s b)) (l : List β) (s : State) : RowKept m s (l.foldl f s) :=
  foldl_keeps (RowKept m s) f (fun t b kept => kept.trans (each t b)) l s (.refl m s)

end Steps

section Parts
variable (m : Fin 4) (s : State)

theorem sluOffer_rowKept (f : Nat) (p : SluPacket) : RowKept m s (s.sluOffer f p) :=
  .ite (.of_event (((State.bump_frame s _ _).trans (State.orReg_frame _ _ _)).trans (State.raise_frame _ _))) (.same rfl rfl rfl)

theorem rtpPacket_rowKept (b : List Byte) (ts : Word) (payload : List Byte) (marker : Bool) (since : Option Nat) :
    RowKept m s (s.rtpPacket m b ts payload marker since) := by
  unfold State.rtpPacket
  extract_lets h frame sent
  have counted : RowKept m s sent := .mod s (fun _ => rfl) (fun _ => rfl) (fun _ => rfl)
  exact (counted.trans (.of_event (State.bump_frame sent _ _))).trans (sluOffer_rowKept m _ _ _)

theorem rtpUnit_rowKept (b : List Byte) (ts : Word) (nals : List (List Byte × Bool)) (last : Bool) (since : Option Nat) :
    RowKept m s (s.rtpUnit m b ts nals last since) := by
  unfold State.rtpUnit
  exact foldl_rowKept (fun t a => rtpPacket_rowKept m t _ _ _ _ _) _ s

theorem pxyEvent_rowKept (e : Nat) : RowKept m s (s.pxyEvent m e) := .of_event ((State.orReg_frame s _ _).trans (State.raise_frame _ _))

theorem noteLeft_rowKept (left : Nat) : RowKept m s (s.noteLeft m left) := by
  unfold State.noteLeft
  extract_lets noted
  have note : RowKept m s noted := .mod s (fun _ => rfl) (fun _ => rfl) (fun _ => rfl)
  exact .ite (note.trans (.same rfl rfl rfl)) note

theorem lateEnd_rowKept (b nal : List Byte) : RowKept m s (s.lateEnd m b nal) := by
  unfold State.lateEnd
  extract_lets x
  have sent := rtpUnit_rowKept m s b x.lastTs [(nal, false)] true none
  generalize s.rtpUnit m b x.lastTs [(nal, false)] true none = t at sent
  refine RowKept.trans (sent.trans (u := t.modStream m (fun x => { x with sent := x.sent + 48 })) ?_) (noteLeft_rowKept m _ _)
  exact .mod t (fun _ => rfl) (fun _ => rfl) (fun _ => rfl)

theorem beginUnit_rowKept (p : StreamPic) (r : SetupRecord) (h : PictureChoice) : RowKept m s (s.beginUnit m p r h) := by
  unfold State.beginUnit
  extract_lets x restart restarted idr first
  have ended : RowKept m s restarted := by
    refine .ite (.refl m s) (RowKept.trans ?_ (pxyEvent_rowKept m _ 2))
    split
    · exact .ite (.refl m s) (lateEnd_rowKept m s _ _)
    · exact .refl m s
  exact ended.trans (.mod _ (fun _ => rfl) (fun _ => rfl) (fun _ => rfl))

end Parts

/-! ### A row that is coded -/

section Coding
variable {m : Fin 4} {s : State}

/-- The end of a row: the next row of the same picture, or after the last one the first row of the next picture. -/
theorem endRow_spec (rows : Nat) (ts : Word) (eos : Bool) :
    let t := s.endRow m rows ts eos false
    ((s.stream m).row + 1 < rows → (t.stream m).row = (s.stream m).row + 1 ∧ (t.stream m).pics = (s.stream m).pics) ∧
      (rows ≤ (s.stream m).row + 1 → (t.stream m).row = 0 ∧ (t.stream m).pics = (s.stream m).pics.drop 1) ∧
      (∀ k, k ≠ m → t.stream k = s.stream k) ∧ t.dram = s.dram ∧ t.take = s.take := by
  dsimp only
  unfold State.endRow
  extract_lets x
  by_cases more : x.row + 1 < rows
  · rw [if_pos more]
    refine ⟨fun _ => ?_, fun all => absurd more (Nat.not_lt.mpr all), fun k ne => stream_modStream_ne s ne _, rfl, rfl⟩
    rw [stream_modStream_same s m (fun x => { x with row := x.row + 1 })]
    exact ⟨rfl, rfl⟩
  · rw [if_neg more]
    have counted := State.bump_frame s (rPxyStrPics m.1) 1
    have streams : ∀ k, (s.bump (rPxyStrPics m.1) 1).stream k = s.stream k := fun k => congrArg (vget · k) counted.streams
    generalize s.bump (rPxyStrPics m.1) 1 = t at counted streams
    refine ⟨fun less => absurd less more, fun _ => ?_, fun k ne => (stream_modStream_ne t ne _).trans (streams k), counted.dram, counted.take⟩
    rw [stream_modStream_same t m]
    exact ⟨rfl, congrArg (fun x : Stream => x.pics.drop 1) (streams m)⟩

/-- A row of a running stream is coded: everything but its end leaves the stream's pictures and row. -/
theorem codeRow_ends (run : (s.stream m).run = true) (p : StreamPic) (r : SetupRecord) (now : PictureChoice) (v : SliceChoice) (tail : List Bool)
    (ctus : List CtuCode) : ∃ t ts eos, RowKept m s t ∧ s.codeRow m p r now v tail ctus = t.endRow m (pxyRows r.bytes) ts eos false := by
  unfold State.codeRow
  extract_lets x b c n j h there last arr budget lead before coded slice stop eos ends size0 fill size started minimal input noted earlier waits since ts rest all
  have goes : stop = false := by simp [stop, x, run]
  have start : RowKept m s started := .mod s (fun _ => rfl) (fun _ => rfl) (fun _ => rfl)
  have short : RowKept m started minimal := .ite (.refl m _) ((RowKept.of_event (State.bump_frame _ _ _)).trans (pxyEvent_rowKept m _ 0))
  have read : RowKept m minimal input := .ite (.of_counted (TileEngineSteps.noteAreas_counted _)) (pxyEvent_rowKept m _ 1)
  have left : RowKept m input noted := (RowKept.ite (.refl m _) (.of_event (State.bump_frame _ _ _))).trans (noteLeft_rowKept m _ _)
  exact ⟨noted.rtpUnit m b ts all last since, ts, eos, (((start.trans short).trans read).trans left).trans (rtpUnit_rowKept m noted b ts all last since),
    by rw [goes]⟩

end Coding

/-! ### Which row is next -/

section Next
variable {m : Fin 4} {s : State} {p : StreamPic} {ps : List StreamPic} {r : SetupRecord}

/-- The record that governs the next row, and the code record. -/
def rowSet (s : State) (m : Fin 4) (p : StreamPic) : Option SetupRecord := if (s.stream m).row = 0 then s.pxySet m p else (s.stream m).set
def rowCode (s : State) (m : Fin 4) : List Byte := if (s.stream m).row = 0 then s.active unitCode else (s.stream m).code

theorem rowNext_eq (pics : (s.stream m).pics = p :: ps) (set : rowSet s m p = some r) : s.rowNext m =
    if p.ended || s.rowLines p r.bytes (rowCode s m) (s.stream m).row then some (p, r, rowCode s m) else none := by
  unfold State.rowNext
  simp only [pics]
  rw [show (if (s.stream m).row = 0 then s.pxySet m p else (s.stream m).set) = some r from set]
  rfl

/-- With no row to code, a stream that is not at its end does nothing. -/
theorem proxyRow_of_none (idle : s.rowNext m = none) (goes : ((s.stream m).eob && !(s.stream m).run && (s.stream m).pics.isEmpty) = false)
    (h : PictureChoice) (v : SliceChoice) (tail : List Bool) (ctus : List CtuCode) : s.proxyRow m h v tail ctus = s := by
  unfold State.proxyRow
  rw [idle]
  dsimp only
  split
  · exact if_neg (by rw [goes]; exact Bool.false_ne_true)
  · rfl

theorem proxyRow_of_later {c : List Byte} (next : s.rowNext m = some (p, r, c)) (later : s.rowFirst m (p, r, c) = false)
    (h : PictureChoice) (v : SliceChoice) (tail : List Bool) (ctus : List CtuCode) : s.proxyRow m h v tail ctus = s := by
  unfold State.proxyRow
  simp only [next, later, Bool.false_and]
  exact if_neg Bool.false_ne_true

/-- A row that is first on its core, of CTUs that the coding tools allow, is coded. -/
theorem proxyRow_of_first {c : List Byte} (next : s.rowNext m = some (p, r, c)) (first : s.rowFirst m (p, r, c) = true) {v : SliceChoice}
    {ctus : List CtuCode} (legal : ∀ idr, rowLegal r.bytes v idr (s.stream m).row ctus = true) (h : PictureChoice) (tail : List Bool) :
    ∃ t, RowKept m s t ∧ s.proxyRow m h v tail ctus = t.codeRow m p r h v tail ctus := by
  have begun : RowKept m s (if (s.stream m).row = 0 then s.beginUnit m p r h else s) := .ite (beginUnit_rowKept m s p r h) (.refl m s)
  refine ⟨_, begun, ?_⟩
  unfold State.proxyRow
  simp only [next]
  generalize (if (s.stream m).row = 0 then s.beginUnit m p r h else s) = t at begun
  obtain ⟨-, -, -, -, row, -⟩ := begun
  exact if_pos (by rw [first, row, legal]; rfl)

/-- What a row that is coded leaves. -/
theorem proxyRow_coded {c : List Byte} (next : s.rowNext m = some (p, r, c)) (first : s.rowFirst m (p, r, c) = true) {v : SliceChoice}
    {ctus : List CtuCode} (legal : ∀ idr, rowLegal r.bytes v idr (s.stream m).row ctus = true) (run : (s.stream m).run = true)
    (pics : (s.stream m).pics = p :: ps) (h : PictureChoice) (tail : List Bool) :
    let t := s.proxyRow m h v tail ctus
    ((s.stream m).row + 1 < pxyRows r.bytes → (t.stream m).row = (s.stream m).row + 1 ∧ (t.stream m).pics = p :: ps) ∧
      (pxyRows r.bytes ≤ (s.stream m).row + 1 → (t.stream m).row = 0 ∧ (t.stream m).pics = ps) ∧
      (∀ k, k ≠ m → t.stream k = s.stream k) ∧ t.dram = s.dram ∧ t.take = s.take := by
  obtain ⟨begun, begins, coded⟩ := proxyRow_of_first next first legal h tail
  obtain ⟨ready, ts, eos, codes, ended⟩ := codeRow_ends (begins.2.2.2.2.2.trans run) p r h v tail ctus
  obtain ⟨dram, take, others, samePics, row, -⟩ := begins.trans codes
  obtain ⟨more, last, rest, dram', take'⟩ := endRow_spec (m := m) (s := ready) (pxyRows r.bytes) ts eos
  rw [row, samePics, pics] at more last
  dsimp only
  rw [coded, ended]
  exact ⟨more, last, fun k ne => (rest k ne).trans (others k ne), dram'.trans dram, take'.trans take⟩

end Next

/-- Settles O44: a row by whether one is next, first on its core and coded, a sender report by the flow it joins. -/
theorem proxyStreams : Obligations.ProxyStreams := by
  intro m p ps r h v tail ctus s x b row f c set there ntp report frame packet
  refine ⟨fun pics goes => ?_, fun pics found away => ?_, fun pics found here later => ?_, fun pics found here first legal run => ?_,
    fun run every room => ?_, fun rests => ?_⟩
  · have none : s.rowNext m = none := by
      unfold State.rowNext
      simp only [show (s.stream m).pics = [] from pics]
    refine congrArg Host.Outcome.next (proxyRow_of_none none ?_ h v tail ctus)
    rcases goes with eob | run
    · rw [show (s.stream m).eob = false from eob]
      rfl
    · rw [show (s.stream m).run = true from run]
      simp
  · have none : s.rowNext m = none := (rowNext_eq pics found).trans (if_neg (fun is => Bool.false_ne_true (away.symm.trans is)))
    refine congrArg Host.Outcome.next (proxyRow_of_none none ?_ h v tail ctus)
    rw [show (s.stream m).pics = p :: ps from pics]
    simp
  · exact congrArg Host.Outcome.next (proxyRow_of_later ((rowNext_eq pics found).trans (if_pos here)) later h v tail ctus)
  · obtain ⟨more, last, others, dram, take⟩ := proxyRow_coded ((rowNext_eq pics found).trans (if_pos here)) first (fun idr => legal idr) run pics h tail
    exact ⟨_, rfl, more, last, others, dram, take⟩
  · have reports : ((s.stream m).run && decide (pxyRtcpInterval (s.active (unitPxy m.1)) ≠ 0)) = true := by
      rw [show (s.stream m).run = true from run, decide_eq_true every]
      rfl
    have open' : ¬ ((4 + m.1 < 8 ∧ 64 ≤ (s.flow (4 + m.1)).queue.length) ∨ (!s.flowEn (4 + m.1)) = true) := by
      have enabled : s.flowEn (4 + m.1) = true := by
        have low : 4 + m.1 < 32 := by omega
        simp [State.flowEn, low]
      rintro (⟨-, full⟩ | disabled)
      · exact absurd room (Nat.not_lt.mpr full)
      · rw [enabled] at disabled
        exact Bool.noConfusion disabled
    exact congrArg Host.Outcome.next ((if_pos reports).trans (if_neg open'))
  · refine congrArg Host.Outcome.next (if_neg ?_)
    rcases rests with run | never
    · rw [show (s.stream m).run = false from run]
      exact Bool.false_ne_true
    · rw [decide_eq_false (not_not.mpr never), Bool.and_false]
      exact Bool.false_ne_true

end Sys2Proof.Proofs.ProxyRows

/-! ### Decode sessions: tiles, output, progress and access units (O45) -/

namespace Sys2Proof.Proofs.DecodeSessionSteps

open Sys2Proof.Machine Sys2Proof.Claims Sys2Proof.Proofs.Power Sys2Proof.Proofs.Counting Sys2Proof.Proofs.TileEngineSteps
open Sys2Proof.Proofs.PlaySessions

/-! ### What leaves the sessions and the engines alone -/

/-- The sessions and the engines are as before. -/
def Beside (s t : State) : Prop := t.sessions = s.sessions ∧ t.engines = s.engines

section Beside
variable {s t u : State}

theorem Beside.refl (s : State) : Beside s s := ⟨rfl, rfl⟩

theorem Beside.trans (h : Beside s t) (h' : Beside t u) : Beside s u := ⟨h'.1.trans h.1, h'.2.trans h.2⟩

theorem Beside.of_event (h : EventFrame s t) : Beside s t := ⟨h.sessions, h.engines⟩

theorem Beside.of_post (h : PostFrame s t) : Beside s t := ⟨by rw [h], by rw [h]⟩

theorem Beside.of_counted (h : Counted s t) : Beside s t := ⟨h.frame.sessions, h.frame.engines⟩

theorem Beside.ite {a b : State} {c : Prop} [Decidable c] (ha : Beside s a) (hb : Beside s b) : Beside s (if c then a else b) := by
  split
  · exact ha
  · exact hb

theorem Beside.session (h : Beside s t) (k : Fin 9) : t.session k = s.session k := congrArg (vget · k) h.1

theorem bump_beside (s : State) (o n : Nat) : Beside s (s.bump o n) := ⟨rfl, rfl⟩

theorem playStat_beside (s : State) (k : Fin 9) (bit : Nat) : Beside s (s.playStat k bit) := ⟨rfl, rfl⟩

theorem playRaise_beside (s : State) (k : Fin 9) (e : Nat) : Beside s (s.playRaise k e) := .of_event (State.raise_frame s _)

end Beside

theorem sessions_lateRequests {s : State} {j : Nat} (wf : mapWf engineReset s.engines) (idle : (s.engine j).run = .idle) :
    (s.lateRequests j).sessions = s.sessions := by
  unfold State.lateRequests
  extract_lets t
  have sessions : t.sessions = s.sessions := by
    unfold t
    split <;> rfl
  have still : (t.engine j).run = .idle := ((Steady.ite (Steady.takeSnapshot (.refl s) j) (.refl s)).2.2 wf).2.1 idle
  split
  · unfold State.haltEngine
    extract_lets x u
    rw [show x.run = .idle from still]
    exact sessions
  · exact sessions

/-! ### Playback tiles (R194, R215) -/

section Tiles
variable {s : State} {j t : Nat} {p : PlayParams} {t0 : PlayTake} {q : PlayPicture}

theorem length_mapSet_le {α : Type} [DecidableEq α] (d : Nat → α) (m : SMap α) (k : Nat) (v : α) : (mapSet d m k v).length ≤ m.length + 1 := by
  induction m with
  | nil =>
    unfold mapSet
    split <;> simp
  | cons e m ih =>
    unfold mapSet
    split
    · split <;> simp
    · split
      · split
        · exact Nat.le_add_right _ 2
        · exact Nat.le_succ _
      · simpa using ih

theorem stored_spec (wf : mapWf engineReset s.engines) (idle : (s.engine j).run = .idle) (z : PlayPicture) (f : Engine → Engine)
    (run : ∀ x, (f x).run = x.run) :
    let v := (s.modSession 0 (fun x => { x with pic := some z })).modEngine j f
    (v.engine j).run = .idle ∧ (v.session 0).pic = some z := by
  refine ⟨?_, congrArg Session.pic (session_modSession_same s 0 (fun x => { x with pic := some z }))⟩
  rw [engine_modEngine_same (s := s.modSession 0 _) wf, run]
  exact idle

/-- A decode routine that completes, of a picture with tiles left: its samples are stored and its engine is idle. -/
theorem finishPlayTile_spec (wf : mapWf engineReset s.engines) (params : (s.session 0).params = some p) (phase : (s.session 0).phase = .decode)
    (take : (s.session 0).take = some t0) (pic : (s.session 0).pic = some q) (left : q.status.length + 1 < tilesN t0.code)
    (tiles : mapWf (fun _ => []) q.tiles) :
    ((s.finishPlayTile j t).engine j).run = .idle ∧ ∃ z, ((s.finishPlayTile j t).session 0).pic = some z ∧
      mapGet (fun _ => []) z.tiles t = ((s.session 0).decodeTile t0 q t).samples := by
  have idled : ((s.modEngine j (fun x => { x with run := .idle })).engine j).run = .idle :=
    congrArg Engine.run (engine_modEngine_same wf j (fun x => { x with run := .idle }))
  have wf1 : mapWf engineReset (s.modEngine j (fun x => { x with run := .idle })).engines := mapWf_mapSet wf j _
  have sessions : ((s.modEngine j (fun x => { x with run := .idle })).lateRequests j).sessions = s.sessions := sessions_lateRequests wf1 idled
  obtain ⟨wf2, idle, -⟩ := (Steady.lateRequests (.refl (s.modEngine j (fun x => { x with run := .idle }))) j).2.2 wf1
  replace idle := idle idled
  unfold State.finishPlayTile
  generalize (s.modEngine j (fun x => { x with run := .idle })).lateRequests j = u at sessions wf2 idle ⊢
  extract_lets late x
  have same : x = s.session 0 := congrArg (vget · 0) sessions
  rw [show x.params = _ from same ▸ params, show x.take = _ from same ▸ take, show x.pic = _ from same ▸ pic]
  dsimp -zeta only
  rw [if_neg (not_not.mpr (show x.phase = .decode from same ▸ phase))]
  extract_lets r d st concealed noted verified told marked q' stored held
  have note : Beside late noted := (Beside.ite (.of_counted (noteAreas_counted _)) (.refl late)).trans (bump_beside _ _ _)
  have verify : Beside noted verified := .ite (bump_beside _ _ _) (.refl _)
  have tell : Beside verified told := .ite (((bump_beside _ _ _).trans (playStat_beside _ _ _)).trans (playRaise_beside _ _ _)) (.refl _)
  have mark : Beside told marked := .ite (playStat_beside _ _ _) (.refl _)
  have all : Beside late marked := ((note.trans verify).trans tell).trans mark
  have few : q'.status.length < tilesN t0.code := Nat.lt_of_le_of_lt (length_mapSet_le _ _ _ _) left
  rw [if_neg (Nat.not_le.mpr few)]
  have wf3 : mapWf engineReset marked.engines := by
    rw [all.2]
    exact wf2
  obtain ⟨run, shown⟩ := stored_spec wf3 ((congrArg Engine.run (engine_congr all.2 j)).trans idle) q'
    (fun x => x.hold [] (((q.unit t).map (·.2)).getD []) r.samples) (fun _ => rfl)
  exact ⟨run, q', shown, (mapGet_mapSet_same tiles t _).trans (congrArg (fun x : Session => (x.decodeTile t0 q t).samples) same)⟩

end Tiles

/-! ### Output (R195, R201, R206) -/

section Output
variable {s t u : State}

/-- Session 0 plays the same range, has the same number next, and has output as many pictures. -/
def Goes (s t : State) : Prop := (t.session 0).params = (s.session 0).params ∧ (t.session 0).next = (s.session 0).next ∧
  (t.session 0).produced = (s.session 0).produced

theorem Goes.refl (s : State) : Goes s s := ⟨rfl, rfl, rfl⟩

theorem Goes.trans (h : Goes s t) (h' : Goes t u) : Goes s u := ⟨h'.1.trans h.1, h'.2.1.trans h.2.1, h'.2.2.trans h.2.2⟩

theorem Goes.same (sessions : t.sessions = s.sessions) : Goes s t := by
  have session : t.session 0 = s.session 0 := congrArg (vget · 0) sessions
  exact ⟨by rw [session], by rw [session], by rw [session]⟩

theorem Goes.mod (s : State) {f : Session → Session} (params : ∀ x, (f x).params = x.params) (next : ∀ x, (f x).next = x.next)
    (produced : ∀ x, (f x).produced = x.produced) : Goes s (s.modSession 0 f) := by
  unfold Goes
  rw [session_modSession_same]
  exact ⟨params _, next _, produced _⟩

theorem Goes.ite {a b : State} {c : Prop} [Decidable c] (ha : Goes s a) (hb : Goes s b) : Goes s (if c then a else b) := by
  split
  · exact ha
  · exact hb

variable {p : PlayParams} (params : (s.session 0).params = some p) (range : p.follow = false)
include params range

/-- A session of a fixed range chooses what to read or decode next, and neither ends nor goes back to its header. -/
theorem playChoose_goes : Goes s s.playChoose ∧ (s.playChoose.session 0).phase ≠ .header := by
  unfold State.playChoose
  extract_lets x
  rw [show x.params = some p from params]
  dsimp only
  rw [if_neg (by simp [Session.followOver, range])]
  split
  · exact ⟨.mod s (fun _ => rfl) (fun _ => rfl) (fun _ => rfl), by rw [session_modSession_same]; exact PlayPhase.noConfusion⟩
  · split
    · exact ⟨.mod s (fun _ => rfl) (fun _ => rfl) (fun _ => rfl), by rw [session_modSession_same]; exact PlayPhase.noConfusion⟩
    · generalize (if (!x.primed) = true ∨ p.reverse = true then _ else _ : List Nat) = c
      cases c with
      | nil => exact ⟨.mod s (fun _ => rfl) (fun _ => rfl) (fun _ => rfl), by rw [session_modSession_same]; exact PlayPhase.noConfusion⟩
      | cons n c => exact ⟨.mod s (fun _ => rfl) (fun _ => rfl) (fun _ => rfl), by rw [session_modSession_same]; exact PlayPhase.noConfusion⟩

theorem Goes.choose (goes : Goes s t) : Goes s t.playChoose := goes.trans (playChoose_goes (goes.1.trans params) range).1

theorem playWalk_goes : Goes s s.playWalk := by
  unfold State.playWalk
  extract_lets x
  split
  · extract_lets b n headerArea headBad sound short
    refine .ite (Goes.choose params range ?_) (.ite (Goes.choose params range ?_) (.ite ?_ (.ite (Goes.choose params range ?_)
      (Goes.choose params range ?_))))
    · exact .mod s (fun _ => rfl) (fun _ => rfl) (fun _ => rfl)
    · exact .mod s (fun _ => rfl) (fun _ => rfl) (fun _ => rfl)
    · exact .mod s (fun _ => rfl) (fun _ => rfl) (fun _ => rfl)
    · refine Goes.trans (t := s.bump (rPxyPlayDiscards 0) 1) (.same rfl) ?_
      exact .mod _ (fun _ => rfl) (fun _ => rfl) (fun _ => rfl)
    · exact .mod s (fun _ => rfl) (fun _ => rfl) (fun _ => rfl)
  · exact .refl s

theorem playResume_goes : Goes s s.playResume := by
  unfold State.playResume
  rw [params]
  have woken : Goes s (s.modSession 0 (fun x => { x with waiting := false })) := .mod s (fun _ => rfl) (fun _ => rfl) (fun _ => rfl)
  exact .ite (woken.trans (playChoose_goes (woken.1.trans params) range).1) (.refl s)

omit params range in
theorem playFetched_goes : Goes s s.playFetched := by
  unfold State.playFetched
  extract_lets x
  split
  · exact .refl s
  · split
    · exact .refl s
    · extract_lets b area skipped
      have skip : Goes s skipped := .mod s (fun _ => rfl) (fun _ => rfl) (fun _ => rfl)
      refine .ite ?_ (.mod s (fun _ => rfl) (fun _ => rfl) (fun _ => rfl))
      split
      · exact skip.trans (.mod _ (fun _ => rfl) (fun _ => rfl) (fun _ => rfl))
      · exact skip.trans (.mod _ (fun _ => rfl) (fun _ => rfl) (fun _ => rfl))

omit params range in
theorem playIssue_goes (fuel : Nat) (s : State) : Goes s (s.playIssue fuel) := by
  induction fuel generalizing s with
  | zero => exact .refl s
  | succ fuel ih =>
    unfold State.playIssue
    extract_lets x
    split
    · extract_lets fail
      have failed : Goes s fail := .mod s (fun _ => rfl) (fun _ => rfl) (fun _ => rfl)
      refine .ite (failed.trans (ih fail)) (.ite (.refl s) ?_)
      split
      · exact failed.trans (ih fail)
      · extract_lets k sent
        have send : Goes s sent := .same rfl
        refine Goes.trans (send.trans ?_) (ih _)
        exact .mod sent (fun _ => rfl) (fun _ => rfl) (fun _ => rfl)
    · exact .refl s

omit params range in
theorem playLost_goes : Goes s s.playLost ∧ (s.playLost.session 0).phase = (s.session 0).phase := by
  unfold State.playLost
  extract_lets x
  split
  · exact ⟨.refl s, rfl⟩
  · exact ⟨.mod s (fun _ => rfl) (fun _ => rfl) (fun _ => rfl), by rw [session_modSession_same]⟩

/-- Past its header a session of a fixed range keeps its place, whatever it reads. -/
theorem playPump_goes (past : (s.session 0).phase ≠ .header) : Goes s s.playPump := by
  obtain ⟨lost, phase⟩ := playLost_goes (s := s)
  unfold State.playPump
  extract_lets t x used
  have use : Goes t used := by
    refine .ite (.refl t) ?_
    have params' := lost.1.trans params
    cases hp : x.phase with
    | header => exact absurd (phase.symm.trans hp) past
    | walk => exact playWalk_goes params' range
    | await => exact playResume_goes params' range
    | fetch => exact playFetched_goes
    | _ => exact .refl t
  exact (lost.trans use).trans (playIssue_goes 256 used)

end Output

/-- An output counts and leaves the rest of its session. -/
theorem putOutput_session (s : State) (k : Fin 9) (p : PlayParams) (bytes : List Byte) (picture ptp flags width height format : Nat) :
    ∃ at', (s.putOutput k p bytes picture ptp flags width height format).session k =
      { s.session k with produced := (s.session k).produced + 1, recent := (s.session k).recent + 1, outAt := at' } := by
  unfold State.putOutput
  extract_lets n i d noted written
  have note : Beside s noted := .of_counted (noteArea_counted .refl _ _)
  have write : Beside noted written := .of_post (((State.poke_post noted _ _).trans (State.poke_post _ _ _)).trans (State.poke_post _ _ _))
  have same : written.session k = s.session k := (note.trans write).session k
  clear_value written
  refine ⟨written.clk.fab, (session_modSession_same ((written.bump (rPxyPlayPics k.1) 1).setReg (rPxyPlayLast k.1) (BitVec.ofNat 32 picture)) k
    (fun x => { x with produced := x.produced + 1, recent := x.recent + 1, outAt := written.clk.fab })).trans ?_⟩
  rw [show ((written.bump _ 1).setReg _ _).session k = written.session k from rfl, same]

theorem putReport_beside (s : State) (p : PlayParams) (n picStatus ptp unresolved logAddr : Nat) (st : List Nat) :
    Beside s (s.putReport p n picStatus ptp unresolved logAddr st) := by
  unfold State.putReport
  extract_lets i addr e status
  have write : Beside s status := .ite (.of_post (State.poke_post s _ _)) (.refl s)
  exact write.trans (.of_post ((State.poke_post status _ _).trans (State.poke_post _ _ _)))

section Return
variable {s : State} {k : Fin 9} {p : PlayParams}

theorem outputReturn_spec (r : ReturnPicture) : ((s.outputReturn k p r).session k).ready = (s.session k).ready.drop 1 ∧
    ((s.outputReturn k p r).session k).produced = (s.session k).produced + 1 := by
  unfold State.outputReturn
  extract_lets bytes flags
  obtain ⟨at', own⟩ := putOutput_session { s with freeCount := s.freeCount + 1 } k p bytes r.timestamp.toNat r.ptp.toNat flags r.width r.height r.format
  rw [session_modSession_same, own]
  exact ⟨rfl, rfl⟩

theorem playEnd_params (status : Nat) : ((s.playEnd k status).session k).params = none := by
  unfold State.playEnd
  extract_lets x slotless stopped ended
  have own : ended.session k = Session.atReset := session_modSession_same stopped k (fun _ => Session.atReset)
  have post : Beside ended _ := (Beside.of_post (TakeStops.postOwed_post ended x.cmd status (BitVec.ofNat 64 x.produced))).trans (playRaise_beside _ k 3)
  rw [post.session k, own]
  rfl

/-- The place of session 0 after a number that has a next one: that one. -/
theorem playNext_spec {n : Nat} (params : (s.session 0).params = some p) (range : p.follow = false) (after : p.after (s.session 0).next = some n) :
    ((s.playNext p).session 0).produced = (s.session 0).produced ∧ ((s.playNext p).session 0).next = n := by
  unfold State.playNext
  rw [after]
  dsimp only
  have own := session_modSession_same s 0 (fun x => { x with next := n, pic := none, waiting := false })
  generalize s.modSession 0 (fun x => { x with next := n, pic := none, waiting := false }) = t at own
  have params' : (t.session 0).params = some p := by rw [own]; exact params
  obtain ⟨goes, phase⟩ := playChoose_goes params' range
  obtain ⟨-, next, produced⟩ := goes.trans (playPump_goes (goes.1.trans params') range phase)
  rw [produced, next, own]
  exact ⟨rfl, rfl⟩

theorem outputPlay_spec {t0 : PlayTake} {n : Nat} (params : (s.session 0).params = some p) (range : p.follow = false)
    (after : p.after (s.session 0).next = some n) :
    ((s.outputPlay p t0).session 0).produced = (s.session 0).produced + 1 ∧ ((s.outputPlay p t0).session 0).next = n := by
  have next : ∀ t : State, (t.session 0).params = (s.session 0).params → (t.session 0).next = (s.session 0).next →
      (t.session 0).produced = (s.session 0).produced + 1 →
      ((t.playNext p).session 0).produced = (s.session 0).produced + 1 ∧ ((t.playNext p).session 0).next = n := fun t hp hn hd => by
    obtain ⟨produced, next⟩ := playNext_spec (s := t) (n := n) (hp.trans params) range (by rw [hn, after])
    exact ⟨produced.trans hd, next⟩
  unfold State.outputPlay
  extract_lets x c repeats dropped repeated img
  split
  · next q _ =>
    extract_lets st a conc ver cmp ptp pic flags reported shown
    have report : Beside s reported := putReport_beside s _ _ _ _ _ _ _
    obtain ⟨at', own⟩ : ∃ at', shown.session 0 = _ := putOutput_session reported 0 p a.image q.number ptp flags (codeWidth c) (codeHeight c) 0
    rw [report.session 0] at own
    clear_value shown
    have put := session_modSession_same shown 0 (fun x => { x with shown := some a })
    rw [own] at put
    exact next _ (by rw [put]) (by rw [put]) (by rw [put])
  · have report : Beside s repeated := putReport_beside s _ _ _ _ _ _ _
    obtain ⟨at', own⟩ := putOutput_session repeated 0 p img x.next 0 1 (codeWidth c) (codeHeight c) 0
    rw [report.session 0] at own
    generalize repeated.putOutput 0 p img x.next 0 1 (codeWidth c) (codeHeight c) 0 = put at own
    exact next put (by rw [own]) (by rw [own]) (by rw [own])

end Return

/-! ### Access units (R202-R205) -/

section Units
variable {s : State} {k : Fin 9} {p : PlayParams} {u : RxUnit} {rest : List RxUnit} {a : AccessUnit}

theorem lostRows_eq_zero (w ctu : Nat) (lost : List Nat) : lostRows w ctu lost = 0 ↔ lost = [] := by
  unfold lostRows
  rw [List.length_eq_zero_iff, List.dedup_eq_nil, List.map_eq_nil_iff]

section Front
variable (params : (s.session k).params = some p) (queue : (s.session k).queue = u :: rest) (empty : (s.session k).ready = [])
include params queue empty

/-- An IRAP picture that the session accepts is decoded, whatever the units before it were. -/
theorem decodeUnit_accepted (irap : u.irap = true) (leads : u.rasl = false) (sound : auRejected p a = false) :
    let t := s.decodeUnit k a
    (t.session k).queue = rest ∧ (t.session k).untilIrap = false ∧
      (t.session k).ready = [{ timestamp := u.timestamp, ptp := u.ptp, concealed := decide (a.lost ≠ []), degraded := false, width := a.width,
                               height := a.height, format := auFormat a, ctu := a.ctu, lost := a.lost }] := by
  dsimp only
  unfold State.decodeUnit
  extract_lets x rows
  rw [show x.params = _ from params, show x.queue = _ from queue]
  dsimp -zeta only
  rw [if_neg (by rw [show x.ready = _ from empty]; simp)]
  extract_lets taken drop waits foreign verified told before pic
  rw [if_neg (by rw [sound, Bool.and_false]; exact Bool.false_ne_true), if_neg (by rw [irap]; simp), if_neg (by rw [leads]; simp)]
  have front : taken.session k = { s.session k with queue := rest } := session_modSession_same s k (fun x => { x with queue := rest })
  have noted : Beside taken foreign := .ite (.refl taken) (bump_beside _ _ _)
  have verify : Beside foreign verified := .ite (.refl foreign) (bump_beside _ _ _)
  have tell : Beside verified told := .ite (.refl verified) (((bump_beside _ _ _).trans (playStat_beside _ _ _)).trans (playRaise_beside _ _ _))
  have same : told.session k = { s.session k with queue := rest } := (((noted.trans verify).trans tell).session k).trans front
  have sound : before = false := by simp [before, irap]
  have lost : decide (rows ≠ 0) = decide (a.lost ≠ []) := decide_eq_decide.mpr (not_congr (lostRows_eq_zero a.width a.ctu a.lost))
  clear_value told before
  rw [session_modSession_same, same]
  refine ⟨rfl, rfl, ?_⟩
  simp only [empty, List.nil_append, pic, lost, sound, Bool.false_and]

theorem decodeUnit_rejected (irap : u.irap = true) (unsound : auRejected p a = true) :
    let t := s.decodeUnit k a
    (t.session k).queue = rest ∧ (t.session k).ready = [] ∧ (t.session k).untilIrap = true := by
  dsimp only
  unfold State.decodeUnit
  extract_lets x rows
  rw [show x.params = _ from params, show x.queue = _ from queue]
  dsimp -zeta only
  rw [if_neg (by rw [show x.ready = _ from empty]; simp)]
  extract_lets taken drop waits
  rw [if_pos (by rw [unsound, irap, Bool.or_true]; rfl)]
  have front : taken.session k = { s.session k with queue := rest } := session_modSession_same s k (fun x => { x with queue := rest })
  have told : Beside taken ((((drop taken).bump (rPxyPlayRejects k.1) 1).playStat k 2)) := ⟨rfl, rfl⟩
  clear_value taken
  rw [(playRaise_beside _ k 1).session k, session_modSession_same, told.session k, front]
  exact ⟨rfl, empty, rfl⟩

theorem decodeUnit_discarded (irap : u.irap = false) (waits : (s.session k).untilIrap = true) :
    s.decodeUnit k a = (s.modSession k (fun x => { x with queue := rest })).bump (rPxyPlayDiscards k.1) u.count := by
  unfold State.decodeUnit
  extract_lets x rows
  rw [show x.params = _ from params, show x.queue = _ from queue]
  dsimp -zeta only
  rw [if_neg (by rw [show x.ready = _ from empty]; simp)]
  extract_lets taken drop until'
  have still : until' = true := by simp [until', show x.untilIrap = true from waits]
  rw [if_neg (by rw [still, irap]; simp), if_pos (by rw [still, irap]; simp)]

end Front

/-! Access units are passed on to the queue. -/

variable {open' : RxUnit}

theorem passUnit_room (opens : (s.session k).opens = [open']) (room : (s.session k).queue.length < 8) (keeps : (s.session k).discarding = false) :
    ((s.passUnit k).session k).opens = [] ∧ ((s.passUnit k).session k).queue =
      (s.session k).queue ++ [{ open' with gap := open'.gapFrom (s.session k).passedSeq, fresh := false }] := by
  unfold State.passUnit
  extract_lets x
  rw [show x.opens = _ from opens]
  dsimp -zeta only
  extract_lets unit taken
  have front : taken.session k = _ := session_modSession_same s k _
  rw [if_neg (by rw [show x.discarding = false from keeps]; simp; exact room)]
  clear_value taken
  rw [session_modSession_same, front]
  exact ⟨rfl, by rw [show x.discarding = false from keeps]⟩

theorem passUnit_full (opens : (s.session k).opens = [open']) (full : 8 ≤ (s.session k).queue.length) :
    ((s.passUnit k).session k).opens = [] ∧ ((s.passUnit k).session k).queue = (s.session k).queue ∧
      ((s.passUnit k).session k).discarding = true := by
  unfold State.passUnit
  extract_lets x
  rw [show x.opens = _ from opens]
  dsimp -zeta only
  extract_lets unit taken
  have front : taken.session k = _ := session_modSession_same s k _
  have counted : Beside taken (taken.bump (rPxyPlayDiscards k.1) unit.count) := bump_beside _ _ _
  rw [if_pos (.inl full)]
  clear_value taken
  rw [session_modSession_same, counted.session k, front]
  exact ⟨rfl, rfl, rfl⟩

/-- With no unit open none is passed on. -/
theorem passMarked_none (opens : (s.session k).opens = []) (fuel : Nat) : s.passMarked k fuel = s := by
  cases fuel with
  | zero => rfl
  | succ n =>
    unfold State.passMarked
    rw [opens]

end Units

/-! ### Settlement -/

section Steps
variable {s : State} {k : Fin 9} {e : Nat} {p : PlayParams}

theorem playTile_starts {t : Nat} {t0 : PlayTake} {q : PlayPicture} (run : (s.engine e).run = .idle) (up : s.engineUp e = true)
    (free : (s.engine e).halted = false) (calm : s.captureWaits = false) (phase : (s.session 0).phase = .decode) (take : (s.session 0).take = some t0)
    (pic : (s.session 0).pic = some q) (goes : (s.session 0).stopping = false) (next : s.nextPlayTile q t0 = some t) :
    s.playTile e = s.setEngine e { s.engine e with run := .decode t, seq := (s.engine e).seq.enter 1 } := by
  simp [State.playTile, run, up, free, calm, phase, take, pic, goes, next]

theorem playTile_of_capture (run : (s.engine e).run = .idle) (waits : s.captureWaits = true) : s.playTile e = s := by
  simp [State.playTile, run, waits]

theorem playTile_finishes {t : Nat} (run : (s.engine e).run = .decode t) (free : (s.engine e).halted = false) (stop : (s.engine e).stop = false)
    (sound : (s.engine e).fault = none) (alone : (s.engine e).preempt = none) : s.playTile e = s.finishPlayTile e t := by
  simp [State.playTile, run, free, stop, sound, alone]

theorem pictureOutput_of_params (params : (s.session k).params = some p) : s.pictureOutput k =
    if (s.session k).stopping then s.playEnd k stOk
    else if !s.outputRoom k then s
    else if k = 0 then (match (s.session k).phase, (s.session k).take with
      | .output, some t0 => if s.outputDue p t0 then s.outputPlay p t0 else s
      | _, _ => s.playPump)
    else match (s.session k).ready with
      | r :: _ => s.outputReturn k p r
      | [] => s := by
  unfold State.pictureOutput
  simp only [params] <;> rfl

theorem playProgress_of_return {c : PendingCmd} (params : (s.session k).params = some p) (other : k ≠ 0)
    (kept : p.rateNum * 65536 ≤ (s.session k).recent * 65536 * p.rateDen) (cmd : (s.session k).cmd = some c) : s.playProgress k =
    ((s.setReg (rPxyPlayRate k.1) (BitVec.ofNat 32 ((s.session k).recent * 65536))).modSession k (fun x => { x with recent := 0 })).post c stPending
      false (BitVec.ofNat 64 ((s.session k).recent * 65536)) := by
  unfold State.playProgress
  simp only [params, cmd, if_pos kept, if_neg other]

end Steps

/-- Settles O45: playback tiles by engine and picture, outputs by the session they leave, access units by the unit at the front. -/
theorem decodeSessions : Obligations.DecodeSessions := by
  intro k e t n p t0 q c u rest a r rs s wf x y g pic passed
  refine ⟨fun absent => ⟨?_, ?_, ?_⟩, fun idle up free calm phase take open' goes next => ?_, fun idle waits => ?_,
    fun run free stop sound alone params phase take open' left tiles => ?_, fun params => ⟨fun stopping => ?_, fun goes full => ?_,
      fun goes room other ready => ?_, fun goes room own phase take due range after => ?_, fun other slow cmd => ?_,
      fun queue empty irap leads => ⟨fun accepted => ?_, fun rejected => ?_⟩, fun queue empty inner waits => ?_⟩,
    fun opens => ?_, fun opens room keeps => ?_, fun opens full => ?_⟩
  · exact congrArg Host.Outcome.next (by simp only [State.pictureOutput, show (s.session k).params = none from absent])
  · exact congrArg Host.Outcome.next (by simp only [State.playProgress, show (s.session k).params = none from absent])
  · exact congrArg Host.Outcome.next (by simp only [State.decodeUnit, show (s.session k).params = none from absent])
  · exact congrArg Host.Outcome.next (playTile_starts idle up free calm phase take open' goes next)
  · exact congrArg Host.Outcome.next (playTile_of_capture idle waits)
  · obtain ⟨idle, z, shown, samples⟩ := finishPlayTile_spec (j := e.1) (t := t) wf params phase take open' left tiles
    exact ⟨_, z, congrArg Host.Outcome.next (playTile_finishes run free stop sound alone), idle, shown, samples⟩
  · exact ⟨_, congrArg Host.Outcome.next ((pictureOutput_of_params params).trans (if_pos stopping)), playEnd_params stOk⟩
  · refine congrArg Host.Outcome.next ((pictureOutput_of_params params).trans ((if_neg ?_).trans (if_pos (by rw [full]; rfl))))
    exact Bool.eq_false_iff.mp goes
  · have returned := outputReturn_spec (s := s) (k := k) (p := p) r
    refine ⟨s.outputReturn k p r, congrArg Host.Outcome.next ((pictureOutput_of_params params).trans ((if_neg (Bool.eq_false_iff.mp goes)).trans
      ((if_neg (by rw [room]; simp)).trans ((if_neg other).trans ?_)))), ?_, returned.2⟩
    · rw [show (s.session k).ready = _ from ready]
    · rw [returned.1, show (s.session k).ready = _ from ready]
      rfl
  · subst own
    refine ⟨s.outputPlay p t0, congrArg Host.Outcome.next ((pictureOutput_of_params params).trans ((if_neg (Bool.eq_false_iff.mp goes)).trans
      ((if_neg (by rw [room]; simp)).trans ((if_pos rfl).trans ?_)))), outputPlay_spec params range after⟩
    rw [show (s.session 0).phase = _ from phase, show (s.session 0).take = _ from take]
    exact if_pos due
  · exact congrArg Host.Outcome.next (playProgress_of_return params other slow cmd)
  · obtain ⟨queued, restart, decoded⟩ := decodeUnit_accepted params queue empty irap leads accepted
    exact ⟨_, rfl, queued, decoded, restart⟩
  · exact ⟨_, rfl, decodeUnit_rejected params queue empty irap rejected⟩
  · exact congrArg Host.Outcome.next (decodeUnit_discarded params queue empty inner waits)
  · have none : s.passUnit k = s := by simp only [State.passUnit, show (s.session k).opens = [] from opens]
    refine congrArg Host.Outcome.next ?_
    rw [none, passMarked_none opens]
  · obtain ⟨closed, queued⟩ := passUnit_room opens room keeps
    refine ⟨s.passUnit k, congrArg Host.Outcome.next (passMarked_none closed _), closed, queued⟩
  · obtain ⟨closed, queued⟩ := passUnit_full opens full
    exact ⟨s.passUnit k, congrArg Host.Outcome.next (passMarked_none closed _), closed, queued⟩

end Sys2Proof.Proofs.DecodeSessionSteps

/-! ### Chains and bursts of the DMA engine, and single accesses through Flume (O30) -/

namespace Sys2Proof.Proofs.DmaAndFlumeSteps

open Sys2Proof.Machine Sys2Proof.Claims Sys2Proof.Proofs.Coding Sys2Proof.Proofs.Stores Sys2Proof.Proofs.DataCache Sys2Proof.Proofs.Dram

/-! ### A channel and its chain -/

section Channels
variable {s t : State} {c : Fin 64}

theorem chan_congr (h : t.dma = s.dma) (c : Fin 64) : t.chan c = s.chan c := congrArg (fun v => vget v c) h

theorem chan_modDma (f : DmaChannel → DmaChannel) : (s.modDma c f).chan c = f (s.chan c) := vget_vmod_same _ _ _

theorem chan_modChain (f : DmaChain → DmaChain) : (s.modChain c f).chan c = { s.chan c with chain := (s.chan c).chain.map f } := chan_modDma _

theorem chain_modChain {x : DmaChain} (chain : (s.chan c).chain = some x) (f : DmaChain → DmaChain) : ((s.modChain c f).chan c).chain = some (f x) := by
  rw [chan_modChain, chain, Option.map_some]

theorem chain_modDma {x : DmaChain} (chain : (s.chan c).chain = some x) {f : DmaChannel → DmaChannel} (keeps : ∀ y, (f y).chain = y.chain) :
    ((s.modDma c f).chan c).chain = some x := by
  rw [chan_modDma, keeps, chain]

end Channels

/-! ### Memory accesses leave the channels -/

section Kept
variable {s t : State}

theorem dma_of_post (h : PostFrame s t) : t.dma = s.dma := by rw [h]

theorem writeWord_dma (r : DramReq) (w : Nat) : (s.writeWord r w).dma = s.dma := by
  unfold State.writeWord
  extract_lets e a noted
  split
  · rfl
  · split
    · rfl
    · exact (dma_of_post (State.noteWords_post s .dram a 16) : noted.dma = s.dma)

theorem poisonAt_dma (a n : Nat) : (s.poisonAt a n).dma = s.dma := by
  unfold State.poisonAt
  split
  · rfl
  · exact dma_of_post (State.setStore_post s _ _)
  · rfl

theorem dramAnswer_dma (r : DramReq) (b : List Byte) (bad : List Nat) : (s.dramAnswer r b bad).dma = s.dma := by
  unfold State.dramAnswer
  split
  · rfl
  · rfl

theorem foldl_dma {β : Type} {f : State → β → State} (keeps : ∀ s b, (f s b).dma = s.dma) (l : List β) (s : State) : (l.foldl f s).dma = s.dma :=
  foldl_keeps (fun t => t.dma = s.dma) f (fun t b h => (keeps t b).trans h) l s rfl

theorem dramAccess_dma (c : Nat) (r : DramReq) : (s.dramAccess c r).dma = s.dma := by
  unfold State.dramAccess
  extract_lets line written bad x b
  have wrote : written.dma = s.dma := foldl_dma (fun s w => writeWord_dma r w) _ s
  have read : x.1.dma = s.dma := dma_of_post (State.noteWords_post s .dram line 64)
  split
  · exact (dramAnswer_dma _ _ _).trans ((foldl_dma (fun s w => poisonAt_dma _ _) _ written).trans wrote)
  · exact (dramAnswer_dma _ _ _).trans read

theorem perform_dma (c i : Nat) : (s.perform c i).dma = s.dma := by
  unfold State.perform
  split
  · rfl
  · exact dramAccess_dma _ _

theorem settleChan_dma (c : Nat) (i : Initiator) (a k fuel : Nat) : (s.settleChan c i a k fuel).dma = s.dma := by
  induction fuel generalizing s with
  | zero => rfl
  | succ fuel ih =>
    unfold State.settleChan
    extract_lets q
    split
    · exact ih.trans (perform_dma _ _)
    · rfl

theorem settle_dma (i : Initiator) (a k : Nat) : (s.settle i a k).dma = s.dma := by
  unfold State.settle
  split
  · exact foldl_dma (fun s c => settleChan_dma c i a k _) _ s
  · rfl

theorem memWrite_dma (i : Initiator) (a : Nat) (b : List Byte) : (s.memWrite i a b).1.dma = s.dma := by
  unfold State.memWrite
  extract_lets r
  split
  · rfl
  · rfl
  · split
    · exact (dma_of_post (State.writeStore_post _ _ _ _)).trans ((settle_dma _ _ _).trans (State.ctlSync_frame s _ _ _).dma)
    · rfl

theorem setHolder_dma (h : Word) (o : Fin 64) : (s.setHolder h o).dma = s.dma := by
  unfold State.setHolder
  split
  · rfl
  · split
    · unfold State.setBuf
      rfl
    · rfl

theorem raiseDma_frame (s : State) (c : Fin 64) : EventFrame s (s.raiseDma c) := by
  unfold State.raiseDma
  split
  · exact State.raise_frame _ _
  · exact .refl s

end Kept

/-! ### How a chain starts and ends (R361, R364, R370 to R373) -/

section Chains
variable {s : State} {c : Fin 64} {x : DmaChain}

/-- The records are written and the events raised beside the channel, which then holds no chain. -/
theorem chan_dmaFinish {e : Nat} (chain : (s.chan c).chain = some x) (ending : x.ending = some e) (ends : e ≠ endStopped) (answered : x.reqs = []) :
    (s.dmaFinish c).chan c = { s.chan c with chain := none, lastEnd := e, lastStatus := BitVec.ofNat 8 (endStatus e) } := by
  unfold State.dmaFinish
  simp -zeta only [chain, ending]
  rw [if_neg (not_not.mpr answered), if_neg ends]
  extract_lets st own flags crcRec crcDone compl handed ended counted told
  have recorded : crcDone.dma = s.dma := by
    unfold crcDone
    split
    · exact memWrite_dma _ _ _
    · rfl
  have returned : handed.dma = s.dma := by
    unfold handed
    split
    · exact (setHolder_dma _ _).trans ((memWrite_dma _ _ _).trans recorded)
    · exact recorded
  have events : EventFrame ended (told.raiseDma c) := by
    refine EventFrame.trans (t := told) ?_ (raiseDma_frame _ c)
    unfold told
    split
    · exact State.bump_frame ended _ _
    · exact (((State.bump_frame ended _ _).trans (State.bump_frame counted _ _)).trans (State.orReg_frame _ _ _)).trans (State.raise_frame _ _)
  exact (chan_congr events.dma c).trans ((chan_modDma _).trans (by rw [chan_congr returned c]))

theorem ending_finish (running : x.ending = none) (e : Nat) : (x.finish e).ending = some e := by
  rw [DmaChain.finish, running]
  rfl

/-- A chain that is told to end, with no request out, ends. -/
theorem chan_finish {e : Nat} (f : DmaChain → DmaChain) (chain : (s.chan c).chain = some x) (ending : (f x).ending = some e) (ends : e ≠ endStopped)
    (answered : (f x).reqs = []) : ((s.modChain c f).dmaFinish c).chan c =
      { s.chan c with chain := none, lastEnd := e, lastStatus := BitVec.ofNat 8 (endStatus e) } := by
  have told : ((s.modChain c f).chan c).chain = some (f x) := by rw [chan_modChain, chain, Option.map_some]
  rw [chan_dmaFinish told ending ends answered, chan_modChain]

theorem dmaStart_of_queue {h : Word} {giver owner : Fin 64} {rest : List (Word × Fin 64 × Fin 64)} (idle : (s.chan c).chain = none)
    (queue : (s.chan c).queue = (h, giver, owner) :: rest) : ∃ y, (s.dmaStart c).chan c = { s.chan c with queue := rest, chain := some y } ∧
      y.handle = h ∧ y.giver = giver ∧ y.descAddr = s.bufAddr (h.toNat / 2 ^ 29) (h.toNat % 2 ^ 29) ∧ y.hops = 0 ∧ y.desc = none ∧
      (s.dmaStart c).dram = s.dram := by
  unfold State.dmaStart
  extract_lets ch
  split
  · next h' giver' owner' rest' _ listed =>
    obtain ⟨⟨rfl, rfl, rfl⟩, rfl⟩ : (h' = h ∧ giver' = giver ∧ owner' = owner) ∧ rest' = rest := by simpa [queue] using listed.symm.trans queue
    extract_lets a y
    exact ⟨y, chan_modDma _, rfl, rfl, rfl, rfl, rfl, rfl⟩
  · next other => exact absurd queue (other h giver owner rest idle)

section Fetch
variable {s1 : State} {b : List Byte} (chain : (s.chan c).chain = some x) (bare : x.desc = none) (running : x.ending = none) (answered : x.reqs = [])
  (fetching : s.modDma c (fun y => { y with nextReq := y.nextReq + 1 }) = s1) (read : s1.memRead (.dma x.actOwner) x.descAddr 64 = (s1, .ok b))
include chain bare running answered fetching read

theorem dmaFetch_accepted (sound : s1.descRefused c (decide (x.hops = 0)) (dmaDesc b) = false) : ∃ y, ((s.dmaFetch c).chan c).chain = some y ∧
    y.desc = some (dmaDesc b) ∧ y.hops = x.hops + 1 ∧ y.moved = 0 ∧ y.ending = none := by
  have own : (s1.chan c).chain = some x := by rw [← fetching, chan_modDma, chain]
  unfold State.dmaFetch
  simp -zeta only [chain]
  rw [if_neg (by simp [bare, running, answered])]
  extract_lets first
  rw [fetching]
  simp -zeta only [read]
  extract_lets d x1 x2
  rw [if_neg (by rw [sound]; decide), chan_modChain, own]
  refine ⟨x2, rfl, ?_⟩
  unfold x2
  split
  · exact ⟨rfl, rfl, rfl, running⟩
  · exact ⟨rfl, rfl, rfl, running⟩

theorem dmaFetch_refused (refused : s1.descRefused c (decide (x.hops = 0)) (dmaDesc b) = true) : (s.dmaFetch c).chan c =
    { s1.chan c with chain := none, lastEnd := 1, lastStatus := BitVec.ofNat 8 stBadarg } := by
  have own : (s1.chan c).chain = some x := by rw [← fetching, chan_modDma, chain]
  unfold State.dmaFetch
  simp -zeta only [chain]
  rw [if_neg (by simp [bare, running, answered])]
  extract_lets first
  rw [fetching]
  simp -zeta only [read]
  extract_lets d x1 x2
  rw [if_pos refused]
  have ending : (x1.finish endBaddesc).ending = some endBaddesc := ending_finish running _
  exact chan_finish _ own ending (by decide) answered

end Fetch

/-- The 10 µs of the read that the chain is about, its descriptor, expire (R370). -/
theorem dmaExpire_fetch (chain : (s.chan c).chain = some x) (bare : x.desc = none) (running : x.ending = none) (answered : x.reqs = []) :
    ((s.dmaExpire c (s.chan c).nextReq).chan c).chain = none ∧ ((s.dmaExpire c (s.chan c).nextReq).chan c).lastEnd = 5 ∧
      ((s.dmaExpire c (s.chan c).nextReq).chan c).lastStatus = BitVec.ofNat 8 stTimeout := by
  have reads : s.dmaReads c = true := by simp [State.dmaReads, chain, bare, running, answered]
  have own : ((s.modDma c (fun y => { y with nextReq := y.nextReq + 1 })).chan c).chain = some x := by rw [chan_modDma, chain]
  have ending : (x.finish endTimeout).ending = some endTimeout := ending_finish running _
  have ends := chan_finish (fun x => x.finish endTimeout) own ending (by decide) answered
  have expires : s.dmaExpire c (s.chan c).nextReq =
      ((s.modDma c (fun y => { y with nextReq := y.nextReq + 1 })).modChain c (fun x => x.finish endTimeout)).dmaFinish c := by
    unfold State.dmaExpire
    simp only [chain]
    rw [if_neg (by simp [answered]), if_pos ⟨trivial, reads⟩]
  rw [expires, ends]
  exact ⟨rfl, rfl, rfl⟩

/-- The 10 µs of the only write that is out expire (R370). -/
theorem dmaExpire_write {r : DmaRequest} (chain : (s.chan c).chain = some x) (out : x.reqs = [r]) (running : x.ending = none) :
    (s.dmaExpire c r.id).chan c = { s.chan c with chain := none, lastEnd := 5, lastStatus := BitVec.ofNat 8 stTimeout } := by
  have gone : x.reqs.filter (fun q => q.id ≠ r.id) = [] := by simp [out]
  have ending : ({ x with reqs := x.reqs.filter (fun q => q.id ≠ r.id) }.finish endTimeout).ending = some endTimeout := ending_finish running _
  have expires : s.dmaExpire c r.id =
      (s.modChain c (fun x => { x with reqs := x.reqs.filter (fun q => q.id ≠ r.id) }.finish endTimeout)).dmaFinish c := by
    unfold State.dmaExpire
    simp only [chain]
    rw [if_pos (by simp [out])]
  have ends := chan_finish (fun x => { x with reqs := x.reqs.filter (fun q => q.id ≠ r.id) }.finish endTimeout) chain ending (by decide) gone
  rw [expires, ends]
  rfl

/-- The last write of the last descriptor is answered: the chain is done (R363, R372, R373). -/
theorem dmaAnswer_last {r : DmaRequest} {d : DmaDesc} (chain : (s.chan c).chain = some x) (desc : x.desc = some d) (out : x.reqs = [r])
    (running : x.ending = none) (taken : r.refused = false) (moved : d.count ≤ x.moved) (last : d.next = 0) : (s.dmaAnswer c r.id false).chan c =
      { s.chan c with chain := none, lastEnd := 0, lastStatus := BitVec.ofNat 8 stOk, lastTag := d.tag,
                      bytes := (s.chan c).bytes + BitVec.ofNat 64 r.bytes } := by
  have found : x.reqs.find? (fun q => q.id = r.id) = some r := by simp [out]
  unfold State.dmaAnswer
  simp -zeta only [chain, found]
  extract_lets left zero confirmed
  rw [if_neg (by simp [taken])]
  have answered : x.reqs.filter (fun q => q.id ≠ r.id) = [] := by simp [out]
  obtain ⟨y, own, rest⟩ : ∃ y, confirmed.chan c = { s.chan c with chain := some y, bytes := (s.chan c).bytes + BitVec.ofNat 64 r.bytes } ∧
      y.desc = some d ∧ y.reqs = [] ∧ y.ending = none ∧ y.moved = x.moved := by
    refine ⟨{ x with reqs := x.reqs.filter (fun q => q.id ≠ r.id), confirmed := x.confirmed + r.bytes, total := x.total + r.bytes }, ?_, desc,
      answered, running, rfl⟩
    · unfold confirmed left
      rw [chan_modDma, chan_modChain, chan_modChain, chain]
      rfl
  clear_value confirmed
  obtain ⟨yDesc, yOut, yRuns, yMoved⟩ := rest
  have yChain : (confirmed.chan c).chain = some y := by rw [own]
  unfold State.dmaComplete
  simp -zeta only [yChain, yDesc]
  rw [if_neg (by simp [yOut, yRuns, yMoved, moved])]
  extract_lets tagged told
  have same : told.chan c = { confirmed.chan c with lastTag := d.tag } := by
    refine (chan_congr (t := told) (s := tagged) ?_ c).trans (chan_modDma _)
    unfold told
    split
    · exact (raiseDma_frame tagged c).dma
    · rfl
  clear_value told
  rw [if_pos last]
  have ending : (y.finish endDone).ending = some endDone := ending_finish yRuns _
  rw [chan_finish (fun x => x.finish endDone) (by rw [same, own]) ending (by decide) yOut, same, own]
  rfl

end Chains

/-! ### A burst (R365 to R367) -/

/-- Every word of the store is clean, and its maps are in form. -/
def Sound (m : Store) : Prop := (∀ i, m.syndrome i = 0) ∧ m.wf

/-- Initiator `i` reaches DRAM as it is: it is sound, holds no extension buffer, and no request of `i` waits. -/
structure Reaches (s : State) (i : Initiator) : Prop where
  sound : Sound s.dram
  noExt : ∀ n : Nat, s.extBuf n = none
  none : ∀ (m : Nat) (q : DramReq), q ∈ (s.chn m).queue → q.ini ≠ i

theorem Reaches.with_dram {s : State} {i : Initiator} (h : Reaches s i) {m : Store} (sound : Sound m) : Reaches { s with dram := m } i := ⟨sound, h.noExt, h.none⟩

/-- Store `t` is `s` with `b` at `a`. -/
structure Copied (s t : Store) (a : Nat) (b : List Byte) : Prop where
  sound : Sound t
  inside : ∀ j < b.length, t.readByte (a + j) = nth 0 b j
  outside : ∀ k, k < a ∨ a + b.length ≤ k → t.readByte k = s.readByte k

theorem copied_write {m : Store} (sound : Sound m) (a : Nat) (b : List Byte) : Copied m (m.write a b) a b where
  sound := ⟨fun i => (syndrome_write sound.2 (fun j _ => sound.1 j) i).trans (sound.1 i), Store.write_wf sound.2 a b⟩
  inside _ h := readByte_write_same sound.2 (fun j _ => sound.1 j) h
  outside _ h := readByte_write_other sound.2 (fun j _ => sound.1 j) h

theorem Copied.append {m m' m'' : Store} {a : Nat} {b b' : List Byte} (h : Copied m m' a b) (h' : Copied m' m'' (a + b.length) b') :
    Copied m m'' a (b ++ b') where
  sound := h'.sound
  inside j lt := by
    rw [List.length_append] at lt
    by_cases first : j < b.length
    · rw [h'.outside _ (by omega), h.inside j first]
      simp [nth_eq_getD, List.getElem?_append, first]
    · have later := h'.inside (j - b.length) (by omega)
      rw [show a + b.length + (j - b.length) = a + j by omega] at later
      rw [later]
      simp [nth_eq_getD, List.getElem?_append, first]
  outside k out := by
    rw [List.length_append] at out
    rw [h'.outside k (by omega), h.outside k (by omega)]

section Memory
variable {s : State} {i : Initiator}

theorem memRead_window (reach : Reaches s i) {a n : Nat} (nonempty : n ≠ 0) (window : a + n ≤ s.window) :
    s.memRead i a n = (s, .ok (s.readBytes .dram a n)) := by
  have dram : s.region a = .dram a := region_dram (by omega)
  simp only [State.memRead, dram, Region.cell, State.touchOk, reach.noExt, if_true]
  rw [ctlSync_of_uncached (fun _ _ _ => ctlWithin_of_window window), settle_of_none reach.none,
    readStore_of_clean s .dram (fun j _ => reach.sound.1 j)]

theorem memWrite_window (reach : Reaches s i) {a : Nat} {b : List Byte} (nonempty : b.length ≠ 0) (window : a + b.length ≤ s.window) :
    s.memWrite i a b = ({ s with dram := s.dram.write a b }, true) := by
  have dram : s.region a = .dram a := region_dram (by omega)
  simp only [State.memWrite, dram, Region.cell, State.touchOk, reach.noExt, if_true]
  rw [ctlSync_of_uncached (fun _ _ _ => ctlWithin_of_window window), settle_of_none reach.none,
    writeStore_of_clean s .dram (fun j _ => reach.sound.1 j)]
  rfl

/-- The writes of a burst put its data at its destination; none of it is poisoned. -/
theorem dmaWrites_spec (burst finalEnd id fuel : Nat) : ∀ {s : State} {a : Nat} {data : List (Byte × Bool)} (acc : List DmaRequest), Reaches s i →
    (∀ p ∈ data, p.2 = false) → (a % 64 + data.length ≤ 64 * fuel ∨ data.length = 0) → a + data.length ≤ s.window →
    ∃ m, (s.dmaWrites i burst finalEnd id fuel a data acc).1 = { s with dram := m } ∧ Copied s.dram m a (data.map (·.1)) := by
  induction fuel with
  | zero =>
    intro s a data acc reach _ len _
    obtain rfl : data = [] := List.eq_nil_of_length_eq_zero (by omega)
    exact ⟨s.dram, rfl, reach.sound, fun j h => absurd h (Nat.not_lt_zero j), fun _ _ => rfl⟩
  | succ fuel ih =>
    intro s a data acc reach plain len window
    unfold State.dmaWrites
    split
    · next empty =>
      subst empty
      exact ⟨s.dram, rfl, reach.sound, fun j h => absurd h (Nat.not_lt_zero j), fun _ _ => rfl⟩
    · next nonempty =>
      have pos : data.length ≠ 0 := fun h => nonempty (List.eq_nil_of_length_eq_zero h)
      extract_lets n part w s1 r
      have size : (part.map (·.1)).length = n := by
        rw [List.length_map, List.length_take]
        exact Nat.min_eq_left (Nat.min_le_right _ _)
      have n_def : n = min (64 - a % 64) data.length := rfl
      have pieces : n ≤ data.length ∧ n ≠ 0 ∧ (n = data.length ∨ a % 64 + n = 64) := by omega
      clear_value n
      obtain ⟨n_le, n_pos, ends⟩ := pieces
      have wrote : w = ({ s with dram := s.dram.write a (part.map (·.1)) }, true) := memWrite_window reach (by omega) (by omega)
      have kept : s1 = { s with dram := s.dram.write a (part.map (·.1)) } := by
        have sound : ∀ i, ((part.zip (upFrom a n)).any (fun p => p.1.2 && decide (p.2 / 16 = i))) = false := fun i =>
          List.any_eq_false.mpr fun p mem => by simp [plain p.1 (List.mem_of_mem_take (List.of_mem_zip (show (p.1, p.2) ∈ _ from mem)).1)]
        unfold s1
        rw [wrote, if_pos rfl]
        simp only [sound, Bool.false_eq_true, if_false]
        exact foldl_keeps (fun t : State => t = { s with dram := s.dram.write a (part.map (·.1)) }) _ (fun _ _ h => h) _ _ rfl
      clear_value s1
      subst kept
      have first := copied_write reach.sound a (part.map (·.1))
      obtain ⟨m, run, rest⟩ := ih (a := a + n) (data := data.drop n) (acc ++ [r]) (reach.with_dram first.sound)
        (fun p mem => plain p (List.mem_of_mem_drop mem)) (by rw [List.length_drop]; omega) (by rw [List.length_drop]; change _ ≤ s.window; omega)
      refine ⟨m, run, ?_⟩
      have whole : data.map (·.1) = part.map (·.1) ++ (data.drop n).map (·.1) := by rw [← List.map_append, List.take_append_drop]
      rw [whole]
      refine first.append ?_
      rw [size]
      exact rest

theorem foldl_upFrom {β : Type} (P : Nat → β → Prop) (f : β → Nat → β) {n : Nat} (step : ∀ k acc, k < n → P k acc → P (k + 1) (f acc k)) {init : β}
    (start : P 0 init) : P n ((upFrom 0 n).foldl f init) := by
  rw [upFrom_eq_range']
  induction n with
  | zero => exact start
  | succ n ih =>
    rw [List.range'_concat, List.foldl_append]
    simp only [Nat.zero_add, Nat.one_mul, List.foldl_cons, List.foldl_nil]
    exact step n _ (by omega) (ih fun k acc lt => step k acc (by omega))

theorem read_append (m : Store) (a n k : Nat) : m.read a n ++ m.read (a + n) k = m.read a (n + k) := by
  simp [Store.read, upFrom_eq_range', ← List.map_append]

theorem peekBad_window (reach : Reaches s i) {a n : Nat} (window : a < s.window) : s.peekBad a n = false := by
  rw [State.peekBad, region_dram window]
  exact verdicts_not_bad fun j _ => reach.sound.1 j

/-- The source lines of a burst in sound DRAM give its bytes, none of them poisoned, and change nothing. -/
theorem dmaSource_spec (reach : Reaches s i) {a n : Nat} (window : (a + n + 63) / 64 * 64 ≤ s.window) :
    ∃ data bad, s.dmaSource i a n = (s, some data, bad) ∧ data.map (·.1) = s.dram.read a n ∧ ∀ p ∈ data, p.2 = false := by
  unfold State.dmaSource
  extract_lets lo hi lines r bytes
  have lines_read : r = (s, false, s.dram.read lo (64 * ((hi - lo) / 64))) := by
    refine foldl_upFrom (fun k acc => acc = (s, false, s.dram.read lo (64 * k))) _ (fun k acc lt same => ?_) rfl
    have line : s.memRead i (lo + 64 * k) 64 = (s, .ok (s.dram.read (lo + 64 * k) 64)) := memRead_window reach (by decide) (by omega)
    simp only [same, line, read_append]
    rfl
  clear_value r
  subst lines_read
  have read : bytes = s.dram.read a n := by
    refine (sliceAt_read s.dram (o := a - lo) (by omega)).trans ?_
    rw [show lo + (a - lo) = a by omega]
  clear_value bytes
  subst read
  rw [if_neg Bool.false_ne_true]
  refine ⟨_, _, rfl, ?_, fun p mem => ?_⟩
  · rw [List.map_map]
    exact List.map_fst_zip (by simp)
  · obtain ⟨q, inside, rfl⟩ := List.mem_map.mp mem
    have own := mem_upFrom.mp (List.of_mem_zip (show (q.1, q.2) ∈ _ from inside)).2
    exact peekBad_window reach (by omega)

end Memory

section Burst
variable {s : State} {c : Fin 64} {x : DmaChain} {d : DmaDesc}

theorem Reaches.congr {t : State} {i : Initiator} (h : Reaches s i) (dram : t.dram = s.dram) (mc : t.mc = s.mc) (cis : t.cis = s.cis) : Reaches t i where
  sound := dram ▸ h.sound
  noExt n := (show t.extBuf n = s.extBuf n by rw [State.extBuf, cis, State.extBuf]).trans (h.noExt n)
  none m q mem := h.none m q ((chn_congr mc m) ▸ mem)

/-- The grants of a burst count for the channels that it passes over. -/
theorem grant_spec (chain : (s.chan c).chain = some x) (l : List (Fin 64)) : ∃ v p,
    l.foldl (fun s d => s.modChain d (fun x => { x with passed := if d = c then 0 else x.passed + 1 })) s = { s with dma := v } ∧
      (({ s with dma := v } : State).chan c).chain = some { x with passed := p } := by
  refine foldl_keeps (fun t => ∃ v p, t = { s with dma := v } ∧ (({ s with dma := v } : State).chan c).chain = some { x with passed := p }) _
    (fun t d h => ?_) l s ⟨s.dma, x.passed, rfl, chain⟩
  obtain ⟨v, p, rfl, own⟩ := h
  by_cases same : d = c
  · subst same
    refine ⟨_, 0, rfl, ?_⟩
    refine (congrArg DmaChannel.chain (chan_modChain (s := { s with dma := v }) _)).trans ?_
    rw [own]
    simp
  · refine ⟨_, p, rfl, ?_⟩
    refine (congrArg DmaChannel.chain (vget_vmod_ne v (fun h => same h.symm) _)).trans own

/-- The writes of a burst, noted in its chain. -/
theorem dmaWrites_burst {u : State} {i : Initiator} (own : (u.chan c).chain = some x) (reach : Reaches u i) (f : DmaChain → DmaChain) {n : Nat}
    (moved : (f x).moved = n) (burst finalEnd id : Nat) {a : Nat} {data : List (Byte × Bool)} (plain : ∀ p ∈ data, p.2 = false)
    (size : data.length ≤ 256 - a % 256) (target : a + data.length ≤ u.window) :
    let w := (u.modChain c f).dmaWrites i burst finalEnd id 5 a data []
    let t := (w.1.modDma c (fun y => { y with nextReq := y.nextReq + w.2.length })).modChain c (fun y => { y with reqs := y.reqs ++ w.2 })
    ∃ v y, t = v ∧ (v.chan c).chain = some y ∧ y.moved = n ∧ Copied u.dram v.dram a (data.map (·.1)) := by
  intro w t
  obtain ⟨m, wrote, copied⟩ := dmaWrites_spec (s := u.modChain c f) burst finalEnd id 5 (i := i) (a := a) (data := data) [] (reach.congr rfl rfl rfl)
    plain (.inl (by omega)) target
  have chain : (w.1.chan c).chain = some (f x) := (congrArg (fun s : State => (s.chan c).chain) wrote).trans (chain_modChain own f)
  have dram : w.1.dram = m := congrArg State.dram wrote
  clear_value w
  have noted : ((w.1.modDma c (fun y => { y with nextReq := y.nextReq + w.2.length })).chan c).chain = some (f x) := chain_modDma chain fun _ => rfl
  exact ⟨t, _, rfl, chain_modChain noted _, moved, dram ▸ copied⟩

theorem dmaIssue_spec (chain : (s.chan c).chain = some x) (desc : x.desc = some d) (few : s.dmaInFlight < 32) (pick : s.dmaPick = some c)
    (reach : Reaches s (.dma x.actOwner)) {n : Nat} (size : Nat.min (256 - (d.dst + x.moved) % 256) (d.count - x.moved) = n)
    (source : (d.src + x.moved + n + 63) / 64 * 64 ≤ s.window) (target : d.dst + x.moved + n ≤ s.window) :
    ∃ t y, s.dmaIssue = t ∧ (t.chan c).chain = some y ∧ y.moved = x.moved + n ∧
      Copied s.dram t.dram (d.dst + x.moved) (s.dram.read (d.src + x.moved) n) := by
  unfold State.dmaIssue
  rw [if_neg (by omega)]
  simp -zeta only [pick]
  extract_lets forced rs passed granted
  obtain ⟨v, p, k, same, own⟩ : ∃ v p k, granted = { s with dma := v, dmaPtr := k } ∧ (granted.chan c).chain = some { x with passed := p } := by
    obtain ⟨v, p, counted, own⟩ := grant_spec chain rs
    have passed_eq : passed = { s with dma := v } := counted
    clear_value passed
    subst passed_eq
    unfold granted
    split
    · exact ⟨v, p, s.dmaPtr, rfl, own⟩
    · exact ⟨v, p, _, rfl, own⟩
  clear_value granted
  subst same
  simp -zeta only [own, desc]
  extract_lets dst n' initiator feed
  obtain rfl : n' = n := size
  obtain ⟨data, bad, read, bytes, plain⟩ := dmaSource_spec (i := initiator) (s := ({ s with dma := v, dmaPtr := k } : State).modDma c
    (fun y => { y with nextReq := y.nextReq + 1 })) (reach.congr rfl rfl rfl) (a := d.src + x.moved) (n := n') source
  simp -zeta only [read]
  have len : data.length = n' := by rw [← List.length_map (fun p : Byte × Bool => p.1), bytes, length_read]
  have fetched : (((({ s with dma := v, dmaPtr := k } : State).modDma c (fun y => { y with nextReq := y.nextReq + 1 })).chan c).chain) =
      some { x with passed := p } := chain_modDma own fun _ => rfl
  have fits : data.length ≤ 256 - dst % 256 := len.trans_le (Nat.min_le_left _ _)
  have copied : data.map (·.1) = s.dram.read (d.src + x.moved) n' := bytes
  rw [← copied]
  refine dmaWrites_burst fetched (reach.congr rfl rfl rfl) _ ?_ _ _ _ plain fits (by rw [len]; exact target)
  rfl

end Burst

/-! ### A request within one line (R377, R380) -/

section Requests
variable {s : State} {i : Initiator} {a len : Nat}

/-- The one beat of a request within a line, as it waits at its initiator's interface. -/
def beatOf (s : State) (i : Initiator) (cls : Fin 4) (a len : Nat) (write : Bool) (b : List Byte) : FlumeBeat :=
  ⟨s.flume.nextId, true, i, s.link i, s.targetLink a, cls, a, len, write, b, [], false, s.clk.fab, 0, s.clk.fab, s.clk.fab⟩

theorem linePieces_within (nonempty : 0 < len) (within : a % 64 + len ≤ 64) : linePieces (len / 64 + 2) a len = [(a, len)] := by
  have whole : Nat.min len (64 - a % 64) = len := Nat.min_eq_left (by omega)
  rw [linePieces, if_neg (by omega)]
  simp only [whole, Nat.sub_self]
  rw [linePieces, if_pos rfl]

theorem flumeBeats_within (nonempty : 0 < len) (within : a % 64 + len ≤ 64) (cls : Fin 4) (write : Bool) (b : List Byte) :
    s.flumeBeats i cls a write len b [] = [beatOf s i cls a len write (if write then b.take len else [])] := by
  unfold State.flumeBeats
  rw [linePieces_within nonempty within]
  simp [upFrom, beatOf]

theorem readCode_of_sound {w : CodeWord} (sound : codeChk w.data = w.chk) : readCode w = (w.data, .clean) := by
  unfold readCode
  rw [sound, BitVec.xor_self]
  rfl

theorem wordBytes_length (d : BitVec 128) : (wordBytes d).length = 16 := by simp [wordBytes]

theorem flumeRequest_read (nonempty : 0 < len) (within : a % 64 + len ≤ 64) (cls : Fin 4) (words : List CodeWord) :
    s.flumeRequest i cls a false len words = { s with flume := { s.flume with
      nextId := s.flume.nextId + 1, req := { s.flume.req with wait := s.flume.req.wait ++ [beatOf s i cls a len false []] } } } := by
  have quiet : s.siteWords siteFlume [] = s := State.siteWords_clean s _ _ (by simp)
  unfold State.flumeRequest
  extract_lets rs data bad t beats
  have same : t = s := quiet
  clear_value t
  subst same
  have beat : beats = [beatOf t i cls a len false []] := flumeBeats_within nonempty within cls false _
  rw [beat]
  rfl

theorem flumeRequest_write (nonempty : 0 < len) (within : a % 64 + len ≤ 64) (cls : Fin 4) {words : List CodeWord} (aligned : a % 16 = 0)
    (whole : len = 16 * words.length) (sound : ∀ w ∈ words, codeChk w.data = w.chk) :
    s.flumeRequest i cls a true len words = { s with flume := { s.flume with
      nextId := s.flume.nextId + 1,
      req := { s.flume.req with wait := s.flume.req.wait ++ [beatOf s i cls a len true (words.flatMap (fun w => wordBytes w.data))] } } } := by
  unfold State.flumeRequest
  extract_lets rs data bad t beats
  have read : rs = words.map (fun w => (w.data, Verdict.clean)) := List.map_congr_left fun w mem => readCode_of_sound (sound w mem)
  clear_value rs
  subst read
  have given : data = words.flatMap (fun w => wordBytes w.data) := by
    unfold data
    rw [aligned, List.drop_zero, List.flatMap_map]
  have none_bad : bad = [] := by
    have none : ((words.map (fun w => (w.data, Verdict.clean))).zip (upFrom 0 (words.map (fun w => (w.data, Verdict.clean))).length)).filter
        (fun r => r.1.2.bad) = [] := List.filter_eq_nil_iff.mpr fun r mem => by
      obtain ⟨w, -, same⟩ := List.mem_map.mp (List.of_mem_zip (show (r.1, r.2) ∈ _ from mem)).1
      rw [← same]
      exact Bool.false_ne_true
    exact congrArg (List.map _) none
  have same : t = s := State.siteWords_clean s _ _ fun v mem => by
    obtain ⟨r, inside, rfl⟩ := List.mem_map.mp mem
    obtain ⟨w, -, rfl⟩ := List.mem_map.mp inside
    rfl
  clear_value t data bad
  subst same given none_bad
  have all : (words.flatMap (fun w => wordBytes w.data)).length = len := by
    rw [whole, List.length_flatMap]
    simp [wordBytes_length, Nat.mul_comm]
  have beat : beats = [beatOf t i cls a len true (words.flatMap (fun w => wordBytes w.data))] := by
    refine (flumeBeats_within nonempty within cls true _).trans ?_
    rw [if_pos rfl, List.take_take, Nat.min_self, ← all, List.take_length]
  rw [beat]
  rfl

end Requests

/-! ### A cycle with one beat (R377 to R385) -/

section Cycle
variable {s : State} {b : FlumeBeat}

theorem arbitrateNet_of_none (s : State) {n : FlumeNet} (none : n.beats = []) (isReq : Bool) : s.arbitrateNet n isReq = n := by
  simp [State.arbitrateNet, State.movable, none]

theorem returnAll_of_none (none : s.flume.rsp.beats = []) : s.returnAll = s := by
  rw [State.returnAll, none]
  rfl

/-- A cycle that leaves no beat on its way, and no beat short of a credit: the beats that wait enter. -/
theorem flumeTick_of_landed (ready : s.fnReady 8 = true) {u : State} (landed : s.landAll.returnAll = u) (requests : u.flume.req.beats = [])
    (responses : u.flume.rsp.beats = []) (waiting : u.flume.rsp.wait = []) (enter : ∀ b ∈ heads u.flume.req.wait, u.reqEnters b = true) :
    s.flumeTick = u.enterAll u.flume.req.wait State.reqEnters State.reqEnter := by
  have requests_credit : u.creditWaits u.flume.req true u.reqEnters = [] := by
    have enough : (heads u.flume.req.wait).filter (fun b => decide (b.cls ≠ 0) && !u.reqEnters b) = [] :=
      List.filter_eq_nil_iff.mpr fun b mem => by simp [enter b mem]
    rw [State.creditWaits, enough, requests]
    rfl
  have responses_credit : u.creditWaits u.flume.rsp false u.rspEnters = [] := by
    rw [State.creditWaits, waiting, responses]
    rfl
  unfold State.flumeTick
  rw [if_neg (by simp [ready]), landed]
  extract_lets here counted f t
  have counted_eq : counted = u := by
    unfold counted here
    rw [requests_credit, responses_credit]
    rfl
  have same : t = u := by
    unfold t f
    rw [counted_eq, arbitrateNet_of_none u requests, arbitrateNet_of_none u responses]
  clear_value t
  subst same
  rw [waiting]
  rfl

theorem flumeTick_waiting (ready : s.fnReady 8 = true) (wait : s.flume.req.wait = [b]) (beats : s.flume.req.beats = [])
    (waiting : s.flume.rsp.wait = []) (coming : s.flume.rsp.beats = []) (enters : s.reqEnters b = true) : s.flumeTick = s.reqEnter b := by
  have landed : s.landAll.returnAll = s := by
    rw [show s.landAll = s by rw [State.landAll, beats]; rfl, returnAll_of_none coming]
  rw [flumeTick_of_landed ready landed beats coming waiting (by simp [wait, heads, enters]), wait]
  have link : linksOf [b] = [b.src] := rfl
  simp [State.enterAll, link, heads, enters]

theorem tick_refused (ready : s.fnReady 8 = true) (wait : s.flume.req.wait = [b]) (beats : s.flume.req.beats = [])
    (waiting : s.flume.rsp.wait = []) (coming : s.flume.rsp.beats = []) (nowhere : s.region b.addr = .nowhere) : s.flumeTick =
      ({ s with flume := { s.flume with req := { s.flume.req with wait := [] } } }.flumeError b.src).answered b.src b.id true
         (List.replicate (if b.write then 0 else b.len) 0) := by
  have refused : s.routerRefuses b.cls b.addr b.len = true := by rw [State.routerRefuses, nowhere]
  rw [flumeTick_waiting ready wait beats waiting coming (by simp [State.reqEnters, refused])]
  unfold State.reqEnter
  extract_lets f
  rw [if_pos refused]
  have gone : f.req.wait.filter (fun x => x.id ≠ b.id) = [] := by
    unfold f
    simp [wait]
  rw [gone]

theorem tick_enters (ready : s.fnReady 8 = true) (wait : s.flume.req.wait = [b]) (beats : s.flume.req.beats = [])
    (waiting : s.flume.rsp.wait = []) (coming : s.flume.rsp.beats = []) (taken : s.routerRefuses b.cls b.addr b.len = false) (first : b.first = true)
    (credit : b.cls = 0 → s.creditFree b.ini (s.pointOf b.addr) = true) : s.flumeTick =
      { s with flume := { s.flume with req := { s.flume.req with wait := [], beats := [b.enter s.clk.fab] } } }.flumeAccept b.src := by
  have room : bufferRoom (s.flume.req.classesAt b 0) b.cls = true := by
    have reserved : ∀ k : Fin 4, bufferRoom [] k = true := by decide
    rw [FlumeNet.classesAt, beats]
    exact reserved b.cls
  have enters : s.reqEnters b = true := by
    unfold State.reqEnters
    by_cases a : b.cls = 0
    · simp [room, credit a]
    · simp [room, a]
  rw [flumeTick_waiting ready wait beats waiting coming enters]
  unfold State.reqEnter
  extract_lets f r t
  rw [if_neg (by simp [taken]), if_pos first]
  unfold t r f
  rw [wait, beats, List.erase_cons_head, List.nil_append]

/-- What the acceptance of a request notes leaves the memory controller, the records and the networks. -/
theorem noteAccept_spec (s : State) (b : FlumeBeat) : ∃ f : Flume, EventFrame { s with flume := f } (s.noteAccept b) ∧
    f.req = s.flume.req ∧ f.rsp = s.flume.rsp := by
  unfold State.noteAccept
  split
  · exact ⟨s.flume, .refl _, rfl, rfl⟩
  · extract_lets t f noted
    refine ⟨noted.flume, ?_, rfl, rfl⟩
    split
    · exact (State.orReg_frame noted _ _).trans (State.raise_frame _ _)
    · exact .refl noted

section Same
variable {u : State} (hdg : u.hdg = s.hdg) (mc : u.mc = s.mc) (banks : u.banks = s.banks) (cis : u.cis = s.cis)

include hdg in
theorem window_congr : u.window = s.window := by rw [State.window, State.nCh, State.chanUse, hdg, State.window, State.nCh, State.chanUse]

include hdg mc in
theorem chanOf_congr (a : Nat) : u.chanOf a = s.chanOf a := by rw [State.chanOf, State.nCh, mc, hdg, State.chanOf, State.nCh]

include banks in
theorem cfg_congr (n o k : Nat) : u.cfg n o k = s.cfg n o k := by rw [State.cfg, State.active, banks, State.cfg, State.active]

include banks in
theorem beatRequest_congr (b : FlumeBeat) : u.beatRequest b = s.beatRequest b := by
  rw [State.beatRequest, State.closeHint, cfg_congr banks, State.beatRequest, State.closeHint]

include banks cis in
theorem touchOk_congr (i : Initiator) (a : Nat) : u.touchOk i (.dram a) = s.touchOk i (.dram a) := by
  have map (o : Nat) : u.ownerMap o = s.ownerMap o := by rw [State.ownerMap, cfg_congr banks, State.ownerMap]
  simp only [State.touchOk, State.extBuf, State.mayTouch, State.buf, State.actsFor, map, cis]

end Same

theorem chanOf_lt (s : State) (a : Nat) : s.chanOf a < 32 := by
  have channels : 0 < s.nCh ∧ s.nCh ≤ 32 := by
    unfold State.nCh
    split <;> omega
  exact (Nat.mod_lt _ channels.1).trans_le channels.2

/-- A request that has come to DRAM that its initiator may touch is queued by its channel. -/
theorem flumeLand_window (beats : s.flume.req.beats = [b]) (window : b.addr < s.window) (touch : s.touchOk b.ini (.dram b.addr) = true) :
    ∃ u : State, s.flumeLand b = u.modChn (s.chanOf b.addr) (fun x => { x with queue := x.queue ++ [s.beatRequest b] }) ∧ u.mc = s.mc ∧ u.dram = s.dram ∧
      u.flume.req = { s.flume.req with beats := [] } ∧ u.flume.rsp = s.flume.rsp := by
  unfold State.flumeLand
  extract_lets f r u back
  obtain ⟨g, noted, requests, responses⟩ := noteAccept_spec { s with flume := { f with req := { f.req with beats := f.req.beats.erase b } } } b
  have hdg : u.hdg = s.hdg := noted.hdg
  have mc : u.mc = s.mc := noted.mc
  have banks : u.banks = s.banks := noted.banks
  have cis : u.cis = s.cis := noted.cis
  have flume : u.flume = g := congrArg State.flume noted.1
  have erased : s.flume.req.beats.erase b = [] := by rw [beats, List.erase_cons_head]
  have within : b.addr < u.window := by rw [window_congr hdg]; exact window
  have may : u.touchOk b.ini (.dram b.addr) = true := by rw [touchOk_congr banks cis]; exact touch
  have region : u.region b.addr = .dram b.addr := region_dram within
  refine ⟨u, ?_, mc, noted.dram, ?_, ?_⟩
  · simp only [region]
    rw [if_pos may, State.dramAccept, if_pos ⟨within, may⟩, beatRequest_congr banks]
    exact congrArg (fun n => u.modChn n _) (chanOf_congr hdg mc _)
  · rw [flume, requests]
    exact congrArg (fun l => ({ s.flume.req with beats := l } : FlumeNet)) erased
  · rw [flume, responses]

theorem tick_lands (ready : s.fnReady 8 = true) (wait : s.flume.req.wait = []) (beats : s.flume.req.beats = [b])
    (waiting : s.flume.rsp.wait = []) (coming : s.flume.rsp.beats = []) (stage : b.stage = 3) (came : b.ready ≤ s.clk.fab)
    (way : (s.pathNeeds b.ini b.addr).all s.fnReady = true) (window : b.addr < s.window) (touch : s.touchOk b.ini (.dram b.addr) = true) :
    (s.flumeTick.chn (s.chanOf b.addr)).queue = (s.chn (s.chanOf b.addr)).queue ++ [s.beatRequest b] ∧
      s.flumeTick.flume.req.beats = [] ∧ s.flumeTick.dram = s.dram := by
  have comes : s.lands b = true := by simp [State.lands, stage, came, way]
  have landing : s.landAll = s.flumeLand b := by
    simp [State.landAll, beats, comes]
  obtain ⟨u, lands, mc, dram, requests, responses⟩ := flumeLand_window beats window touch
  generalize s.beatRequest b = r at *
  have landed : s.landAll.returnAll = u.modChn (s.chanOf b.addr) (fun x => { x with queue := x.queue ++ [r] }) := by
    rw [landing, lands]
    exact returnAll_of_none ((congrArg FlumeNet.beats responses).trans coming)
  have idle : (u.modChn (s.chanOf b.addr) (fun x => { x with queue := x.queue ++ [r] })).flume.req.wait = [] :=
    (congrArg FlumeNet.wait requests).trans wait
  rw [flumeTick_of_landed ready landed (congrArg FlumeNet.beats requests) ((congrArg FlumeNet.beats responses).trans coming)
    ((congrArg FlumeNet.wait responses).trans waiting) (by rw [idle]; simp [heads]), idle]
  refine ⟨?_, congrArg FlumeNet.beats requests, dram⟩
  refine (congrArg DramChan.queue (chn_modChn_same u (chanOf_lt s b.addr) _)).trans ?_
  rw [chn_congr mc]

end Cycle

/-- Settles O30: a channel by what each of its commands leaves of its chain, a burst by its source and its writes, a cycle by where its one beat is. -/
theorem dmaAndFlume : Obligations.DmaAndFlume := by
  refine ⟨?_, ?_, ?_, ?_⟩
  · intro c h giver owner rest x b s ch
    refine ⟨fun idle queue => ?_, ?_⟩
    · obtain ⟨y, own, handle, giver', addr, hops, desc, dram⟩ := dmaStart_of_queue idle queue
      exact ⟨_, y, rfl, by rw [own], by rw [own], handle, giver', addr, hops, desc, dram⟩
    · intro s1
      refine ⟨fun chain bare running answered read => ⟨fun sound => ?_, fun refused => ?_⟩, fun chain bare running answered => ?_⟩
      · obtain ⟨y, own⟩ := dmaFetch_accepted chain bare running answered rfl read sound
        exact ⟨_, y, rfl, own⟩
      · have ends := dmaFetch_refused chain bare running answered rfl read refused
        exact ⟨_, rfl, by rw [ends], by rw [ends], by rw [ends]⟩
      · exact ⟨_, rfl, dmaExpire_fetch chain bare running answered⟩
  · intro c x d r s n
    refine ⟨fun chain desc few pick clean wf noExt none source target => ?_, fun chain desc out running taken moved last => ?_,
      fun chain out running => ?_, fun idle i => ?_⟩
    · obtain ⟨t, y, run, own, moved, copied⟩ := dmaIssue_spec chain desc few pick ⟨⟨clean, wf⟩, noExt, none⟩ rfl source target
      refine ⟨t, y, congrArg Host.Outcome.next run, own, moved, fun j lt => ?_, fun a out => copied.outside a (by rw [length_read]; exact out)⟩
      rw [copied.inside j (by rw [length_read]; exact lt), nth_read _ _ lt]
    · have ends := dmaAnswer_last chain desc out running taken moved last
      exact ⟨_, rfl, by rw [ends], by rw [ends], by rw [ends]; rfl, by rw [ends], by rw [ends]⟩
    · have ends := dmaExpire_write chain out running
      exact ⟨_, rfl, by rw [ends], by rw [ends], by rw [ends]⟩
    · refine congrArg Host.Outcome.next ?_
      unfold State.dmaAnswer
      simp only [idle]
      rfl
  · intro ini cls addr len words s a beat waits nonempty within
    exact ⟨congrArg Host.Outcome.next (flumeRequest_read nonempty within cls words), fun aligned whole sound =>
      congrArg Host.Outcome.next (flumeRequest_write nonempty within cls aligned whole sound)⟩
  · intro b f s flume ready waiting coming
    subst flume
    exact ⟨fun wait beats nowhere => tick_refused ready wait beats waiting coming nowhere,
      fun wait beats taken first credit => tick_enters ready wait beats waiting coming taken first credit,
      fun wait beats stage came way window touch => tick_lands ready wait beats waiting coming stage came way window touch⟩

end Sys2Proof.Proofs.DmaAndFlumeSteps
